-- ==== Sys2Proof/Word.lean ====
section
/-!
DEFINITION. The word types of the FX-960 (R10, R12: registers are 32 bits, memory is bytes,
little-endian) and their plainest arithmetic.
-/

namespace Sys2Proof

/-- One byte of memory, the smallest addressable unit. -/
abbrev Byte := BitVec 8
/-- A 16-bit half word: status codes, context tags, epochs. -/
abbrev Half := BitVec 16
/-- A 32-bit register word (R12). -/
abbrev Word := BitVec 32
/-- A 64-bit word: virtual addresses, fence words, the global time counter. -/
abbrev Dword := BitVec 64

/-- Bits `[hi:lo]` of a number, in the manual's notation (R10). -/
def bits (n hi lo : Nat) : Nat := (n >>> lo) % 2 ^ (hi + 1 - lo)

/-- Bit `i` of a number. -/
def bit (n i : Nat) : Bool := (n >>> i) % 2 == 1

/-- `b2n b` is 1 when `b` holds. -/
def b2n (b : Bool) : Nat := if b then 1 else 0

/-- `⌈a / b⌉`. -/
def ceilDiv (a b : Nat) : Nat := (a + b - 1) / b

end Sys2Proof
end

