-- ==== Sys2Proof/Syntax.lean ====
section
/-!
DEFINITION. The commands of the device: one constructor of `Instr` for each row of
spec/opcode_table.json, in the table's order, with the operands that the row's rule speaks of.
Operands carry what the command's sender supplies: addresses and values written, the queue and slot a
descriptor stands in, and the measurements and verdicts that reach the device from its sensors, tests
and wires.
-/

namespace Sys2Proof

/-- The fields of the common instruction layout of R129 that every FSI instruction has, with the word at
[95:64] of the 96-bit form. (DESIGN CHOICE, assumption 15.) -/
structure Args where
  len : BitVec 2
  dst : BitVec 9
  src0 : BitVec 9
  src1 : BitVec 9
  src2 : BitVec 9
  mod : BitVec 5
  rsv : Byte
  ext : Word
  deriving DecidableEq, Repr

/-- The arithmetic formats of the vector cores (R179, R185). -/
inductive NumFmt where
  | fp64 | fp32 | fp16 | bf16 | e4m3 | e5m2
  | int (width : BitVec 7) (isSigned : Bool)
  deriving DecidableEq, Repr

/-- The comparison predicates of R183. -/
inductive Pred where
  | eq | ne | lt | le | gt | ge | ord | unord
  deriving DecidableEq, Repr

/-- The operations of the VALU that the manual gives a result (R171, R179 to R185). `other` is any
operation of the catalogue that ships with the compiler (R130). `wide` is the form of a move or a bit operation on 64-bit
data (R190). -/
inductive ValuOp where
  | add (f : NumFmt) | sub (f : NumFmt) | mul (f : NumFmt) | div (f : NumFmt) | fma (f : NumFmt)
  | cmp (f : NumFmt) (p : Pred)
  | cvt (dst src : NumFmt)
  | clampInt (dst src : NumFmt)
  | mov (wide : Bool) | select (wide : Bool)
  | neg (f : NumFmt) | abs (f : NumFmt) | copysign (f : NumFmt)
  | and (wide : Bool) | or (wide : Bool) | xor (wide : Bool) | not (wide : Bool)
  | other (op : BitVec 10)
  deriving DecidableEq, Repr

/-- What the crema's SECDED finds as an instruction reads it (R192): the errors that it corrects, and the 8-byte pieces
of the cluster's crema that it cannot correct. (DESIGN CHOICE, assumption 174.) -/
structure CremaEcc where
  corrected : Word := 0
  uncorrected : List (BitVec 17) := []
  deriving DecidableEq, Repr

/-- The operand fields of an instruction that reads the crema, with what ECC finds (R129, R192). (DESIGN CHOICE,
assumptions 15, 174.) -/
structure CremaArgs extends Args where
  ecc : CremaEcc := {}
  deriving DecidableEq, Repr

/-- What ECC finds as a slice's arrays or a stack's line are read (R222, R432). (DESIGN CHOICE, assumption 174.) -/
inductive CacheEcc where
  | none | corrected | uncorrected
  deriving DecidableEq, Repr

/-- A fill that returns: its miss register, and what ECC finds in the line (R203, R222). (DESIGN CHOICE, assumption 174.) -/
structure FillArgs where
  reg : BitVec 8
  found : CacheEcc := .none
  deriving DecidableEq, Repr

/-- A lane of a port, and the symbol errors that it corrected in one millisecond, or none where it lost lock (R348).
(DESIGN CHOICE, assumption 185.) -/
structure LaneReport where
  lane : BitVec 4
  errors : Option Word := none
  deriving DecidableEq, Repr

/-- An ATS Invalidate Request: its tag, and the 4 KiB pages that it names (R509). (PRESUMED, assumption 142.) -/
structure AtsRange where
  tag : Byte
  page : BitVec 52
  pages : BitVec 52
  deriving DecidableEq, Repr

/-- The place of an access to registers: an offset in BAR0, or in BAR2 (R11, R60). -/
structure RegPlace where
  bar2 : Bool := false
  off : BitVec 26
  deriving DecidableEq, Repr

/-- The access that a request at a slice belongs to (R197, R199): a cluster's or engine's by VA, an engine's by a
partition-physical address, a host's through BAR4, another device's. (DESIGN CHOICE, assumption 175.) -/
inductive CacheSource where
  | virt (p : BitVec 4) (asid : Half) (va : Dword)
  | phys (p : BitVec 4) (pa : Dword)
  | host (fn : BitVec 4) (off : Dword)
  | inbound (p : BitVec 4) (pa : Dword)
  deriving DecidableEq, Repr

/-- What a descriptor used, measured by the engines that executed it (R79, R113): its counters since it
last lost its last cluster. (DESIGN CHOICE, assumptions 38, 149.) -/
structure Usage where
  cycles : Dword
  clusterCycles : Dword
  tensorCycles : Dword
  engineNs : Dword
  linkBytes : Dword
  deriving DecidableEq, Repr

/-- A partner's signature message as it arrives (R401): its words, the count at the start of its flit
time (R396) and the port. (DESIGN CHOICE, assumption 148.) -/
structure SigArgs where
  s0 : Dword
  s1 : Dword
  cnt : Dword
  commit : Word
  reasons : BitVec 4
  count : Dword
  port : BitVec 3
  deriving DecidableEq, Repr

/-- A TIME flit as it arrives (R386), its header's ACK, CVC and CREDITS (R352) among it, with the receiver's time base at its first bit in 1/256 ns.
(DESIGN CHOICE, assumption 148.) -/
structure TimeFlit where
  tx : Dword
  echoTx : Dword
  echoRx : Dword
  count : Dword
  srcDev : BitVec 6
  masterDev : BitVec 6
  hops : BitVec 6
  masterSerial : Dword
  arrival : Dword
  ack : BitVec 12 := 0
  cvc : BitVec 2 := 0
  credits : BitVec 12 := 0
  deriving DecidableEq, Repr

/-- What the far end of a port sends at training (R345, R473), whether a switch already holds the device's
number, and the partitions whose slots the partner refuses (R364). (DESIGN CHOICE, assumption 148.) -/
structure PeerArgs where
  mode : BitVec 2
  dev : BitVec 6
  serial : Dword
  crypt : Bool
  authentic : Bool
  numberTaken : Bool
  slotsRefused : Half
  deriving DecidableEq, Repr

/-- A COLL message of a collective as it arrives (R353, R367): its sender and target, the collective, and a
digest, or elements from an index: encodings, or images as a header and segments (R369).
(PRESUMED, assumption 52; DESIGN CHOICE, assumption 148.) -/
structure CollArgs where
  port : BitVec 3
  part : BitVec 4
  srcDev : BitVec 6
  srcPart : BitVec 4
  group : Word
  seq : Word
  digest : Option Dword
  start : Word
  vals : List Dword
  images : List (Dword × List Dword)
  deriving DecidableEq, Repr

/-- A SWAP_REQ or SWAP_ANS as it arrives (R371, R372).
(PRESUMED, assumption 52; DESIGN CHOICE, assumption 148.) -/
structure SwapArgs where
  port : BitVec 3
  request : Bool
  timeRole : Bool
  part : BitVec 4
  srcDev : BitVec 6
  srcPart : BitVec 4
  count : Dword
  at_ : Dword
  serial : Dword
  granted : Bool
  deriving DecidableEq, Repr

/-- What the power loop measures in a period (R405, R420): energies in nJ; the elastic and the deterministic
parts; the stacks' measured base power in mW and the bytes on each stack's external interface (R234); the partitions, one
bit each, whose elastic requests waited for a stack's share or the link share; the sensors' temperatures in quarters of a
degree; and the energy of queues.
(DESIGN CHOICE, assumption 149.) -/
structure PowerSample where
  late : Bool
  compute : Word
  memBase : Word
  ext : List Word
  link : Word
  pkg : Word
  elastic : Word
  detCompute : Word
  detMemory : Word
  detLink : Word
  waitMem : Half
  waitLink : Half
  temps : List (BitVec 10)
  energy : List (BitVec 10 × Word)
  unattributed : Word
  deriving DecidableEq, Repr

/-- What the tests of a boot find (R481): the steps that fail, one bit each; a step that never ends; failing
physical clusters and compression lanes; the context engines that are good; the delays above the factory's by
group in ps; and the PCIe link's speed and width. (DESIGN CHOICE, assumption 98.) -/
structure BootSample where
  fails : Word
  hang : Option (BitVec 5)
  clusters : List (BitVec 7)
  lanes : BitVec 4
  engines : BitVec 6
  drift : List Byte
  speed : BitVec 3
  width : BitVec 5
  deriving DecidableEq, Repr

/-- What the work of a mailbox operation finds (R491, R496): whether its flash writes verify, the stacks that do
not train, the logical clusters, cached ways and unused lanes (port × 16 + lane) that fail a test, and the
delays above the factory's by group in ps. -/
structure MgtSample where
  flashOk : Bool
  untrained : BitVec 6
  clusters : List (BitVec 7)
  ways : List (BitVec 4)
  lanes : List (BitVec 8)
  drift : List Byte
  deriving DecidableEq, Repr

/-- A link of PCIe as it comes up (R526): its speed and its lanes. -/
structure LinkUp where
  speed : BitVec 3
  width : BitVec 5
  deriving DecidableEq, Repr

/-- What a configuration write changes (R502, R504, R509): a function's Bus Master Enable, D3hot, ATS, MSI-X
enable and function mask, or, in the physical function, a BAR4 size as a power of 2, Max Payload Size, Max Read
Request Size, ASPM L1 and the completion timeout range. -/
inductive CfgItem where
  | busMaster | d3hot | ats | msixEnable | msixMask | bar4Size | vfBar4Size | maxPayload | maxRead | aspmL1 | timeout
  deriving DecidableEq, Repr

/-- Every command of the table, in its order. -/
inductive Instr where
  /-- DB_TAIL_WRITE (R61). -/
  | dbTailWrite (fn : BitVec 4) (page : BitVec 6) (val : Word)
  /-- CPL_HEAD_WRITE (R62). -/
  | cplHeadWrite (fn : BitVec 4) (page : BitVec 6) (val : Word)
  /-- DESCRIPTOR_FETCH (R64). -/
  | descriptorFetch (q : BitVec 10)
  /-- DESCRIPTOR_BEGIN (R65). -/
  | descriptorBegin (q : BitVec 10)
  /-- DESCRIPTOR_COMPLETE (R80). -/
  | descriptorComplete (q : BitVec 10) (slot : BitVec 6) (u : Usage)
  /-- COALESCE_TIMEOUT (R89). -/
  | coalesceTimeout (q : BitVec 10)
  /-- NOP (R75). -/
  | nop (q : BitVec 10) (slot : BitVec 6)
  /-- DISPATCH (R124). -/
  | dispatch (q : BitVec 10) (slot : BitVec 6)
  /-- DRAW (R271). -/
  | draw (q : BitVec 10) (slot : BitVec 6)
  /-- COPY (R76). -/
  | copy (q : BitVec 10) (slot : BitVec 6)
  /-- FILL (R76). -/
  | fill (q : BitVec 10) (slot : BitVec 6)
  /-- FENCE_SIGNAL (R101). -/
  | fenceSignal (q : BitVec 10) (slot : BitVec 6)
  /-- FENCE_WAIT (R104). -/
  | fenceWait (q : BitVec 10) (slot : BitVec 6)
  /-- FENCE_WAKE (R104). -/
  | fenceWake (q : BitVec 10) (slot : BitVec 6)
  /-- SEM_ACQUIRE (R106). -/
  | semAcquire (q : BitVec 10) (slot : BitVec 6)
  /-- SEM_RETRY (R107). -/
  | semRetry (q : BitVec 10) (slot : BitVec 6)
  /-- SEM_RELEASE (R106). -/
  | semRelease (q : BitVec 10) (slot : BitVec 6)
  /-- TIMESTAMP (R76). -/
  | timestamp (q : BitVec 10) (slot : BitVec 6)
  /-- STEP (R265). -/
  | step (q : BitVec 10) (slot : BitVec 6)
  /-- SEQ_JOIN (R257). -/
  | seqJoin (q : BitVec 10) (slot : BitVec 6)
  /-- SEQ_LEAVE (R259). -/
  | seqLeave (q : BitVec 10) (slot : BitVec 6)
  /-- SEQ_PARK (R259). -/
  | seqPark (q : BitVec 10) (slot : BitVec 6)
  /-- SLOT_RELEASE (R262). -/
  | slotRelease (p : BitVec 4) (bs : BitVec 12)
  /-- CTX_SCAN (R241). -/
  | ctxScan (q : BitVec 10) (slot : BitVec 6)
  /-- CTX_GATHER (R247). -/
  | ctxGather (q : BitVec 10) (slot : BitVec 6)
  /-- CTX_APPEND (R239). -/
  | ctxAppend (q : BitVec 10) (slot : BitVec 6)
  /-- ENGINE_FRAME_SLOT (R233), with the lines of rows read in the slot in which ECC corrected an error (R222). -/
  | engineFrameSlot (stack : BitVec 3) (corrected : Half)
  /-- COMPRESS (R337). -/
  | compress (q : BitVec 10) (slot : BitVec 6) (mismatch : Bool)
  /-- DECOMPRESS (R340). -/
  | decompress (q : BitVec 10) (slot : BitVec 6)
  /-- COMPRESSION_LANE_START (R328). -/
  | compressionLaneStart
  /-- COLLECTIVE (R367). -/
  | collective (q : BitVec 10) (slot : BitVec 6)
  /-- COLLECTIVE_TIMEOUT (R370). -/
  | collectiveTimeout (q : BitVec 10) (slot : BitVec 6)
  /-- REMOTE_COPY (R361). -/
  | remoteCopy (q : BitVec 10) (slot : BitVec 6)
  /-- DISPLAY_FLIP (R315). -/
  | displayFlip (q : BitVec 10) (slot : BitVec 6)
  /-- PROTECTED_FLIP (R315). -/
  | protectedFlip (q : BitVec 10) (slot : BitVec 6)
  /-- LAUNCH_AT (R391). -/
  | launchAt (q : BitVec 10) (slot : BitVec 6)
  /-- LAUNCH_RELEASE (R391). -/
  | launchRelease (q : BitVec 10) (slot : BitVec 6)
  /-- CHECKPOINT (R142). -/
  | checkpoint (q : BitVec 10) (slot : BitVec 6)
  /-- EVENT_SET (R110). -/
  | eventSet (q : BitVec 10) (slot : BitVec 6)
  /-- EVENT_RESET (R110). -/
  | eventReset (q : BitVec 10) (slot : BitVec 6)
  /-- EVENT_WAIT (R110). -/
  | eventWait (q : BitVec 10) (slot : BitVec 6)
  /-- PT_INVALIDATE (R51). -/
  | ptInvalidate (q : BitVec 10) (slot : BitVec 6)
  /-- REGULATOR_SET (R42). -/
  | regulatorSet (slot : BitVec 6)
  /-- PARTITION_CREATE (R34). -/
  | partitionCreate (slot : BitVec 6) (refused : Byte)
  /-- PARTITION_SEAL (R53). -/
  | partitionSeal (slot : BitVec 6)
  /-- PARTITION_RESIZE (R532). -/
  | partitionResize (slot : BitVec 6)
  /-- PARTITION_CTL_RESET (R33). -/
  | partitionCtlReset (slot : BitVec 6)
  /-- PARTITION_DESTROY (R33). -/
  | partitionDestroy (slot : BitVec 6)
  /-- MEM_ACCOUNT (R115). -/
  | memAccount (q : BitVec 10) (slot : BitVec 6)
  /-- QUEUE_CREATE (R78). -/
  | queueCreate (q : BitVec 10) (slot : BitVec 6)
  /-- QUEUE_DESTROY (R78). -/
  | queueDestroy (q : BitVec 10) (slot : BitVec 6)
  /-- QUEUE_RESUME (R78). -/
  | queueResume (q : BitVec 10) (slot : BitVec 6)
  /-- QUEUE_FLUSH (R78). -/
  | queueFlush (q : BitVec 10) (slot : BitVec 6)
  /-- QUEUE_MODIFY (R78). -/
  | queueModify (q : BitVec 10) (slot : BitVec 6)
  /-- CTX_QUERY (R114). -/
  | ctxQuery (q : BitVec 10) (slot : BitVec 6) (u : Usage)
  /-- SLICE_EXPIRY (R91). -/
  | sliceExpiry (p : BitVec 4)
  /-- PREEMPT_STALLED (R100). -/
  | preemptStalled (q : BitVec 10)
  /-- DISPLAY_LATE (R95). -/
  | displayLate (p : BitVec 4) (lateNs : Word)
  /-- WORKGROUP_LAUNCH (R126). -/
  | workgroupLaunch (q : BitVec 10) (slot : BitVec 6) (c : BitVec 7)
  /-- TILE_ASSIGN (R293). -/
  | tileAssign (q : BitVec 10) (slot : BitVec 6) (c : BitVec 7)
  /-- TILE_WRITE_OUT (R294). -/
  | tileWriteOut (c : BitVec 7) (wg : Word) (cycles : Word)
  /-- PRIMITIVE_SETUP (R284). -/
  | primitiveSetup (q : BitVec 10) (slot : BitVec 6)
  /-- LD (R132). -/
  | ld (c : BitVec 7) (w : BitVec 6) (size : BitVec 3) (atop : BitVec 3) (a : Args)
  /-- ST (R132). -/
  | st (c : BitVec 7) (w : BitVec 6) (size : BitVec 3) (atop : BitVec 3) (a : Args)
  /-- ATOM (R132). -/
  | atom (c : BitVec 7) (w : BitVec 6) (size : BitVec 3) (atop : BitVec 3) (a : Args)
  /-- LDC (R194). -/
  | ldc (c : BitVec 7) (w : BitVec 6) (size : BitVec 3) (atop : BitVec 3) (a : CremaArgs)
  /-- STC (R194). -/
  | stc (c : BitVec 7) (w : BitVec 6) (size : BitVec 3) (atop : BitVec 3) (a : Args)
  /-- ATOMC (R194). -/
  | atomc (c : BitVec 7) (w : BitVec 6) (size : BitVec 3) (atop : BitVec 3) (a : CremaArgs)
  /-- LDS (R132). -/
  | lds (c : BitVec 7) (w : BitVec 6) (size : BitVec 3) (atop : BitVec 3) (a : Args)
  /-- FENCE (R134). -/
  | fence (c : BitVec 7) (w : BitVec 6) (a : Args)
  /-- BAR_SYNC (R135). -/
  | barSync (c : BitVec 7) (w : BitVec 6) (a : Args)
  /-- BARRIER_PASS (R135). -/
  | barrierPass (c : BitVec 7) (wg : Word)
  /-- WAIT_MEM (R134). -/
  | waitMem (c : BitVec 7) (w : BitVec 6) (a : Args)
  /-- GTC_READ (R134). -/
  | gtcRead (c : BitVec 7) (w : BitVec 6) (a : Args)
  /-- END (R128). -/
  | endWave (c : BitVec 7) (w : BitVec 6) (a : Args)
  /-- CTRL_BRANCH (R130). -/
  | ctrlBranch (c : BitVec 7) (w : BitVec 6) (op : BitVec 10) (a : Args)
  /-- SALU_OP (R130). -/
  | saluOp (c : BitVec 7) (w : BitVec 6) (op : BitVec 10) (a : Args)
  /-- VALU_OP (R179). -/
  | valuOp (c : BitVec 7) (w : BitVec 6) (op : ValuOp) (a : Args)
  /-- MIN (R184). -/
  | min (c : BitVec 7) (w : BitVec 6) (f : NumFmt) (a : Args)
  /-- MAX (R184). -/
  | max (c : BitVec 7) (w : BitVec 6) (f : NumFmt) (a : Args)
  /-- QMX (R187). -/
  | qmx (c : BitVec 7) (w : BitVec 6) (a : Args)
  /-- DQMX (R189). -/
  | dqmx (c : BitVec 7) (w : BitVec 6) (a : Args)
  /-- RCP (R139). -/
  | rcp (c : BitVec 7) (w : BitVec 6) (f : NumFmt) (a : Args)
  /-- SQRT (R139). -/
  | sqrt (c : BitVec 7) (w : BitVec 6) (f : NumFmt) (a : Args)
  /-- RSQRT (R139). -/
  | rsqrt (c : BitVec 7) (w : BitVec 6) (f : NumFmt) (a : Args)
  /-- EXP2 (R139). -/
  | exp2 (c : BitVec 7) (w : BitVec 6) (f : NumFmt) (a : Args)
  /-- LOG2 (R139). -/
  | log2 (c : BitVec 7) (w : BitVec 6) (f : NumFmt) (a : Args)
  /-- SINPI (R139). -/
  | sinpi (c : BitVec 7) (w : BitVec 6) (f : NumFmt) (a : Args)
  /-- COSPI (R139). -/
  | cospi (c : BitVec 7) (w : BitVec 6) (f : NumFmt) (a : Args)
  /-- TANH (R139). -/
  | tanh (c : BitVec 7) (w : BitVec 6) (f : NumFmt) (a : Args)
  /-- ERF (R139). -/
  | erf (c : BitVec 7) (w : BitVec 6) (f : NumFmt) (a : Args)
  /-- TMMA (R149). -/
  | tmma (c : BitVec 7) (w : BitVec 6) (tile : BitVec 3) (opRsv : BitVec 3) (a : CremaArgs)
  /-- TZERO (R166). -/
  | tzero (c : BitVec 7) (w : BitVec 6) (tile : BitVec 3) (opRsv : BitVec 3) (a : Args)
  /-- TDRAIN (R155). -/
  | tdrain (c : BitVec 7) (w : BitVec 6) (tile : BitVec 3) (opRsv : BitVec 3) (a : Args)
  /-- TSTORE_RAW (R166). -/
  | tstoreRaw (c : BitVec 7) (w : BitVec 6) (tile : BitVec 3) (opRsv : BitVec 3) (a : Args)
  /-- TACC_RAW (R166). -/
  | taccRaw (c : BitVec 7) (w : BitVec 6) (tile : BitVec 3) (opRsv : BitVec 3) (a : CremaArgs)
  /-- TSTAT (R166). -/
  | tstat (c : BitVec 7) (w : BitVec 6) (tile : BitVec 3) (opRsv : BitVec 3) (a : Args)
  /-- DRAIN_PATH_START (R168). -/
  | drainPathStart (c : BitVec 7)
  /-- CACHE_REQUEST (R200). -/
  | cacheRequest (source : CacheSource) (kind : BitVec 2) (ecc : CacheEcc)
  /-- MISS_FILL (R203). -/
  | missFill (slice : BitVec 5) (fill : FillArgs)
  /-- MISS_QUEUE_GRANT (R204). -/
  | missQueueGrant (slice : BitVec 5) (cycles : Word)
  /-- REFRESH_WINDOW (R220). -/
  | refreshWindow (stack : BitVec 3) (g : BitVec 4)
  /-- RFM_EXTRA_WINDOW (R221). -/
  | rfmExtraWindow (stack : BitVec 3) (g : BitVec 4) (delayed : List (BitVec 10 × BitVec 6))
  /-- VBLANK_LATCH (R316). -/
  | vblankLatch (n : BitVec 1)
  /-- FLIP_RELEASE (R317). -/
  | flipRelease (n : BitVec 1)
  /-- SCANOUT_LINE (R320). -/
  | scanoutLine (n : BitVec 1) (late : List (BitVec 3 × Half))
  /-- DISPLAY_HOTPLUG (R308). -/
  | displayHotplug (n : BitVec 1) (hpd : Bool)
  /-- TIME_FLIT_SEND (R386). -/
  | timeFlitSend (port : BitVec 3) (tx : Dword)
  /-- TIME_FLIT_RECEIVE (R387). -/
  | timeFlitReceive (port : BitVec 3) (f : TimeFlit)
  /-- GTC_COMPARE (R390). -/
  | gtcCompare (differs : Bool)
  /-- GTC_PPS_EDGE (R389). -/
  | gtcPpsEdge
  /-- ROLE_CHANGE (R371). -/
  | roleChange
  /-- SWAP_MESSAGE (R372). -/
  | swapMessage (m : SwapArgs)
  /-- PORT_TRAINING_DONE (R346). -/
  | portTrainingDone (port : BitVec 3) (w : PeerArgs)
  /-- PORT_TRAINING_TIMEOUT (R346). -/
  | portTrainingTimeout (port : BitVec 3)
  /-- PORT_RETRAIN_TIMER (R346). -/
  | portRetrainTimer (port : BitVec 3)
  /-- PORT_DOWN (R362). -/
  | portDown (port : BitVec 3)
  /-- LANE_FAULT (R348). -/
  | laneFault (port : BitVec 3) (r : LaneReport)
  /-- FLIT_RECEIVE (R352). -/
  | flitReceive (port : BitVec 3) (flit : List Byte) (lost : Bool) (ce : Half) (count : Dword)
  /-- RETRY_FLIT_RECEIVE (R352). -/
  | retryFlitReceive (port : BitVec 3) (flit : List Byte) (lost : Bool)
  /-- RETRY_TIMEOUT (R352). -/
  | retryTimeout (port : BitVec 3)
  /-- INBOUND_REQUEST (R359). -/
  | inboundRequest (port : BitVec 3) (det : Bool)
  /-- REMOTE_RESPONSE (R358). -/
  | remoteResponse (port : Option (BitVec 3)) (det : Bool)
  /-- COLL_MESSAGE (R367). -/
  | collMessage (m : Option CollArgs)
  /-- SIGNATURE_MESSAGE (R401). -/
  | signatureMessage (q : BitVec 10) (m : Option SigArgs)
  /-- SHIFT_REPORT_SEND (R421). -/
  | shiftReportSend (t : Word)
  /-- SHIFT_REPORT_RECEIVE (R421). -/
  | shiftReportReceive (port : BitVec 3) (dev : BitVec 6) (slot : BitVec 128)
  /-- SHIFT_EVALUATE (R422). -/
  | shiftEvaluate
  /-- INTERFERENCE_WINDOW (R116). -/
  | interferenceWindow (p : BitVec 4) (a : Dword) (w : Dword) (win : Half)
  /-- POWER_PERIOD (R405). -/
  | powerPeriod (w : PowerSample)
  /-- SLOPE_WINDOW (R413). -/
  | slopeWindow (cl : BitVec 7) (want : BitVec 7)
  /-- DROOP_DETECT (R415). -/
  | droopDetect (g : BitVec 4)
  /-- DROOP_RECOVER (R415). -/
  | droopRecover (g : BitVec 4)
  /-- THROTTLE_N_ASSERT (R417). -/
  | throttleNAssert
  /-- THROTTLE_N_RELEASE (R417). -/
  | throttleNRelease
  /-- GROUP_DECAF_ENTRY (R424). -/
  | groupDecafEntry (g : BitVec 4)
  /-- GROUP_WAKE (R426). -/
  | groupWake (g : BitVec 4)
  /-- DEVICE_WAKE (R425). -/
  | deviceWake
  /-- DECAF_ENTRY_DONE (R427). -/
  | decafEntryDone (g : Option (BitVec 4))
  /-- BAR4_ACCESS (R508). -/
  | bar4Access (fn : BitVec 4) (off : Dword) (w : Option (List Byte)) (n : Half)
  /-- HOST_COMPLETION (R509). -/
  | hostCompletion (tag : Half) (outcome : BitVec 2) (bytes : List Byte)
  /-- ATS_INVALIDATE (R509). -/
  | atsInvalidate (fn : BitVec 4) (r : AtsRange)
  /-- HOT_RESET (R510). -/
  | hotReset (down : Bool) (up : Option LinkUp)
  /-- VF_ENABLE_CHANGE (R510). -/
  | vfEnableChange (on : Bool) (n : BitVec 4)
  /-- FLR (R511). -/
  | flr (p : BitVec 4)
  /-- PARTITION_RESET (R446). -/
  | partitionReset (p : BitVec 4)
  /-- TRANSFER_STOP_TIMEOUT (R447). -/
  | transferStopTimeout (p : BitVec 4)
  /-- PARTITION_RESET_DONE (R448). -/
  | partitionResetDone (p : BitVec 4)
  /-- CLUSTER_FAULT (R434). -/
  | clusterFault (cl : BitVec 7)
  /-- EPOCH_FENCE_DONE (R143). -/
  | epochFenceDone (cl : BitVec 7) (dropped : Word)
  /-- SPARE_ASSIGN (R434). -/
  | spareAssign (cl : BitVec 7)
  /-- SPARE_READY (R434). -/
  | spareReady (cl : BitVec 7)
  /-- DIE_DECLARED_FAILED (R437). -/
  | dieDeclaredFailed (stack : BitVec 3) (g : BitVec 4)
  /-- UCIE_MODULE_FAULT (R437). -/
  | ucieModuleFault (m : BitVec 3)
  /-- CACHE_WAY_FAULT (R437). -/
  | cacheWayFault (w : BitVec 4)
  /-- CROSSING_FAULT (R399). -/
  | crossingFault (index : BitVec 7) (p : BitVec 4)
  /-- TEST_SLICE_START (R442). -/
  | testSliceStart (cl : BitVec 7)
  /-- TEST_SLICE_END (R442). -/
  | testSliceEnd (cl : BitVec 7) (pass : Bool)
  /-- BARISTA_FAILURE (R453). -/
  | baristaFailure
  /-- BARISTA_RESET_ATTEMPT (R455). -/
  | baristaResetAttempt (beats : Bool)
  /-- BARISTA_RESTART (R488). -/
  | baristaRestart
  /-- SUPPLY_FAULT (R519). -/
  | supplyFault (rail : BitVec 4)
  /-- VDD_AON_LOSS (R519). -/
  | vddAonLoss
  /-- PERST_N_ASSERT (R523). -/
  | perstNAssert
  /-- BOOT (R481). -/
  | boot (w : BootSample)
  /-- BOOT_STEP_TIMEOUT (R481). -/
  | bootStepTimeout (w : BootSample)
  /-- INTERNAL_REBOOT (R485). -/
  | internalReboot (w : BootSample)
  /-- ROLLBACK_BURN (R464). -/
  | rollbackBurn (fuses : BitVec 3)
  /-- OP_HOUR (R496). -/
  | opHour
  /-- AUTO_AGE_MEASURE (R496). -/
  | autoAgeMeasure (drift : List Byte)
  /-- SETPOINT_APPLY (R498). -/
  | setpointApply (g : BitVec 4)
  /-- KRING_CTL_WRITE (R83). -/
  | kringCtlWrite (p : BitVec 4) (val : Word)
  /-- EVRING_CTL_WRITE (R83). -/
  | evringCtlWrite (p : BitVec 4) (val : Word)
  /-- EVRING_HEAD_WRITE (R85). -/
  | evringHeadWrite (p : BitVec 4) (val : Word)
  /-- EVT_CFG_WRITE (R119). -/
  | evtCfgWrite (n : Byte) (val : Word)
  /-- BATCH_RANGE_WRITE (R268). -/
  | batchRangeWrite (p : BitVec 4) (val : Word)
  /-- BATCH_TOKMAX_WRITE (R268). -/
  | batchTokmaxWrite (p : BitVec 4) (val : Word)
  /-- CTX_POOL_PUSH (R230). -/
  | ctxPoolPush (p : BitVec 4) (val : Word)
  /-- CTX_NEXT_DET_WRITE (R235). -/
  | ctxNextDetWrite (val : Word)
  /-- SC_WAYOFF_WRITE (R209). -/
  | scWayoffWrite (val : Word)
  /-- MAP_FORCE (R383). -/
  | mapForce (val : Word)
  /-- GTC_SET (R389). -/
  | gtcSet (val : Word)
  /-- RESYNC (R389). -/
  | resync
  /-- GTC_LO_READ (R403). -/
  | gtcLoRead (page : Option (BitVec 4))
  /-- TSWAP_GO (R371). -/
  | tswapGo
  /-- PSWAP_GO (R371). -/
  | pswapGo (p : BitVec 4)
  /-- PORT_MODE_WRITE (R346). -/
  | portModeWrite (port : BitVec 3) (mode : BitVec 2)
  /-- LANE_LOAN (R349). -/
  | laneLoan (port : BitVec 3) (on : Bool) (lane : BitVec 4) (failed : Bool)
  /-- PIPE_ENABLE_WRITE (R318). -/
  | pipeEnableWrite (n : BitVec 1) (on : Bool)
  /-- PIPE_OWNER_WRITE (R318). -/
  | pipeOwnerWrite (n : BitVec 1) (owner : BitVec 4)
  /-- PWR_DEVSTATE_WRITE (R424). -/
  | pwrDevstateWrite (req : Bool)
  /-- SHIFT_EN_CLEAR (R422). -/
  | shiftEnClear
  /-- RELEASE (R450). -/
  | release
  /-- FORCE (R450). -/
  | force
  /-- RETRY (R455). -/
  | retry
  /-- HEARTBEAT (R451). -/
  | heartbeat (val : Word)
  /-- SEC_DBG_CHAL (R476). -/
  | secDbgChal (level : BitVec 2)
  /-- SEC_DBG_SUBMIT (R476). -/
  | secDbgSubmit (level : BitVec 2)
  /-- SEC_LOCK_SET (R477). -/
  | secLockSet
  /-- MSIX_UNMASK (R87). -/
  | msixUnmask (fn : BitVec 4) (v : BitVec 11)
  /-- COUNTER_READ_CLEAR (R11). -/
  | counterReadClear (fn : BitVec 4) (place : RegPlace) (size : BitVec 4)
  /-- REGISTER_WRITE (R11). -/
  | registerWrite (fn : BitVec 4) (place : RegPlace) (size : BitVec 4) (val : Dword)
  /-- INFO (R491). -/
  | info
  /-- LEDGER_READ (R491). -/
  | ledgerRead
  /-- LEDGER_RESET (R491). -/
  | ledgerReset
  /-- RESCUE (R491). -/
  | rescue
  /-- FW_BEGIN (R493). -/
  | fwBegin
  /-- FW_DATA (R493). -/
  | fwData
  /-- FW_END (R493). -/
  | fwEnd
  /-- FW_ACTIVATE (R493). -/
  | fwActivate
  /-- FW_CANCEL (R491). -/
  | fwCancel
  /-- CAL_WRITE (R495). -/
  | calWrite
  /-- CAL_EXPORT (R495). -/
  | calExport
  /-- CAL_IMPORT (R495). -/
  | calImport
  /-- MEM_RETRAIN (R491). -/
  | memRetrain
  /-- TEST_FULL (R491). -/
  | testFull
  /-- AGE_MEASURE (R496). -/
  | ageMeasure
  /-- AGE_REPLAN (R497). -/
  | ageReplan
  /-- PROVISION (R491). -/
  | provision
  /-- ABORT (R492). -/
  | abort
  /-- GET_VERSION (R466). -/
  | getVersion
  /-- GET_CAPABILITIES (R466). -/
  | getCapabilities
  /-- NEGOTIATE_ALGORITHMS (R466). -/
  | negotiateAlgorithms (offered : Bool)
  /-- GET_DIGESTS (R466). -/
  | getDigests
  /-- GET_CERTIFICATE (R466). -/
  | getCertificate (slot : BitVec 3) (off : Half) (len : Half)
  /-- CHALLENGE (R466). -/
  | challenge (slot : BitVec 3) (nonce : List Byte)
  /-- GET_MEASUREMENTS (R467). -/
  | getMeasurements (index : Byte) (sign : Bool) (nonce : List Byte)
  /-- DOE_ABORT (R468). -/
  | doeAbort
  /-- SET_ENDPOINT_ID (R499). -/
  | setEndpointId (eid : Byte)
  /-- GET_ENDPOINT_ID (R499). -/
  | getEndpointId
  /-- GET_MCTP_VERSION_SUPPORT (R499). -/
  | getMctpVersionSupport
  /-- GET_MESSAGE_TYPE_SUPPORT (R499). -/
  | getMessageTypeSupport
  /-- GETTID (R499). -/
  | gettid
  /-- GETPLDMVERSION (R499). -/
  | getpldmversion
  /-- GETPLDMTYPES (R499). -/
  | getpldmtypes
  /-- GETPLDMCOMMANDS (R499). -/
  | getpldmcommands
  /-- GETPDR (R499). -/
  | getpdr (handle : Word)
  /-- GETSENSORREADING (R499). -/
  | getsensorreading (id : Half)
  /-- GETSTATESENSORREADINGS (R499). -/
  | getstatesensorreadings (id : Half)
  /-- QUERYDEVICEIDENTIFIERS (R494). -/
  | querydeviceidentifiers
  /-- GETFIRMWAREPARAMETERS (R494). -/
  | getfirmwareparameters
  /-- REQUESTUPDATE (R494). -/
  | requestupdate
  /-- PASSCOMPONENTTABLE (R494). -/
  | passcomponenttable (last : Bool)
  /-- UPDATECOMPONENT (R494). -/
  | updatecomponent (typ : BitVec 2)
  /-- REQUESTFIRMWAREDATA (R494). -/
  | requestfirmwaredata (typ : BitVec 2) (offset : Word) (piece : List Byte)
  /-- TRANSFERCOMPLETE (R494). -/
  | transfercomplete (ok : Bool)
  /-- VERIFYCOMPLETE (R494). -/
  | verifycomplete
  /-- APPLYCOMPLETE (R494). -/
  | applycomplete (ok : Bool)
  /-- ACTIVATEFIRMWARE (R494). -/
  | activatefirmware (selfContained : Bool)
  /-- GETSTATUS (R494). -/
  | getstatus
  /-- CANCELUPDATECOMPONENT (R494). -/
  | cancelupdatecomponent
  /-- CANCELUPDATE (R494). -/
  | cancelupdate
  /-- TOKEN_BUCKET_FILL (R42). -/
  | tokenBucketFill (p : BitVec 4) (ns : Word) (which : BitVec 2) (n : Word)
  /-- STACK_SCRUB (R224). -/
  | stackScrub (line : BitVec 32) (found : BitVec 2)
  /-- SHARED_UNIT_FAULT (R437). -/
  | sharedUnitFault (kind : BitVec 4) (index : BitVec 5)
  /-- COMPRESSION_LANE_RETURN (R338). -/
  | compressionLaneReturn (lane : BitVec 2)
  /-- LANE_SWITCHOVER_DONE (R348). -/
  | laneSwitchoverDone (port : BitVec 3)
  /-- WAY_MODE_CHANGE_DONE (R209). -/
  | wayModeChangeDone
  /-- DECAF_WAKE_DONE (R425). -/
  | decafWakeDone (g : Option (BitVec 4)) (stall : Word)
  /-- FAR_END_CHANGE (R346). -/
  | farEndChange (port : BitVec 3)
  /-- SWAP_DEADLINE (R371). -/
  | swapDeadline
  /-- PARTNER_RESETTING (R445). -/
  | partnerResetting (dev : BitVec 6) (part : BitVec 4)
  /-- DISPLAY_LINK_TRAINED (R308), with the lanes and the rate that training came to. -/
  | displayLinkTrained (n : BitVec 1) (lanes rate : BitVec 3)
  /-- MGT_DONE (R489). -/
  | mgtDone (w : MgtSample)
  /-- POWER_UP (R523). -/
  | powerUp
  /-- PCIE_COMPLETION_TIMEOUT (R509). -/
  | pcieCompletionTimeout (tag : Half)
  /-- FLIT_TIME (R363). -/
  | flitTime (port : BitVec 3)
  /-- CONFIG_SPACE_WRITE (R502). -/
  | configSpaceWrite (fn : BitVec 4) (item : CfgItem) (val : Word)
  deriving DecidableEq, Repr

end Sys2Proof
end

