-- ==== Sys2Proof/Decode.lean ====
section
/-!
DEFINITION. The command a table word spells. No row of spec/opcode_table.json gives its command any bits:
a command reaches the device as a register access, a descriptor, a flit, a pin or a measured event, each
decoded by its own family (descriptors: Machine/Queues.lean, R67; wave instructions:
Machine/Operands.lean, R129). So no word of the table spells a command.
-/

namespace Sys2Proof

/-- The command spelt by a word in the table's bit numbering: none, because no row gives bits.
(DESIGN CHOICE, assumption 4.) -/
def decodeTableWord (_nbits _w : Nat) : Option Instr := none

end Sys2Proof
end

