-- ==== Sys2Proof/Config.lean ====
section
/-!
DEFINITION. The values that the manual leaves open. Each is an opaque constant: nothing can evaluate
it or prove a value of it, so every claim holds whatever it is. `freeNat` gives a fresh value for each
step (its first argument is the step counter held in the state).
-/

namespace Sys2Proof.Config

/-- A fresh free value of step `n`; the second argument tells apart the free values of one step.
(DESIGN CHOICE, assumption 7.) -/
opaque freeNat (n salt : Nat) : Nat

/-- R40: what a byte that nothing has written since its key was issued reads as, by key generation and
device-physical address. (DESIGN CHOICE, assumption 9.) -/
opaque unwritten (gen addr : Nat) : Byte

/-- R139, R140: which of the values within its bound the SFU result of a function on an FP32 encoding is, where the manual
gives only the bound; a fixed function of the input and of the table set's version. (DESIGN CHOICE, assumption 20.) -/
opaque sfu (table fn x : Nat) : Word

/-- R130: results of operations of the SALU, VALU and CTRL catalogues, which ship with the compiler's
reference and are not in the manual: by class, operation and operand values. (DESIGN CHOICE, assumption 16.) -/
opaque catalogue (cls op a b c : Nat) : Nat

/-- R131: the upper half of a 64-bit source that names no register, by its low half; the spec widens none.
(DESIGN CHOICE, assumption 168.) -/
opaque wideHalf (low : Nat) : Nat

/-- R130: what a register holds after a per-lane result is written to a register of the whole wave: a free function of the
lanes' results. (DESIGN CHOICE, assumption 168.) -/
opaque gathered (results : List (Nat × Nat)) : Nat

/-- R130: what a lane of a vector register holds after a result of the whole wave is written to it: a free function of the
result, the lane and what the lane held. (DESIGN CHOICE, assumption 168.) -/
opaque spread (result lane old : Nat) : Nat

/-- R113: what a descriptor has used, by counter offset, when it loses its last cluster; `n` tells losses
apart. (DESIGN CHOICE, assumption 38.) -/
opaque usedSoFar (n counter : Nat) : Nat

/-- R98: the device's check word over the other bytes of a save record. (DESIGN CHOICE, assumption 66.) -/
opaque saveCheck (record : Nat) : Word

/-- R98: the device-private progress state of a save record. (DESIGN CHOICE, assumption 66.) -/
opaque saveState (index next done : Nat) : Nat

/-- R337: the code lengths of a dynamic-Huffman block of DEFLATE, from its tokens: the literal and length alphabet, then the
distances; the tables' construction ships with the reference model. Tokens are literals below 256, or 256 + length +
1024 × distance. (DESIGN CHOICE, assumption 61.) -/
opaque dynLengths (tokens : List Nat) : List Nat × List Nat

/-- R337: those lengths as run-length symbols with their repeat counts, and the code lengths of these symbols.
(DESIGN CHOICE, assumption 61.) -/
opaque dynRuns (lens : List Nat) : List (Nat × Nat)
/-- DESIGN CHOICE, assumption 61. -/
opaque dynRunLengths (runs : List (Nat × Nat)) : List Nat

/-- R337: the literals section of a compressed Zstandard block, from its literals. (DESIGN CHOICE, assumption 61.) -/
opaque zstdLiterals (lits : List Nat) : List Byte

/-- R337: the compression modes, tables and bit stream of a Zstandard sequences section, from each sequence's literals
length, match length and offset value. (DESIGN CHOICE, assumption 61.) -/
opaque zstdSequences (seqs : List (Nat × Nat × Nat)) : List Byte

/-- R340: which byte of an invalid element of a stream, from offset `lo` to `hi`, is the first found
invalid. (DESIGN CHOICE, assumption 63.) -/
opaque corruptByte (lo hi : Nat) : Nat

/-- R340: whether a set of codes that RFC 1951 or RFC 8878 neither defines nor forbids (one that leaves bit
patterns unused, or has no end of block) is taken as valid. (DESIGN CHOICE, assumption 64.) -/
opaque oddCodes (lens : List Nat) : Bool

/-- R335: what is added, modulo 256, to byte `i` of the device-private state of a history area whose header words are
`settings` and `bytes`. (DESIGN CHOICE, assumption 65.) -/
opaque histMask (settings bytes i : Nat) : Byte

/-- R335: the device check over bytes 0x00 to 0xFB of a history header. (DESIGN CHOICE, assumption 65.) -/
opaque histCheck (bytes : List Byte) : Word

/-- R473, R474: the AES-GCM-256 key of one direction of a port after some key replacements, from the handshake of
step `n`, and its IV base. (PRESUMED, assumption 57.) -/
opaque linkKey (n direction replacements : Nat) : Nat
/-- PRESUMED, assumption 57. -/
opaque linkIv (n direction : Nat) : Nat

/-- R367: the digest of a collective's fields. (PRESUMED, assumption 52.) -/
opaque collDigest (fields : List Nat) : Nat

/-- R353, R367: the bits of a COLL or SWAP message that name its group and sequence, whose place the manual
does not give. (PRESUMED, assumption 52.) -/
opaque collTag (group seq : Nat) : Nat

/-- R371: the data slots of a SWAP_REQ or SWAP_ANS, whose layout the manual does not give.
(PRESUMED, assumption 52.) -/
opaque swapSlots (fields : List Nat) : List Nat

/-- R495: whether a signature verifies under the public key that has a digest.
(DESIGN CHOICE, assumption 59.) -/
opaque ecdsaUnder (keyHash digest sig : Nat) : Bool

/-- R199: the MT under which a slice treats another device's access. (DESIGN CHOICE, assumption 175.) -/
opaque inboundMt : Nat

/-- R140, R145: the version of the SFU table set that a firmware set carries, from its FW_ID. -/
opaque tableVersion (fwId : Nat) : Half

/-- R495: whether every value of a calibration image lies within the limits that the data-path firmware
carries, and the image's CRC-32 is right; the manual does not give the sections' layout.
(DESIGN CHOICE, assumption 103.) -/
opaque calOk (image : List Byte) : Bool

/-- R495: the values of a calibration image: the set point of a clock point in mV, the sensitivity of a group
at a clock point in units of 0.01 mV per ps, and its guard-band in mV. (DESIGN CHOICE, assumption 103.) -/
opaque calPoint (image : List Byte) (f : Nat) : Nat
/-- DESIGN CHOICE, assumption 103. -/
opaque calSens (image : List Byte) (g f : Nat) : Nat
/-- DESIGN CHOICE, assumption 103. -/
opaque calBand (image : List Byte) (g f : Nat) : Nat

/-- R497: a calibration image with other guard-bands. (DESIGN CHOICE, assumption 103.) -/
opaque calWith (image : List Byte) (bands : List Nat) : List Byte

/-- R494, R499: contents of MCTP and PLDM responses that the standards fix and the manual does not give, by message
type × 256 + command. (PRESUMED, assumption 118.) -/
opaque standard (code : Nat) : List Nat

/-- R466, R467, R495: signatures, digests and other outputs of the security engine.
(DESIGN CHOICE, assumption 97.) -/
opaque crypto (fn : Nat) (input : List Nat) : List Nat

end Sys2Proof.Config
end

