-- ==== Sys2Proof/Machine/Bits.lean ====
section
/-!
DEFINITION. Byte order and bit-field helpers (R10: little-endian in memory and in registers).
-/

namespace Sys2Proof.Machine

/-- The `n` bytes of a number, least significant first. -/
def leBytes : Nat → Nat → List Byte
  | 0, _ => []
  | n + 1, v => BitVec.ofNat 8 v :: leBytes n (v / 256)

/-- The number whose little-endian bytes these are. -/
def leNat : List Byte → Nat
  | [] => 0
  | b :: bs => b.toNat + 256 * leNat bs

/-- The number whose big-endian bytes these are. -/
def beNat (bs : List Byte) : Nat := bs.foldl (fun n b => n * 256 + b.toNat) 0

/-- `n` bytes of a list from offset `o`, as a number; bytes beyond the end count as zero. -/
def fieldLE (bs : List Byte) (o n : Nat) : Nat := leNat ((bs.drop o).take n)

/-- The dword at byte offset `o`. -/
def dwordAt (bs : List Byte) (o : Nat) : Dword := BitVec.ofNat 64 (fieldLE bs o 8)

/-- The 32-bit word at byte offset `o`. -/
def wordAt (bs : List Byte) (o : Nat) : Word := BitVec.ofNat 32 (fieldLE bs o 4)

/-- A number as a two's-complement integer of `w` bits. -/
def signed (w n : Nat) : Int :=
  let m := n % 2 ^ w
  if m < 2 ^ (w - 1) then (m : Int) else (m : Int) - (2 ^ w : Nat)

/-- An integer reduced into `w` bits. -/
def wrapN (w : Nat) (i : Int) : Nat := (i % ((2 ^ w : Nat) : Int)).toNat

/-- Bit `i` of a word. -/
def wbit (w : Word) (i : Nat) : Bool := w.getLsbD i

/-- Bits `[hi:lo]` of a word, as a number. -/
def wbits (w : Word) (hi lo : Nat) : Nat := bits w.toNat hi lo

/-- A word with bits `[hi:lo]` replaced. -/
def wset (w : Word) (hi lo v : Nat) : Word :=
  let mask : Word := BitVec.ofNat 32 ((2 ^ (hi + 1 - lo) - 1) * 2 ^ lo)
  (w &&& ~~~mask) ||| (BitVec.ofNat 32 (v * 2 ^ lo) &&& mask)

/-- Bits `[hi:lo]` of a dword, as a number. -/
def dbits (w : Dword) (hi lo : Nat) : Nat := bits w.toNat hi lo

/-- A counter that stops at its greatest value `2 ^ w - 1`. -/
def satAdd (w a n : Nat) : Nat := min (a + n) (2 ^ w - 1)

/-- The numbers `lo, lo + 1, …` below `lo + n`. -/
def rangeFrom (lo n : Nat) : List Nat := (List.range n).map (· + lo)

/-- The number of one bits among the low `n`. -/
def popCount : Nat → Nat → Nat
  | 0, _ => 0
  | n + 1, v => v % 2 + popCount n (v / 2)

/-- CRC step of one bit for a `w`-bit reflected polynomial. -/
def crcBits (poly : Nat) : Nat → Nat → Nat
  | 0, c => c
  | n + 1, c => crcBits poly n (if c % 2 = 1 then (c / 2) ^^^ poly else c / 2)

/-- CRC of a byte list, reflected, from the running value `c` (no final inversion). -/
def crcRun (poly c : Nat) (bs : List Byte) : Nat := bs.foldl (fun c b => crcBits poly 8 (c ^^^ b.toNat)) c

end Sys2Proof.Machine
end

