-- ==== Sys2Proof/Machine/Crypto.lean ====
section
/-!
DEFINITION. The published functions that the manual names: SHA-384 (FIPS 180-4), ECDSA verification on
P-384 (FIPS 186) and AES-GCM-256 (FIPS 197, SP 800-38D). Their rules come from those standards.
-/

namespace Sys2Proof.Machine

/-- The `n` bytes of a number, most significant first. -/
def beBytes (n v : Nat) : List Byte := (leBytes n v).reverse

/-! ## SHA-384 -/

/-- The round constants, in two halves. -/
def shaK1 : List Nat :=
  [ 0x428A2F98D728AE22, 0x7137449123EF65CD, 0xB5C0FBCFEC4D3B2F, 0xE9B5DBA58189DBBC,
    0x3956C25BF348B538, 0x59F111F1B605D019, 0x923F82A4AF194F9B, 0xAB1C5ED5DA6D8118,
    0xD807AA98A3030242, 0x12835B0145706FBE, 0x243185BE4EE4B28C, 0x550C7DC3D5FFB4E2,
    0x72BE5D74F27B896F, 0x80DEB1FE3B1696B1, 0x9BDC06A725C71235, 0xC19BF174CF692694,
    0xE49B69C19EF14AD2, 0xEFBE4786384F25E3, 0x0FC19DC68B8CD5B5, 0x240CA1CC77AC9C65,
    0x2DE92C6F592B0275, 0x4A7484AA6EA6E483, 0x5CB0A9DCBD41FBD4, 0x76F988DA831153B5,
    0x983E5152EE66DFAB, 0xA831C66D2DB43210, 0xB00327C898FB213F, 0xBF597FC7BEEF0EE4,
    0xC6E00BF33DA88FC2, 0xD5A79147930AA725, 0x06CA6351E003826F, 0x142929670A0E6E70,
    0x27B70A8546D22FFC, 0x2E1B21385C26C926, 0x4D2C6DFC5AC42AED, 0x53380D139D95B3DF,
    0x650A73548BAF63DE, 0x766A0ABB3C77B2A8, 0x81C2C92E47EDAEE6, 0x92722C851482353B]

def shaK2 : List Nat :=
  [ 0xA2BFE8A14CF10364, 0xA81A664BBC423001, 0xC24B8B70D0F89791, 0xC76C51A30654BE30,
    0xD192E819D6EF5218, 0xD69906245565A910, 0xF40E35855771202A, 0x106AA07032BBD1B8,
    0x19A4C116B8D2D0C8, 0x1E376C085141AB53, 0x2748774CDF8EEB99, 0x34B0BCB5E19B48A8,
    0x391C0CB3C5C95A63, 0x4ED8AA4AE3418ACB, 0x5B9CCA4F7763E373, 0x682E6FF3D6B2B8A3,
    0x748F82EE5DEFB2FC, 0x78A5636F43172F60, 0x84C87814A1F0AB72, 0x8CC702081A6439EC,
    0x90BEFFFA23631E28, 0xA4506CEBDE82BDE9, 0xBEF9A3F7B2C67915, 0xC67178F2E372532B,
    0xCA273ECEEA26619C, 0xD186B8C721C0C207, 0xEADA7DD6CDE0EB1E, 0xF57D4F7FEE6ED178,
    0x06F067AA72176FBA, 0x0A637DC5A2C898A6, 0x113F9804BEF90DAE, 0x1B710B35131C471B,
    0x28DB77F523047D84, 0x32CAAB7B40C72493, 0x3C9EBE0A15C9BEBC, 0x431D67C49C100D4C,
    0x4CC5D4BECB3E42B6, 0x597F299CFC657E2A, 0x5FCB6FAB3AD6FAEC, 0x6C44198C4A475817]

def shaK : List Nat := shaK1 ++ shaK2

def shaH : List Nat :=
  [ 0xCBBB9D5DC1059ED8, 0x629A292A367CD507, 0x9159015A3070DD17, 0x152FECD8F70E5939,
    0x67332667FFC00B31, 0x8EB44A8768581511, 0xDB0C2E0D64F98FA7, 0x47B5481DBEFA4FA4]

def rotr64 (x n : Nat) : Nat := (x >>> n ||| x <<< (64 - n)) % 2 ^ 64

/-- The message schedule, last word first: `n` words still to come. -/
def shaSchedule : Nat → List Nat → List Nat
  | 0, w => w
  | n + 1, w =>
    let x := w.getD 14 0
    let y := w.getD 1 0
    let s0 := rotr64 x 1 ^^^ rotr64 x 8 ^^^ (x >>> 7)
    let s1 := rotr64 y 19 ^^^ rotr64 y 61 ^^^ (y >>> 6)
    shaSchedule n ((w.getD 15 0 + s0 + w.getD 6 0 + s1) % 2 ^ 64 :: w)

/-- The working variables of a round. -/
structure ShaVars where
  a : Nat
  b : Nat
  c : Nat
  d : Nat
  e : Nat
  f : Nat
  g : Nat
  h : Nat

def shaRound (v : ShaVars) (kw : Nat × Nat) : ShaVars :=
  let s1 := rotr64 v.e 14 ^^^ rotr64 v.e 18 ^^^ rotr64 v.e 41
  let ch := (v.e &&& v.f) ^^^ ((2 ^ 64 - 1 - v.e) &&& v.g)
  let t1 := v.h + s1 + ch + kw.1 + kw.2
  let s0 := rotr64 v.a 28 ^^^ rotr64 v.a 34 ^^^ rotr64 v.a 39
  let maj := (v.a &&& v.b) ^^^ (v.a &&& v.c) ^^^ (v.b &&& v.c)
  { a := (t1 + s0 + maj) % 2 ^ 64, b := v.a, c := v.b, d := v.c, e := (v.d + t1) % 2 ^ 64, f := v.e, g := v.f
    h := v.g }

/-- One 128-byte block. -/
def shaBlock (h : List Nat) (block : List Byte) : List Nat :=
  let m := (List.range 16).map fun i => beNat ((block.drop (8 * i)).take 8)
  let g (i : Nat) : Nat := h.getD i 0
  let v := (shaK.zip (shaSchedule 64 m.reverse).reverse).foldl shaRound
    { a := g 0, b := g 1, c := g 2, d := g 3, e := g 4, f := g 5, g := g 6, h := g 7 }
  (h.zip [v.a, v.b, v.c, v.d, v.e, v.f, v.g, v.h]).map fun e => (e.1 + e.2) % 2 ^ 64

/-- The blocks of a padded message. -/
def shaBlocks : Nat → List Nat → List Byte → List Nat
  | 0, h, _ => h
  | n + 1, h, bs => shaBlocks n (shaBlock h bs) (bs.drop 128)

/-- SHA-384 of some bytes, as a number of 384 bits. (PRESUMED, assumption 58.) -/
def sha384 (bs : List Byte) : Nat :=
  let zeros := (239 - bs.length % 128) % 128
  let all := bs ++ [0x80] ++ List.replicate zeros 0 ++ beBytes 16 (8 * bs.length)
  ((shaBlocks (all.length / 128) shaH all).take 6).foldl (fun n w => n * 2 ^ 64 + w) 0

/-! ## ECDSA on P-384 -/

/-- The prime of the field, the order of the group, and the constant b of the curve. -/
def p384 : Nat := 2 ^ 384 - 2 ^ 128 - 2 ^ 96 + 2 ^ 32 - 1
def n384 : Nat :=
  0xFFFFFFFFFFFFFFFFFFFFFFFFFFFFFFFFFFFFFFFFFFFFFFFFC7634D81F4372DDF581A0DB248B0A77AECEC196ACCC52973
def b384 : Nat :=
  0xB3312FA7E23EE7E4988E056BE3F82D19181D9C6EFE8141120314088F5013875AC656398D8A2ED19D2A85C8EDD3EC2AEF

/-- A point in Jacobian coordinates; z = 0 is the point at infinity. -/
structure Point where
  x : Nat
  y : Nat
  z : Nat

def g384 : Point :=
  { x := 0xAA87CA22BE8B05378EB1C71EF320AD746E1D3B628BA79B9859F741E082542A385502F25DBF55296C3A545E3872760AB7
    y := 0x3617DE4A96262C6F5D9E98BF9292DC29F8F41DBD289A147CE9DA3113B5F0B8C00A60B1CE1D7E819D7A431D7C90EA0E5F
    z := 1 }

def fsub (a b : Nat) : Nat := (a + p384 - b) % p384
def fmul (a b : Nat) : Nat := a * b % p384

def Point.double (t : Point) : Point :=
  let yy := fmul t.y t.y
  let s := fmul 4 (fmul t.x yy)
  let zz := fmul t.z t.z
  let m := fmul 3 (fmul (fsub t.x zz) ((t.x + zz) % p384))
  let x := fsub (fmul m m) (2 * s % p384)
  { x := x, y := fsub (fmul m (fsub s x)) (fmul 8 (fmul yy yy)), z := fmul 2 (fmul t.y t.z) }

def Point.add (t u : Point) : Point :=
  if t.z = 0 then u
  else if u.z = 0 then t
  else
    let zt := fmul t.z t.z
    let zu := fmul u.z u.z
    let u1 := fmul t.x zu
    let u2 := fmul u.x zt
    let s1 := fmul t.y (fmul u.z zu)
    let s2 := fmul u.y (fmul t.z zt)
    if u1 = u2 then (if s1 = s2 then t.double else { x := 1, y := 1, z := 0 })
    else
      let h := fsub u2 u1
      let r := fsub s2 s1
      let hh := fmul h h
      let hhh := fmul h hh
      let v := fmul u1 hh
      let x := fsub (fsub (fmul r r) hhh) (2 * v % p384)
      { x := x, y := fsub (fmul r (fsub v x)) (fmul s1 hhh), z := fmul h (fmul t.z u.z) }

/-- A multiple of a point, from the `n` low bits of `k`. -/
def Point.times (t : Point) (k : Nat) : Nat → Point → Point
  | 0, acc => acc
  | n + 1, acc =>
    let d := acc.double
    Point.times t k n (if k.testBit n then d.add t else d)

/-- A power modulo `m`, from the `n` low bits of the exponent. -/
def powMod (m b e : Nat) : Nat → Nat → Nat
  | 0, acc => acc
  | n + 1, acc =>
    let d := acc * acc % m
    powMod m b e n (if e.testBit n then d * b % m else d)

/-- Whether a signature (r then s) over a digest verifies under a public key (x then y).
(PRESUMED, assumption 58.) -/
def ecdsaOk (key digest sig : Nat) : Bool :=
  let q : Point := { x := key / 2 ^ 384, y := key % 2 ^ 384, z := 1 }
  let r := sig / 2 ^ 384
  let s := sig % 2 ^ 384
  let o : Point := { x := 1, y := 1, z := 0 }
  if q.x ≥ p384 ∨ q.y ≥ p384 ∨ fmul q.y q.y ≠ (fmul q.x (fsub (fmul q.x q.x) 3) + b384) % p384 then false
  else if r = 0 ∨ r ≥ n384 ∨ s = 0 ∨ s ≥ n384 then false
  else
    let w := powMod n384 s (n384 - 2) 384 1
    let t := (g384.times (digest * w % n384) 384 o).add (q.times (r * w % n384) 384 o)
    let zz := fmul t.z t.z
    t.z ≠ 0 && (t.x == fmul r zz || (decide (r + n384 < p384) && t.x == fmul (r + n384) zz))

/-! ## AES-GCM-256 -/

/-- A byte of GF(2^8) times x. -/
def xtime (b : Nat) : Nat := if b ≥ 128 then (2 * b ^^^ 0x11B) else 2 * b

/-- The product in GF(2^8), over `n` low bits of `b`. -/
def gfMul (a b : Nat) : Nat → Nat
  | 0 => 0
  | n + 1 => (if b % 2 = 1 then a else 0) ^^^ gfMul (xtime a) (b / 2) n

/-- The S-box at one byte: the inverse (the power 254) and the affine map. -/
def aesSubOf (b : Nat) : Nat :=
  let sq (x : Nat) : Nat := gfMul x x 8
  let b2 := sq b
  let b4 := sq b2
  let b8 := sq b4
  let b16 := sq b8
  let b32 := sq b16
  let b64 := sq b32
  let i := gfMul (gfMul (gfMul (gfMul (gfMul (gfMul b2 b4 8) b8 8) b16 8) b32 8) b64 8) (sq b64) 8
  let r (n : Nat) : Nat := (i <<< n ||| i >>> (8 - n)) % 256
  i ^^^ r 1 ^^^ r 2 ^^^ r 3 ^^^ r 4 ^^^ 0x63

def aesBox : List Nat := (List.range 256).map aesSubOf

def aesSub (box : List Nat) (b : Nat) : Nat := box.getD b 0

def xorWords (a b : List Nat) : List Nat := (a.zip b).map fun e => e.1 ^^^ e.2

/-- The key schedule: words of four bytes, last first; `n` words still to come, from word `i` on. -/
def aesExpand (box : List Nat) : Nat → Nat → Nat → List (List Nat) → List (List Nat)
  | 0, _, _, w => w
  | n + 1, i, rcon, w =>
    let t := w.getD 0 []
    let s :=
      if i % 8 = 0 then
        match (t.drop 1 ++ t.take 1).map (aesSub box) with
        | x :: rest => (x ^^^ rcon) :: rest
        | [] => []
      else if i % 8 = 4 then t.map (aesSub box) else t
    aesExpand box n (i + 1) (if i % 8 = 0 then xtime rcon else rcon) (xorWords (w.getD 7 []) s :: w)

/-- The fifteen round keys of a 256-bit key. -/
def aesKeys (box : List Nat) (key : Nat) : List (List Nat) :=
  let k := (beBytes 32 key).map BitVec.toNat
  let w := (aesExpand box 52 8 1 ((List.range 8).map fun i => (k.drop (4 * i)).take 4).reverse).reverse
  (List.range 15).map fun r => ((w.drop (4 * r)).take 4).flatten

/-- The rows shifted, and the columns mixed. -/
def aesShift (s : List Nat) : List Nat := (List.range 16).map fun i => s.getD ((i + 4 * (i % 4)) % 16) 0

def aesMix (s : List Nat) : List Nat :=
  (List.range 16).map fun i =>
    let at_ (k : Nat) : Nat := s.getD (i / 4 * 4 + (i + k) % 4) 0
    xtime (at_ 0) ^^^ (xtime (at_ 1) ^^^ at_ 1) ^^^ at_ 2 ^^^ at_ 3

/-- The middle rounds, and the last one. -/
def aesRounds (box : List Nat) : List (List Nat) → List Nat → List Nat
  | [], s => s
  | [k], s => xorWords (aesShift (s.map (aesSub box))) k
  | k :: ks, s => aesRounds box ks (xorWords (aesMix (aesShift (s.map (aesSub box)))) k)

/-- One block under the round keys. (PRESUMED, assumption 58.) -/
def aesBlock (box : List Nat) (keys : List (List Nat)) (block : List Nat) : List Nat :=
  match keys with
  | [] => block
  | k :: ks => aesRounds box ks (xorWords block k)

/-- The product of GHASH, over `n` bits of `x` from the most significant on. -/
def ghMul (x : Nat) : Nat → Nat → Nat
  | 0, _ => 0
  | n + 1, v => (if x.testBit n then v else 0) ^^^ ghMul x n (if v % 2 = 1 then (v / 2) ^^^ (0xE1 * 2 ^ 120) else v / 2)

/-- GHASH of some blocks. (PRESUMED, assumption 58.) -/
def ghash (h : Nat) (blocks : List Nat) : Nat := blocks.foldl (fun y b => ghMul (y ^^^ b) 128 h) 0

/-- What AES-GCM needs of a key and a nonce: the hash key, and the stream blocks 1 to `n` + 1. -/
structure Gcm where
  h : Nat
  stream : List Nat

/-- PRESUMED, assumptions 57, 58. -/
def gcmOf (key nonce n : Nat) : Gcm :=
  let box := aesBox
  let keys := aesKeys box key
  let run (x : Nat) : Nat := (aesBlock box keys ((beBytes 16 x).map BitVec.toNat)).foldl (fun v b => v * 256 + b) 0
  { h := run 0, stream := (List.range (n + 1)).map fun i => run (nonce * 2 ^ 32 + i + 1) }

/-- The tag over 8 bytes of header and whole blocks of ciphertext. (PRESUMED, assumption 57.) -/
def Gcm.tag (g : Gcm) (aad : Nat) (cipher : List Nat) : Nat :=
  ghash g.h ((aad * 2 ^ 64) :: cipher ++ [64 * 2 ^ 64 + 128 * cipher.length]) ^^^ g.stream.getD 0 0

end Sys2Proof.Machine
end

