-- ==== Sys2Proof/Machine/KMap.lean ====
section
/-!
DEFINITION. Finite tables by number: a list of (key, value) pairs with strictly rising keys. The
tables of the device (registers, queues, partitions, waves, memory bytes) are all held this way, so
that two equal tables are equal data.
-/

namespace Sys2Proof.Machine

/-- A table from numbers to values; see `KMap.wf` for its canonical form. -/
abbrev KMap (α : Type) := List (Nat × α)

variable {α : Type}

/-- The value listed under `k`. -/
def KMap.find (k : Nat) : KMap α → Option α
  | [] => none
  | (k', v) :: t => if k' = k then some v else KMap.find k t

/-- The value under `k`, or `d` where none is listed. -/
def KMap.getD (m : KMap α) (k : Nat) (d : α) : α := (KMap.find k m).getD d

/-- List `v` under `k`, keeping the keys rising. -/
def KMap.set (k : Nat) (v : α) : KMap α → KMap α
  | [] => [(k, v)]
  | (k', v') :: t =>
    if k' = k then (k, v) :: t
    else if k < k' then (k, v) :: (k', v') :: t
    else (k', v') :: KMap.set k v t

/-- Remove every entry whose key satisfies `f`. -/
def KMap.drop (f : Nat → Bool) (m : KMap α) : KMap α := m.filter fun e => !f e.1

/-- Remove the entry under `k`. -/
def KMap.erase (k : Nat) (m : KMap α) : KMap α := KMap.drop (· == k) m

/-- Store `v` under `k` in a table whose unlisted entries read as `d`: `d` itself is never listed. -/
def KMap.put [DecidableEq α] (d : α) (k : Nat) (v : α) (m : KMap α) : KMap α :=
  if v = d then KMap.erase k m else KMap.set k v m

/-- Change the value under `k`, taking `d` for an unlisted one. -/
def KMap.modify (k : Nat) (d : α) (f : α → α) (m : KMap α) : KMap α :=
  KMap.set k (f (KMap.getD m k d)) m

/-- The listed values. -/
def KMap.vals (m : KMap α) : List α := m.map Prod.snd

/-- The canonical form: keys strictly rising. -/
def KMap.wf : KMap α → Bool
  | [] => true
  | (k, _) :: t => (t.all fun e => decide (k < e.1)) && KMap.wf t

/-- Apply a function to the values whose keys satisfy a test. -/
def KMap.mapWhere (f : Nat → Bool) (g : α → α) (m : KMap α) : KMap α :=
  m.map fun kv => if f kv.1 then (kv.1, g kv.2) else kv

end Sys2Proof.Machine
end

