-- ==== Sys2Proof/Machine/LinkTypes.lean ====
section
/-!
DEFINITION. The structured state of the Axmond link (the spec's chapter 14): messages, flits, ports,
collectives and role swaps. Data only.
-/

namespace Sys2Proof.Machine

/-- A message (R353). `data` are its data slots, 16 bytes each; `at` is the count of the flit time that
carried the header slot (R396), where it was received. -/
structure Msg where
  vc : Nat
  op : Nat
  srcDev : Nat
  srcPart : Nat
  dstDev : Nat
  dstPart : Nat
  tag : Nat := 0
  addr : Nat := 0
  atom : Nat := 0
  status : Nat := 0
  data : List Nat := []
  at_ : Nat := 0
  deriving DecidableEq, Repr

/-- A flit header (R352). -/
structure FlitHdr where
  seq : Nat := 0
  ack : Nat := 0
  kind : Nat
  cvc : Nat := 0
  credits : Nat := 0
  first : Nat := 15
  deriving DecidableEq, Repr

/-- A NORMAL flit of the retry buffer (R352). -/
structure FlitRec where
  hdr : FlitHdr
  slots : List Nat
  /-- R350: the partitions whose DET messages it carries. -/
  det : List Nat := []
  resends : Nat := 0
  deriving DecidableEq, Repr

/-- A port beside its registers (R347 to R355, R474): per virtual channel the messages to send, what is
missing of the credits, the messages received and the slots to return; the message being sent and the one
being received; the retry buffer and the sequence numbers to resend; the state of the receiver; and the
encryption's keys, counters and recent tag failures. -/
structure LPort where
  txq : KMap (List Msg) := []
  cur : List Nat := []
  /-- R350: the partition whose DET message is being sent. -/
  curDet : Option Nat := none
  lastVc : Nat := 0
  debt : KMap Nat := []
  seq : Nat := 0
  retry : List FlitRec := []
  again : List Nat := []
  rxNext : Nat := 0
  resync : Bool := false
  part : List Nat := []
  partAt : Nat := 0
  skip : Nat := 0
  rxq : KMap (List Msg) := []
  freed : KMap Nat := []
  oweRetry : Bool := false
  /-- A switch-over or switch-back is in progress (R348, R349). -/
  switching : Bool := false
  key : Nat := 0
  txCount : Nat := 0
  rxCount : Nat := 0
  tagFails : List Nat := []
  peerSerial : Nat := 0
  deriving DecidableEq, Repr

/-- A collective in progress (R366 to R370): its block, its digest, the digests heard by rank, and the
elements received by rank × 2^33 + index. -/
structure Coll where
  q : Nat
  slot : Nat
  op : Nat
  exact : Bool
  dtype : Nat
  redop : Nat
  outFmt : Nat
  rmode : Nat
  satf : Bool
  nrank : Nat
  myRank : Nat
  root : Nat
  ranks : List (Nat × Nat)
  src : Nat
  dst : Nat
  count : Nat
  group : Nat
  seq : Nat
  timeout : Nat
  began : Nat
  digest : Nat
  exchanged : Bool := false
  digests : KMap Nat := []
  got : KMap Nat := []
  deriving DecidableEq, Repr

/-- What a COLL message of a collective carries (R367, R369): a rank's digest, or elements from an index. -/
inductive CollBody where
  | digest (d : Nat)
  | elems (start : Nat) (vals : List Nat)
  deriving DecidableEq, Repr

/-- A COLL message that no collective has taken yet (R367). -/
structure CollMsg where
  part : Nat
  srcDev : Nat
  srcPart : Nat
  group : Nat
  seq : Nat
  body : CollBody
  deriving DecidableEq, Repr

/-- A pending role swap (R371, R372): of the time-master role, or of the lead role of `part`'s pair. -/
structure Swap where
  timeRole : Bool
  part : Nat
  own : Bool
  count : Nat
  at_ : Nat
  serial : Nat
  dev : Nat
  peerPart : Nat
  granted : Bool := false
  deriving DecidableEq, Repr

end Sys2Proof.Machine
end

