-- ==== Sys2Proof/Machine/Flits.lean ====
section
/-!
DEFINITION. The layouts of flits and messages (R351 to R353): each with its encoder and its decoder.
-/

namespace Sys2Proof.Machine

/-! Virtual channels and operations (R353, R354). -/
namespace Vc
def req := 0
def rsp := 1
def col := 2
def det := 3
end Vc

namespace MOp
def read := 0
def write := 1
def writePartial := 2
def atomic := 3
def coll := 4
def swapReq := 5
def swapAns := 6
def readData := 8
def writeAck := 9
def atomicResult := 10
end MOp

/-! ## Messages (R353) -/

/-- R353: the header slot of a message. -/
def Msg.header (m : Msg) : Nat :=
  m.vc + 2 ^ 2 * m.op + 2 ^ 6 * m.srcDev + 2 ^ 12 * m.srcPart + 2 ^ 16 * m.dstDev + 2 ^ 22 * m.dstPart
    + 2 ^ 26 * m.tag + 2 ^ 39 * m.data.length + 2 ^ 64 * m.addr + 2 ^ 103 * m.atom + 2 ^ 108 * m.status

/-- The slots of a message. -/
def Msg.slots (m : Msg) : List Nat := m.header :: m.data

/-- NSLOT of a header slot. -/
def headerSlots (h : Nat) : Nat := bits h 42 39

/-- R353: a message read from its header slot and its data slots. -/
def Msg.ofSlots (h : Nat) (data : List Nat) (count : Nat) : Msg :=
  { vc := bits h 1 0, op := bits h 5 2, srcDev := bits h 11 6, srcPart := bits h 15 12,
    dstDev := bits h 21 16, dstPart := bits h 25 22, tag := bits h 38 26, addr := bits h 102 64,
    atom := bits h 107 103, status := bits h 123 108, data := data, at_ := count }

/-- R353: NSLOT as the operation requires; a response with an error status carries no data (R359). -/
def slotsOk (op n status : Nat) : Bool :=
  match op with
  | 0 => n == 0
  | 1 => n == 8
  | 2 => n == 9
  | 3 => n == 1
  | 4 => n ≤ 10
  | 5 => n ≤ 10
  | 6 => n ≤ 10
  | 8 => n == (if status = 0 then 8 else 0)
  | 9 => n == 0
  | 10 => n == (if status = 0 then 1 else 0)
  | _ => false

/-- R353: a valid header: a known operation, RsvdZ bits clear, NSLOT as the operation requires. -/
def headerValid (h : Nat) : Bool :=
  let op := bits h 5 2
  let resp := op == 8 || op == 9 || op == 10
  slotsOk op (headerSlots h) (bits h 123 108)
    && bits h 63 43 == 0 && bits h 127 124 == 0
    && (!(resp || op == 4) || bits h 102 64 == 0)
    && (op != 3 || bits h 107 106 ≥ 2)

/-- R354: the buffer slots of a virtual channel. -/
def vcBuffer (vc : Nat) : Nat :=
  match vc with
  | 0 => 2048
  | 1 => 2048
  | 2 => 1024
  | _ => 4096

/-! ## Flits (R351, R352) -/

/-- R352: the flit header as a number. -/
def FlitHdr.num (h : FlitHdr) : Nat :=
  h.seq % 4096 + 2 ^ 12 * (h.ack % 4096) + 2 ^ 24 * (h.kind % 4) + 2 ^ 26 * (h.cvc % 4)
    + 2 ^ 28 * (h.credits % 4096) + 2 ^ 40 * (h.first % 16)

/-- R352: a flit header read. -/
def FlitHdr.ofNum (n : Nat) : FlitHdr :=
  { seq := bits n 11 0, ack := bits n 23 12, kind := bits n 25 24, cvc := bits n 27 26,
    credits := bits n 39 28, first := bits n 43 40 }

/-- R351: CRC-64 with polynomial 0x42F0_E1EB_A9EA_3693, least significant bit first, started with and
closed by all ones. -/
def crc64 (b : List Byte) : Nat := crcRun 0xC96C5795D7870F42 (2 ^ 64 - 1) b ^^^ (2 ^ 64 - 1)

/-- R351: the bytes of a flit from its header and its 15 slots. -/
def flitBytes (hdr : Nat) (slots : List Nat) : List Byte :=
  let body := leBytes 8 hdr ++ (List.range 15).flatMap fun i => leBytes 16 (slots.getD i 0)
  body ++ leBytes 8 (crc64 body)

/-- R351: the header and the slots of a flit whose CRC holds. -/
def flitParse (b : List Byte) : Option (Nat × List Nat) :=
  if b.length = 256 ∧ fieldLE b 0xF8 8 = crc64 (b.take 0xF8) then
    some (fieldLE b 0 8, (List.range 15).map fun i => fieldLE b (8 + 16 * i) 16)
  else none

/-! ## Protected flits (R474) -/

/-- A slot's bytes as a cipher block, and a cipher block as a slot: the first byte is the most significant of a
block, the least significant of a slot. (PRESUMED, assumption 57.) -/
def slotBlock (s : Nat) : Nat := beNat (leBytes 16 s)
def blockSlot (b : Nat) : Nat := leNat (beBytes 16 b)

/-- R473, R474: the cipher of the flit with a transmit counter, in one direction, after the handshake of step
`n`: the key is replaced at every multiple of 2^32, and the nonce is the IV base xor the counter.
(PRESUMED, assumption 57.) -/
def linkGcm (n direction counter : Nat) : Gcm :=
  gcmOf (Config.linkKey n direction (counter / 2 ^ 32)) (Config.linkIv n direction ^^^ counter % 2 ^ 64) 14

/-- The tag slot over a flit header and encrypted slots. -/
def Gcm.tagSlot (g : Gcm) (header : Nat) (slots : List Nat) : Nat :=
  blockSlot (g.tag (beNat (leBytes 8 header)) (slots.map slotBlock))

/-- Slots xor the cipher's stream: the same way to encrypt and to decrypt. -/
def Gcm.mix (g : Gcm) (slots : List Nat) : List Nat :=
  (xorWords (slots.map slotBlock) (g.stream.drop 1)).map blockSlot

/-- R474: slots 0 to 13 encrypted, and the tag as slot 14. (PRESUMED, assumption 57.) -/
def gcmSeal (g : Gcm) (header : Nat) (slots : List Nat) : List Nat :=
  let body := g.mix slots
  body ++ [g.tagSlot header body]

/-- R474: slots 0 to 13 decrypted, or none where the tag fails. (PRESUMED, assumption 57.) -/
def gcmOpen (g : Gcm) (header : Nat) (slots : List Nat) : Option (List Nat) :=
  let body := slots.take 14
  if slots.getD 14 0 = g.tagSlot header body then some (g.mix body) else none

end Sys2Proof.Machine
end

