-- ==== Sys2Proof/Machine/RegTable.lean ====
section
/-!
DEFINITION. The register table of the device: every register of every block window of BAR0, with its
place, its fields and their types, transcribed from the register tables of spec/. The comment beside
each group names the file and rule. A register's address is its offset in the physical function's
view of BAR0 (R10, R501 and the block chapters); a partition-page register stands at the address of
partition 0's page, and partition p's copy lies p × 0x1000 further on.
-/

namespace Sys2Proof.Machine

/-- The field types of R11. RsvdZ bits are the bits of no field. -/
inductive FType where
  | ro | rw | rw1c | rw1s | wo | rc | rwl
  deriving DecidableEq, Repr

/-- What selects the copy of a steered register that an access reaches (R145, R214, R251, R269, R429,
R501, R526). -/
inductive Steer where
  | none | cluster | slice | stack | slot | sensor | group | function
  deriving DecidableEq, Repr

/-- A field of a register: bits `[hi:lo]` of the word at `base`. -/
structure Fld where
  base : Nat
  hi : Nat
  lo : Nat
  deriving DecidableEq, Repr

/-- One field of a register's description, with its type. -/
structure FDesc where
  hi : Nat
  lo : Nat
  ty : FType
  deriving DecidableEq, Repr

/-- One register, or an array of `count` registers `stride` bytes apart; `paged` when each partition
has its own copy in its page. -/
structure RegDesc where
  base : Nat
  stride : Nat
  count : Nat
  paged : Bool
  steer : Steer
  fields : List FDesc
  deriving DecidableEq, Repr


namespace Reg

/-- DEV_ID (R6). -/
def DEV_ID : Nat := 0x0
/-- DEV_CAPS0 (R6). -/
def DEV_CAPS0 : Nat := 0x4
/-- DEV_CAPS1 (R6). -/
def DEV_CAPS1 : Nat := 0x8
/-- PCI_BAR4_BASE_LO (R526). -/
def PCI_BAR4_BASE_LO : Nat := 0x10
/-- PCI_BAR4_BASE_HI (R526). -/
def PCI_BAR4_BASE_HI : Nat := 0x14
/-- PCI_BAR4_ERR (R526). -/
def PCI_BAR4_ERR : Nat := 0x18
/-- PCI_LINK (R526). -/
def PCI_LINK : Nat := 0x100
/-- PCI_ATS_INV_CNT (R526). -/
def PCI_ATS_INV_CNT : Nat := 0x104
/-- PCI_SUPPLY_LAST (R526). -/
def PCI_SUPPLY_LAST : Nat := 0x108
/-- KRING_BASE_LO (R83). -/
def KRING_BASE_LO : Nat := 0x100000
/-- KRING_BASE_HI (R83). -/
def KRING_BASE_HI : Nat := 0x100004
/-- KRING_CTL (R83). -/
def KRING_CTL : Nat := 0x100008
/-- KRING_STATUS (R83). -/
def KRING_STATUS : Nat := 0x10000C
/-- EVRING_BASE_LO (R83). -/
def EVRING_BASE_LO : Nat := 0x100010
/-- EVRING_BASE_HI (R83). -/
def EVRING_BASE_HI : Nat := 0x100014
/-- EVRING_CTL (R83). -/
def EVRING_CTL : Nat := 0x100018
/-- EVRING_HEAD (R83). -/
def EVRING_HEAD : Nat := 0x10001C
/-- EVRING_TAIL (R83). -/
def EVRING_TAIL : Nat := 0x100020
/-- EVRING_LOST (R83). -/
def EVRING_LOST : Nat := 0x100024
/-- DB_DISCARD (R83). -/
def DB_DISCARD : Nat := 0x100028
/-- SCHED_CFG (R118). -/
def SCHED_CFG : Nat := 0x100030
/-- SAVE_BASE_LO (R118). -/
def SAVE_BASE_LO : Nat := 0x100034
/-- SAVE_BASE_HI (R118). -/
def SAVE_BASE_HI : Nat := 0x100038
/-- INTF_IDX (R118). -/
def INTF_IDX : Nat := 0x10003C
/-- INTF_THRESH (R118). -/
def INTF_THRESH : Nat := 0x100040
/-- ACCT_BASE_LO (R118). -/
def ACCT_BASE_LO : Nat := 0x100044
/-- ACCT_BASE_HI (R118). -/
def ACCT_BASE_HI : Nat := 0x100048
/-- ACCT_LOST (R118). -/
def ACCT_LOST : Nat := 0x10004C
/-- FENCE_REG_CNT (R118). -/
def FENCE_REG_CNT : Nat := 0x100050
/-- PREEMPT_CNT (R118). -/
def PREEMPT_CNT : Nat := 0x100054
/-- DONATE_CNT (R118). -/
def DONATE_CNT : Nat := 0x100058
/-- DISP_LATE_CNT (R118). -/
def DISP_LATE_CNT : Nat := 0x10005C
/-- BATCH_STEP_LO (R269). -/
def BATCH_STEP_LO : Nat := 0x100060
/-- BATCH_STEP_HI (R269). -/
def BATCH_STEP_HI : Nat := 0x100064
/-- BATCH_COUNT (R269). -/
def BATCH_COUNT : Nat := 0x100068
/-- BATCH_SEL (R269). -/
def BATCH_SEL : Nat := 0x10006C
/-- BATCH_SLOT_STATUS (R269). -/
def BATCH_SLOT_STATUS : Nat := 0x100070
/-- BATCH_SLOT_POS (R269). -/
def BATCH_SLOT_POS : Nat := 0x100074
/-- EVT_CFG (R119). -/
def EVT_CFG : Nat := 0x110000
/-- BATCH_RANGE (R268). -/
def BATCH_RANGE : Nat := 0x111000
/-- BATCH_TOKMAX (R268). -/
def BATCH_TOKMAX : Nat := 0x111004
/-- PART_STATUS (R55). -/
def PART_STATUS : Nat := 0x200000
/-- PART_MEM (R55). -/
def PART_MEM : Nat := 0x200004
/-- PART_ASID (R55). -/
def PART_ASID : Nat := 0x200008
/-- PART_ASIDT_LO (R55). -/
def PART_ASIDT_LO : Nat := 0x200010
/-- PART_ASIDT_HI (R55). -/
def PART_ASIDT_HI : Nat := 0x200014
/-- PART_FAULT (R55). -/
def PART_FAULT : Nat := 0x200018
/-- PART_FAULT_ID (R55). -/
def PART_FAULT_ID : Nat := 0x20001C
/-- PART_FAULT_VA_LO (R55). -/
def PART_FAULT_VA_LO : Nat := 0x200020
/-- PART_FAULT_VA_HI (R55). -/
def PART_FAULT_VA_HI : Nat := 0x200024
/-- PART_PINWR_CNT (R55). -/
def PART_PINWR_CNT : Nat := 0x200028
/-- PART_INVAL_CNT (R55). -/
def PART_INVAL_CNT : Nat := 0x20002C
/-- CLU_SEL (R145). -/
def CLU_SEL : Nat := 0x300000
/-- CLU_STATUS (R145). -/
def CLU_STATUS : Nat := 0x300004
/-- CLU_EPOCH (R145). -/
def CLU_EPOCH : Nat := 0x300008
/-- CLU_SFU (R145). -/
def CLU_SFU : Nat := 0x30000C
/-- EPOCH_DROP_CNT (R145). -/
def EPOCH_DROP_CNT : Nat := 0x300010
/-- CLU_TNS_STICKY (R170). -/
def CLU_TNS_STICKY : Nat := 0x300014
/-- CLU_QLOSS (R191). -/
def CLU_QLOSS : Nat := 0x300018
/-- CREMA_STATUS (R215). -/
def CREMA_STATUS : Nat := 0x30001C
/-- CREMA_ECC (R215). -/
def CREMA_ECC : Nat := 0x300020
/-- CREMA_CONFLICT (R215). -/
def CREMA_CONFLICT : Nat := 0x300024
/-- SC_WAYMODE (R214). -/
def SC_WAYMODE : Nat := 0x400000
/-- SC_WAYOFF (R214). -/
def SC_WAYOFF : Nat := 0x400004
/-- SC_STATUS (R214). -/
def SC_STATUS : Nat := 0x400008
/-- SC_SCROWN_LO (R214). -/
def SC_SCROWN_LO : Nat := 0x40000C
/-- SC_SCROWN_HI (R214). -/
def SC_SCROWN_HI : Nat := 0x400010
/-- SC_SEL (R214). -/
def SC_SEL : Nat := 0x400020
/-- SC_HIT_CNT (R214). -/
def SC_HIT_CNT : Nat := 0x400024
/-- SC_MISS_CNT (R214). -/
def SC_MISS_CNT : Nat := 0x400028
/-- SC_MERGE_CNT (R214). -/
def SC_MERGE_CNT : Nat := 0x40002C
/-- SC_VHIT_CNT (R214). -/
def SC_VHIT_CNT : Nat := 0x400030
/-- SC_MRFULL_CNT (R214). -/
def SC_MRFULL_CNT : Nat := 0x400034
/-- SC_ECC_CE_CNT (R214). -/
def SC_ECC_CE_CNT : Nat := 0x400038
/-- CTX_NEXT_DET (R251). -/
def CTX_NEXT_DET : Nat := 0x500000
/-- CTX_FREE (R251). -/
def CTX_FREE : Nat := 0x500004
/-- CTX_SLOT_OWN_LO (R251). -/
def CTX_SLOT_OWN_LO : Nat := 0x500008
/-- CTX_SLOT_OWN_HI (R251). -/
def CTX_SLOT_OWN_HI : Nat := 0x50000C
/-- CTX_GOV (R251). -/
def CTX_GOV : Nat := 0x500010
/-- CTX_STK_SEL (R251). -/
def CTX_STK_SEL : Nat := 0x500014
/-- CTX_STK_STATUS (R251). -/
def CTX_STK_STATUS : Nat := 0x500018
/-- CTX_STK_POWER (R251). -/
def CTX_STK_POWER : Nat := 0x50001C
/-- CTX_ECC_CE (R251). -/
def CTX_ECC_CE : Nat := 0x500020
/-- CTX_ECC_UE (R251). -/
def CTX_ECC_UE : Nat := 0x500024
/-- CTX_RFM_EXTRA (R251). -/
def CTX_RFM_EXTRA : Nat := 0x500028
/-- CTX_POOL_HEAD_LO (R251). -/
def CTX_POOL_HEAD_LO : Nat := 0x501000
/-- CTX_POOL_HEAD_HI (R251). -/
def CTX_POOL_HEAD_HI : Nat := 0x501004
/-- CTX_POOL_CNT (R251). -/
def CTX_POOL_CNT : Nat := 0x501008
/-- CTX_POOL_PUSH_LO (R251). -/
def CTX_POOL_PUSH_LO : Nat := 0x50100C
/-- CTX_POOL_PUSH_HI (R251). -/
def CTX_POOL_PUSH_HI : Nat := 0x501010
/-- CTX_QLOSS (R251). -/
def CTX_QLOSS : Nat := 0x501014
/-- CTX_DET (R251). -/
def CTX_DET : Nat := 0x501018
/-- RAS_PIPE_PRIM_CNT (R306). -/
def RAS_PIPE_PRIM_CNT : Nat := 0x600000
/-- RAS_PIPE_CULL_CNT (R306). -/
def RAS_PIPE_CULL_CNT : Nat := 0x600004
/-- RAS_PIPE_CLIP_CNT (R306). -/
def RAS_PIPE_CLIP_CNT : Nat := 0x600008
/-- RAS_PIPE_TILE_CNT (R306). -/
def RAS_PIPE_TILE_CNT : Nat := 0x601000
/-- RAS_PIPE_TILE_MAXCYC (R306). -/
def RAS_PIPE_TILE_MAXCYC : Nat := 0x601004
/-- RAS_PIPE_CHAIN_FAIL (R306). -/
def RAS_PIPE_CHAIN_FAIL : Nat := 0x601008
/-- LCE_PIPE_CTL (R326). -/
def LCE_PIPE_CTL : Nat := 0x700000
/-- LCE_H (R327). -/
def LCE_H : Nat := 0x700004
/-- LCE_HS (R327). -/
def LCE_HS : Nat := 0x700008
/-- LCE_V (R327). -/
def LCE_V : Nat := 0x70000C
/-- LCE_VS (R327). -/
def LCE_VS : Nat := 0x700010
/-- LCE_PCLK (R327). -/
def LCE_PCLK : Nat := 0x700014
/-- LCE_BG (R327). -/
def LCE_BG : Nat := 0x700018
/-- LCE_PIPE_STATUS (R327). -/
def LCE_PIPE_STATUS : Nat := 0x70001C
/-- LCE_FRAME (R327). -/
def LCE_FRAME : Nat := 0x700020
/-- LCE_PCRC_STATUS (R327). -/
def LCE_PCRC_STATUS : Nat := 0x700024
/-- LCE_PCRC_LAST (R327). -/
def LCE_PCRC_LAST : Nat := 0x700028
/-- LCE_PCRC_CNT (R327). -/
def LCE_PCRC_CNT : Nat := 0x70002C
/-- LCE_UNDERRUN_CNT (R327). -/
def LCE_UNDERRUN_CNT : Nat := 0x700030
/-- LCE_PCRC_LIMIT (R327). -/
def LCE_PCRC_LIMIT : Nat := 0x700200
/-- CDE_LANE_STATUS (R343). -/
def CDE_LANE_STATUS : Nat := 0x800000
/-- CDE_JOB_CNT (R343). -/
def CDE_JOB_CNT : Nat := 0x800004
/-- CDE_VERIFY_CNT (R343). -/
def CDE_VERIFY_CNT : Nat := 0x800008
/-- CDE_CORRUPT_CNT (R343). -/
def CDE_CORRUPT_CNT : Nat := 0x80000C
/-- CDE_OVF_CNT (R343). -/
def CDE_OVF_CNT : Nat := 0x800010
/-- AXL_DEVICE (R374). -/
def AXL_DEVICE : Nat := 0x900000
/-- AXL_SERIAL_LO (R374). -/
def AXL_SERIAL_LO : Nat := 0x900004
/-- AXL_SERIAL_HI (R374). -/
def AXL_SERIAL_HI : Nat := 0x900008
/-- AXL_NEXT_DET (R374). -/
def AXL_NEXT_DET : Nat := 0x90000C
/-- AXL_TAGS_FREE (R374). -/
def AXL_TAGS_FREE : Nat := 0x900010
/-- AXL_TSWAP_CTL (R374). -/
def AXL_TSWAP_CTL : Nat := 0x900014
/-- AXL_TSWAP_AT_LO (R374). -/
def AXL_TSWAP_AT_LO : Nat := 0x900018
/-- AXL_TSWAP_AT_HI (R374). -/
def AXL_TSWAP_AT_HI : Nat := 0x90001C
/-- AXL_PORT_CTL (R375). -/
def AXL_PORT_CTL : Nat := 0x900100
/-- AXL_PORT_STATUS (R375). -/
def AXL_PORT_STATUS : Nat := 0x900104
/-- AXL_FEC_CE (R375). -/
def AXL_FEC_CE : Nat := 0x900108
/-- AXL_CRC_ERR (R375). -/
def AXL_CRC_ERR : Nat := 0x90010C
/-- AXL_RETRY_CNT (R375). -/
def AXL_RETRY_CNT : Nat := 0x900110
/-- AXL_SPARE_CNT (R375). -/
def AXL_SPARE_CNT : Nat := 0x900114
/-- AXL_ROUTE (R374). -/
def AXL_ROUTE : Nat := 0x900400
/-- AXL_PTAGS (R374). -/
def AXL_PTAGS : Nat := 0x900800
/-- AXL_QTAGS (R376). -/
def AXL_QTAGS : Nat := 0x901000
/-- AXL_PSWAP_CTL (R376). -/
def AXL_PSWAP_CTL : Nat := 0x901004
/-- AXL_PSWAP_AT_LO (R376). -/
def AXL_PSWAP_AT_LO : Nat := 0x901008
/-- AXL_PSWAP_AT_HI (R376). -/
def AXL_PSWAP_AT_HI : Nat := 0x90100C
/-- AXL_IN_DENY_CNT (R376). -/
def AXL_IN_DENY_CNT : Nat := 0x901010
/-- AXL_IN_BASE_LO (R377). -/
def AXL_IN_BASE_LO : Nat := 0x901020
/-- AXL_IN_BASE_HI (R377). -/
def AXL_IN_BASE_HI : Nat := 0x901024
/-- AXL_IN_SIZE (R377). -/
def AXL_IN_SIZE : Nat := 0x901028
/-- AXL_IN_SRC (R377). -/
def AXL_IN_SRC : Nat := 0x90102C
/-- GTC_LO (R403). -/
def GTC_LO : Nat := 0xA00000
/-- GTC_HI (R403). -/
def GTC_HI : Nat := 0xA00004
/-- GTC_CTL (R403). -/
def GTC_CTL : Nat := 0xA00008
/-- GTC_OFFSET (R403). -/
def GTC_OFFSET : Nat := 0xA0000C
/-- GTC_SET_LO (R403). -/
def GTC_SET_LO : Nat := 0xA00010
/-- GTC_SET_HI (R403). -/
def GTC_SET_HI : Nat := 0xA00014
/-- GTC_PPS_LO (R403). -/
def GTC_PPS_LO : Nat := 0xA00018
/-- GTC_PPS_HI (R403). -/
def GTC_PPS_HI : Nat := 0xA0001C
/-- DET_FW_ID (R403). -/
def DET_FW_ID : Nat := 0xA00020
/-- DET_MAP (R403). -/
def DET_MAP : Nat := 0xA00024
/-- DET_MAP_FORCE (R403). -/
def DET_MAP_FORCE : Nat := 0xA00028
/-- DET_JOB (R404). -/
def DET_JOB : Nat := 0xA01000
/-- DET_PERTURB (R404). -/
def DET_PERTURB : Nat := 0xA01004
/-- DET_PERT_CNT (R404). -/
def DET_PERT_CNT : Nat := 0xA01008
/-- DET_KEY_WHY (R404). -/
def DET_KEY_WHY : Nat := 0xA0100C
/-- DET_KEY_CNT (R404). -/
def DET_KEY_CNT : Nat := 0xA01010
/-- DET_GTC_LO (R404). -/
def DET_GTC_LO : Nat := 0xA01014
/-- DET_GTC_HI (R404). -/
def DET_GTC_HI : Nat := 0xA01018
/-- DET_LAST_LAUNCH_LO (R404). -/
def DET_LAST_LAUNCH_LO : Nat := 0xA0101C
/-- DET_LAST_LAUNCH_HI (R404). -/
def DET_LAST_LAUNCH_HI : Nat := 0xA01020
/-- PWR_CAP (R429). -/
def PWR_CAP : Nat := 0xB00000
/-- PWR_EFFECTIVE (R429). -/
def PWR_EFFECTIVE : Nat := 0xB00004
/-- PWR_PRIO (R429). -/
def PWR_PRIO : Nat := 0xB00008
/-- PWR_FLOOR (R429). -/
def PWR_FLOOR : Nat := 0xB0000C
/-- PWR_ALLOC (R429). -/
def PWR_ALLOC : Nat := 0xB00010
/-- PWR_MEAS (R429). -/
def PWR_MEAS : Nat := 0xB00014
/-- PWR_DRIP (R429). -/
def PWR_DRIP : Nat := 0xB00018
/-- PWR_EXT_CAP (R429). -/
def PWR_EXT_CAP : Nat := 0xB0001C
/-- PWR_THR_ACTIVE (R429). -/
def PWR_THR_ACTIVE : Nat := 0xB00020
/-- PWR_THR_SEEN (R429). -/
def PWR_THR_SEEN : Nat := 0xB00024
/-- PWR_SHIFT_CTL (R429). -/
def PWR_SHIFT_CTL : Nat := 0xB00028
/-- PWR_SHIFT_MEMBERS_LO (R429). -/
def PWR_SHIFT_MEMBERS_LO : Nat := 0xB0002C
/-- PWR_SHIFT_MEMBERS_HI (R429). -/
def PWR_SHIFT_MEMBERS_HI : Nat := 0xB00030
/-- PWR_SHIFT_STATUS (R429). -/
def PWR_SHIFT_STATUS : Nat := 0xB00034
/-- PWR_THERM_SEL (R429). -/
def PWR_THERM_SEL : Nat := 0xB00038
/-- PWR_THERM (R429). -/
def PWR_THERM : Nat := 0xB0003C
/-- PWR_THR_DUR (R429). -/
def PWR_THR_DUR : Nat := 0xB00040
/-- PWR_DEVSTATE (R429). -/
def PWR_DEVSTATE : Nat := 0xB00070
/-- PWR_AUTO (R429). -/
def PWR_AUTO : Nat := 0xB00074
/-- PWR_GROUP_STATE (R429). -/
def PWR_GROUP_STATE : Nat := 0xB00078
/-- PWR_WAKE_CNT (R429). -/
def PWR_WAKE_CNT : Nat := 0xB0007C
/-- PWR_WAKE_MAX (R429). -/
def PWR_WAKE_MAX : Nat := 0xB00080
/-- PWR_DROOP_CNT (R429). -/
def PWR_DROOP_CNT : Nat := 0xB00084
/-- PWR_SLOPE_VIOL (R429). -/
def PWR_SLOPE_VIOL : Nat := 0xB00088
/-- PWR_UNATTR_LO (R429). -/
def PWR_UNATTR_LO : Nat := 0xB0008C
/-- PWR_UNATTR_HI (R429). -/
def PWR_UNATTR_HI : Nat := 0xB00090
/-- PWR_THERM_CFG (R429). -/
def PWR_THERM_CFG : Nat := 0xB00094
/-- PWR_STATUS (R429). -/
def PWR_STATUS : Nat := 0xB00098
/-- PWR_PENERGY_LO (R430). -/
def PWR_PENERGY_LO : Nat := 0xB01000
/-- PWR_PENERGY_HI (R430). -/
def PWR_PENERGY_HI : Nat := 0xB01004
/-- PWR_PTHR (R430). -/
def PWR_PTHR : Nat := 0xB01008
/-- PWR_PDRIP_US (R430). -/
def PWR_PDRIP_US : Nat := 0xB0100C
/-- PWR_QENERGY_LO (R430). -/
def PWR_QENERGY_LO : Nat := 0xB01100
/-- PWR_QENERGY_HI (R430). -/
def PWR_QENERGY_HI : Nat := 0xB01104
/-- RAS_SEQ_STATUS (R457). -/
def RAS_SEQ_STATUS : Nat := 0xC00000
/-- RAS_SEQ_CTL (R457). -/
def RAS_SEQ_CTL : Nat := 0xC00004
/-- RAS_SEQ_CFG (R457). -/
def RAS_SEQ_CFG : Nat := 0xC00008
/-- RAS_HB (R457). -/
def RAS_HB : Nat := 0xC0000C
/-- RAS_DM_CTL (R457). -/
def RAS_DM_CTL : Nat := 0xC00010
/-- RAS_SPARES (R457). -/
def RAS_SPARES : Nat := 0xC00014
/-- RAS_TEST_CFG (R457). -/
def RAS_TEST_CFG : Nat := 0xC00018
/-- RAS_RPT_BASE_LO (R457). -/
def RAS_RPT_BASE_LO : Nat := 0xC0001C
/-- RAS_RPT_BASE_HI (R457). -/
def RAS_RPT_BASE_HI : Nat := 0xC00020
/-- RAS_FLOG_HEAD (R457). -/
def RAS_FLOG_HEAD : Nat := 0xC00024
/-- RAS_REGERR_CNT (R457). -/
def RAS_REGERR_CNT : Nat := 0xC00028
/-- RAS_REGERR_ADDR (R457). -/
def RAS_REGERR_ADDR : Nat := 0xC0002C
/-- RAS_RPT_LOST (R457). -/
def RAS_RPT_LOST : Nat := 0xC00030
/-- RAS_UNIT_FAULT_CNT (R457). -/
def RAS_UNIT_FAULT_CNT : Nat := 0xC00034
/-- RAS_CE_CNT (R457). -/
def RAS_CE_CNT : Nat := 0xC00038
/-- RAS_FLOG (R458). -/
def RAS_FLOG : Nat := 0xC00400
/-- RAS_PSTATUS (R459). -/
def RAS_PSTATUS : Nat := 0xC01000
/-- RAS_PFAULT_CNT (R459). -/
def RAS_PFAULT_CNT : Nat := 0xC01004
/-- RAS_PAIR_CFG (R459). -/
def RAS_PAIR_CFG : Nat := 0xC01008
/-- SEC_STATUS (R479). -/
def SEC_STATUS : Nat := 0xD00000
/-- SEC_SVN (R479). -/
def SEC_SVN : Nat := 0xD00004
/-- SEC_CFG (R479). -/
def SEC_CFG : Nat := 0xD00008
/-- SEC_LOCK (R479). -/
def SEC_LOCK : Nat := 0xD0000C
/-- SEC_BOOT_FAIL (R479). -/
def SEC_BOOT_FAIL : Nat := 0xD00010
/-- SEC_DBG_CTL (R479). -/
def SEC_DBG_CTL : Nat := 0xD00014
/-- SEC_DBG_CHAL (R479). -/
def SEC_DBG_CHAL : Nat := 0xD00020
/-- SEC_DBG_KEY (R479). -/
def SEC_DBG_KEY : Nat := 0xD00040
/-- SEC_DBG_RESP (R479). -/
def SEC_DBG_RESP : Nat := 0xD000A0
/-- SEC_KEY_ROT_CNT (R479). -/
def SEC_KEY_ROT_CNT : Nat := 0xD00100
/-- SEC_KEY_STATUS (R479). -/
def SEC_KEY_STATUS : Nat := 0xD00104
/-- SEC_GCM_FAIL_CNT (R479). -/
def SEC_GCM_FAIL_CNT : Nat := 0xD00108
/-- SEC_LINK_AUTH_FAIL (R479). -/
def SEC_LINK_AUTH_FAIL : Nat := 0xD0010C
/-- MGT_STATE (R501). -/
def MGT_STATE : Nat := 0xE00000
/-- MGT_CMD (R501). -/
def MGT_CMD : Nat := 0xE00004
/-- MGT_STATUS (R501). -/
def MGT_STATUS : Nat := 0xE00008
/-- MGT_OP (R501). -/
def MGT_OP : Nat := 0xE0000C
/-- MGT_CTL (R501). -/
def MGT_CTL : Nat := 0xE00010
/-- MGT_BUSY_CNT (R501). -/
def MGT_BUSY_CNT : Nat := 0xE00014
/-- MGT_HOURS (R501). -/
def MGT_HOURS : Nat := 0xE00018
/-- MGT_DECISION (R501). -/
def MGT_DECISION : Nat := 0xE0001C
/-- MGT_ARG (R501). -/
def MGT_ARG : Nat := 0xE00020
/-- MGT_RES (R501). -/
def MGT_RES : Nat := 0xE00040
/-- MGT_AGE_SEL (R501). -/
def MGT_AGE_SEL : Nat := 0xE00060
/-- MGT_AGE (R501). -/
def MGT_AGE : Nat := 0xE00064
/-- MGT_AGE_STATUS (R501). -/
def MGT_AGE_STATUS : Nat := 0xE00068

end Reg

namespace Fld

def DEV_ID_PART : Fld := ⟨Reg.DEV_ID, 15, 0⟩
def DEV_ID_GRADE : Fld := ⟨Reg.DEV_ID, 19, 16⟩
def DEV_ID_STEPPING : Fld := ⟨Reg.DEV_ID, 27, 20⟩
def DEV_CAPS0_LCLUSTERS : Fld := ⟨Reg.DEV_CAPS0, 6, 0⟩
def DEV_CAPS0_LGROUPS : Fld := ⟨Reg.DEV_CAPS0, 10, 7⟩
def DEV_CAPS0_PARTIAL : Fld := ⟨Reg.DEV_CAPS0, 13, 11⟩
def DEV_CAPS0_STACKS : Fld := ⟨Reg.DEV_CAPS0, 16, 14⟩
def DEV_CAPS0_LINK_LANES : Fld := ⟨Reg.DEV_CAPS0, 23, 17⟩
def DEV_CAPS0_LINK_PORTS : Fld := ⟨Reg.DEV_CAPS0, 27, 24⟩
def DEV_CAPS0_FP64 : Fld := ⟨Reg.DEV_CAPS0, 28, 28⟩
def DEV_CAPS0_CTX_ENGINE : Fld := ⟨Reg.DEV_CAPS0, 29, 29⟩
def DEV_CAPS0_DISP_OUT : Fld := ⟨Reg.DEV_CAPS0, 31, 30⟩
def DEV_CAPS1_TFMT : Fld := ⟨Reg.DEV_CAPS1, 11, 0⟩
def DEV_CAPS1_SPARES : Fld := ⟨Reg.DEV_CAPS1, 19, 16⟩
def DEV_CAPS1_MAP_DEGRADED : Fld := ⟨Reg.DEV_CAPS1, 20, 20⟩
def DEV_CAPS1_MAP_FORCED : Fld := ⟨Reg.DEV_CAPS1, 21, 21⟩
def DEV_CAPS1_STACK_GIB : Fld := ⟨Reg.DEV_CAPS1, 31, 24⟩
def PCI_BAR4_BASE_LO_BASE_LO : Fld := ⟨Reg.PCI_BAR4_BASE_LO, 31, 28⟩
def PCI_BAR4_BASE_HI_BASE_HI : Fld := ⟨Reg.PCI_BAR4_BASE_HI, 6, 0⟩
def PCI_BAR4_ERR_COUNT : Fld := ⟨Reg.PCI_BAR4_ERR, 31, 0⟩
def PCI_LINK_UP : Fld := ⟨Reg.PCI_LINK, 0, 0⟩
def PCI_LINK_SPEED : Fld := ⟨Reg.PCI_LINK, 3, 1⟩
def PCI_LINK_WIDTH : Fld := ⟨Reg.PCI_LINK, 8, 4⟩
def PCI_LINK_DOWNS : Fld := ⟨Reg.PCI_LINK, 31, 16⟩
def PCI_ATS_INV_CNT_COUNT : Fld := ⟨Reg.PCI_ATS_INV_CNT, 31, 0⟩
def PCI_SUPPLY_LAST_RAIL : Fld := ⟨Reg.PCI_SUPPLY_LAST, 3, 0⟩
def KRING_BASE_LO_BASE_LO : Fld := ⟨Reg.KRING_BASE_LO, 31, 12⟩
def KRING_BASE_HI_BASE_HI : Fld := ⟨Reg.KRING_BASE_HI, 6, 0⟩
def KRING_CTL_ENABLE : Fld := ⟨Reg.KRING_CTL, 0, 0⟩
def KRING_CTL_LOG2 : Fld := ⟨Reg.KRING_CTL, 12, 8⟩
def KRING_CTL_VECTOR : Fld := ⟨Reg.KRING_CTL, 21, 16⟩
def KRING_CTL_IRQ_EN : Fld := ⟨Reg.KRING_CTL, 24, 24⟩
def KRING_STATUS_STATE : Fld := ⟨Reg.KRING_STATUS, 1, 0⟩
def KRING_STATUS_HALT_STATUS : Fld := ⟨Reg.KRING_STATUS, 31, 16⟩
def EVRING_BASE_LO_BASE_LO : Fld := ⟨Reg.EVRING_BASE_LO, 31, 12⟩
def EVRING_BASE_HI_BASE_HI : Fld := ⟨Reg.EVRING_BASE_HI, 6, 0⟩
def EVRING_CTL_EV_ENABLE : Fld := ⟨Reg.EVRING_CTL, 0, 0⟩
def EVRING_CTL_LOG2 : Fld := ⟨Reg.EVRING_CTL, 12, 8⟩
def EVRING_CTL_VECTOR : Fld := ⟨Reg.EVRING_CTL, 21, 16⟩
def EVRING_HEAD_HEAD : Fld := ⟨Reg.EVRING_HEAD, 31, 0⟩
def EVRING_TAIL_TAIL : Fld := ⟨Reg.EVRING_TAIL, 31, 0⟩
def EVRING_LOST_COUNT : Fld := ⟨Reg.EVRING_LOST, 31, 0⟩
def DB_DISCARD_COUNT : Fld := ⟨Reg.DB_DISCARD, 31, 0⟩
def SCHED_CFG_DEFAULT_SLICE_US : Fld := ⟨Reg.SCHED_CFG, 13, 0⟩
def SCHED_CFG_DISPLAY_CLUSTERS : Fld := ⟨Reg.SCHED_CFG, 22, 16⟩
def SAVE_BASE_LO_SAVE_EN : Fld := ⟨Reg.SAVE_BASE_LO, 0, 0⟩
def SAVE_BASE_LO_BASE_LO : Fld := ⟨Reg.SAVE_BASE_LO, 31, 12⟩
def SAVE_BASE_HI_BASE_HI : Fld := ⟨Reg.SAVE_BASE_HI, 6, 0⟩
def INTF_IDX_INDEX : Fld := ⟨Reg.INTF_IDX, 15, 0⟩
def INTF_IDX_WINDOW : Fld := ⟨Reg.INTF_IDX, 30, 16⟩
def INTF_IDX_IDLE : Fld := ⟨Reg.INTF_IDX, 31, 31⟩
def INTF_THRESH_THRESHOLD : Fld := ⟨Reg.INTF_THRESH, 15, 0⟩
def ACCT_BASE_LO_ACCT_EN : Fld := ⟨Reg.ACCT_BASE_LO, 0, 0⟩
def ACCT_BASE_LO_BASE_LO : Fld := ⟨Reg.ACCT_BASE_LO, 31, 22⟩
def ACCT_BASE_HI_BASE_HI : Fld := ⟨Reg.ACCT_BASE_HI, 6, 0⟩
def ACCT_LOST_COUNT : Fld := ⟨Reg.ACCT_LOST, 31, 0⟩
def FENCE_REG_CNT_COUNT : Fld := ⟨Reg.FENCE_REG_CNT, 31, 0⟩
def PREEMPT_CNT_COUNT : Fld := ⟨Reg.PREEMPT_CNT, 31, 0⟩
def DONATE_CNT_COUNT : Fld := ⟨Reg.DONATE_CNT, 31, 0⟩
def DISP_LATE_CNT_COUNT : Fld := ⟨Reg.DISP_LATE_CNT, 31, 0⟩
def BATCH_STEP_LO_STEP_LO : Fld := ⟨Reg.BATCH_STEP_LO, 31, 0⟩
def BATCH_STEP_HI_STEP_HI : Fld := ⟨Reg.BATCH_STEP_HI, 31, 0⟩
def BATCH_COUNT_ACTIVE : Fld := ⟨Reg.BATCH_COUNT, 12, 0⟩
def BATCH_COUNT_PENDING : Fld := ⟨Reg.BATCH_COUNT, 28, 16⟩
def BATCH_SEL_SLOT : Fld := ⟨Reg.BATCH_SEL, 11, 0⟩
def BATCH_SLOT_STATUS_STATE : Fld := ⟨Reg.BATCH_SLOT_STATUS, 2, 0⟩
def BATCH_SLOT_STATUS_PARK_PEND : Fld := ⟨Reg.BATCH_SLOT_STATUS, 3, 3⟩
def BATCH_SLOT_STATUS_RESUME : Fld := ⟨Reg.BATCH_SLOT_STATUS, 4, 4⟩
def BATCH_SLOT_STATUS_RELEASING : Fld := ⟨Reg.BATCH_SLOT_STATUS, 5, 5⟩
def BATCH_SLOT_STATUS_CTX : Fld := ⟨Reg.BATCH_SLOT_STATUS, 6, 6⟩
def BATCH_SLOT_STATUS_TAG : Fld := ⟨Reg.BATCH_SLOT_STATUS, 31, 16⟩
def BATCH_SLOT_POS_POS : Fld := ⟨Reg.BATCH_SLOT_POS, 31, 0⟩
def EVT_CFG_OWNER : Fld := ⟨Reg.EVT_CFG, 3, 0⟩
def EVT_CFG_MODE : Fld := ⟨Reg.EVT_CFG, 4, 4⟩
def EVT_CFG_STATE : Fld := ⟨Reg.EVT_CFG, 5, 5⟩
def EVT_CFG_SOURCE : Fld := ⟨Reg.EVT_CFG, 10, 8⟩
def BATCH_RANGE_BASE : Fld := ⟨Reg.BATCH_RANGE, 11, 0⟩
def BATCH_RANGE_COUNT : Fld := ⟨Reg.BATCH_RANGE, 28, 16⟩
def BATCH_TOKMAX_TOKENS_MAX : Fld := ⟨Reg.BATCH_TOKMAX, 16, 0⟩
def PART_STATUS_STATE : Fld := ⟨Reg.PART_STATUS, 2, 0⟩
def PART_STATUS_KIND : Fld := ⟨Reg.PART_STATUS, 3, 3⟩
def PART_STATUS_CLOCK : Fld := ⟨Reg.PART_STATUS, 5, 4⟩
def PART_STATUS_SAFETY : Fld := ⟨Reg.PART_STATUS, 6, 6⟩
def PART_STATUS_PAIRED : Fld := ⟨Reg.PART_STATUS, 7, 7⟩
def PART_STATUS_GROUPS : Fld := ⟨Reg.PART_STATUS, 11, 8⟩
def PART_STATUS_CLUSTERS : Fld := ⟨Reg.PART_STATUS, 18, 12⟩
def PART_STATUS_SCRATCH_WAYS : Fld := ⟨Reg.PART_STATUS, 23, 19⟩
def PART_MEM_MEM_GIB : Fld := ⟨Reg.PART_MEM, 8, 0⟩
def PART_MEM_PCGS : Fld := ⟨Reg.PART_MEM, 22, 16⟩
def PART_ASID_ASID_BASE : Fld := ⟨Reg.PART_ASID, 11, 0⟩
def PART_ASID_ASID_COUNT : Fld := ⟨Reg.PART_ASID, 28, 16⟩
def PART_ASIDT_LO_BASE_LO : Fld := ⟨Reg.PART_ASIDT_LO, 31, 12⟩
def PART_ASIDT_HI_BASE_HI : Fld := ⟨Reg.PART_ASIDT_HI, 6, 0⟩
def PART_FAULT_XLATE : Fld := ⟨Reg.PART_FAULT, 0, 0⟩
def PART_FAULT_PERM : Fld := ⟨Reg.PART_FAULT, 1, 1⟩
def PART_FAULT_PINNED_WRITE : Fld := ⟨Reg.PART_FAULT, 2, 2⟩
def PART_FAULT_BOUND : Fld := ⟨Reg.PART_FAULT, 3, 3⟩
def PART_FAULT_MORE : Fld := ⟨Reg.PART_FAULT, 4, 4⟩
def PART_FAULT_POISON : Fld := ⟨Reg.PART_FAULT, 5, 5⟩
def PART_FAULT_ILLEGAL : Fld := ⟨Reg.PART_FAULT, 6, 6⟩
def PART_FAULT_ID_ASID : Fld := ⟨Reg.PART_FAULT_ID, 11, 0⟩
def PART_FAULT_ID_UNIT : Fld := ⟨Reg.PART_FAULT_ID, 15, 12⟩
def PART_FAULT_ID_CTX_TAG : Fld := ⟨Reg.PART_FAULT_ID, 31, 16⟩
def PART_FAULT_VA_LO_VA_LO : Fld := ⟨Reg.PART_FAULT_VA_LO, 31, 0⟩
def PART_FAULT_VA_HI_VA_HI : Fld := ⟨Reg.PART_FAULT_VA_HI, 15, 0⟩
def PART_PINWR_CNT_COUNT : Fld := ⟨Reg.PART_PINWR_CNT, 31, 0⟩
def PART_INVAL_CNT_COUNT : Fld := ⟨Reg.PART_INVAL_CNT, 31, 0⟩
def CLU_SEL_LCLUSTER : Fld := ⟨Reg.CLU_SEL, 6, 0⟩
def CLU_STATUS_STATE : Fld := ⟨Reg.CLU_STATUS, 2, 0⟩
def CLU_STATUS_PART : Fld := ⟨Reg.CLU_STATUS, 7, 4⟩
def CLU_STATUS_PHYS : Fld := ⟨Reg.CLU_STATUS, 14, 8⟩
def CLU_STATUS_WAVES : Fld := ⟨Reg.CLU_STATUS, 22, 16⟩
def CLU_EPOCH_EPOCH : Fld := ⟨Reg.CLU_EPOCH, 15, 0⟩
def CLU_SFU_TABLE_VER : Fld := ⟨Reg.CLU_SFU, 15, 0⟩
def CLU_SFU_TABLE_OK : Fld := ⟨Reg.CLU_SFU, 16, 16⟩
def EPOCH_DROP_CNT_COUNT : Fld := ⟨Reg.EPOCH_DROP_CNT, 31, 0⟩
def CLU_TNS_STICKY_INEXACT : Fld := ⟨Reg.CLU_TNS_STICKY, 0, 0⟩
def CLU_TNS_STICKY_OVERFLOW : Fld := ⟨Reg.CLU_TNS_STICKY, 1, 1⟩
def CLU_TNS_STICKY_UNDERFLOW : Fld := ⟨Reg.CLU_TNS_STICKY, 2, 2⟩
def CLU_TNS_STICKY_NAN_OUT : Fld := ⟨Reg.CLU_TNS_STICKY, 3, 3⟩
def CLU_TNS_STICKY_INF_OUT : Fld := ⟨Reg.CLU_TNS_STICKY, 4, 4⟩
def CLU_TNS_STICKY_SAT : Fld := ⟨Reg.CLU_TNS_STICKY, 5, 5⟩
def CLU_TNS_STICKY_TERM_OVF : Fld := ⟨Reg.CLU_TNS_STICKY, 6, 6⟩
def CLU_QLOSS_COUNT : Fld := ⟨Reg.CLU_QLOSS, 31, 0⟩
def CREMA_STATUS_FREE : Fld := ⟨Reg.CREMA_STATUS, 8, 0⟩
def CREMA_STATUS_TILE : Fld := ⟨Reg.CREMA_STATUS, 24, 16⟩
def CREMA_ECC_CE : Fld := ⟨Reg.CREMA_ECC, 31, 0⟩
def CREMA_CONFLICT_CYCLES : Fld := ⟨Reg.CREMA_CONFLICT, 31, 0⟩
def SC_WAYMODE_MODE : Fld := ⟨Reg.SC_WAYMODE, 31, 0⟩
def SC_WAYOFF_OFF : Fld := ⟨Reg.SC_WAYOFF, 15, 0⟩
def SC_STATUS_BUSY : Fld := ⟨Reg.SC_STATUS, 0, 0⟩
def SC_STATUS_CACHED : Fld := ⟨Reg.SC_STATUS, 4, 1⟩
def SC_SCROWN_LO_OWNER_LO : Fld := ⟨Reg.SC_SCROWN_LO, 31, 0⟩
def SC_SCROWN_HI_OWNER_HI : Fld := ⟨Reg.SC_SCROWN_HI, 31, 0⟩
def SC_SEL_SLICE : Fld := ⟨Reg.SC_SEL, 4, 0⟩
def SC_HIT_CNT_COUNT : Fld := ⟨Reg.SC_HIT_CNT, 31, 0⟩
def SC_MISS_CNT_COUNT : Fld := ⟨Reg.SC_MISS_CNT, 31, 0⟩
def SC_MERGE_CNT_COUNT : Fld := ⟨Reg.SC_MERGE_CNT, 31, 0⟩
def SC_VHIT_CNT_COUNT : Fld := ⟨Reg.SC_VHIT_CNT, 31, 0⟩
def SC_MRFULL_CNT_COUNT : Fld := ⟨Reg.SC_MRFULL_CNT, 31, 0⟩
def SC_ECC_CE_CNT_COUNT : Fld := ⟨Reg.SC_ECC_CE_CNT, 31, 0⟩
def CTX_NEXT_DET_SLOTS : Fld := ⟨Reg.CTX_NEXT_DET, 4, 0⟩
def CTX_NEXT_DET_WATTS : Fld := ⟨Reg.CTX_NEXT_DET, 12, 8⟩
def CTX_FREE_SLOTS : Fld := ⟨Reg.CTX_FREE, 4, 0⟩
def CTX_FREE_WATTS : Fld := ⟨Reg.CTX_FREE, 12, 8⟩
def CTX_SLOT_OWN_LO_OWNER_LO : Fld := ⟨Reg.CTX_SLOT_OWN_LO, 31, 0⟩
def CTX_SLOT_OWN_HI_OWNER_HI : Fld := ⟨Reg.CTX_SLOT_OWN_HI, 31, 0⟩
def CTX_GOV_PRIO : Fld := ⟨Reg.CTX_GOV, 0, 0⟩
def CTX_STK_SEL_STACK : Fld := ⟨Reg.CTX_STK_SEL, 2, 0⟩
def CTX_STK_STATUS_ENGINE_OK : Fld := ⟨Reg.CTX_STK_STATUS, 0, 0⟩
def CTX_STK_STATUS_DEGRADED : Fld := ⟨Reg.CTX_STK_STATUS, 31, 16⟩
def CTX_STK_POWER_EXT : Fld := ⟨Reg.CTX_STK_POWER, 7, 0⟩
def CTX_STK_POWER_SCAN : Fld := ⟨Reg.CTX_STK_POWER, 15, 8⟩
def CTX_ECC_CE_COUNT : Fld := ⟨Reg.CTX_ECC_CE, 31, 0⟩
def CTX_ECC_UE_COUNT : Fld := ⟨Reg.CTX_ECC_UE, 31, 0⟩
def CTX_RFM_EXTRA_COUNT : Fld := ⟨Reg.CTX_RFM_EXTRA, 31, 0⟩
def CTX_POOL_HEAD_LO_POOL_EN : Fld := ⟨Reg.CTX_POOL_HEAD_LO, 0, 0⟩
def CTX_POOL_HEAD_LO_HEAD_LO : Fld := ⟨Reg.CTX_POOL_HEAD_LO, 31, 16⟩
def CTX_POOL_HEAD_HI_HEAD_HI : Fld := ⟨Reg.CTX_POOL_HEAD_HI, 6, 0⟩
def CTX_POOL_CNT_COUNT : Fld := ⟨Reg.CTX_POOL_CNT, 22, 0⟩
def CTX_POOL_CNT_BROKEN : Fld := ⟨Reg.CTX_POOL_CNT, 24, 24⟩
def CTX_POOL_CNT_LOST : Fld := ⟨Reg.CTX_POOL_CNT, 25, 25⟩
def CTX_POOL_PUSH_LO_PAGE_LO : Fld := ⟨Reg.CTX_POOL_PUSH_LO, 31, 16⟩
def CTX_POOL_PUSH_HI_PAGE_HI : Fld := ⟨Reg.CTX_POOL_PUSH_HI, 6, 0⟩
def CTX_QLOSS_COUNT : Fld := ⟨Reg.CTX_QLOSS, 31, 0⟩
def CTX_DET_SLOTS : Fld := ⟨Reg.CTX_DET, 4, 0⟩
def CTX_DET_WATTS : Fld := ⟨Reg.CTX_DET, 12, 8⟩
def RAS_PIPE_PRIM_CNT_COUNT : Fld := ⟨Reg.RAS_PIPE_PRIM_CNT, 31, 0⟩
def RAS_PIPE_CULL_CNT_COUNT : Fld := ⟨Reg.RAS_PIPE_CULL_CNT, 31, 0⟩
def RAS_PIPE_CLIP_CNT_COUNT : Fld := ⟨Reg.RAS_PIPE_CLIP_CNT, 31, 0⟩
def RAS_PIPE_TILE_CNT_COUNT : Fld := ⟨Reg.RAS_PIPE_TILE_CNT, 31, 0⟩
def RAS_PIPE_TILE_MAXCYC_COUNT : Fld := ⟨Reg.RAS_PIPE_TILE_MAXCYC, 31, 0⟩
def RAS_PIPE_CHAIN_FAIL_COUNT : Fld := ⟨Reg.RAS_PIPE_CHAIN_FAIL, 31, 0⟩
def LCE_PIPE_CTL_ENABLE : Fld := ⟨Reg.LCE_PIPE_CTL, 0, 0⟩
def LCE_PIPE_CTL_OUT_EDP : Fld := ⟨Reg.LCE_PIPE_CTL, 1, 1⟩
def LCE_PIPE_CTL_BPC : Fld := ⟨Reg.LCE_PIPE_CTL, 3, 2⟩
def LCE_PIPE_CTL_DITHER : Fld := ⟨Reg.LCE_PIPE_CTL, 4, 4⟩
def LCE_PIPE_CTL_TEMPORAL : Fld := ⟨Reg.LCE_PIPE_CTL, 5, 5⟩
def LCE_PIPE_CTL_OWNER : Fld := ⟨Reg.LCE_PIPE_CTL, 11, 8⟩
def LCE_H_HACTIVE : Fld := ⟨Reg.LCE_H, 15, 0⟩
def LCE_H_HTOTAL : Fld := ⟨Reg.LCE_H, 31, 16⟩
def LCE_HS_HS_START : Fld := ⟨Reg.LCE_HS, 15, 0⟩
def LCE_HS_HS_WIDTH : Fld := ⟨Reg.LCE_HS, 30, 16⟩
def LCE_HS_HS_POS : Fld := ⟨Reg.LCE_HS, 31, 31⟩
def LCE_V_VACTIVE : Fld := ⟨Reg.LCE_V, 15, 0⟩
def LCE_V_VTOTAL : Fld := ⟨Reg.LCE_V, 31, 16⟩
def LCE_VS_VS_START : Fld := ⟨Reg.LCE_VS, 15, 0⟩
def LCE_VS_VS_WIDTH : Fld := ⟨Reg.LCE_VS, 30, 16⟩
def LCE_VS_VS_POS : Fld := ⟨Reg.LCE_VS, 31, 31⟩
def LCE_PCLK_KHZ : Fld := ⟨Reg.LCE_PCLK, 19, 0⟩
def LCE_BG_BG : Fld := ⟨Reg.LCE_BG, 29, 0⟩
def LCE_PIPE_STATUS_STATE : Fld := ⟨Reg.LCE_PIPE_STATUS, 1, 0⟩
def LCE_PIPE_STATUS_LANES : Fld := ⟨Reg.LCE_PIPE_STATUS, 4, 2⟩
def LCE_PIPE_STATUS_RATE : Fld := ⟨Reg.LCE_PIPE_STATUS, 7, 5⟩
def LCE_PIPE_STATUS_HPD : Fld := ⟨Reg.LCE_PIPE_STATUS, 8, 8⟩
def LCE_FRAME_COUNT : Fld := ⟨Reg.LCE_FRAME, 31, 0⟩
def LCE_PCRC_STATUS_MISMATCH : Fld := ⟨Reg.LCE_PCRC_STATUS, 0, 0⟩
def LCE_PCRC_STATUS_CHECKING : Fld := ⟨Reg.LCE_PCRC_STATUS, 1, 1⟩
def LCE_PCRC_STATUS_CONSEC : Fld := ⟨Reg.LCE_PCRC_STATUS, 15, 8⟩
def LCE_PCRC_LAST_COUNT : Fld := ⟨Reg.LCE_PCRC_LAST, 31, 0⟩
def LCE_PCRC_CNT_COUNT : Fld := ⟨Reg.LCE_PCRC_CNT, 31, 0⟩
def LCE_UNDERRUN_CNT_COUNT : Fld := ⟨Reg.LCE_UNDERRUN_CNT, 31, 0⟩
def LCE_PCRC_LIMIT_LIMIT : Fld := ⟨Reg.LCE_PCRC_LIMIT, 7, 0⟩
def CDE_LANE_STATUS_BUSY : Fld := ⟨Reg.CDE_LANE_STATUS, 3, 0⟩
def CDE_LANE_STATUS_OUT : Fld := ⟨Reg.CDE_LANE_STATUS, 7, 4⟩
def CDE_JOB_CNT_COUNT : Fld := ⟨Reg.CDE_JOB_CNT, 31, 0⟩
def CDE_VERIFY_CNT_COUNT : Fld := ⟨Reg.CDE_VERIFY_CNT, 31, 0⟩
def CDE_CORRUPT_CNT_COUNT : Fld := ⟨Reg.CDE_CORRUPT_CNT, 31, 0⟩
def CDE_OVF_CNT_COUNT : Fld := ⟨Reg.CDE_OVF_CNT, 31, 0⟩
def AXL_DEVICE_DEVNUM : Fld := ⟨Reg.AXL_DEVICE, 5, 0⟩
def AXL_SERIAL_LO_SERIAL : Fld := ⟨Reg.AXL_SERIAL_LO, 31, 0⟩
def AXL_SERIAL_HI_SERIAL : Fld := ⟨Reg.AXL_SERIAL_HI, 31, 0⟩
def AXL_NEXT_DET_JOB : Fld := ⟨Reg.AXL_NEXT_DET, 15, 0⟩
def AXL_NEXT_DET_TAGS : Fld := ⟨Reg.AXL_NEXT_DET, 29, 16⟩
def AXL_TAGS_FREE_FREE : Fld := ⟨Reg.AXL_TAGS_FREE, 13, 0⟩
def AXL_TSWAP_CTL_GO : Fld := ⟨Reg.AXL_TSWAP_CTL, 0, 0⟩
def AXL_TSWAP_CTL_BUSY : Fld := ⟨Reg.AXL_TSWAP_CTL, 1, 1⟩
def AXL_TSWAP_CTL_MASTER : Fld := ⟨Reg.AXL_TSWAP_CTL, 2, 2⟩
def AXL_TSWAP_CTL_PEER : Fld := ⟨Reg.AXL_TSWAP_CTL, 13, 8⟩
def AXL_TSWAP_CTL_STATUS : Fld := ⟨Reg.AXL_TSWAP_CTL, 31, 16⟩
def AXL_TSWAP_AT_LO_AT_LO : Fld := ⟨Reg.AXL_TSWAP_AT_LO, 31, 0⟩
def AXL_TSWAP_AT_HI_AT_HI : Fld := ⟨Reg.AXL_TSWAP_AT_HI, 31, 0⟩
def AXL_PORT_CTL_MODE : Fld := ⟨Reg.AXL_PORT_CTL, 1, 0⟩
def AXL_PORT_CTL_CRYPT : Fld := ⟨Reg.AXL_PORT_CTL, 2, 2⟩
def AXL_PORT_CTL_SPARE_THRESH : Fld := ⟨Reg.AXL_PORT_CTL, 15, 8⟩
def AXL_PORT_CTL_LOAN_LANE : Fld := ⟨Reg.AXL_PORT_CTL, 19, 16⟩
def AXL_PORT_CTL_LOAN : Fld := ⟨Reg.AXL_PORT_CTL, 20, 20⟩
def AXL_PORT_STATUS_STATE : Fld := ⟨Reg.AXL_PORT_STATUS, 2, 0⟩
def AXL_PORT_STATUS_SPARE_USED : Fld := ⟨Reg.AXL_PORT_STATUS, 3, 3⟩
def AXL_PORT_STATUS_SPARED_LANE : Fld := ⟨Reg.AXL_PORT_STATUS, 7, 4⟩
def AXL_PORT_STATUS_PEER_DEV : Fld := ⟨Reg.AXL_PORT_STATUS, 13, 8⟩
def AXL_PORT_STATUS_PEER_SWITCH : Fld := ⟨Reg.AXL_PORT_STATUS, 14, 14⟩
def AXL_PORT_STATUS_LOANED : Fld := ⟨Reg.AXL_PORT_STATUS, 15, 15⟩
def AXL_PORT_STATUS_OWNED : Fld := ⟨Reg.AXL_PORT_STATUS, 31, 16⟩
def AXL_FEC_CE_COUNT : Fld := ⟨Reg.AXL_FEC_CE, 31, 0⟩
def AXL_CRC_ERR_COUNT : Fld := ⟨Reg.AXL_CRC_ERR, 31, 0⟩
def AXL_RETRY_CNT_COUNT : Fld := ⟨Reg.AXL_RETRY_CNT, 31, 0⟩
def AXL_SPARE_CNT_COUNT : Fld := ⟨Reg.AXL_SPARE_CNT, 31, 0⟩
def AXL_ROUTE_PORTS : Fld := ⟨Reg.AXL_ROUTE, 7, 0⟩
def AXL_PTAGS_QUOTA : Fld := ⟨Reg.AXL_PTAGS, 13, 0⟩
def AXL_QTAGS_QMAX : Fld := ⟨Reg.AXL_QTAGS, 13, 0⟩
def AXL_PSWAP_CTL_GO : Fld := ⟨Reg.AXL_PSWAP_CTL, 0, 0⟩
def AXL_PSWAP_CTL_BUSY : Fld := ⟨Reg.AXL_PSWAP_CTL, 1, 1⟩
def AXL_PSWAP_CTL_LEAD : Fld := ⟨Reg.AXL_PSWAP_CTL, 2, 2⟩
def AXL_PSWAP_CTL_STATUS : Fld := ⟨Reg.AXL_PSWAP_CTL, 31, 16⟩
def AXL_PSWAP_AT_LO_AT_LO : Fld := ⟨Reg.AXL_PSWAP_AT_LO, 31, 0⟩
def AXL_PSWAP_AT_HI_AT_HI : Fld := ⟨Reg.AXL_PSWAP_AT_HI, 31, 0⟩
def AXL_IN_DENY_CNT_COUNT : Fld := ⟨Reg.AXL_IN_DENY_CNT, 31, 0⟩
def AXL_IN_BASE_LO_BASE_LO : Fld := ⟨Reg.AXL_IN_BASE_LO, 31, 16⟩
def AXL_IN_BASE_HI_BASE_HI : Fld := ⟨Reg.AXL_IN_BASE_HI, 6, 0⟩
def AXL_IN_SIZE_SIZE : Fld := ⟨Reg.AXL_IN_SIZE, 22, 0⟩
def AXL_IN_SRC_SRC_DEV : Fld := ⟨Reg.AXL_IN_SRC, 5, 0⟩
def AXL_IN_SRC_ANY_DEV : Fld := ⟨Reg.AXL_IN_SRC, 6, 6⟩
def AXL_IN_SRC_SRC_PARTS : Fld := ⟨Reg.AXL_IN_SRC, 23, 8⟩
def AXL_IN_SRC_R : Fld := ⟨Reg.AXL_IN_SRC, 24, 24⟩
def AXL_IN_SRC_W : Fld := ⟨Reg.AXL_IN_SRC, 25, 25⟩
def AXL_IN_SRC_EN : Fld := ⟨Reg.AXL_IN_SRC, 26, 26⟩
def GTC_LO_COUNT_LO : Fld := ⟨Reg.GTC_LO, 31, 0⟩
def GTC_HI_COUNT_HI : Fld := ⟨Reg.GTC_HI, 31, 0⟩
def GTC_CTL_MASTER_INIT : Fld := ⟨Reg.GTC_CTL, 0, 0⟩
def GTC_CTL_PPS_EN : Fld := ⟨Reg.GTC_CTL, 1, 1⟩
def GTC_CTL_RESYNC : Fld := ⟨Reg.GTC_CTL, 2, 2⟩
def GTC_CTL_STATE : Fld := ⟨Reg.GTC_CTL, 10, 8⟩
def GTC_CTL_SRC_PORT : Fld := ⟨Reg.GTC_CTL, 14, 12⟩
def GTC_CTL_HOPS : Fld := ⟨Reg.GTC_CTL, 21, 16⟩
def GTC_OFFSET_THETA : Fld := ⟨Reg.GTC_OFFSET, 15, 0⟩
def GTC_OFFSET_RATE : Fld := ⟨Reg.GTC_OFFSET, 31, 16⟩
def GTC_SET_LO_SET_LO : Fld := ⟨Reg.GTC_SET_LO, 31, 0⟩
def GTC_SET_HI_SET_HI : Fld := ⟨Reg.GTC_SET_HI, 31, 0⟩
def GTC_PPS_LO_PPS_LO : Fld := ⟨Reg.GTC_PPS_LO, 31, 0⟩
def GTC_PPS_HI_PPS_HI : Fld := ⟨Reg.GTC_PPS_HI, 31, 0⟩
def DET_FW_ID_FW_ID : Fld := ⟨Reg.DET_FW_ID, 31, 0⟩
def DET_MAP_CLUSTERS : Fld := ⟨Reg.DET_MAP, 6, 0⟩
def DET_MAP_NATURAL : Fld := ⟨Reg.DET_MAP, 14, 8⟩
def DET_MAP_FORCE_CLUSTERS : Fld := ⟨Reg.DET_MAP_FORCE, 6, 0⟩
def DET_JOB_CHIPS_M1 : Fld := ⟨Reg.DET_JOB, 5, 0⟩
def DET_PERTURB_REASON : Fld := ⟨Reg.DET_PERTURB, 3, 0⟩
def DET_PERT_CNT_COUNT : Fld := ⟨Reg.DET_PERT_CNT, 31, 0⟩
def DET_KEY_WHY_FW : Fld := ⟨Reg.DET_KEY_WHY, 0, 0⟩
def DET_KEY_WHY_MAP : Fld := ⟨Reg.DET_KEY_WHY, 1, 1⟩
def DET_KEY_WHY_CHIPS : Fld := ⟨Reg.DET_KEY_WHY, 2, 2⟩
def DET_KEY_WHY_UNKEYED : Fld := ⟨Reg.DET_KEY_WHY, 3, 3⟩
def DET_KEY_CNT_COUNT : Fld := ⟨Reg.DET_KEY_CNT, 31, 0⟩
def DET_GTC_LO_COUNT_LO : Fld := ⟨Reg.DET_GTC_LO, 31, 0⟩
def DET_GTC_HI_COUNT_HI : Fld := ⟨Reg.DET_GTC_HI, 31, 0⟩
def DET_LAST_LAUNCH_LO_N_LO : Fld := ⟨Reg.DET_LAST_LAUNCH_LO, 31, 0⟩
def DET_LAST_LAUNCH_HI_N_HI : Fld := ⟨Reg.DET_LAST_LAUNCH_HI, 31, 0⟩
def PWR_CAP_CAP_W : Fld := ⟨Reg.PWR_CAP, 9, 0⟩
def PWR_CAP_CAP_MAX_W : Fld := ⟨Reg.PWR_CAP, 25, 16⟩
def PWR_EFFECTIVE_EFF_CAP : Fld := ⟨Reg.PWR_EFFECTIVE, 9, 0⟩
def PWR_EFFECTIVE_PKG : Fld := ⟨Reg.PWR_EFFECTIVE, 25, 16⟩
def PWR_PRIO_FIRST : Fld := ⟨Reg.PWR_PRIO, 1, 0⟩
def PWR_PRIO_SECOND : Fld := ⟨Reg.PWR_PRIO, 3, 2⟩
def PWR_PRIO_THIRD : Fld := ⟨Reg.PWR_PRIO, 5, 4⟩
def PWR_FLOOR_COMPUTE : Fld := ⟨Reg.PWR_FLOOR, 7, 0⟩
def PWR_FLOOR_MEMORY : Fld := ⟨Reg.PWR_FLOOR, 15, 8⟩
def PWR_FLOOR_LINK : Fld := ⟨Reg.PWR_FLOOR, 23, 16⟩
def PWR_ALLOC_COMPUTE : Fld := ⟨Reg.PWR_ALLOC, 9, 0⟩
def PWR_ALLOC_MEMORY : Fld := ⟨Reg.PWR_ALLOC, 19, 10⟩
def PWR_ALLOC_LINK : Fld := ⟨Reg.PWR_ALLOC, 29, 20⟩
def PWR_MEAS_COMPUTE : Fld := ⟨Reg.PWR_MEAS, 9, 0⟩
def PWR_MEAS_MEMORY : Fld := ⟨Reg.PWR_MEAS, 19, 10⟩
def PWR_MEAS_LINK : Fld := ⟨Reg.PWR_MEAS, 29, 20⟩
def PWR_DRIP_LEVEL : Fld := ⟨Reg.PWR_DRIP, 5, 0⟩
def PWR_EXT_CAP_CAP_W : Fld := ⟨Reg.PWR_EXT_CAP, 9, 0⟩
def PWR_THR_ACTIVE_REASONS : Fld := ⟨Reg.PWR_THR_ACTIVE, 11, 0⟩
def PWR_THR_SEEN_REASONS : Fld := ⟨Reg.PWR_THR_SEEN, 11, 0⟩
def PWR_SHIFT_CTL_EN : Fld := ⟨Reg.PWR_SHIFT_CTL, 0, 0⟩
def PWR_SHIFT_CTL_PART : Fld := ⟨Reg.PWR_SHIFT_CTL, 7, 4⟩
def PWR_SHIFT_CTL_STEP_W : Fld := ⟨Reg.PWR_SHIFT_CTL, 15, 8⟩
def PWR_SHIFT_MEMBERS_LO_MEMBERS : Fld := ⟨Reg.PWR_SHIFT_MEMBERS_LO, 31, 0⟩
def PWR_SHIFT_MEMBERS_HI_MEMBERS : Fld := ⟨Reg.PWR_SHIFT_MEMBERS_HI, 31, 0⟩
def PWR_SHIFT_STATUS_SHIFT : Fld := ⟨Reg.PWR_SHIFT_STATUS, 10, 0⟩
def PWR_SHIFT_STATUS_WAIT : Fld := ⟨Reg.PWR_SHIFT_STATUS, 25, 16⟩
def PWR_SHIFT_STATUS_REVERTED : Fld := ⟨Reg.PWR_SHIFT_STATUS, 26, 26⟩
def PWR_THERM_SEL_SENSOR : Fld := ⟨Reg.PWR_THERM_SEL, 4, 0⟩
def PWR_THERM_TEMP : Fld := ⟨Reg.PWR_THERM, 9, 0⟩
def PWR_THERM_LEVEL : Fld := ⟨Reg.PWR_THERM, 11, 10⟩
def PWR_THR_DUR_PERIODS : Fld := ⟨Reg.PWR_THR_DUR, 31, 0⟩
def PWR_DEVSTATE_REQ : Fld := ⟨Reg.PWR_DEVSTATE, 0, 0⟩
def PWR_DEVSTATE_STATE : Fld := ⟨Reg.PWR_DEVSTATE, 2, 1⟩
def PWR_AUTO_AUTO_DECAF : Fld := ⟨Reg.PWR_AUTO, 0, 0⟩
def PWR_AUTO_IDLE_US : Fld := ⟨Reg.PWR_AUTO, 31, 16⟩
def PWR_GROUP_STATE_STATE : Fld := ⟨Reg.PWR_GROUP_STATE, 23, 0⟩
def PWR_WAKE_CNT_COUNT : Fld := ⟨Reg.PWR_WAKE_CNT, 31, 0⟩
def PWR_WAKE_MAX_COUNT : Fld := ⟨Reg.PWR_WAKE_MAX, 31, 0⟩
def PWR_DROOP_CNT_COUNT : Fld := ⟨Reg.PWR_DROOP_CNT, 31, 0⟩
def PWR_SLOPE_VIOL_COUNT : Fld := ⟨Reg.PWR_SLOPE_VIOL, 31, 0⟩
def PWR_UNATTR_LO_COUNT : Fld := ⟨Reg.PWR_UNATTR_LO, 31, 0⟩
def PWR_UNATTR_HI_COUNT : Fld := ⟨Reg.PWR_UNATTR_HI, 31, 0⟩
def PWR_THERM_CFG_WARN_MARGIN : Fld := ⟨Reg.PWR_THERM_CFG, 3, 0⟩
def PWR_STATUS_LATE : Fld := ⟨Reg.PWR_STATUS, 15, 0⟩
def PWR_PENERGY_LO_NJ_LO : Fld := ⟨Reg.PWR_PENERGY_LO, 31, 0⟩
def PWR_PENERGY_HI_NJ_HI : Fld := ⟨Reg.PWR_PENERGY_HI, 31, 0⟩
def PWR_PTHR_REASONS : Fld := ⟨Reg.PWR_PTHR, 11, 0⟩
def PWR_PDRIP_US_PERIODS : Fld := ⟨Reg.PWR_PDRIP_US, 31, 0⟩
def PWR_QENERGY_LO_NJ_LO : Fld := ⟨Reg.PWR_QENERGY_LO, 31, 0⟩
def PWR_QENERGY_HI_NJ_HI : Fld := ⟨Reg.PWR_QENERGY_HI, 31, 0⟩
def RAS_SEQ_STATUS_CAUSE : Fld := ⟨Reg.RAS_SEQ_STATUS, 5, 0⟩
def RAS_SEQ_STATUS_FAULT : Fld := ⟨Reg.RAS_SEQ_STATUS, 8, 8⟩
def RAS_SEQ_STATUS_BARISTA_STATE : Fld := ⟨Reg.RAS_SEQ_STATUS, 10, 9⟩
def RAS_SEQ_STATUS_ATTEMPTS : Fld := ⟨Reg.RAS_SEQ_STATUS, 13, 12⟩
def RAS_SEQ_STATUS_CAP : Fld := ⟨Reg.RAS_SEQ_STATUS, 14, 14⟩
def RAS_SEQ_CTL_RELEASE : Fld := ⟨Reg.RAS_SEQ_CTL, 0, 0⟩
def RAS_SEQ_CTL_FORCE : Fld := ⟨Reg.RAS_SEQ_CTL, 1, 1⟩
def RAS_SEQ_CFG_HB_MS : Fld := ⟨Reg.RAS_SEQ_CFG, 7, 0⟩
def RAS_SEQ_CFG_LOCK : Fld := ⟨Reg.RAS_SEQ_CFG, 31, 31⟩
def RAS_HB_BEAT : Fld := ⟨Reg.RAS_HB, 31, 0⟩
def RAS_DM_CTL_RETRY : Fld := ⟨Reg.RAS_DM_CTL, 0, 0⟩
def RAS_SPARES_SPARES : Fld := ⟨Reg.RAS_SPARES, 3, 0⟩
def RAS_SPARES_RETIRED : Fld := ⟨Reg.RAS_SPARES, 11, 4⟩
def RAS_SPARES_LOANED : Fld := ⟨Reg.RAS_SPARES, 15, 12⟩
def RAS_TEST_CFG_EN : Fld := ⟨Reg.RAS_TEST_CFG, 0, 0⟩
def RAS_TEST_CFG_PERIOD_H : Fld := ⟨Reg.RAS_TEST_CFG, 15, 8⟩
def RAS_RPT_BASE_LO_RPT_EN : Fld := ⟨Reg.RAS_RPT_BASE_LO, 0, 0⟩
def RAS_RPT_BASE_LO_BASE_LO : Fld := ⟨Reg.RAS_RPT_BASE_LO, 31, 22⟩
def RAS_RPT_BASE_HI_BASE_HI : Fld := ⟨Reg.RAS_RPT_BASE_HI, 6, 0⟩
def RAS_FLOG_HEAD_COUNT : Fld := ⟨Reg.RAS_FLOG_HEAD, 31, 0⟩
def RAS_REGERR_CNT_COUNT : Fld := ⟨Reg.RAS_REGERR_CNT, 31, 0⟩
def RAS_REGERR_ADDR_COUNT : Fld := ⟨Reg.RAS_REGERR_ADDR, 31, 0⟩
def RAS_RPT_LOST_COUNT : Fld := ⟨Reg.RAS_RPT_LOST, 31, 0⟩
def RAS_UNIT_FAULT_CNT_COUNT : Fld := ⟨Reg.RAS_UNIT_FAULT_CNT, 31, 0⟩
def RAS_CE_CNT_COUNT : Fld := ⟨Reg.RAS_CE_CNT, 31, 0⟩
def RAS_FLOG_WORD : Fld := ⟨Reg.RAS_FLOG, 31, 0⟩
def RAS_PSTATUS_SPAN_BROKEN : Fld := ⟨Reg.RAS_PSTATUS, 0, 0⟩
def RAS_PSTATUS_DEGRADED : Fld := ⟨Reg.RAS_PSTATUS, 1, 1⟩
def RAS_PSTATUS_RECOVERING : Fld := ⟨Reg.RAS_PSTATUS, 2, 2⟩
def RAS_PFAULT_CNT_COUNT : Fld := ⟨Reg.RAS_PFAULT_CNT, 31, 0⟩
def RAS_PAIR_CFG_FAULT_ON_MISMATCH : Fld := ⟨Reg.RAS_PAIR_CFG, 0, 0⟩
def SEC_STATUS_SECURE_BOOT : Fld := ⟨Reg.SEC_STATUS, 0, 0⟩
def SEC_STATUS_DEBUG_LEVEL : Fld := ⟨Reg.SEC_STATUS, 2, 1⟩
def SEC_STATUS_LOCKED : Fld := ⟨Reg.SEC_STATUS, 3, 3⟩
def SEC_STATUS_DBG_MAX : Fld := ⟨Reg.SEC_STATUS, 5, 4⟩
def SEC_STATUS_REVOKED : Fld := ⟨Reg.SEC_STATUS, 9, 6⟩
def SEC_SVN_CTR0 : Fld := ⟨Reg.SEC_SVN, 6, 0⟩
def SEC_SVN_CTR1 : Fld := ⟨Reg.SEC_SVN, 14, 8⟩
def SEC_SVN_CTR2 : Fld := ⟨Reg.SEC_SVN, 22, 16⟩
def SEC_CFG_SVN_HOLD : Fld := ⟨Reg.SEC_CFG, 0, 0⟩
def SEC_CFG_DOE_EN : Fld := ⟨Reg.SEC_CFG, 1, 1⟩
def SEC_LOCK_LOCK : Fld := ⟨Reg.SEC_LOCK, 0, 0⟩
def SEC_BOOT_FAIL_REASON : Fld := ⟨Reg.SEC_BOOT_FAIL, 2, 0⟩
def SEC_BOOT_FAIL_TYPE : Fld := ⟨Reg.SEC_BOOT_FAIL, 9, 8⟩
def SEC_DBG_CTL_LEVEL : Fld := ⟨Reg.SEC_DBG_CTL, 1, 0⟩
def SEC_DBG_CTL_CHAL : Fld := ⟨Reg.SEC_DBG_CTL, 2, 2⟩
def SEC_DBG_CTL_SUBMIT : Fld := ⟨Reg.SEC_DBG_CTL, 3, 3⟩
def SEC_DBG_CTL_FAILS : Fld := ⟨Reg.SEC_DBG_CTL, 5, 4⟩
def SEC_DBG_CHAL_COUNT : Fld := ⟨Reg.SEC_DBG_CHAL, 31, 0⟩
def SEC_DBG_KEY_COUNT : Fld := ⟨Reg.SEC_DBG_KEY, 31, 0⟩
def SEC_DBG_RESP_COUNT : Fld := ⟨Reg.SEC_DBG_RESP, 31, 0⟩
def SEC_KEY_ROT_CNT_COUNT : Fld := ⟨Reg.SEC_KEY_ROT_CNT, 31, 0⟩
def SEC_KEY_STATUS_COUNT : Fld := ⟨Reg.SEC_KEY_STATUS, 31, 0⟩
def SEC_GCM_FAIL_CNT_COUNT : Fld := ⟨Reg.SEC_GCM_FAIL_CNT, 31, 0⟩
def SEC_LINK_AUTH_FAIL_COUNT : Fld := ⟨Reg.SEC_LINK_AUTH_FAIL, 31, 0⟩
def MGT_STATE_MODE : Fld := ⟨Reg.MGT_STATE, 1, 0⟩
def MGT_STATE_STEP : Fld := ⟨Reg.MGT_STATE, 6, 2⟩
def MGT_STATE_RUN_SET : Fld := ⟨Reg.MGT_STATE, 7, 7⟩
def MGT_STATE_PREF_SET : Fld := ⟨Reg.MGT_STATE, 8, 8⟩
def MGT_STATE_ACT_PEND : Fld := ⟨Reg.MGT_STATE, 9, 9⟩
def MGT_STATE_FAILED_BOOTS : Fld := ⟨Reg.MGT_STATE, 15, 12⟩
def MGT_CMD_CODE : Fld := ⟨Reg.MGT_CMD, 7, 0⟩
def MGT_STATUS_BUSY : Fld := ⟨Reg.MGT_STATUS, 0, 0⟩
def MGT_STATUS_DONE : Fld := ⟨Reg.MGT_STATUS, 1, 1⟩
def MGT_STATUS_RESULT : Fld := ⟨Reg.MGT_STATUS, 15, 8⟩
def MGT_STATUS_REFUSED : Fld := ⟨Reg.MGT_STATUS, 31, 16⟩
def MGT_OP_OP : Fld := ⟨Reg.MGT_OP, 7, 0⟩
def MGT_OP_PROGRESS : Fld := ⟨Reg.MGT_OP, 15, 8⟩
def MGT_CTL_ABORT : Fld := ⟨Reg.MGT_CTL, 0, 0⟩
def MGT_CTL_IRQ_EN : Fld := ⟨Reg.MGT_CTL, 1, 1⟩
def MGT_BUSY_CNT_COUNT : Fld := ⟨Reg.MGT_BUSY_CNT, 31, 0⟩
def MGT_HOURS_HOURS : Fld := ⟨Reg.MGT_HOURS, 31, 0⟩
def MGT_DECISION_DECISION : Fld := ⟨Reg.MGT_DECISION, 31, 0⟩
def MGT_ARG_ARG : Fld := ⟨Reg.MGT_ARG, 31, 0⟩
def MGT_RES_RES : Fld := ⟨Reg.MGT_RES, 31, 0⟩
def MGT_AGE_SEL_GROUP : Fld := ⟨Reg.MGT_AGE_SEL, 3, 0⟩
def MGT_AGE_DRIFT_PS : Fld := ⟨Reg.MGT_AGE, 7, 0⟩
def MGT_AGE_GB16 : Fld := ⟨Reg.MGT_AGE, 13, 8⟩
def MGT_AGE_GB12 : Fld := ⟨Reg.MGT_AGE, 19, 14⟩
def MGT_AGE_GB08 : Fld := ⟨Reg.MGT_AGE, 25, 20⟩
def MGT_AGE_STATUS_DUE_H : Fld := ⟨Reg.MGT_AGE_STATUS, 15, 0⟩
def MGT_AGE_STATUS_LIMIT : Fld := ⟨Reg.MGT_AGE_STATUS, 16, 16⟩

end Fld

/-- Registers of 00_scope.md. -/
def regTable0 : List RegDesc := [
  ⟨Reg.DEV_ID, 0x4, 1, false, .none, [⟨15, 0, .ro⟩, ⟨19, 16, .ro⟩, ⟨27, 20, .ro⟩]⟩,
  ⟨Reg.DEV_CAPS0, 0x4, 1, false, .none, [⟨6, 0, .ro⟩, ⟨10, 7, .ro⟩, ⟨13, 11, .ro⟩, ⟨16, 14, .ro⟩, ⟨23, 17, .ro⟩, ⟨27, 24, .ro⟩, ⟨28, 28, .ro⟩, ⟨29, 29, .ro⟩, ⟨31, 30, .ro⟩]⟩,
  ⟨Reg.DEV_CAPS1, 0x4, 1, false, .none, [⟨11, 0, .ro⟩, ⟨19, 16, .ro⟩, ⟨20, 20, .ro⟩, ⟨21, 21, .ro⟩, ⟨31, 24, .ro⟩]⟩]
/-- Registers of 20_host_interface_and_package.md. -/
def regTable1 : List RegDesc := [
  ⟨Reg.PCI_BAR4_BASE_LO, 0x4, 1, false, .function, [⟨31, 28, .rw⟩]⟩,
  ⟨Reg.PCI_BAR4_BASE_HI, 0x4, 1, false, .function, [⟨6, 0, .rw⟩]⟩,
  ⟨Reg.PCI_BAR4_ERR, 0x4, 1, false, .function, [⟨31, 0, .rc⟩]⟩,
  ⟨Reg.PCI_LINK, 0x4, 1, false, .none, [⟨0, 0, .ro⟩, ⟨3, 1, .ro⟩, ⟨8, 4, .ro⟩, ⟨31, 16, .ro⟩]⟩,
  ⟨Reg.PCI_ATS_INV_CNT, 0x4, 1, false, .none, [⟨31, 0, .rc⟩]⟩,
  ⟨Reg.PCI_SUPPLY_LAST, 0x4, 1, false, .none, [⟨3, 0, .ro⟩]⟩]
/-- Registers of 03_command_submission.md. -/
def regTable2 : List RegDesc := [
  ⟨Reg.KRING_BASE_LO, 0x4, 1, true, .none, [⟨31, 12, .rwl⟩]⟩,
  ⟨Reg.KRING_BASE_HI, 0x4, 1, true, .none, [⟨6, 0, .rwl⟩]⟩,
  ⟨Reg.KRING_CTL, 0x4, 1, true, .none, [⟨0, 0, .rw⟩, ⟨12, 8, .rwl⟩, ⟨21, 16, .rw⟩, ⟨24, 24, .rw⟩]⟩,
  ⟨Reg.KRING_STATUS, 0x4, 1, true, .none, [⟨1, 0, .ro⟩, ⟨31, 16, .ro⟩]⟩,
  ⟨Reg.EVRING_BASE_LO, 0x4, 1, true, .none, [⟨31, 12, .rwl⟩]⟩,
  ⟨Reg.EVRING_BASE_HI, 0x4, 1, true, .none, [⟨6, 0, .rwl⟩]⟩,
  ⟨Reg.EVRING_CTL, 0x4, 1, true, .none, [⟨0, 0, .rw⟩, ⟨12, 8, .rwl⟩, ⟨21, 16, .rw⟩]⟩,
  ⟨Reg.EVRING_HEAD, 0x4, 1, true, .none, [⟨31, 0, .rw⟩]⟩,
  ⟨Reg.EVRING_TAIL, 0x4, 1, true, .none, [⟨31, 0, .ro⟩]⟩,
  ⟨Reg.EVRING_LOST, 0x4, 1, true, .none, [⟨31, 0, .rc⟩]⟩,
  ⟨Reg.DB_DISCARD, 0x4, 1, true, .none, [⟨31, 0, .rc⟩]⟩]
/-- Registers of 04_scheduling_and_synchronisation.md. -/
def regTable3 : List RegDesc := [
  ⟨Reg.SCHED_CFG, 0x4, 1, true, .none, [⟨13, 0, .rw⟩, ⟨22, 16, .rw⟩]⟩,
  ⟨Reg.SAVE_BASE_LO, 0x4, 1, true, .none, [⟨0, 0, .rwl⟩, ⟨31, 12, .rwl⟩]⟩,
  ⟨Reg.SAVE_BASE_HI, 0x4, 1, true, .none, [⟨6, 0, .rwl⟩]⟩,
  ⟨Reg.INTF_IDX, 0x4, 1, true, .none, [⟨15, 0, .ro⟩, ⟨30, 16, .ro⟩, ⟨31, 31, .ro⟩]⟩,
  ⟨Reg.INTF_THRESH, 0x4, 1, true, .none, [⟨15, 0, .rw⟩]⟩,
  ⟨Reg.ACCT_BASE_LO, 0x4, 1, true, .none, [⟨0, 0, .rw⟩, ⟨31, 22, .rwl⟩]⟩,
  ⟨Reg.ACCT_BASE_HI, 0x4, 1, true, .none, [⟨6, 0, .rwl⟩]⟩,
  ⟨Reg.ACCT_LOST, 0x4, 1, true, .none, [⟨31, 0, .rc⟩]⟩,
  ⟨Reg.FENCE_REG_CNT, 0x4, 1, true, .none, [⟨31, 0, .rc⟩]⟩,
  ⟨Reg.PREEMPT_CNT, 0x4, 1, true, .none, [⟨31, 0, .rc⟩]⟩,
  ⟨Reg.DONATE_CNT, 0x4, 1, true, .none, [⟨31, 0, .rc⟩]⟩,
  ⟨Reg.DISP_LATE_CNT, 0x4, 1, true, .none, [⟨31, 0, .rc⟩]⟩]
/-- Registers of 04_scheduling_and_synchronisation.md. -/
def regTable4 : List RegDesc := [
  ⟨Reg.EVT_CFG, 0x4, 256, false, .none, [⟨3, 0, .rw⟩, ⟨4, 4, .rw⟩, ⟨5, 5, .ro⟩, ⟨10, 8, .rw⟩]⟩]
/-- Registers of 10_continuous_batching.md. -/
def regTable5 : List RegDesc := [
  ⟨Reg.BATCH_STEP_LO, 0x4, 1, true, .none, [⟨31, 0, .ro⟩]⟩,
  ⟨Reg.BATCH_STEP_HI, 0x4, 1, true, .none, [⟨31, 0, .ro⟩]⟩,
  ⟨Reg.BATCH_COUNT, 0x4, 1, true, .none, [⟨12, 0, .ro⟩, ⟨28, 16, .ro⟩]⟩,
  ⟨Reg.BATCH_SEL, 0x4, 1, true, .none, [⟨11, 0, .rw⟩]⟩,
  ⟨Reg.BATCH_SLOT_STATUS, 0x4, 1, true, .slot, [⟨2, 0, .ro⟩, ⟨3, 3, .ro⟩, ⟨4, 4, .ro⟩, ⟨5, 5, .ro⟩, ⟨6, 6, .ro⟩, ⟨31, 16, .ro⟩]⟩,
  ⟨Reg.BATCH_SLOT_POS, 0x4, 1, true, .slot, [⟨31, 0, .ro⟩]⟩,
  ⟨Reg.BATCH_RANGE, 0x8, 16, false, .none, [⟨11, 0, .rw⟩, ⟨28, 16, .rw⟩]⟩,
  ⟨Reg.BATCH_TOKMAX, 0x8, 16, false, .none, [⟨16, 0, .rw⟩]⟩]
/-- Registers of 02_partitions_and_translation.md. -/
def regTable6 : List RegDesc := [
  ⟨Reg.PART_STATUS, 0x4, 1, true, .none, [⟨2, 0, .ro⟩, ⟨3, 3, .ro⟩, ⟨5, 4, .ro⟩, ⟨6, 6, .ro⟩, ⟨7, 7, .ro⟩, ⟨11, 8, .ro⟩, ⟨18, 12, .ro⟩, ⟨23, 19, .ro⟩]⟩,
  ⟨Reg.PART_MEM, 0x4, 1, true, .none, [⟨8, 0, .ro⟩, ⟨22, 16, .ro⟩]⟩,
  ⟨Reg.PART_ASID, 0x4, 1, true, .none, [⟨11, 0, .ro⟩, ⟨28, 16, .ro⟩]⟩,
  ⟨Reg.PART_ASIDT_LO, 0x4, 1, true, .none, [⟨31, 12, .rwl⟩]⟩,
  ⟨Reg.PART_ASIDT_HI, 0x4, 1, true, .none, [⟨6, 0, .rwl⟩]⟩,
  ⟨Reg.PART_FAULT, 0x4, 1, true, .none, [⟨0, 0, .rw1c⟩, ⟨1, 1, .rw1c⟩, ⟨2, 2, .rw1c⟩, ⟨3, 3, .rw1c⟩, ⟨4, 4, .rw1c⟩, ⟨5, 5, .rw1c⟩, ⟨6, 6, .rw1c⟩]⟩,
  ⟨Reg.PART_FAULT_ID, 0x4, 1, true, .none, [⟨11, 0, .ro⟩, ⟨15, 12, .ro⟩, ⟨31, 16, .ro⟩]⟩,
  ⟨Reg.PART_FAULT_VA_LO, 0x4, 1, true, .none, [⟨31, 0, .ro⟩]⟩,
  ⟨Reg.PART_FAULT_VA_HI, 0x4, 1, true, .none, [⟨15, 0, .ro⟩]⟩,
  ⟨Reg.PART_PINWR_CNT, 0x4, 1, true, .none, [⟨31, 0, .rc⟩]⟩,
  ⟨Reg.PART_INVAL_CNT, 0x4, 1, true, .none, [⟨31, 0, .ro⟩]⟩]
/-- Registers of 05_cluster_execution.md. -/
def regTable7 : List RegDesc := [
  ⟨Reg.CLU_SEL, 0x4, 1, false, .none, [⟨6, 0, .rw⟩]⟩,
  ⟨Reg.CLU_STATUS, 0x4, 1, false, .cluster, [⟨2, 0, .ro⟩, ⟨7, 4, .ro⟩, ⟨14, 8, .ro⟩, ⟨22, 16, .ro⟩]⟩,
  ⟨Reg.CLU_EPOCH, 0x4, 1, false, .cluster, [⟨15, 0, .ro⟩]⟩,
  ⟨Reg.CLU_SFU, 0x4, 1, false, .cluster, [⟨15, 0, .ro⟩, ⟨16, 16, .ro⟩]⟩,
  ⟨Reg.EPOCH_DROP_CNT, 0x4, 1, false, .none, [⟨31, 0, .rc⟩]⟩]
/-- Registers of 06_tensor_unit.md. -/
def regTable8 : List RegDesc := [
  ⟨Reg.CLU_TNS_STICKY, 0x4, 1, false, .cluster, [⟨0, 0, .rw1c⟩, ⟨1, 1, .rw1c⟩, ⟨2, 2, .rw1c⟩, ⟨3, 3, .rw1c⟩, ⟨4, 4, .rw1c⟩, ⟨5, 5, .rw1c⟩, ⟨6, 6, .rw1c⟩]⟩]
/-- Registers of 07_number_formats.md. -/
def regTable9 : List RegDesc := [
  ⟨Reg.CLU_QLOSS, 0x4, 1, false, .cluster, [⟨31, 0, .rc⟩]⟩]
/-- Registers of 08_crema_and_shared_cache.md. -/
def regTable10 : List RegDesc := [
  ⟨Reg.CREMA_STATUS, 0x4, 1, false, .cluster, [⟨8, 0, .ro⟩, ⟨24, 16, .ro⟩]⟩,
  ⟨Reg.CREMA_ECC, 0x4, 1, false, .cluster, [⟨31, 0, .rc⟩]⟩,
  ⟨Reg.CREMA_CONFLICT, 0x4, 1, false, .cluster, [⟨31, 0, .rc⟩]⟩,
  ⟨Reg.SC_WAYMODE, 0x4, 1, false, .none, [⟨31, 0, .ro⟩]⟩,
  ⟨Reg.SC_WAYOFF, 0x4, 1, false, .none, [⟨15, 0, .rw⟩]⟩,
  ⟨Reg.SC_STATUS, 0x4, 1, false, .none, [⟨0, 0, .ro⟩, ⟨4, 1, .ro⟩]⟩,
  ⟨Reg.SC_SCROWN_LO, 0x4, 1, false, .none, [⟨31, 0, .ro⟩]⟩,
  ⟨Reg.SC_SCROWN_HI, 0x4, 1, false, .none, [⟨31, 0, .ro⟩]⟩,
  ⟨Reg.SC_SEL, 0x4, 1, false, .none, [⟨4, 0, .rw⟩]⟩,
  ⟨Reg.SC_HIT_CNT, 0x4, 1, false, .slice, [⟨31, 0, .rc⟩]⟩,
  ⟨Reg.SC_MISS_CNT, 0x4, 1, false, .slice, [⟨31, 0, .rc⟩]⟩,
  ⟨Reg.SC_MERGE_CNT, 0x4, 1, false, .slice, [⟨31, 0, .rc⟩]⟩]
/-- Registers of 08_crema_and_shared_cache.md. -/
def regTable11 : List RegDesc := [
  ⟨Reg.SC_VHIT_CNT, 0x4, 1, false, .slice, [⟨31, 0, .rc⟩]⟩,
  ⟨Reg.SC_MRFULL_CNT, 0x4, 1, false, .slice, [⟨31, 0, .rc⟩]⟩,
  ⟨Reg.SC_ECC_CE_CNT, 0x4, 1, false, .slice, [⟨31, 0, .rc⟩]⟩]
/-- Registers of 09_context_stacks_and_attention.md. -/
def regTable12 : List RegDesc := [
  ⟨Reg.CTX_NEXT_DET, 0x4, 1, false, .none, [⟨4, 0, .rw⟩, ⟨12, 8, .rw⟩]⟩,
  ⟨Reg.CTX_FREE, 0x4, 1, false, .none, [⟨4, 0, .ro⟩, ⟨12, 8, .ro⟩]⟩,
  ⟨Reg.CTX_SLOT_OWN_LO, 0x4, 1, false, .none, [⟨31, 0, .ro⟩]⟩,
  ⟨Reg.CTX_SLOT_OWN_HI, 0x4, 1, false, .none, [⟨31, 0, .ro⟩]⟩,
  ⟨Reg.CTX_GOV, 0x4, 1, false, .none, [⟨0, 0, .rw⟩]⟩,
  ⟨Reg.CTX_STK_SEL, 0x4, 1, false, .none, [⟨2, 0, .rw⟩]⟩,
  ⟨Reg.CTX_STK_STATUS, 0x4, 1, false, .stack, [⟨0, 0, .ro⟩, ⟨31, 16, .ro⟩]⟩,
  ⟨Reg.CTX_STK_POWER, 0x4, 1, false, .stack, [⟨7, 0, .ro⟩, ⟨15, 8, .ro⟩]⟩,
  ⟨Reg.CTX_ECC_CE, 0x4, 1, false, .stack, [⟨31, 0, .rc⟩]⟩,
  ⟨Reg.CTX_ECC_UE, 0x4, 1, false, .stack, [⟨31, 0, .rc⟩]⟩,
  ⟨Reg.CTX_RFM_EXTRA, 0x4, 1, false, .stack, [⟨31, 0, .rc⟩]⟩,
  ⟨Reg.CTX_POOL_HEAD_LO, 0x4, 1, true, .none, [⟨0, 0, .rw⟩, ⟨31, 16, .rwl⟩]⟩]
/-- Registers of 09_context_stacks_and_attention.md. -/
def regTable13 : List RegDesc := [
  ⟨Reg.CTX_POOL_HEAD_HI, 0x4, 1, true, .none, [⟨6, 0, .rwl⟩]⟩,
  ⟨Reg.CTX_POOL_CNT, 0x4, 1, true, .none, [⟨22, 0, .rwl⟩, ⟨24, 24, .rw1c⟩, ⟨25, 25, .rw1c⟩]⟩,
  ⟨Reg.CTX_POOL_PUSH_LO, 0x4, 1, true, .none, [⟨31, 16, .wo⟩]⟩,
  ⟨Reg.CTX_POOL_PUSH_HI, 0x4, 1, true, .none, [⟨6, 0, .wo⟩]⟩,
  ⟨Reg.CTX_QLOSS, 0x4, 1, true, .none, [⟨31, 0, .rc⟩]⟩,
  ⟨Reg.CTX_DET, 0x4, 1, true, .none, [⟨4, 0, .ro⟩, ⟨12, 8, .ro⟩]⟩]
/-- Registers of 11_raster_pipeline.md. -/
def regTable14 : List RegDesc := [
  ⟨Reg.RAS_PIPE_PRIM_CNT, 0x4, 1, false, .none, [⟨31, 0, .rc⟩]⟩,
  ⟨Reg.RAS_PIPE_CULL_CNT, 0x4, 1, false, .none, [⟨31, 0, .rc⟩]⟩,
  ⟨Reg.RAS_PIPE_CLIP_CNT, 0x4, 1, false, .none, [⟨31, 0, .rc⟩]⟩,
  ⟨Reg.RAS_PIPE_TILE_CNT, 0x4, 1, true, .none, [⟨31, 0, .rc⟩]⟩,
  ⟨Reg.RAS_PIPE_TILE_MAXCYC, 0x4, 1, true, .none, [⟨31, 0, .rc⟩]⟩,
  ⟨Reg.RAS_PIPE_CHAIN_FAIL, 0x4, 1, true, .none, [⟨31, 0, .rc⟩]⟩]
/-- Registers of 12_layer_composition.md. -/
def regTable15 : List RegDesc := [
  ⟨Reg.LCE_PIPE_CTL, 0x100, 2, false, .none, [⟨0, 0, .rw⟩, ⟨1, 1, .rwl⟩, ⟨3, 2, .rwl⟩, ⟨4, 4, .rwl⟩, ⟨5, 5, .rwl⟩, ⟨11, 8, .rw⟩]⟩,
  ⟨Reg.LCE_H, 0x100, 2, false, .none, [⟨15, 0, .rwl⟩, ⟨31, 16, .rwl⟩]⟩,
  ⟨Reg.LCE_HS, 0x100, 2, false, .none, [⟨15, 0, .rwl⟩, ⟨30, 16, .rwl⟩, ⟨31, 31, .rwl⟩]⟩,
  ⟨Reg.LCE_V, 0x100, 2, false, .none, [⟨15, 0, .rwl⟩, ⟨31, 16, .rwl⟩]⟩,
  ⟨Reg.LCE_VS, 0x100, 2, false, .none, [⟨15, 0, .rwl⟩, ⟨30, 16, .rwl⟩, ⟨31, 31, .rwl⟩]⟩,
  ⟨Reg.LCE_PCLK, 0x100, 2, false, .none, [⟨19, 0, .rwl⟩]⟩,
  ⟨Reg.LCE_BG, 0x100, 2, false, .none, [⟨29, 0, .rw⟩]⟩,
  ⟨Reg.LCE_PIPE_STATUS, 0x100, 2, false, .none, [⟨1, 0, .ro⟩, ⟨4, 2, .ro⟩, ⟨7, 5, .ro⟩, ⟨8, 8, .ro⟩]⟩,
  ⟨Reg.LCE_FRAME, 0x100, 2, false, .none, [⟨31, 0, .ro⟩]⟩,
  ⟨Reg.LCE_PCRC_STATUS, 0x100, 2, false, .none, [⟨0, 0, .rw1c⟩, ⟨1, 1, .ro⟩, ⟨15, 8, .ro⟩]⟩,
  ⟨Reg.LCE_PCRC_LAST, 0x100, 2, false, .none, [⟨31, 0, .ro⟩]⟩,
  ⟨Reg.LCE_PCRC_CNT, 0x100, 2, false, .none, [⟨31, 0, .rc⟩]⟩]
/-- Registers of 12_layer_composition.md. -/
def regTable16 : List RegDesc := [
  ⟨Reg.LCE_UNDERRUN_CNT, 0x100, 2, false, .none, [⟨31, 0, .rc⟩]⟩,
  ⟨Reg.LCE_PCRC_LIMIT, 0x4, 1, false, .none, [⟨7, 0, .rw⟩]⟩]
/-- Registers of 13_compression_engine.md. -/
def regTable17 : List RegDesc := [
  ⟨Reg.CDE_LANE_STATUS, 0x4, 1, false, .none, [⟨3, 0, .ro⟩, ⟨7, 4, .ro⟩]⟩,
  ⟨Reg.CDE_JOB_CNT, 0x4, 1, false, .none, [⟨31, 0, .rc⟩]⟩,
  ⟨Reg.CDE_VERIFY_CNT, 0x4, 1, false, .none, [⟨31, 0, .rc⟩]⟩,
  ⟨Reg.CDE_CORRUPT_CNT, 0x4, 1, false, .none, [⟨31, 0, .rc⟩]⟩,
  ⟨Reg.CDE_OVF_CNT, 0x4, 1, false, .none, [⟨31, 0, .rc⟩]⟩]
/-- Registers of 14_axmond_link.md. -/
def regTable18 : List RegDesc := [
  ⟨Reg.AXL_DEVICE, 0x4, 1, false, .none, [⟨5, 0, .rwl⟩]⟩,
  ⟨Reg.AXL_SERIAL_LO, 0x4, 1, false, .none, [⟨31, 0, .ro⟩]⟩,
  ⟨Reg.AXL_SERIAL_HI, 0x4, 1, false, .none, [⟨31, 0, .ro⟩]⟩,
  ⟨Reg.AXL_NEXT_DET, 0x4, 1, false, .none, [⟨15, 0, .rw⟩, ⟨29, 16, .rw⟩]⟩,
  ⟨Reg.AXL_TAGS_FREE, 0x4, 1, false, .none, [⟨13, 0, .ro⟩]⟩,
  ⟨Reg.AXL_TSWAP_CTL, 0x4, 1, false, .none, [⟨0, 0, .wo⟩, ⟨1, 1, .ro⟩, ⟨2, 2, .ro⟩, ⟨13, 8, .rw⟩, ⟨31, 16, .ro⟩]⟩,
  ⟨Reg.AXL_TSWAP_AT_LO, 0x4, 1, false, .none, [⟨31, 0, .rw⟩]⟩,
  ⟨Reg.AXL_TSWAP_AT_HI, 0x4, 1, false, .none, [⟨31, 0, .rw⟩]⟩,
  ⟨Reg.AXL_PORT_CTL, 0x40, 8, false, .none, [⟨1, 0, .rw⟩, ⟨2, 2, .rwl⟩, ⟨15, 8, .rw⟩, ⟨19, 16, .rw⟩, ⟨20, 20, .rw⟩]⟩,
  ⟨Reg.AXL_PORT_STATUS, 0x40, 8, false, .none, [⟨2, 0, .ro⟩, ⟨3, 3, .ro⟩, ⟨7, 4, .ro⟩, ⟨13, 8, .ro⟩, ⟨14, 14, .ro⟩, ⟨15, 15, .ro⟩, ⟨31, 16, .ro⟩]⟩,
  ⟨Reg.AXL_FEC_CE, 0x40, 8, false, .none, [⟨31, 0, .rc⟩]⟩,
  ⟨Reg.AXL_CRC_ERR, 0x40, 8, false, .none, [⟨31, 0, .rc⟩]⟩]
/-- Registers of 14_axmond_link.md. -/
def regTable19 : List RegDesc := [
  ⟨Reg.AXL_RETRY_CNT, 0x40, 8, false, .none, [⟨31, 0, .rc⟩]⟩,
  ⟨Reg.AXL_SPARE_CNT, 0x40, 8, false, .none, [⟨31, 0, .rc⟩]⟩,
  ⟨Reg.AXL_ROUTE, 0x4, 64, false, .none, [⟨7, 0, .rw⟩]⟩,
  ⟨Reg.AXL_PTAGS, 0x4, 16, false, .none, [⟨13, 0, .rw⟩]⟩,
  ⟨Reg.AXL_QTAGS, 0x4, 1, true, .none, [⟨13, 0, .rw⟩]⟩,
  ⟨Reg.AXL_PSWAP_CTL, 0x4, 1, true, .none, [⟨0, 0, .wo⟩, ⟨1, 1, .ro⟩, ⟨2, 2, .ro⟩, ⟨31, 16, .ro⟩]⟩,
  ⟨Reg.AXL_PSWAP_AT_LO, 0x4, 1, true, .none, [⟨31, 0, .rw⟩]⟩,
  ⟨Reg.AXL_PSWAP_AT_HI, 0x4, 1, true, .none, [⟨31, 0, .rw⟩]⟩,
  ⟨Reg.AXL_IN_DENY_CNT, 0x4, 1, true, .none, [⟨31, 0, .rc⟩]⟩,
  ⟨Reg.AXL_IN_BASE_LO, 0x10, 8, true, .none, [⟨31, 16, .rw⟩]⟩,
  ⟨Reg.AXL_IN_BASE_HI, 0x10, 8, true, .none, [⟨6, 0, .rw⟩]⟩,
  ⟨Reg.AXL_IN_SIZE, 0x10, 8, true, .none, [⟨22, 0, .rw⟩]⟩]
/-- Registers of 14_axmond_link.md. -/
def regTable20 : List RegDesc := [
  ⟨Reg.AXL_IN_SRC, 0x10, 8, true, .none, [⟨5, 0, .rw⟩, ⟨6, 6, .rw⟩, ⟨23, 8, .rw⟩, ⟨24, 24, .rw⟩, ⟨25, 25, .rw⟩, ⟨26, 26, .rw⟩]⟩]
/-- Registers of 15_determinism_and_global_time.md. -/
def regTable21 : List RegDesc := [
  ⟨Reg.GTC_LO, 0x4, 1, false, .none, [⟨31, 0, .ro⟩]⟩,
  ⟨Reg.GTC_HI, 0x4, 1, false, .none, [⟨31, 0, .ro⟩]⟩,
  ⟨Reg.GTC_CTL, 0x4, 1, false, .none, [⟨0, 0, .rwl⟩, ⟨1, 1, .rw⟩, ⟨2, 2, .wo⟩, ⟨10, 8, .ro⟩, ⟨14, 12, .ro⟩, ⟨21, 16, .ro⟩]⟩,
  ⟨Reg.GTC_OFFSET, 0x4, 1, false, .none, [⟨15, 0, .ro⟩, ⟨31, 16, .ro⟩]⟩,
  ⟨Reg.GTC_SET_LO, 0x4, 1, false, .none, [⟨31, 0, .rw⟩]⟩,
  ⟨Reg.GTC_SET_HI, 0x4, 1, false, .none, [⟨31, 0, .wo⟩]⟩,
  ⟨Reg.GTC_PPS_LO, 0x4, 1, false, .none, [⟨31, 0, .ro⟩]⟩,
  ⟨Reg.GTC_PPS_HI, 0x4, 1, false, .none, [⟨31, 0, .ro⟩]⟩,
  ⟨Reg.DET_FW_ID, 0x4, 1, false, .none, [⟨31, 0, .ro⟩]⟩,
  ⟨Reg.DET_MAP, 0x4, 1, false, .none, [⟨6, 0, .ro⟩, ⟨14, 8, .ro⟩]⟩,
  ⟨Reg.DET_MAP_FORCE, 0x4, 1, false, .none, [⟨6, 0, .rw⟩]⟩,
  ⟨Reg.DET_JOB, 0x4, 1, true, .none, [⟨5, 0, .rwl⟩]⟩]
/-- Registers of 15_determinism_and_global_time.md. -/
def regTable22 : List RegDesc := [
  ⟨Reg.DET_PERTURB, 0x4, 1, true, .none, [⟨3, 0, .rw1c⟩]⟩,
  ⟨Reg.DET_PERT_CNT, 0x4, 1, true, .none, [⟨31, 0, .rc⟩]⟩,
  ⟨Reg.DET_KEY_WHY, 0x4, 1, true, .none, [⟨0, 0, .rw1c⟩, ⟨1, 1, .rw1c⟩, ⟨2, 2, .rw1c⟩, ⟨3, 3, .rw1c⟩]⟩,
  ⟨Reg.DET_KEY_CNT, 0x4, 1, true, .none, [⟨31, 0, .rc⟩]⟩,
  ⟨Reg.DET_GTC_LO, 0x4, 1, true, .none, [⟨31, 0, .ro⟩]⟩,
  ⟨Reg.DET_GTC_HI, 0x4, 1, true, .none, [⟨31, 0, .ro⟩]⟩,
  ⟨Reg.DET_LAST_LAUNCH_LO, 0x4, 1, true, .none, [⟨31, 0, .ro⟩]⟩,
  ⟨Reg.DET_LAST_LAUNCH_HI, 0x4, 1, true, .none, [⟨31, 0, .ro⟩]⟩]
/-- Registers of 16_power_and_thermal.md. -/
def regTable23 : List RegDesc := [
  ⟨Reg.PWR_CAP, 0x4, 1, false, .none, [⟨9, 0, .rw⟩, ⟨25, 16, .rw⟩]⟩,
  ⟨Reg.PWR_EFFECTIVE, 0x4, 1, false, .none, [⟨9, 0, .ro⟩, ⟨25, 16, .ro⟩]⟩,
  ⟨Reg.PWR_PRIO, 0x4, 1, false, .none, [⟨1, 0, .rw⟩, ⟨3, 2, .rw⟩, ⟨5, 4, .rw⟩]⟩,
  ⟨Reg.PWR_FLOOR, 0x4, 1, false, .none, [⟨7, 0, .rw⟩, ⟨15, 8, .rw⟩, ⟨23, 16, .rw⟩]⟩,
  ⟨Reg.PWR_ALLOC, 0x4, 1, false, .none, [⟨9, 0, .ro⟩, ⟨19, 10, .ro⟩, ⟨29, 20, .ro⟩]⟩,
  ⟨Reg.PWR_MEAS, 0x4, 1, false, .none, [⟨9, 0, .ro⟩, ⟨19, 10, .ro⟩, ⟨29, 20, .ro⟩]⟩,
  ⟨Reg.PWR_DRIP, 0x4, 1, false, .none, [⟨5, 0, .ro⟩]⟩,
  ⟨Reg.PWR_EXT_CAP, 0x4, 1, false, .none, [⟨9, 0, .rw⟩]⟩,
  ⟨Reg.PWR_THR_ACTIVE, 0x4, 1, false, .none, [⟨11, 0, .ro⟩]⟩,
  ⟨Reg.PWR_THR_SEEN, 0x4, 1, false, .none, [⟨11, 0, .rw1c⟩]⟩,
  ⟨Reg.PWR_SHIFT_CTL, 0x4, 1, false, .none, [⟨0, 0, .rw⟩, ⟨7, 4, .rw⟩, ⟨15, 8, .rw⟩]⟩,
  ⟨Reg.PWR_SHIFT_MEMBERS_LO, 0x4, 1, false, .none, [⟨31, 0, .rw⟩]⟩]
/-- Registers of 16_power_and_thermal.md. -/
def regTable24 : List RegDesc := [
  ⟨Reg.PWR_SHIFT_MEMBERS_HI, 0x4, 1, false, .none, [⟨31, 0, .rw⟩]⟩,
  ⟨Reg.PWR_SHIFT_STATUS, 0x4, 1, false, .none, [⟨10, 0, .ro⟩, ⟨25, 16, .ro⟩, ⟨26, 26, .rw1c⟩]⟩,
  ⟨Reg.PWR_THERM_SEL, 0x4, 1, false, .none, [⟨4, 0, .rw⟩]⟩,
  ⟨Reg.PWR_THERM, 0x4, 1, false, .sensor, [⟨9, 0, .ro⟩, ⟨11, 10, .ro⟩]⟩,
  ⟨Reg.PWR_THR_DUR, 0x4, 12, false, .none, [⟨31, 0, .rc⟩]⟩,
  ⟨Reg.PWR_DEVSTATE, 0x4, 1, false, .none, [⟨0, 0, .rw⟩, ⟨2, 1, .ro⟩]⟩,
  ⟨Reg.PWR_AUTO, 0x4, 1, false, .none, [⟨0, 0, .rw⟩, ⟨31, 16, .rw⟩]⟩,
  ⟨Reg.PWR_GROUP_STATE, 0x4, 1, false, .none, [⟨23, 0, .ro⟩]⟩,
  ⟨Reg.PWR_WAKE_CNT, 0x4, 1, false, .none, [⟨31, 0, .rc⟩]⟩,
  ⟨Reg.PWR_WAKE_MAX, 0x4, 1, false, .none, [⟨31, 0, .rc⟩]⟩,
  ⟨Reg.PWR_DROOP_CNT, 0x4, 1, false, .none, [⟨31, 0, .rc⟩]⟩,
  ⟨Reg.PWR_SLOPE_VIOL, 0x4, 1, false, .none, [⟨31, 0, .rc⟩]⟩]
/-- Registers of 16_power_and_thermal.md. -/
def regTable25 : List RegDesc := [
  ⟨Reg.PWR_UNATTR_LO, 0x4, 1, false, .none, [⟨31, 0, .ro⟩]⟩,
  ⟨Reg.PWR_UNATTR_HI, 0x4, 1, false, .none, [⟨31, 0, .ro⟩]⟩,
  ⟨Reg.PWR_THERM_CFG, 0x4, 1, false, .none, [⟨3, 0, .rw⟩]⟩,
  ⟨Reg.PWR_STATUS, 0x4, 1, false, .none, [⟨15, 0, .rc⟩]⟩,
  ⟨Reg.PWR_PENERGY_LO, 0x4, 1, true, .none, [⟨31, 0, .ro⟩]⟩,
  ⟨Reg.PWR_PENERGY_HI, 0x4, 1, true, .none, [⟨31, 0, .ro⟩]⟩,
  ⟨Reg.PWR_PTHR, 0x4, 1, true, .none, [⟨11, 0, .rw1c⟩]⟩,
  ⟨Reg.PWR_PDRIP_US, 0x4, 1, true, .none, [⟨31, 0, .rc⟩]⟩,
  ⟨Reg.PWR_QENERGY_LO, 0x8, 64, true, .none, [⟨31, 0, .ro⟩]⟩,
  ⟨Reg.PWR_QENERGY_HI, 0x8, 64, true, .none, [⟨31, 0, .ro⟩]⟩]
/-- Registers of 17_reliability_and_safety.md. -/
def regTable26 : List RegDesc := [
  ⟨Reg.RAS_SEQ_STATUS, 0x4, 1, false, .none, [⟨5, 0, .ro⟩, ⟨8, 8, .ro⟩, ⟨10, 9, .ro⟩, ⟨13, 12, .ro⟩, ⟨14, 14, .ro⟩]⟩,
  ⟨Reg.RAS_SEQ_CTL, 0x4, 1, false, .none, [⟨0, 0, .wo⟩, ⟨1, 1, .wo⟩]⟩,
  ⟨Reg.RAS_SEQ_CFG, 0x4, 1, false, .none, [⟨7, 0, .rwl⟩, ⟨31, 31, .rw1s⟩]⟩,
  ⟨Reg.RAS_HB, 0x4, 1, false, .none, [⟨31, 0, .rw⟩]⟩,
  ⟨Reg.RAS_DM_CTL, 0x4, 1, false, .none, [⟨0, 0, .wo⟩]⟩,
  ⟨Reg.RAS_SPARES, 0x4, 1, false, .none, [⟨3, 0, .ro⟩, ⟨11, 4, .ro⟩, ⟨15, 12, .ro⟩]⟩,
  ⟨Reg.RAS_TEST_CFG, 0x4, 1, false, .none, [⟨0, 0, .rw⟩, ⟨15, 8, .rw⟩]⟩,
  ⟨Reg.RAS_RPT_BASE_LO, 0x4, 1, false, .none, [⟨0, 0, .rw⟩, ⟨31, 22, .rwl⟩]⟩,
  ⟨Reg.RAS_RPT_BASE_HI, 0x4, 1, false, .none, [⟨6, 0, .rwl⟩]⟩,
  ⟨Reg.RAS_FLOG_HEAD, 0x4, 1, false, .none, [⟨31, 0, .ro⟩]⟩,
  ⟨Reg.RAS_REGERR_CNT, 0x4, 1, false, .none, [⟨31, 0, .rc⟩]⟩,
  ⟨Reg.RAS_REGERR_ADDR, 0x4, 1, false, .none, [⟨31, 0, .ro⟩]⟩]
/-- Registers of 17_reliability_and_safety.md. -/
def regTable27 : List RegDesc := [
  ⟨Reg.RAS_RPT_LOST, 0x4, 1, false, .none, [⟨31, 0, .rc⟩]⟩,
  ⟨Reg.RAS_UNIT_FAULT_CNT, 0x4, 1, false, .none, [⟨31, 0, .rc⟩]⟩,
  ⟨Reg.RAS_CE_CNT, 0x4, 1, false, .none, [⟨31, 0, .rc⟩]⟩,
  ⟨Reg.RAS_FLOG, 0x4, 256, false, .none, [⟨31, 0, .ro⟩]⟩,
  ⟨Reg.RAS_PSTATUS, 0x4, 1, true, .none, [⟨0, 0, .rw1c⟩, ⟨1, 1, .ro⟩, ⟨2, 2, .ro⟩]⟩,
  ⟨Reg.RAS_PFAULT_CNT, 0x4, 1, true, .none, [⟨31, 0, .rc⟩]⟩,
  ⟨Reg.RAS_PAIR_CFG, 0x4, 1, true, .none, [⟨0, 0, .rwl⟩]⟩]
/-- Registers of 18_security.md. -/
def regTable28 : List RegDesc := [
  ⟨Reg.SEC_STATUS, 0x4, 1, false, .none, [⟨0, 0, .ro⟩, ⟨2, 1, .ro⟩, ⟨3, 3, .ro⟩, ⟨5, 4, .ro⟩, ⟨9, 6, .ro⟩]⟩,
  ⟨Reg.SEC_SVN, 0x4, 1, false, .none, [⟨6, 0, .ro⟩, ⟨14, 8, .ro⟩, ⟨22, 16, .ro⟩]⟩,
  ⟨Reg.SEC_CFG, 0x4, 1, false, .none, [⟨0, 0, .rwl⟩, ⟨1, 1, .rwl⟩]⟩,
  ⟨Reg.SEC_LOCK, 0x4, 1, false, .none, [⟨0, 0, .rw1s⟩]⟩,
  ⟨Reg.SEC_BOOT_FAIL, 0x4, 1, false, .none, [⟨2, 0, .ro⟩, ⟨9, 8, .ro⟩]⟩,
  ⟨Reg.SEC_DBG_CTL, 0x4, 1, false, .none, [⟨1, 0, .rw⟩, ⟨2, 2, .wo⟩, ⟨3, 3, .wo⟩, ⟨5, 4, .ro⟩]⟩,
  ⟨Reg.SEC_DBG_CHAL, 0x4, 8, false, .none, [⟨31, 0, .ro⟩]⟩,
  ⟨Reg.SEC_DBG_KEY, 0x4, 24, false, .none, [⟨31, 0, .wo⟩]⟩,
  ⟨Reg.SEC_DBG_RESP, 0x4, 24, false, .none, [⟨31, 0, .wo⟩]⟩,
  ⟨Reg.SEC_KEY_ROT_CNT, 0x4, 1, false, .none, [⟨31, 0, .rc⟩]⟩,
  ⟨Reg.SEC_KEY_STATUS, 0x4, 1, false, .none, [⟨31, 0, .ro⟩]⟩,
  ⟨Reg.SEC_GCM_FAIL_CNT, 0x4, 1, false, .none, [⟨31, 0, .rc⟩]⟩]
/-- Registers of 18_security.md. -/
def regTable29 : List RegDesc := [
  ⟨Reg.SEC_LINK_AUTH_FAIL, 0x4, 1, false, .none, [⟨31, 0, .rc⟩]⟩]
/-- Registers of 19_management_boot_calibration.md. -/
def regTable30 : List RegDesc := [
  ⟨Reg.MGT_STATE, 0x4, 1, false, .none, [⟨1, 0, .ro⟩, ⟨6, 2, .ro⟩, ⟨7, 7, .ro⟩, ⟨8, 8, .ro⟩, ⟨9, 9, .ro⟩, ⟨15, 12, .ro⟩]⟩,
  ⟨Reg.MGT_CMD, 0x4, 1, false, .none, [⟨7, 0, .wo⟩]⟩,
  ⟨Reg.MGT_STATUS, 0x4, 1, false, .none, [⟨0, 0, .ro⟩, ⟨1, 1, .rw1c⟩, ⟨15, 8, .ro⟩, ⟨31, 16, .ro⟩]⟩,
  ⟨Reg.MGT_OP, 0x4, 1, false, .none, [⟨7, 0, .ro⟩, ⟨15, 8, .ro⟩]⟩,
  ⟨Reg.MGT_CTL, 0x4, 1, false, .none, [⟨0, 0, .wo⟩, ⟨1, 1, .rw⟩]⟩,
  ⟨Reg.MGT_BUSY_CNT, 0x4, 1, false, .none, [⟨31, 0, .rc⟩]⟩,
  ⟨Reg.MGT_HOURS, 0x4, 1, false, .none, [⟨31, 0, .ro⟩]⟩,
  ⟨Reg.MGT_DECISION, 0x4, 1, false, .none, [⟨31, 0, .ro⟩]⟩,
  ⟨Reg.MGT_ARG, 0x4, 8, false, .none, [⟨31, 0, .rw⟩]⟩,
  ⟨Reg.MGT_RES, 0x4, 8, false, .none, [⟨31, 0, .ro⟩]⟩,
  ⟨Reg.MGT_AGE_SEL, 0x4, 1, false, .none, [⟨3, 0, .rw⟩]⟩,
  ⟨Reg.MGT_AGE, 0x4, 1, false, .group, [⟨7, 0, .ro⟩, ⟨13, 8, .ro⟩, ⟨19, 14, .ro⟩, ⟨25, 20, .ro⟩]⟩]
/-- Registers of 19_management_boot_calibration.md. -/
def regTable31 : List RegDesc := [
  ⟨Reg.MGT_AGE_STATUS, 0x4, 1, false, .none, [⟨15, 0, .ro⟩, ⟨16, 16, .rw1c⟩]⟩]

/-- Every register of BAR0. -/
def regTable : List RegDesc :=
  regTable0 ++ regTable1 ++ regTable2 ++ regTable3 ++ regTable4 ++ regTable5 ++ regTable6 ++ regTable7 ++ regTable8 ++ regTable9 ++ regTable10 ++ regTable11 ++ regTable12 ++ regTable13 ++ regTable14 ++ regTable15 ++ regTable16 ++ regTable17 ++ regTable18 ++ regTable19 ++ regTable20 ++ regTable21 ++ regTable22 ++ regTable23 ++ regTable24 ++ regTable25 ++ regTable26 ++ regTable27 ++ regTable28 ++ regTable29 ++ regTable30 ++ regTable31

end Sys2Proof.Machine
end

