-- ==== Sys2Proof/Machine/RasterTypes.lean ====
section
/-!
DEFINITION. The structured state of the raster pipeline (the spec's chapter 11): chains, the progress of a
DRAW, and the tiles being shaded. Data only.
-/

namespace Sys2Proof.Machine

/-- An attachment descriptor (R275). -/
structure Att where
  va : Nat
  md : Nat
  fmt : Nat
  load : Nat
  store : Bool
  pitch : Nat
  clear : Nat
  rva : Nat
  rmd : Nat
  rsvOk : Bool
  deriving DecidableEq, Repr

/-- A render-pass block (R274). `msaa` is the base-2 logarithm of the sample count. -/
structure RPass where
  width : Nat := 0
  height : Nat := 0
  msaa : Nat := 0
  colours : List Att := []
  depth : Option Att := none
  vtxKib : Nat := 0
  chunks : Nat := 0
  rsvOk : Bool := true
  deriving DecidableEq, Repr

/-- A tile's bin stream as the grinder builds it (R286, R287): its first and current chunk, the next record,
its PRIM records, and the draw (plus 1) whose DRAW and ARGS records it has. -/
structure Head where
  first : Nat
  chunk : Nat
  recNo : Nat
  prims : Nat := 0
  draw : Nat := 0
  deriving DecidableEq, Repr

/-- A queue's open chain (R271, R272). -/
structure Chain where
  rpVa : Nat := 0
  bsVa : Nat := 0
  draws : Nat := 0
  failed : Option Half := none
  pass : RPass := {}
  chunksUsed : Nat := 0
  /-- Vertex area in use, in units of 16 bytes. -/
  vtxUsed : Nat := 0
  binned : Nat := 0
  culled : Nat := 0
  heads : KMap Head := []
  deriving DecidableEq, Repr

/-- A pipeline state block (R279, R280). -/
structure Pipe where
  vs : Nat
  fs : Nat
  nvar : Nat
  cull : Nat
  frontCw : Bool
  dfunc : Nat
  dwrite : Bool
  dtest : Bool
  stest : Bool
  flat : Nat
  rmask : Nat
  wmask : Nat
  ref : Nat
  front : Nat
  back : Nat
  outBase : Nat
  dout : Bool
  earlyZ : Bool
  blend : List Nat
  rsvOk : Bool
  deriving DecidableEq, Repr

/-- The progress of a DRAW (R271 to R288): its number and blocks, where its vertex records begin, the
batches that have ended, the restart positions, and the next primitive. -/
structure DrawRun where
  no : Nat
  last : Bool
  psVa : Nat
  fargs : Nat
  vargs : Nat
  topology : Nat
  index : Nat
  indexVa : Nat
  restart : Bool
  baseVertex : Nat
  count : Nat
  instances : Nat
  pipe : Pipe
  /-- VREGS of the vertex program. -/
  vregs : Nat := 0
  /-- R285: the count when the DRAW became ready for the grinder. -/
  since : Nat := 0
  vbase : Nat
  doneBatches : List Nat := []
  restarts : List Nat := []
  inst : Nat := 0
  pos : Nat := 0
  stripStart : Nat := 0
  prims : Nat := 0
  /-- The tile phase has begun (R273). -/
  tiles : Bool := false
  tilesDone : Nat := 0
  deriving DecidableEq, Repr

/-- R282: vertex batches of a DRAW. -/
def DrawRun.batches (d : DrawRun) : Nat := d.instances * ((d.count + 31) / 32)

/-- A vertex in window coordinates (R284): x and y in 1/256 pixel, the depth, w and the varyings as FP32
encodings. -/
structure PVtx where
  x : Int
  y : Int
  z : Nat
  w : Nat
  vars : List Nat
  deriving DecidableEq, Repr

/-- The shading of up to eight quads of one primitive (R291). -/
structure FragJob where
  pipe : Pipe
  code : Nat × Nat
  entry : Nat
  vregs : Nat
  fargs : Nat
  draw : Nat
  prim : List PVtx
  quads : List (Nat × Nat)
  deriving DecidableEq, Repr

/-- A tile on a cluster (R294): its attachments' samples (colour attachments, then depth), the fragment work
left, and the work in a wave with the samples that an early test passed, by lane. -/
structure TileRun where
  q : Nat
  slot : Nat
  tile : Nat
  atts : List (KMap Nat)
  jobs : List FragJob := []
  cur : Option FragJob := none
  passed : KMap Nat := []
  deriving DecidableEq, Repr

end Sys2Proof.Machine
end

