-- ==== Sys2Proof/Machine/Num.lean ====
section
/-!
DEFINITION. Number formats, rounding and scales (R171 to R189), and the roundings that the tensor
drain shares with the vector cores (R154 to R157). Values are held exactly; each operation computes
exactly and narrows once at the end.
-/

namespace Sys2Proof.Machine

/-- A decoded floating-point value: NaN, an infinity, or `± m × 2^e` (zeros keep their sign). -/
inductive FVal where
  | nan
  | inf (neg : Bool)
  | fin (neg : Bool) (m : Nat) (e : Int)
  deriving DecidableEq, Repr

/-- How a format uses the all-ones exponent (R173). -/
inductive Special where
  | ieee
  | e4m3
  | finite
  deriving DecidableEq, Repr

/-- A floating-point format of R172, with the drain constants of R154. `inf` is absent where the format
has no infinity, and `nan` is the canonical NaN. -/
structure FFmt where
  width : Nat
  ebits : Nat
  mbits : Nat
  special : Special
  largest : Nat
  inf : Option Nat
  nan : Nat
  deriving DecidableEq, Repr

/-- The exponent bias of R172. -/
def FFmt.bias (f : FFmt) : Int := (2 ^ (f.ebits - 1) - 1 : Nat)

/-- The least normal exponent. -/
def FFmt.emin (f : FFmt) : Int := 1 - f.bias

def fp64 : FFmt := ⟨64, 11, 52, .ieee, 0x7FEFFFFFFFFFFFFF, some 0x7FF0000000000000, 0x7FF8000000000000⟩
def fp32 : FFmt := ⟨32, 8, 23, .ieee, 0x7F7FFFFF, some 0x7F800000, 0x7FC00000⟩
def fp16 : FFmt := ⟨16, 5, 10, .ieee, 0x7BFF, some 0x7C00, 0x7E00⟩
def bf16 : FFmt := ⟨16, 8, 7, .ieee, 0x7F7F, some 0x7F80, 0x7FC0⟩
def e4m3 : FFmt := ⟨8, 4, 3, .e4m3, 0x7E, none, 0x7F⟩
def e5m2 : FFmt := ⟨8, 5, 2, .ieee, 0x7B, some 0x7C, 0x7E⟩
def e3m2 : FFmt := ⟨6, 3, 2, .finite, 0x1F, none, 0⟩
def e2m3 : FFmt := ⟨6, 2, 3, .finite, 0x1F, none, 0⟩
def e2m1 : FFmt := ⟨4, 2, 1, .finite, 0x7, none, 0⟩

/-- R172, R173: the value of an encoding. -/
def FFmt.decode (f : FFmt) (n : Nat) : FVal :=
  let neg := bit n (f.width - 1)
  let e := bits n (f.width - 2) f.mbits
  let m := n % 2 ^ f.mbits
  let special : Option FVal :=
    if e = 2 ^ f.ebits - 1 then
      match f.special with
      | .ieee => some (if m = 0 then .inf neg else .nan)
      | .e4m3 => if m = 2 ^ f.mbits - 1 then some .nan else none
      | .finite => none
    else none
  match special with
  | some v => v
  | none =>
    if e = 0 then .fin neg m (f.emin - f.mbits)
    else .fin neg (2 ^ f.mbits + m) ((e : Int) - f.bias - f.mbits)

/-- The rounding modes of R157 with the seeded word of the stochastic mode (R158). -/
inductive Round where
  | rne | rz | ru | rd
  | sr (rand : Nat)
  deriving DecidableEq, Repr

/-- RMODE of R157; 5 to 7 are illegal. -/
def Round.ofCode (code rand : Nat) : Option Round :=
  match code with
  | 0 => some .rne
  | 1 => some .rz
  | 2 => some .ru
  | 3 => some .rd
  | 4 => some (.sr rand)
  | _ => none

/-- The integer part and remainder of `m × 2^e` in units of `2^u`. -/
def splitAt (m : Nat) (e u : Int) : Nat × Nat × Nat :=
  if u ≤ e then (m <<< (e - u).toNat, 0, 0)
  else
    let sh := (u - e).toNat
    (m >>> sh, m % 2 ^ sh, sh)

/-- R155: whether the kept part rounds up, given the remainder `r` of `sh` bits. -/
def roundsUp (mode : Round) (neg : Bool) (n r sh : Nat) : Bool :=
  if r = 0 then false else
  match mode with
  | .rne => decide (r > 2 ^ (sh - 1)) || (r == 2 ^ (sh - 1) && n % 2 == 1)
  | .rz => false
  | .ru => !neg
  | .rd => neg
  | .sr rand => decide (rand < (if 32 ≤ sh then r >>> (sh - 32) else r <<< (32 - sh)))

/-- What a rounding produced: the encoding without its sign bit, and the flags of R161. -/
structure Rounded where
  enc : Nat
  inexact : Bool
  overflow : Bool
  underflow : Bool
  infOut : Bool
  deriving DecidableEq, Repr

/-- R157, R160: the magnitude that an overflow gives, and whether it counts as an infinity. -/
def overflowEnc (f : FFmt) (mode : Round) (neg satf : Bool) : Nat × Bool :=
  let toInf := match mode with
    | .rne => true
    | .rz => false
    | .ru => !neg
    | .rd => neg
    | .sr _ => true
  if toInf then
    match f.inf with
    | some i => (i, true)
    | none => (if satf then f.largest else f.nan, true)
  else (f.largest, false)

/-- R155, R157: a non-zero magnitude `m × 2^e` rounded into a format. -/
def roundMag (f : FFmt) (mode : Round) (neg satf : Bool) (m : Nat) (e : Int) : Rounded :=
  let binade : Int := (Nat.log2 m : Int) + e
  let ee := max binade f.emin
  let (n, r, sh) := splitAt m e (ee - f.mbits)
  let n' := if roundsUp mode neg n r sh then n + 1 else n
  let enc := (ee - f.emin).toNat * 2 ^ f.mbits + n'
  let inexact := decide (r ≠ 0)
  if enc > f.largest then
    let (o, i) := overflowEnc f mode neg satf
    ⟨o, true, true, false, i⟩
  else ⟨enc, inexact, false, inexact && decide (binade < f.emin), false⟩

/-- A sign and a magnitude as an encoding; a NaN of a format without infinity keeps a clear sign. -/
def FFmt.withSign (f : FFmt) (neg : Bool) (mag : Nat) : Nat :=
  if mag = f.nan && f.special == .e4m3 then mag
  else if neg then mag + 2 ^ (f.width - 1) else mag

/-- R179, R180, R185: a value rounded into a format, as an encoding. -/
def FFmt.round (f : FFmt) (mode : Round) (satf : Bool) : FVal → Nat
  | .nan => f.nan
  | .inf neg =>
    match f.inf with
    | some i => f.withSign neg i
    | none => f.withSign neg (if satf then f.largest else f.nan)
  | .fin neg m e =>
    if m = 0 then f.withSign neg 0 else f.withSign neg (roundMag f mode neg satf m e).enc

/-- The exact product of two values (R153 for its signs and special cases). -/
def FVal.mul : FVal → FVal → FVal
  | .nan, _ => .nan
  | _, .nan => .nan
  | .inf a, .inf b => .inf (a != b)
  | .inf a, .fin b m _ => if m = 0 then .nan else .inf (a != b)
  | .fin a m _, .inf b => if m = 0 then .nan else .inf (a != b)
  | .fin a m e, .fin b n f => .fin (a != b) (m * n) (e + f)

/-- The signed integer of a finite value in units of `2^u`, for `u` at most its exponent. -/
def scaled (neg : Bool) (m : Nat) (e u : Int) : Int :=
  let v : Int := ((m <<< (e - u).toNat : Nat) : Int)
  if neg then -v else v

/-- The exact sum of two values; R182 gives the sign of an exact zero in the given mode. -/
def FVal.add (mode : Round) : FVal → FVal → FVal
  | .nan, _ => .nan
  | _, .nan => .nan
  | .inf a, .inf b => if a = b then .inf a else .nan
  | .inf a, .fin _ _ _ => .inf a
  | .fin _ _ _, .inf b => .inf b
  | .fin a m e, .fin b n f =>
    if m = 0 ∧ n = 0 then
      .fin (if a = b then a else mode == .rd) 0 0
    else
      let u := min e f
      let s := scaled a m e u + scaled b n f u
      if s = 0 then .fin (mode == .rd) 0 0
      else .fin (decide (s < 0)) s.natAbs u

/-- The value with its sign changed. -/
def FVal.neg : FVal → FVal
  | .nan => .nan
  | .inf a => .inf (!a)
  | .fin a m e => .fin (!a) m e

/-- A quotient of two values: exact up to a sticky bit far below any format's last place. -/
def FVal.div : FVal → FVal → FVal
  | .nan, _ => .nan
  | _, .nan => .nan
  | .inf _, .inf _ => .nan
  | .inf a, .fin b _ _ => .inf (a != b)
  | .fin a _ _, .inf b => .fin (a != b) 0 0
  | .fin a m e, .fin b n f =>
    if n = 0 then (if m = 0 then .nan else .inf (a != b))
    else if m = 0 then .fin (a != b) 0 0
    else
      let k := 160
      let q := (m <<< k) / n
      let r := (m <<< k) % n
      .fin (a != b) (2 * q + (if r = 0 then 0 else 1)) (e - f - (k : Int) - 1)

/-- Integer square root by bits, `k` result bits at most. -/
def isqrt : Nat → Nat → Nat → Nat
  | 0, _, acc => acc
  | k + 1, n, acc =>
    let t := acc + 2 ^ k
    isqrt k n (if t * t ≤ n then t else acc)

/-- The square root of a value, exact up to a sticky bit. -/
def FVal.sqrt : FVal → FVal
  | .nan => .nan
  | .inf neg => if neg then .nan else .inf false
  | .fin neg m e =>
    if m = 0 then .fin neg 0 0
    else if neg then .nan
    else
      let odd := decide (e % 2 ≠ 0)
      let m' := (if odd then 2 * m else m) <<< 160
      let e' := (if odd then e - 1 else e) - 160
      let s := isqrt 180 m' 0
      .fin false (2 * s + (if s * s = m' then 0 else 1)) (e' / 2 - 1)

/-- The order of two values that are no NaN; zeros of either sign are equal. -/
def FVal.lt : FVal → FVal → Bool
  | .nan, _ => false
  | _, .nan => false
  | .inf a, .inf b => a && !b
  | .inf a, .fin _ _ _ => a
  | .fin _ _ _, .inf b => !b
  | .fin a m e, .fin b n f =>
    let u := min e f
    decide (scaled a m e u < scaled b n f u)

/-- Whether a value is a NaN. -/
def FVal.isNan : FVal → Bool
  | .nan => true
  | _ => false

/-- The floating-point comparison predicates of R183. -/
inductive FCmp where
  | eq | ne | lt | le | gt | ge | ord | unord
  deriving DecidableEq, Repr

/-- R183: a predicate over two values. -/
def FCmp.eval (c : FCmp) (a b : FVal) : Bool :=
  let un := a.isNan || b.isNan
  match c with
  | .eq => !un && !a.lt b && !b.lt a
  | .ne => un || a.lt b || b.lt a
  | .lt => a.lt b
  | .le => !un && !b.lt a
  | .gt => b.lt a
  | .ge => !un && !a.lt b
  | .ord => !un
  | .unord => un

/-- The sign that MIN and MAX order zeros by. -/
def FVal.negative : FVal → Bool
  | .nan => false
  | .inf a => a
  | .fin a _ _ => a

/-- R184: MIN (`mx` false) and MAX of two encodings, in both forms. -/
def minMax (f : FFmt) (mx number : Bool) (a b : Nat) : Nat :=
  let va := f.decode a
  let vb := f.decode b
  match va.isNan, vb.isNan with
  | true, true => f.nan
  | true, false => if number then b else f.nan
  | false, true => if number then a else f.nan
  | false, false =>
    let aLess := va.lt vb || (!vb.lt va && va.negative && !vb.negative)
    if aLess = mx then b else a

/-- R185: a floating-point value to an integer of `w` bits: rounds, saturates, NaN gives 0. -/
def toIntSat (w : Nat) (sgn : Bool) (mode : Round) (v : FVal) : Nat :=
  let hi : Int := if sgn then (2 ^ (w - 1) : Nat) - 1 else (2 ^ w : Nat) - 1
  let lo : Int := if sgn then -((2 ^ (w - 1) : Nat) : Int) else 0
  match v with
  | .nan => 0
  | .inf neg => wrapN w (if neg then lo else hi)
  | .fin neg m e =>
    let (n, r, sh) := splitAt m e 0
    let n' := if roundsUp mode neg n r sh then n + 1 else n
    let i : Int := if neg then -(n' : Int) else n'
    wrapN w (max lo (min hi i))

/-- An integer as a value. -/
def FVal.ofInt (i : Int) : FVal := .fin (decide (i < 0)) i.natAbs 0

/-- E8M0 (R175): the power of two of a scale code; 0xFF is NaN. -/
def scaleExp (code : Nat) : Int := (code : Int) - 127

/-- The element formats of MX blocks by tensor format code (R147, R176): format and emax. MXINT8 is
code 9 and has no floating-point format. -/
def mxFmt : Nat → Option (FFmt × Int)
  | 4 => some (e4m3, 8)
  | 5 => some (e5m2, 15)
  | 6 => some (e3m2, 4)
  | 7 => some (e2m3, 2)
  | 8 => some (e2m1, 2)
  | _ => none

/-- R187: one finite element of a block with scale code `code`: encoding, clamped, lost. -/
def qmxElem (fmtCode code : Nat) (rz : Bool) (x : FVal) : Nat × Bool × Bool :=
  match x with
  | .fin neg m e =>
    let e' := e - scaleExp code
    let mode : Round := if rz then .rz else .rne
    match mxFmt fmtCode with
    | some (f, _) =>
      if m = 0 then (f.withSign neg 0, false, false)
      else
        let binade : Int := (Nat.log2 m : Int) + e'
        let ee := max binade f.emin
        let (n, r, sh) := splitAt m e' (ee - f.mbits)
        let n' := if roundsUp mode neg n r sh then n + 1 else n
        let enc := (ee - f.emin).toNat * 2 ^ f.mbits + n'
        let clamped := decide (enc > f.largest) && !rz
        let mag := min enc f.largest
        (if neg then mag + 2 ^ (f.width - 1) else mag, clamped, decide (mag = 0))
    | none =>
      let (n, r, sh) := splitAt m e' (-6)
      let n' := if roundsUp mode neg n r sh then n + 1 else n
      let i : Int := if neg then -(n' : Int) else n'
      let c := max (-128) (min 127 i)
      (wrapN 8 c, decide (c ≠ i) && !rz, decide (c = 0) && decide (m ≠ 0))
  | _ => (0, false, false)

/-- `|a| < |b|` for finite values. -/
def absLt (a b : FVal) : Bool :=
  match a, b with
  | .fin _ m e, .fin _ n f => (FVal.fin false m e).lt (.fin false n f)
  | _, _ => false

/-- The greater magnitude of a list of values. -/
def absMax : List FVal → FVal
  | [] => .fin false 0 0
  | x :: xs => let y := absMax xs; if absLt x y then y else x

/-- Whether a list holds an infinity. -/
def hasInf (l : List FVal) : Bool := l.any fun v => match v with | .inf _ => true | _ => false

/-- R187: the scale code of a block of active values, and its special marks (NAN_BLOCK, INF_BLOCK). -/
def qmxScale (fmtCode : Nat) (xs : List FVal) : Nat × Bool × Bool :=
  if xs.any FVal.isNan then (0xFF, true, false)
  else if hasInf xs then (0xFF, false, true)
  else
    match absMax xs with
    | .fin _ m e =>
      if m = 0 then (0, false, false)
      else
        let emax : Int := match mxFmt fmtCode with | some (_, x) => x | none => 0
        let c := (Nat.log2 m : Int) + e - emax + 127
        ((max 0 (min 254 c)).toNat, false, false)
    | _ => (0xFF, true, false)

/-- R186, R187: the lane word of one active lane of a QMX. -/
def qmxWord (fmtCode : Nat) (rz : Bool) (xs : List FVal) (x : FVal) : Nat × Bool :=
  let (code, nanB, infB) := qmxScale fmtCode xs
  if nanB || infB then
    ((b2n nanB) * 2 ^ 16 + (b2n infB) * 2 ^ 17 + 0xFF * 256, false)
  else
    let (el, cl, lost) := qmxElem fmtCode code rz x
    ((b2n cl) * 2 ^ 19 + (b2n lost) * 2 ^ 18 + code * 256 + el, lost)

/-- The value of an MX element, before its scale (R176). -/
def mxElemVal (fmtCode el : Nat) : FVal :=
  match mxFmt fmtCode with
  | some (f, _) => if el ≥ 2 ^ f.width then .nan else f.decode el
  | none => if fmtCode = 9 ∧ el < 256 then
      let i := signed 8 el
      .fin (decide (i < 0)) i.natAbs (-6)
    else .nan

/-- A value times `2^k`. -/
def FVal.shift (v : FVal) (k : Int) : FVal :=
  match v with
  | .fin a m e => .fin a m (e + k)
  | x => x

/-- R189: DQMX of one lane word, as an FP32 encoding. -/
def dqmxWord (fmtCode : Nat) (rz : Bool) (w : Nat) : Nat :=
  let el := bits w 7 0
  let sc := bits w 15 8
  let v := if sc = 0xFF then FVal.nan else (mxElemVal fmtCode el).shift (scaleExp sc)
  fp32.round (if rz then .rz else .rne) false v

end Sys2Proof.Machine
end

