-- ==== Sys2Proof/Machine/TensorMath.lean ====
section
/-!
DEFINITION. The long accumulator, the exact block products and the drain (R146 to R166), over crema
bytes given by a reading function. Nothing here knows of waves or clusters.
-/

namespace Sys2Proof.Machine

/-- R150: one output position of a tile in long mode. The segments S0 to S9 are one 640-bit word. -/
structure LPos where
  acc : BitVec 640
  terms : Nat
  ovf : Bool
  pinf : Bool
  ninf : Bool
  nan : Bool
  negz : Bool
  deriving DecidableEq, Repr

/-- R150: the zero state. -/
def LPos.zero : LPos := ⟨0, 0, false, false, false, false, true⟩

/-- R162: one output position of a tile in F64 mode. -/
structure DPos where
  val : Dword
  terms : Nat
  ovf : Bool
  deriving DecidableEq, Repr

/-- R162: the zero state is −0 with TERMS 0. -/
def DPos.zero : DPos := ⟨0x8000000000000000, 0, false⟩

/-- An accumulator tile: its mode and its 1,024 positions, position (i, j) under 32 × i + j. -/
structure Tile where
  f64 : Bool := false
  long : KMap LPos := []
  dbl : KMap DPos := []
  deriving DecidableEq, Repr

def Tile.lpos (t : Tile) (k : Nat) : LPos := KMap.getD t.long k LPos.zero
def Tile.dpos (t : Tile) (k : Nat) : DPos := KMap.getD t.dbl k DPos.zero

/-- The pairing groups of R147. -/
inductive Group where
  | integer | fp8 | mx | half | single | double
  deriving DecidableEq, Repr

/-- One row of R147's table. -/
structure TFmt where
  width : Nat
  group : Group
  tfmtBit : Nat
  deriving DecidableEq, Repr

/-- R147: operand formats by code. (DEDUCED, assumption 23.) -/
def TFmt.ofCode : Nat → Option TFmt
  | 0 => some ⟨8, .integer, 0⟩
  | 1 => some ⟨4, .integer, 1⟩
  | 2 => some ⟨8, .fp8, 2⟩
  | 3 => some ⟨8, .fp8, 3⟩
  | 4 => some ⟨8, .mx, 4⟩
  | 5 => some ⟨8, .mx, 4⟩
  | 6 => some ⟨6, .mx, 5⟩
  | 7 => some ⟨6, .mx, 5⟩
  | 8 => some ⟨4, .mx, 6⟩
  | 9 => some ⟨8, .mx, 7⟩
  | 10 => some ⟨16, .half, 8⟩
  | 11 => some ⟨16, .half, 9⟩
  | 12 => some ⟨32, .single, 10⟩
  | 13 => some ⟨64, .double, 11⟩
  | _ => none

/-- R148: the bytes of one 32-element block of a panel. -/
def blockBytes (f : TFmt) : Nat := 128 * f.width + (if f.group = .mx then 32 else 0)

/-- R148: the bytes of a panel of KCOUNT elements per row. -/
def panelBytes (f : TFmt) (kcount : Nat) : Nat := ceilDiv kcount 32 * blockBytes f

/-- R146: cycles that a TMMA's operands take (R168), by the wider operand. -/
def tmmaCycles (w kcount : Nat) : Nat :=
  if w ≤ 4 then ceilDiv kcount 8
  else if w ≤ 8 then ceilDiv kcount 4
  else if w ≤ 16 then ceilDiv kcount 2
  else if w ≤ 32 then 2 * kcount
  else 8 * kcount

/-- `n` bytes of crema from `o`, little-endian. -/
def rdLE (rd : Nat → Nat) (o : Nat) : Nat → Nat
  | 0 => 0
  | n + 1 => rd o + 256 * rdLE rd (o + 1) n

/-- R148: the encoding of element `k` of panel row `row`. -/
def panelElem (rd : Nat → Nat) (off : Nat) (f : TFmt) (row k : Nat) : Nat :=
  let base := off + (k / 32) * blockBytes f + row * (4 * f.width)
  let b := f.width * (k % 32)
  (rdLE rd (base + b / 8) 9 >>> (b % 8)) % 2 ^ f.width

/-- R148: the block scale of panel row `row` at element `k`; 127 (a factor 1) where the format has none. -/
def panelScale (rd : Nat → Nat) (off : Nat) (f : TFmt) (row k : Nat) : Nat :=
  if f.group = .mx then rd (off + (k / 32) * blockBytes f + 128 * f.width + row) else 127

/-- R177: an operand element decoded by its own format and signedness. -/
def elemVal (code : Nat) (uns : Bool) (n : Nat) : FVal :=
  match code with
  | 0 => .ofInt (if uns then (n : Int) else signed 8 n)
  | 1 => .ofInt (if uns then (n : Int) else signed 4 n)
  | 2 => e4m3.decode n
  | 3 => e5m2.decode n
  | 10 => fp16.decode n
  | 11 => bf16.decode n
  | 12 => fp32.decode n
  | 13 => fp64.decode n
  | c => mxElemVal c n

/-- R176: the operand value with its block scale; scale 0xFF makes it a NaN. -/
def operandVal (code : Nat) (uns : Bool) (n sc : Nat) : FVal :=
  if sc = 0xFF then .nan else (elemVal code uns n).shift (scaleExp sc)

/-- Formats without a signed zero: their zero products are +0 (R153). (DEDUCED, assumption 21.) -/
def noSignedZero (code : Nat) : Bool := code == 0 || code == 1 || code == 9

/-- R153: the contribution of one pair of operand values. (DEDUCED, assumption 21.) -/
def contribution (ca cb : Nat) (a b : FVal) : FVal :=
  match a.mul b with
  | .fin neg m e =>
    if m = 0 ∧ (noSignedZero ca || noSignedZero cb) then .fin false 0 0 else .fin neg m e
  | v => v

/-- R150, R153: a contribution added to a position, without its TERMS. -/
def LPos.contribute (p : LPos) : FVal → LPos
  | .nan => { p with nan := true, negz := false }
  | .inf neg => if neg then { p with ninf := true, negz := false }
                else { p with pinf := true, negz := false }
  | .fin neg m e =>
    if m = 0 then (if neg then p else { p with negz := false })
    else
      let v : BitVec 640 := BitVec.ofNat 640 (m <<< (e + 320).toNat)
      { p with acc := if neg then p.acc - v else p.acc + v, negz := false }

/-- R152: TERMS and OVF after `n` more contributions. -/
def LPos.count (p : LPos) (n : Nat) : LPos :=
  { p with terms := min (p.terms + n) (2 ^ 25 - 1), ovf := p.ovf || decide (p.terms + n > 2 ^ 24) }

/-- The operands of one TMMA, checked. -/
structure TmmaArgs where
  codeA : Nat
  unsA : Bool
  codeB : Nat
  unsB : Bool
  fa : TFmt
  fb : TFmt
  offA : Nat
  offB : Nat
  kcount : Nat
  deriving DecidableEq, Repr

/-- R149: the contribution of K-element `k` to output (i, j). -/
def tmmaProduct (rd : Nat → Nat) (t : TmmaArgs) (i j k : Nat) : FVal :=
  contribution t.codeA t.codeB
    (operandVal t.codeA t.unsA (panelElem rd t.offA t.fa i k) (panelScale rd t.offA t.fa i k))
    (operandVal t.codeB t.unsB (panelElem rd t.offB t.fb j k) (panelScale rd t.offB t.fb j k))

/-- R149, R152: one long-mode position after a TMMA. -/
def tmmaLong (rd : Nat → Nat) (t : TmmaArgs) (i j : Nat) (p : LPos) : LPos :=
  ((List.range t.kcount).foldl (fun q k => q.contribute (tmmaProduct rd t i j k)) p).count t.kcount

/-- R162: fused multiply-add of three binary64 encodings, round to nearest even. -/
def fma64 (a b c : Nat) : Nat :=
  fp64.round .rne false (((fp64.decode a).mul (fp64.decode b)).add .rne (fp64.decode c))

/-- R162: one F64 position after a TMMA, `k` ascending. -/
def tmmaDouble (rd : Nat → Nat) (t : TmmaArgs) (i j : Nat) (p : DPos) : DPos :=
  let v := (List.range t.kcount).foldl
    (fun c k => fma64 (panelElem rd t.offA t.fa i k) (panelElem rd t.offB t.fb j k) c) p.val.toNat
  { val := BitVec.ofNat 64 v, terms := min (p.terms + t.kcount) (2 ^ 25 - 1),
    ovf := p.ovf || decide (p.terms + t.kcount > 2 ^ 24) }

/-- A table over all 1,024 positions, the zero state left unlisted. -/
def tabulate {α : Type} [DecidableEq α] (zero : α) (f : Nat → α) : KMap α :=
  (List.range 1024).filterMap fun k => if f k = zero then none else some (k, f k)

/-- R149, R162: a tile after a TMMA. -/
def Tile.mma (rd : Nat → Nat) (t : TmmaArgs) (x : Tile) : Tile :=
  if x.f64 then
    { x with dbl := tabulate DPos.zero fun k => tmmaDouble rd t (k / 32) (k % 32) (x.dpos k) }
  else
    { x with long := tabulate LPos.zero fun k => tmmaLong rd t (k / 32) (k % 32) (x.lpos k) }

/-- The drain flags of R161, bit by bit. -/
structure DFlags where
  inexact : Bool := false
  overflow : Bool := false
  underflow : Bool := false
  nanOut : Bool := false
  infOut : Bool := false
  sat : Bool := false
  termOvf : Bool := false
  deriving DecidableEq, Repr

def DFlags.or (a b : DFlags) : DFlags :=
  ⟨a.inexact || b.inexact, a.overflow || b.overflow, a.underflow || b.underflow,
   a.nanOut || b.nanOut, a.infOut || b.infOut, a.sat || b.sat, a.termOvf || b.termOvf⟩

/-- R161: the flag word. -/
def DFlags.word (f : DFlags) : Nat :=
  b2n f.inexact + 2 * b2n f.overflow + 4 * b2n f.underflow + 8 * b2n f.nanOut
    + 16 * b2n f.infOut + 32 * b2n f.sat + 64 * b2n f.termOvf

/-- The output formats of R154; INT32 (code 5) is none of them. -/
def drainFmt : Nat → Option FFmt
  | 0 => some fp32
  | 1 => some fp16
  | 2 => some bf16
  | 3 => some e4m3
  | 4 => some e5m2
  | 6 => some fp64
  | _ => none

/-- R154, R165: bytes of one output element. -/
def drainSize : Nat → Nat
  | 0 => 4
  | 1 => 2
  | 2 => 2
  | 3 => 1
  | 4 => 1
  | 5 => 4
  | _ => 8

/-- R158: the mixing function, modulo 2^64. -/
def mix (z : Dword) : Dword :=
  let z := z + 0x9E3779B97F4A7C15
  let z := (z ^^^ (z >>> 30)) * 0xBF58476D1CE4E5B9
  let z := (z ^^^ (z >>> 27)) * 0x94D049BB133111EB
  z ^^^ (z >>> 31)

/-- R158: the random word of the output at a global row and column. -/
def rand32 (seed slot row col : Nat) : Nat :=
  let key : Dword := BitVec.ofNat 64 (seed * 4096) ||| BitVec.ofNat 64 slot
  (mix (mix (mix key ^^^ BitVec.ofNat 64 (row % 2 ^ 32)) ^^^ BitVec.ofNat 64 (col % 2 ^ 32))).toNat
    % 2 ^ 32

/-- R155 to R160: a value drained to a format; TERM_OVF is added by the caller. A finite value that
saturates differs from its result, so it is inexact too (R161). (DEDUCED, assumptions 19, 22.) -/
def drainVal (fmt : Nat) (mode : Round) (satf : Bool) (v : FVal) : Nat × DFlags :=
  match drainFmt fmt with
  | some f =>
    match v with
    | .nan => (f.nan, { nanOut := true })
    | .inf neg => (f.round mode satf (.inf neg), { infOut := true })
    | .fin neg m e =>
      if m = 0 then (f.withSign neg 0, {})
      else
        let r := roundMag f mode neg satf m e
        (f.withSign neg r.enc,
          { inexact := r.inexact, overflow := r.overflow, underflow := r.underflow, infOut := r.infOut })
  | none =>
    match v with
    | .nan => (0, { nanOut := true })
    | .inf neg => (if neg then 0x80000000 else 0x7FFFFFFF, { sat := true })
    | .fin neg m e =>
      let (n, r, sh) := splitAt m e 0
      let n' := if roundsUp mode neg n r sh then n + 1 else n
      let i : Int := if neg then -(n' : Int) else n'
      let c := max (-2147483648) (min 2147483647 i)
      (wrapN 32 c, { inexact := decide (r ≠ 0 ∨ c ≠ i), sat := decide (c ≠ i) })

/-- R155, R156: the value that a long-mode position drains. -/
def LPos.value (p : LPos) : FVal :=
  if p.nan || (p.pinf && p.ninf) then .nan
  else if p.pinf then .inf false
  else if p.ninf then .inf true
  else
    let a := p.acc.toInt
    if a = 0 then .fin (decide (p.terms > 0) && p.negz) 0 0
    else .fin (decide (a < 0)) a.natAbs (-320)

/-- R162: the value that an F64 position drains; an empty one drains +0. (DEDUCED, assumption 22.) -/
def DPos.value (p : DPos) : FVal :=
  if p.terms = 0 then .fin false 0 0 else fp64.decode p.val.toNat

/-- One position of a tile drained: its encoding and flags. An F64 tile drains to FP64 unchanged (R162).
(DEDUCED, assumption 22.) -/
def Tile.drainPos (x : Tile) (fmt : Nat) (mode : Nat → Round) (satf : Bool) (k : Nat) : Nat × DFlags :=
  let v := if x.f64 then (x.dpos k).value else (x.lpos k).value
  let o := if x.f64 then (x.dpos k).ovf else (x.lpos k).ovf
  let r := drainVal fmt (mode k) satf v
  (if x.f64 ∧ fmt = 6 ∧ (x.dpos k).terms ≠ 0 then (x.dpos k).val.toNat else r.1, { r.2 with termOvf := o })

/-- R161: the OR of the flags over all positions. -/
def Tile.drainFlags (x : Tile) (fmt : Nat) (mode : Nat → Round) (satf : Bool) : DFlags :=
  (List.range 1024).foldl (fun f k => f.or (x.drainPos fmt mode satf k).2) {}

/-- R166: the raw image of one position. -/
def LPos.image (p : LPos) : List Byte :=
  leBytes 80 p.acc.toNat ++
  leBytes 4 (p.terms + 2 ^ 25 * b2n p.ovf + 2 ^ 26 * b2n p.pinf + 2 ^ 27 * b2n p.ninf
    + 2 ^ 28 * b2n p.nan + 2 ^ 29 * b2n p.negz) ++ leBytes 12 0

/-- R166: a position read from a raw image; RsvdZ bits are ignored. -/
def LPos.ofImage (rd : Nat → Nat) (o : Nat) : LPos :=
  let w := rdLE rd (o + 80) 4
  { acc := BitVec.ofNat 640 (rdLE rd o 80), terms := w % 2 ^ 25, ovf := bit w 25, pinf := bit w 26,
    ninf := bit w 27, nan := bit w 28, negz := bit w 29 }

/-- R166: an image merged into a position. -/
def LPos.merge (p q : LPos) : LPos :=
  { acc := p.acc + q.acc
    terms := min (p.terms + q.terms) (2 ^ 25 - 1)
    ovf := p.ovf || q.ovf || decide (p.terms + q.terms > 2 ^ 24)
    pinf := p.pinf || q.pinf, ninf := p.ninf || q.ninf, nan := p.nan || q.nan
    negz := if q.terms = 0 then p.negz else if p.terms = 0 then q.negz else p.negz && q.negz }

/-- R166: a tile after a TACC_RAW from offset `off`. -/
def Tile.accRaw (rd : Nat → Nat) (off : Nat) (x : Tile) : Tile :=
  { x with long := tabulate LPos.zero fun k => (x.lpos k).merge (LPos.ofImage rd (off + 96 * k)) }

/-- R166: the low word that TSTAT reports. -/
def Tile.stat (x : Tile) : Nat :=
  let ks := List.range 1024
  let terms := ks.foldl (fun m k => max m (if x.f64 then (x.dpos k).terms else (x.lpos k).terms)) 0
  let any (f : Nat → Bool) : Nat := b2n (ks.any f)
  let isP (k : Nat) := if x.f64 then fp64.decode (x.dpos k).val.toNat == .inf false else (x.lpos k).pinf
  let isN (k : Nat) := if x.f64 then fp64.decode (x.dpos k).val.toNat == .inf true else (x.lpos k).ninf
  let isX (k : Nat) := if x.f64 then (fp64.decode (x.dpos k).val.toNat).isNan else (x.lpos k).nan
  terms + 2 ^ 25 * any (fun k => if x.f64 then (x.dpos k).ovf else (x.lpos k).ovf)
    + 2 ^ 26 * b2n x.f64 + 2 ^ 27 * any isP + 2 ^ 28 * any isN + 2 ^ 29 * any isX

end Sys2Proof.Machine
end

