-- ==== Sys2Proof/Machine/Types1.lean ====
section
/-!
DEFINITION. The structured state of partitions, queues, waves, clusters and the shared cache
(the spec's chapters 02 to 08), beside the register file. Data only.
-/

namespace Sys2Proof.Machine

/-- PART_STATUS.STATE (R33, R55). -/
inductive PState where
  | absent | opened | ready | resetting | destroying
  deriving DecidableEq, Repr

/-- A pinned leaf translation (R53): the VA it covers and its leaf entry. -/
structure Leaf where
  asid : Nat
  va : Nat
  size : Nat
  entry : Dword
  deriving DecidableEq, Repr

/-- A completed PT_INVALIDATE (R51, R52): its scope, whether that takes in the ASID-table entry, and the write
sequence number at its start. (DEDUCED, assumption 145.) -/
structure InvRec where
  asid : Option Nat
  lo : Nat
  hi : Nat
  table : Bool
  seq : Nat
  deriving DecidableEq, Repr

/-- A token bucket (R42): bytes held. (DEDUCED, assumption 140.) -/
structure Bucket where
  tokens : Nat := 0
  deriving DecidableEq, Repr

/-- A partition's own state (R25 to R56). Resources of a deterministic partition are fixed at CREATE.
(DEDUCED, assumption 140.) -/
structure Part where
  state : PState := .absent
  det : Bool := false
  clock : Nat := 0
  safety : Bool := false
  groups : Nat := 0
  scratchWays : Nat := 0
  wqueues : Nat := 0
  memGib : Nat := 0
  asidBase : Nat := 0
  asidCount : Nat := 0
  pairEn : Bool := false
  pairLead : Bool := false
  pairDev : Nat := 0
  pairPart : Nat := 0
  /-- LINK_SLOTS of the configuration block, one byte per port, and the die-to-die transfer slots reserved to match
  them (R18). -/
  linkSlots : Nat := 0
  dieSlots : Nat := 0
  meshRate : Nat := 0
  memRate : Nat := 0
  linkRate : Nat := 0
  burst : Nat := 0
  meshBucket : Bucket := {}
  memBucket : Bucket := {}
  linkBucket : Bucket := {}
  /-- Pseudo-channel groups of a carve-out, as stack × 16 + group, in canonical order (R36). -/
  pcgs : List Nat := []
  /-- Frames of an elastic partition, as (stack × 16 + group) × 3 + frame, in order (R38). -/
  frames : List Nat := []
  /-- Scratch ways, highest-numbered first (R210). -/
  ways : List Nat := []
  /-- R53: after SEAL the translations in use and the page numbers that are read-only. -/
  sealed : Bool := false
  pinned : List Leaf := []
  pinnedPages : List Nat := []
  /-- R52: the write sequence numbers from which old table values may still be used: that of the partition's
  creation or erasure, and that at which each ASID was bound. -/
  bornSeq : Nat := 0
  bound : KMap Nat := []
  invals : List InvRec := []
  /-- The run list of R90: hardware queue numbers, head first. -/
  runList : List Nat := []
  /-- R261: when the partition's last STEP completed. -/
  stepDone : Dword := 0
  /-- R91: nanoseconds used of each queue's time slice. -/
  sliceUsed : KMap Nat := []
  /-- R94, R108: the claims at the DISPLAY_PRIORITY class, by cluster: queue × 128 + slot, with slot 64 for a donation. -/
  dpClaims : KMap Nat := []
  /-- Engine slots and scan watts of the context engines (R235). -/
  ctxSlots : List Nat := []
  ctxWatts : Nat := 0
  /-- Tags and job of the link taken at CREATE (R358, R379). -/
  linkTags : Nat := 0
  linkJob : Nat := 0
  /-- Ports, one bit each, whose partner refuses the partition's slots (R364, R378). -/
  lostPorts : Nat := 0
  /-- The reset in progress (R446): the count at its start, whether a DESTROY follows, its stage (0 requested,
  1 transfers stopping, 2 erased), and the records of its report (R448). -/
  resetFrom : Dword := 0
  destroyAfter : Bool := false
  resetStage : Nat := 0
  report : List (List Byte) := []
  /-- Resets since boot. -/
  resets : Nat := 0
  /-- R449: entries of partition 0's ring that wait for the reset's end. -/
  ctlWaiters : List Nat := []
  /-- R394, R398: a launched span is running, its reasons so far, and whether STEP_PERTURBED was posted. -/
  span : Bool := false
  spanBits : Nat := 0
  spanPosted : Bool := false
  deriving DecidableEq, Repr

/-- Q_STATE (R60). -/
inductive QState where
  | unbound | running | halted | draining
  deriving DecidableEq, Repr

/-- Where a begun descriptor stands. `ready`: decoded, not executed; `waiting`: held by its own wait;
`running`: its effect is in progress; `done`: executed, its record not yet written (`halts` marks the
statuses of R71). -/
inductive Phase where
  | ready
  | waiting
  | running
  | done (status : Half) (detail : Word) (halts : Bool)
  deriving DecidableEq, Repr

/-- The common layout of R67, decoded from 64 bytes. -/
structure Desc where
  opcode : Byte
  indirect : Bool
  waitPrior : Bool
  signalAfter : Bool
  priv : Bool
  rsv : BitVec 4
  tag : Half
  w1 : Word
  sigAddr : Dword
  sigVal : Dword
  p0 : Dword
  p1 : Dword
  p2 : Dword
  p3 : Dword
  p4 : Dword
  deriving DecidableEq, Repr

/-- Progress of the SIGNAL_AFTER signal of an entry (R69, R80). -/
inductive SigState where
  | idle
  | sent (tag : Nat)
  | performed
  | faulted (status : Half)
  deriving DecidableEq, Repr

/-- R336: what a job holds of the history that it continues: the window, the stream's bytes, the running check and the
repeat offsets. -/
structure HistRead where
  window : List Byte := []
  bytes : Nat := 0
  check : List Nat := []
  repeats : List Nat := [1, 4, 8]
  deriving DecidableEq, Repr

/-- R342: how a compression job ends once its output is in place, with its DETAIL. -/
inductive JobEnd where
  | ok (detail : Nat)
  | overflow
  | mismatch
  | corrupt (detail : Nat)
  deriving DecidableEq, Repr

/-- The signature of a queue of a paired partition (R400). -/
structure PairSig where
  s0 : Dword := 0
  s1 : Dword := 0
  cnt : Dword := 0
  deriving DecidableEq, Repr

/-- What a wait watches (R104, R107, R110, R391). -/
inductive Watch where
  | none
  | fence (addr : Nat) (target : Dword) (met : Bool)
  | sem (addr : Nat) (count : Nat)
  | event (n : Nat)
  | launch (n : Dword)
  /-- R78: a DESTROY waits until its queue is unbound. -/
  | unbound (t : Nat)
  /-- R401: the signature sent to the partner. -/
  | partner (sent : PairSig)
  deriving DecidableEq, Repr

/-- A command entry (R66): a descriptor that has begun and not completed. -/
structure Entry where
  index : Word
  desc : Desc
  /-- R68: parameters read (or none to read). -/
  loaded : Bool
  phase : Phase := .ready
  watch : Watch := .none
  /-- Order in which waits began (R107, R110). -/
  waitSeq : Nat := 0
  sig : SigState := .idle
  /-- Bytes moved so far by a transfer that waits for host or remote data (R76, R361). -/
  progress : Nat := 0
  /-- R336: a job that has read its history and cleared DELIVERED in the area it will deliver. -/
  hist : Option HistRead := none
  /-- R336, R342: a job whose output is written: how it ends, and the stores still to be made, each after the writes before
  it are acknowledged. -/
  ending : Option (JobEnd × List (Nat × List Byte)) := none
  /-- R81: the warning due if no error occurs. -/
  warn : Half := 0
  /-- R108: queues that this waiting acquire donates to. -/
  donees : List Nat := []
  /-- R108: the owner tag for which it donates. -/
  doneeTag : Nat := 0
  /-- Global time at begin. -/
  began : Dword := 0
  /-- LAUNCH_AT (R391): instant of decode. -/
  decodedAt : Dword := 0
  /-- Order in which descriptors of the device began (R239, R248). -/
  beginSeq : Nat := 0
  /-- R398: the descriptor is marked as perturbed. -/
  pert : Bool := false
  deriving DecidableEq, Repr

/-- A fetched descriptor, or the failure of its fetch (R64, R72). -/
inductive Fetched where
  | ok (d : Desc)
  | bad (status : Half)
  deriving DecidableEq, Repr

/-- One hardware queue (R57 to R89); a kernel ring's placement and interrupt fields are its KRING
registers. `entries` is keyed by slot (R66). -/
structure Queue where
  state : QState := .unbound
  haltStatus : Half := 0
  log2 : Nat := 0
  ring : Nat := 0
  asid : Nat := 0
  cls : Bool := false
  vector : Nat := 0
  irqMode : Nat := 0
  coalCount : Nat := 0
  coalUs : Nat := 0
  sliceUs : Nat := 0
  /-- Q_HEAD: index of the next descriptor to fetch. -/
  head : Word := 0
  /-- Index of the next descriptor to begin. -/
  next : Word := 0
  tail : Word := 0
  cplHead : Word := 0
  /-- Records written. -/
  written : Word := 0
  fetched : List Fetched := []
  entries : KMap Entry := []
  /-- Mode 2 coalescing (R89): records since the last raise, and the first one's time. -/
  coalSeen : Nat := 0
  coalFirst : Dword := 0
  /-- QUEUE_CTL DESTROY or ENABLE = 0 was received (R78, R83). -/
  stopping : Bool := false
  /-- R392: the descriptors still to complete with LAUNCH_LATE, up to the next LAUNCH_AT. -/
  lateLeft : Nat := 0
  /-- R142: the commit point, the first index after the last completed CHECKPOINT. -/
  commit : Word := 0
  /-- R260: when the queue's last batch descriptor completed. -/
  batchDone : Dword := 0
  deriving DecidableEq, Repr

/-- A partner's signature message (R401): the signature, the commit identifier, the sender's reason bits
and the count at which it is released. (DESIGN CHOICE, assumption 35.) -/
structure SigMsg where
  sig : PairSig
  commit : Word
  reasons : Nat
  release : Dword
  deriving DecidableEq, Repr

/-- Who waits for a request that left the device; a wave's atomic names its lane.
(DESIGN CHOICE, assumption 28.) -/
inductive Requester where
  | wave (key : Nat) (lane : Option Nat)
  | entry (q slot : Nat)
  | signal (q slot : Nat)
  | none
  deriving DecidableEq, Repr

/-- The kind of a request to the host or to a remote device. -/
inductive ReqKind where
  | read (n : Nat)
  | write (bytes : List Byte)
  | atomic (op size : Nat) (operand compare : Dword)
  deriving DecidableEq, Repr

/-- A non-posted request: to the host (R509) or to a remote device (R358). One that is not `sent` waits for its tag. -/
structure Req where
  tag : Nat
  host : Bool
  dev : Nat
  addr : Nat
  kind : ReqKind
  part : Nat
  queue : Nat
  port : Nat
  who : Requester
  /-- The virtual address whose access made the request. -/
  va : Nat := 0
  sent : Bool := true
  /-- R509: the host's translation agent has been asked; and the translated address that the request was sent to. -/
  asks : Bool := false
  xlat : Option Nat := none
  /-- R356: the answer of the device's own inbound path, where the request named this device. -/
  answer : Option (Half × List Byte) := none
  deriving DecidableEq, Repr

/-- A resident wave (R121, R126). Registers are keyed: s-registers by number, v-registers by
32 × number + lane; unlisted ones are 0. -/
structure Wave where
  wg : Nat
  k : Nat
  pc : Nat := 0
  exec : Word := 0xFFFFFFFF
  scc : Bool := false
  sregs : KMap Word := []
  vregs : KMap Word := []
  tflags : Nat := 0
  atBarrier : Bool := false
  deriving DecidableEq, Repr

/-- A resident workgroup (R126). -/
structure WGroup where
  /-- The context tag of its descriptor (R113). -/
  tag : Nat := 0
  q : Nat
  slot : Nat
  index : Nat
  granules : List Nat
  tileBase : List Nat
  vregs : Nat
  waves : Nat
  live : List Nat
  /-- R126: the wave slots it holds, until its last wave ends. -/
  slots : List Nat := []
  /-- R113: bytes of cache scratch allocated to it. -/
  scratch : Nat := 0
  /-- R292: the granules that a tile holds; its waves have no crema of their own (R291). -/
  tileGranules : Nat := 0
  /-- A wave of the workgroup faulted (R128). -/
  faulted : Bool := false
  /-- Waves that have executed a BAR_SYNC not yet passed. -/
  arrived : List Nat := []
  /-- A tile's workgroup runs fragment programs: the code in use and its length (R291). -/
  code : Option (Nat × Nat) := none
  deriving DecidableEq, Repr

/-- R113: the crema and cache-scratch bytes allocated to a workgroup. -/
def WGroup.onchip (g : WGroup) : Nat := 4096 * (g.granules.length + g.tileGranules) + g.scratch

/-- The service states of a logical cluster; CLU_STATUS (R145) tells idle, running and draining apart by
residency. -/
inductive CState where
  | inService | decaf | isolated
  deriving DecidableEq, Repr

/-- A crema granule (R193). -/
inductive Granule where
  | workgroup (id : Nat)
  | tile (id : Nat)
  deriving DecidableEq, Repr

/-- A drain-path instruction accepted and not yet started (R168): its tile, the cycle in which it starts and its length
in cycles. -/
structure DrainItem where
  tile : Nat
  kind : Nat
  start : Nat
  cycles : Nat
  deriving DecidableEq, Repr

/-- Bytes of a workgroup's crema that port S touches over the cycles of a tensor instruction (R195): in cycle c those from
`base + step * c` on, `len` of them, and below `top`. -/
structure PortArea where
  base : Nat
  step : Nat
  len : Nat
  top : Nat
  deriving DecidableEq, Repr

/-- A tensor instruction's use of port S (R195). -/
structure PortUse where
  wg : Nat
  first : Nat
  cycles : Nat
  areas : List PortArea
  write : Bool
  deriving DecidableEq, Repr

/-- The times of the tensor unit, in its cycles (R168). -/
structure TensorTimes where
  /-- The cycle in which the last instruction was accepted. -/
  now : Nat := 0
  /-- When the issue stage is occupied: first cycles and the cycles after the last, rising. -/
  busy : List (Nat × Nat) := []
  /-- By tile: the cycle after the last operand cycle of its last TMMA or TACC_RAW. -/
  operands : KMap Nat := []
  /-- By tile: the cycle after its last drain-path instruction. -/
  drained : KMap Nat := []
  /-- The cycle in which the drain path frees. -/
  free : Nat := 0
  /-- Accepted drain-path instructions that have not started, in acceptance order. -/
  queue : List DrainItem := []
  /-- The one that holds the drain path. -/
  running : Option DrainItem := none
  /-- R195: what port S does for the accepted instructions that have not ended. -/
  portS : List PortUse := []
  deriving DecidableEq, Repr

/-- One logical cluster (R120, R141, R192). (DESIGN CHOICE, assumption 146.) -/
structure Cluster where
  st : CState := .inService
  part : Nat := 0
  phys : Nat := 0
  epoch : Half := 0
  tableVer : Half := 0
  tableOk : Bool := false
  crema : KMap Byte := []
  /-- Poisoned 8-byte pieces of the crema (R192). -/
  cremaPoison : List Nat := []
  granules : KMap Granule := []
  tiles : KMap Tile := []
  tileOwner : KMap Nat := []
  wgs : KMap WGroup := []
  nextWg : Nat := 0
  tensor : TensorTimes := {}
  /-- The state epoch and the physical cluster recorded at the entry to decaf (R440). -/
  retained : Option (Half × Nat) := none
  /-- Draining: taken from its partition, its residents run to their ends (R96). -/
  draining : Bool := false
  deriving DecidableEq, Repr

/-- Progress of a DISPATCH (R123 to R128) or of a DRAW's items on clusters (R96). -/
structure Grid where
  draw : Bool := false
  /-- The index of the descriptor in its queue (R142). -/
  index : Word := 0
  /-- The context tag of the descriptor (R113). -/
  tag : Nat := 0
  codeVa : Nat := 0
  codeBytes : Nat := 0
  entryOff : Nat := 0
  vregs : Nat := 0
  tiles : Nat := 0
  cremaKib : Nat := 0
  wpw : Nat := 0
  argVa : Dword := 0
  gx : Nat := 0
  gy : Nat := 0
  total : Nat := 0
  next : Nat := 0
  completed : Nat := 0
  /-- The first fault: status, workgroup, wave (R128). -/
  fault : Option (Half × Nat × Nat) := none
  /-- Items to run again (R143, R434): the logical cluster that runs each, or any. -/
  redo : List (Option Nat × Nat) := []
  /-- Which cluster ran, or runs, each launched item. -/
  ran : List (Nat × Nat) := []
  /-- What each item's writes added to the signature of its queue (R400). -/
  sigBy : KMap PairSig := []
  /-- R97: lost its last cluster; its save record stands in memory. -/
  saved : Bool := false
  /-- Order in which cluster descriptors started (R93). -/
  seq : Nat := 0
  /-- R127: workgroups launched on each cluster of a deterministic partition. -/
  perCluster : KMap Nat := []
  /-- A DRAW's progress, and its first item of the present phase (R302). -/
  base : Nat := 0
  run : Option DrawRun := none
  /-- The chain of a DRAW that has executed, for what runs again (R143, R304). -/
  chain : Option Chain := none
  deriving DecidableEq, Repr

/-- The state of a shared-cache line (R201). -/
structure CLine where
  tag : Nat
  dirty : Bool
  first : Bool
  deriving DecidableEq, Repr

/-- A victim-cache line (R201). -/
structure VLine where
  line : Nat
  dirty : Bool
  deriving DecidableEq, Repr

/-- The kinds of request a slice serves (R199, R200). -/
inductive CReq where
  | read | writeFull | writePart | atomic
  deriving DecidableEq, Repr

/-- How a request is treated at its slice, and what it does (R199). -/
structure LineReq where
  mt : Nat
  kind : CReq
  deriving DecidableEq, Repr

/-- A miss register, with its primary request and up to 16 secondary ones, in order (R203). -/
structure MissReg where
  line : Nat
  primary : LineReq
  secondary : List LineReq
  /-- R205: the line was invalidated while its fill was in flight. -/
  discard : Bool := false
  deriving DecidableEq, Repr

/-- A request that waits in a slice (R203, R204). -/
structure WaitReq where
  line : Nat
  req : LineReq
  deriving DecidableEq, Repr

/-- One slice of the shared cache (R197 to R205): lines by set × 16 + way, trees by set.
(DESIGN CHOICE, assumption 143.) -/
structure Slice where
  lines : KMap CLine := []
  plru : KMap Nat := []
  victim : List VLine := []
  miss : KMap MissReg := []
  queue : List WaitReq := []
  deriving DecidableEq, Repr

/-- The mode of a way (R206). `changing` remembers what it changes to. -/
inductive WayMode where
  | cached | scratch (owner : Nat) | off
  | toScratch (owner : Nat) | toOff | toCached
  | failed
  deriving DecidableEq, Repr

/-- What is left of an earlier value of a table entry (R52): the 8-byte word, the bytes a store
changed, the value before, and the store's sequence number. (DEDUCED, assumption 12.) -/
structure OldWord where
  addr : Nat
  mask : Byte
  old : Dword
  seq : Nat
  deriving DecidableEq, Repr

/-- A message that leaves the device, oldest first, for whoever drives its pins and links.
(DESIGN CHOICE, assumption 8.) -/
inductive Out where
  /-- An MSI-X message of a function's vector (R87). -/
  | msix (fn vec : Nat)
  /-- A write to host memory (R47 TARGET 0x1). -/
  | hostWrite (addr : Nat) (bytes : List Byte)
  /-- A read request to host memory. -/
  | hostRead (tag addr n : Nat)
  /-- A flit of an Axmond port (R351): the 32 bytes that each of eight physical lanes carries, logical lane 0 first
  (R347). -/
  | flit (port : Nat) (lanes : List (Nat × List Byte))
  /-- R345: what this end of a port sends at training. -/
  | training (port mode dev serial : Nat) (crypt : Bool)
  /-- R473: what this end of a port with CRYPT set sends in the handshake. -/
  | handshake (port : Nat) (content : List Nat)
  /-- R364: this end asks a port's partner to hold `count` slots from `first`, for a job where it is a switch plane. -/
  | slotAsk (port first count job : Nat)
  /-- A line of pixels as sent by a display pipe (R313). -/
  | video (pipe line : Nat) (codes : List Nat)
  /-- A completion of a host access (R508): its data, or all ones where refused. -/
  | hostData (bytes : List Byte)
  /-- A completion of a host read with EP set (R433, R508). -/
  | hostPoison
  /-- A translation request to the host for a write (R509). -/
  | atsRequest (tag addr : Nat)
  /-- A management, MCTP, PLDM or SPDM response. -/
  | response (bytes : List Nat)
  /-- An ATS Invalidate Completion (R509). -/
  | atsDone (tag : Nat)
  deriving DecidableEq, Repr

end Sys2Proof.Machine
end

