-- ==== Sys2Proof/Machine/Types2.lean ====
section
/-!
DEFINITION. The structured state of the context engines and the batch table (the spec's chapters 09 and
10). Data only.
-/

namespace Sys2Proof.Machine

/-- The states of a batch slot (R255). -/
inductive SlotState where
  | free | joining | active | leaving | parked
  deriving DecidableEq, Repr

/-- The code of a slot's state in BATCH_SLOT_STATUS (R269). -/
def SlotState.code : SlotState → Nat
  | .free => 0
  | .joining => 1
  | .active => 2
  | .leaving => 3
  | .parked => 4

/-- A slot of the batch table (R255, R257). `table` is 0 where the slot has no context. -/
structure BSlot where
  state : SlotState := .free
  parkPend : Bool := false
  resume : Bool := false
  releasing : Bool := false
  tag : Half := 0
  table : Nat := 0
  asid : Nat := 0
  kernel : Bool := false
  pos : Word := 0
  cookie : Dword := 0
  /-- Bytes counted by the join and not yet accounted (R257). -/
  counted : Nat := 0
  /-- Begin order at the boundary where the leave took effect (R262). -/
  leaveSeq : Nat := 0
  deriving DecidableEq, Repr

/-- A scan that the engines are scoring (R245). -/
structure Scan where
  seq : Nat
  /-- What the first phase read (R248): the block, the header, each query's limit and row, the pages. -/
  blk : List Byte
  hdr : List Byte
  limits : List Nat
  queries : List (List Byte)
  pages : List Nat
  /-- By stack: the rows still to score, and those of degraded groups (R223), which come after them; and the units of
  scoring work earned ahead (R245). -/
  left : KMap Nat
  slow : KMap Nat := []
  credit : KMap Nat := []
  /-- The units of work and the lines of a row, and its energy in 1/12 pJ (R236). -/
  cost : Nat
  slowCost : Nat
  lines : Nat
  energy : Nat
  deriving DecidableEq, Repr

/-- What a stack's scoring and external traffic draw (R234, R237). -/
structure StackPow where
  /-- Bytes on the external interface in the last period. -/
  ext : Nat := 0
  /-- In this period, in 1/12 pJ: the energy of all scans, and of elastic ones. -/
  scan : Nat := 0
  elastic : Nat := 0
  /-- The partitions, one bit each, of which a scan was held in this period (R237). -/
  held : Nat := 0
  deriving DecidableEq, Repr

/-- A layer descriptor of a flip block (R314), whose accesses it makes, and its pages' translations (R315):
partition-physical page by virtual page. -/
structure Layer where
  enable : Bool
  fmt : Nat
  alpha : Nat
  blocked : Bool
  galpha : Nat
  sx : Nat
  sy : Nat
  sw : Nat
  sh : Nat
  dx : Nat
  dy : Nat
  dw : Nat
  dh : Nat
  pitch : Nat
  va : Nat
  md : Nat
  chroma : Nat
  clear : Nat
  rsvOk : Bool
  part : Nat := 0
  asid : Nat := 0
  kernel : Bool := false
  pages : KMap Nat := []
  deriving DecidableEq, Repr

/-- A committed flip (R315 to R317). -/
structure Flip where
  /-- R318: committed by a previous OWNER of the pipe. -/
  stale : Bool := false
  q : Nat
  slot : Nat
  asid : Nat
  prot : Bool
  layers : KMap Layer
  relVa : Nat
  relVal : Nat
  crcEn : Bool
  expect : Nat
  fallback : Nat
  deriving DecidableEq, Repr

/-- A display pipe beside its registers (R316 to R323): flips committed; the latched layers and which latched
flip (by number) each shows; latched flips not wholly replaced, by number; flips to be released; the
latched background; pending effects of OWNER and of the safety owner; the frame's next line and the CRC.
(DESIGN CHOICE, assumption 75.) -/
structure DPipe where
  committed : List Flip := []
  layers : KMap Layer := []
  shows : KMap Nat := []
  live : KMap Flip := []
  toRelease : List Flip := []
  nextFlip : Nat := 0
  bg : Nat := 0
  ownerOff : Bool := false
  protOff : Bool := false
  /-- R323: the protected rectangle shows FALLBACK with no reads. -/
  protHold : Bool := false
  crcEn : Bool := false
  expect : Nat := 0
  fallback : Nat := 0
  line : Nat := 0
  crc : Nat := 0
  /-- R324: link training waits until firmware runs. -/
  trainWait : Bool := false
  deriving DecidableEq, Repr

/-- The state of the power loop beside its registers (R405 to R427). Powers are in mW. -/
structure Pwr where
  alloc : List Nat := [0, 0, 0]
  /-- Drip of a cluster group over and above R411 (R416). -/
  extra : KMap Nat := []
  /-- THROTTLE_N has brought in the external cap (R417). -/
  ext : Bool := false
  /-- Partitions, one bit each, on which the slope limiter and a droop acted in this period. -/
  slope : Nat := 0
  droop : Nat := 0
  droopHit : Bool := false
  /-- Groups whose clock is stretched (R415). -/
  stretched : List Nat := []
  /-- The count at which each reason was last in force (R419). -/
  lastForce : KMap Nat := []
  /-- Reasons of the caps that have been in force in this period (R419). -/
  seen : List Nat := []
  /-- DET_OVER in the last period, by consumer. -/
  exceeded : List Nat := []
  /-- Each cluster's activity in the last window (R413). -/
  activity : KMap Nat := []
  /-- The last report of each member of the power group (R421), and a revert due in the next one. -/
  reports : KMap Nat := []
  revertNext : Bool := false
  /-- Groups entering decaf, and those of them with a wake latched (R427); the device's latched wake. -/
  entering : List Nat := []
  latched : List Nat := []
  devLatched : Bool := false
  deriving DecidableEq, Repr

/-- The shared units of R437 that are not recoverable online; a slice, a stack's memory controller or a stack's
context engine goes with its number. -/
inductive SharedUnit where
  | slice | memory | grinder | context | frontEnd | copy | compression | collective | layer | event | fence
  deriving DecidableEq, Repr

/-- A recovery under R434: the isolated cluster, its failed physical cluster, the partition, the detection
time, its fault-log entry, and how far it has come. -/
structure Recovery where
  cl : Nat
  phys : Nat
  part : Nat
  at_ : Dword
  log : Nat
  fenced : Bool := false
  assigned : Bool := false
  withdrawn : Bool := false
  /-- R449: the partition was reset meanwhile, so that nothing is to be run again. -/
  abandoned : Bool := false
  deriving DecidableEq, Repr

/-- A cluster out for test (R442): its logical number, its own physical cluster, and the spare that stands in. -/
structure TestSlice where
  cl : Nat
  tested : Nat
  spare : Nat
  deriving DecidableEq, Repr

/-- The reliability block beside its registers (R434 to R442): recoveries in progress, physical clusters retired
in the field, tests, and shared units that failed. -/
structure Ras where
  recov : List Recovery := []
  retired : List Nat := []
  tests : List TestSlice := []
  dead : List (SharedUnit × Nat) := []
  deriving DecidableEq, Repr

end Sys2Proof.Machine
end

