-- ==== Sys2Proof/Machine/Types3.lean ====
section
/-!
DEFINITION. The structured state of the host interface, of security, and of the barista: the mailbox, the
boot, the firmware update and the stores in flash (the spec's chapters 18 to 20). Data only.
-/

namespace Sys2Proof.Machine

/-- A host access through BAR4 that waits for the device to wake (R425, R508): the function, the offset, and the
bytes of a write or the length of a read. -/
structure Bar4Op where
  fn : Nat
  off : Nat
  write : Option (List Byte)
  n : Nat
  deriving DecidableEq, Repr

/-- The configuration space of the functions, as far as the manual gives it an effect (R502 to R511): one bit for
each function in a mask. BAR4 sizes are powers of 2. -/
structure Pcie where
  numVfs : Nat := 0
  vfEnable : Bool := false
  bme : Nat := 0
  ats : Nat := 0
  d3 : Nat := 0
  msixOn : Nat := 0
  msixMask : Nat := 0
  bar4 : Nat := 28
  vfBar4 : Nat := 28
  maxPayload : Nat := 128
  maxRead : Nat := 512
  aspmL1 : Bool := false
  timeoutRange : Nat := 0
  /-- R509: the address translation cache, oldest first: function, host page and the page it is translated to. -/
  atc : List (Nat × Nat × Nat) := []
  /-- BAR4 accesses that wait for a wake; and ATS invalidations with the requests that each waits for (R509). -/
  held : List Bar4Op := []
  invals : List (Nat × List Nat) := []
  deriving DecidableEq, Repr

/-- A record of the boot ledger (R483). -/
structure Ledger where
  seq : Nat := 0
  boots : Nat := 0
  failedBoots : Nat := 0
  rescueNext : Bool := false
  prefSet : Nat := 0
  runSet : Nat := 0
  stepState : Nat := 0
  decision : Nat := 0
  restarts : Nat := 0
  opHours : Nat := 0
  ageHours : Nat := 0
  deriving DecidableEq, Repr

/-- The calibration store in force (R495): its image, and the guard-bands in mV by group × 3 + clock point, which a
re-plan raises. -/
structure Cal where
  image : List Byte := []
  bands : List Nat := []
  deriving DecidableEq, Repr

/-- A mailbox operation in progress (R489): its code, its latched arguments, and the groups that wait for a window
(R498) with their guard-bands to come. -/
structure MgtOp where
  code : Nat
  args : List Nat
  groups : List Nat := []
  bands : List Nat := []
  deriving DecidableEq, Repr

/-- A staging session (R493): the set, whether it was verified and is to be activated, and whether PLDM opened
it (R494). -/
structure Staging where
  set : Nat
  verified : Bool := false
  pldm : Bool := false
  deriving DecidableEq, Repr

/-- The states of a firmware device under DSP0267 (R494). (PRESUMED, assumption 118.) -/
inductive FdState where
  | idle | learn | ready | download | verify | apply | activate
  deriving DecidableEq, Repr

/-- The barista beside its registers (R480 to R500). -/
structure Mgt where
  /-- The boot in progress has not reached step 31, and the step it stands at; a boot that failed on its own. -/
  booting : Bool := false
  failed : Bool := false
  /-- Outcomes of skipped optional steps: PHYs and the SMBus endpoint that are up (steps 25, 26, 29). -/
  axlPhy : Bool := false
  dispPhy : Bool := false
  smbus : Bool := false
  op : Option MgtOp := none
  /-- The result of an operation that a barista failure ended is due (R488). -/
  aborted : Bool := false
  staging : Option Staging := none
  /-- FW_ID of the running set, and the SVNs of its images by TYPE (R464). -/
  fwId : Nat := 0
  svns : List Nat := []
  burnDue : Bool := false
  /-- DRIFT by group of the last measurement (R496), and the guard-bands in force by group × 3 + clock point. -/
  drift : List Nat := []
  bands : List Nat := []
  /-- The calibration image in force since the boot (R495). -/
  image : List Byte := []
  eid : Nat := 0
  smbAddr : Nat := 0
  fd : FdState := .idle
  /-- The TYPE of the component being transferred. -/
  fdTyp : Nat := 0
  deriving DecidableEq, Repr

/-- The security engine beside its registers (R460 to R478): the challenge that is good for one SUBMIT, the boot's
measurements, frames withheld, and the SPDM connection's progress (1 version, 2 capabilities, 3 algorithms). -/
structure Sec where
  challenge : Bool := false
  measured : List Nat := []
  withheld : List Nat := []
  spdm : Nat := 0
  deriving DecidableEq, Repr

end Sys2Proof.Machine
end

