-- ==== Sys2Proof/Machine/Chip.lean ====
section
/-!
DEFINITION. Everything that the device holds, as plain data. `regs` is the register file by address; the rest is
the structured state of the blocks. Nonvolatile state stands apart from the chip's, because a reset clears
the one and keeps the other.
-/

namespace Sys2Proof.Machine

/-- One MSI-X table entry (R87). -/
structure MsixEntry where
  addr : Nat := 0
  data : Nat := 0
  masked : Bool := true
  pending : Bool := false
  deriving DecidableEq, Repr

/-- The last TIME flit received on a port: its TX, its arrival on the own time base (1/256 ns), and the
sender's hops and master (R386, R388). -/
structure TimeIn where
  tx : Dword
  rx : Dword
  hops : Nat
  masterDev : Nat
  serial : Dword
  deriving DecidableEq, Repr

/-- Everything of the device but its nonvolatile stores. (DESIGN CHOICE, assumptions 7, 151.) -/
structure Chip where
  /-- The global time counter of the I/O die, in ns (R384). -/
  gtc : Dword := 0
  /-- Steps taken: the argument of the free values (the model's own). -/
  ctr : Nat := 0
  regs : KMap Word := []
  mem : KMap Byte := []
  poison : List Nat := []
  keyGen : KMap Nat := []
  wseq : Nat := 0
  oldWords : List OldWord := []
  scratch : KMap Byte := []
  parts : KMap Part := []
  queues : KMap Queue := []
  clusters : KMap Cluster := []
  waves : KMap Wave := []
  grids : KMap Grid := []
  /-- R143: the DISPATCHes of each queue that completed since its commit point. -/
  hist : KMap (List Grid) := []
  /-- The logical stack that received the last frame (R38). -/
  lastStack : Nat := 0
  /-- Physical clusters fused off or failed at factory test (R3). -/
  fusedOff : List Nat := []
  ras : Ras := {}
  waitCtr : Nat := 0
  reqs : List Req := []
  inbuf : KMap (KMap Byte) := []
  slices : KMap Slice := []
  ways : KMap WayMode := []
  msix : KMap MsixEntry := []
  outbox : List Out := []
  /-- What the last TIME flit of each port said (R386, R388), by port. -/
  timeIn : KMap TimeIn := []
  /-- Consecutive flits with theta within 0.5 ns (R387). -/
  lockRun : Nat := 0
  /-- R403: the high half of the counter latched by a read of GTC_LO, and by one of each DET_GTC_LO. -/
  gtcLatch : KMap Word := []
  /-- The batch table by device slot (R252); unlisted slots are FREE. -/
  bslots : KMap BSlot := []
  /-- Scans being scored, by queue × 64 + slot. -/
  scans : KMap Scan := []
  /-- Each stack's next frame slot (R233), its elastic scan in progress (key + 1) and the partition last
  served; the scan buckets by stack × 16 + partition, as what is missing from full (R236). -/
  frameSlot : KMap Nat := []
  elasticScan : KMap Nat := []
  lastServed : KMap Nat := []
  scanDebt : KMap Nat := []
  /-- R92, R233: the queue whose elastic scan a stack picked last, by stack × 16 + partition. -/
  scanQueue : KMap Nat := []
  /-- R234, R237: what each stack draws. -/
  stackPow : KMap StackPow := []
  /-- Open chains by queue (R271), and tiles being shaded by cluster × 2^32 + workgroup. -/
  chains : KMap Chain := []
  tileRuns : KMap TileRun := []
  /-- The display pipes (R307). -/
  pipes : KMap DPipe := []
  /-- Refresh windows in progress by pseudo-channel group (stack × 16 + group), as the count at which each
  ends (R220, R221). -/
  windows : KMap Nat := []
  /-- The compression lanes (R328): the job (queue × 64 + slot) that each runs, the partition last served
  and each partition's queue last served. -/
  lanes : KMap Nat := []
  lanePart : Nat := 15
  /-- R92: the queue that the copy engine (0) and the link engine (1) served last. -/
  engineLast : KMap Nat := []
  laneQueue : KMap Nat := []
  sigs : KMap PairSig := []
  pwr : Pwr := {}
  /-- R416: every clock but the always-on domain's is stopped. -/
  stopped : Bool := false
  /-- The Axmond ports (R344), collectives in progress, COLL messages that none has taken, and role swaps. -/
  ports : KMap LPort := []
  colls : List Coll := []
  collHeld : List CollMsg := []
  swaps : List Swap := []
  sigIn : KMap SigMsg := []
  pcie : Pcie := {}
  mgt : Mgt := {}
  sec : Sec := {}
  /-- The rails are up (VDD_AON among them), and PERST_N is held low (R518, R522). -/
  powered : Bool := true
  perst : Bool := true
  /-- Pins driven by the device: FAULT_N and SMB_ALERT_N, true while pulled low (R450, R523). -/
  faultN : Bool := true
  smbAlertN : Bool := false
  deriving DecidableEq, Repr

/-- The fused identity and the stores that outlive a reset: OTP (R460) and flash (R480).
(DESIGN CHOICE, assumptions 2, 151.) -/
structure NonVol where
  part : Nat := 0x0960
  grade : Nat := 0xA
  stepping : Nat := 1
  /-- The device's serial (R345, R374). -/
  serial : Dword := 0
  /-- Physical clusters fused off or failed at factory test (R3), and the fused guard-bands by group × 3 + clock
  point, in units of 5 mV (R501). -/
  fusedOff : List Nat := []
  fusedBands : List Nat := []
  /-- Digests of the image-signing keys (0 where a slot is not programmed), and the revoked ones. -/
  rootHash : List Nat := [0, 0, 0, 0]
  revoked : Nat := 0
  /-- Burnt fuses of the rollback counters, as counter × 192 + fuse (R464). -/
  fuses : List Nat := []
  uds : Nat := 0
  dbgHash : Nat := 0
  dbgMax : Nat := 0
  /-- The two firmware sets of flash by byte offset; an unlisted byte is erased. -/
  flash : KMap Byte := []
  /-- The two ledger copies and the calibration store; none where no copy is valid. -/
  ledger0 : Option Ledger := none
  ledger1 : Option Ledger := none
  cal : Option Cal := none
  /-- Stored memory training: the boot that wrote each stack's record. -/
  training : KMap Nat := []
  /-- The address straps of the SMBus endpoint (R499, R512). -/
  straps : Nat := 0
  deriving DecidableEq, Repr

end Sys2Proof.Machine
end

