-- ==== Sys2Proof/Machine/Reset.lean ====
section
/-!
DEFINITION. The chip right after a reset (R11, R523): every register at its reset value, the fused ones from the
nonvolatile stores.
-/

namespace Sys2Proof.Machine

/-! ## The variants (R1, R7, R21) -/

/-- Logical clusters. -/
def NonVol.lclusters (nv : NonVol) : Nat := if nv.part = 0x960 then 88 else if nv.part = 0x720 then 66 else 44

/-- Context stacks. -/
def NonVol.stacks (nv : NonVol) : Nat := if nv.part = 0x960 then 6 else if nv.part = 0x720 then 4 else 2

/-- Axmond ports. -/
def NonVol.linkPorts (nv : NonVol) : Nat := if nv.part = 0x960 then 8 else if nv.part = 0x720 then 4 else 2

/-- Display outputs. -/
def NonVol.outputs (nv : NonVol) : Nat := if nv.part = 0x480 then 1 else 2

/-- The variant's total power in W. -/
def NonVol.totalWatts (nv : NonVol) : Nat := if nv.part = 0x960 then 600 else if nv.part = 0x720 then 433 else 282

/-- R3: the healthy physical clusters, ascending. -/
def NonVol.healthy (nv : NonVol) : List Nat := (List.range 96).filter fun f => !nv.fusedOff.contains f

/-- R3: healthy hot spares at manufacture. (DESIGN CHOICE, assumption 2.) -/
def NonVol.spares (nv : NonVol) : Nat := nv.healthy.length - nv.lclusters

/-- DEV_ID (R6). -/
def NonVol.devId (nv : NonVol) : Nat := nv.part + 2 ^ 16 * nv.grade + 2 ^ 20 * nv.stepping

/-- DEV_CAPS0 (R6). -/
def NonVol.caps0 (nv : NonVol) : Nat :=
  let n := nv.lclusters
  n + 2 ^ 7 * (n / 8) + 2 ^ 11 * (n % 8) + 2 ^ 14 * nv.stacks + 2 ^ 17 * (8 * nv.linkPorts) + 2 ^ 24 * nv.linkPorts
    + 2 ^ 28 * b2n (nv.part == 0x960) + 2 ^ 29 * b2n (nv.part != 0x480) + 2 ^ 30 * nv.outputs

/-- DEV_CAPS1 (R6, R7). SPARES has 4 bits: more than 15 healthy spares show as 15, and the number shown counts down
from there; the spec does not say. (DESIGN CHOICE, assumption 153.) -/
def NonVol.caps1 (nv : NonVol) : Nat :=
  (if nv.part = 0x960 then 0xFFF else if nv.part = 0x720 then 0x7FF else 3) + 2 ^ 16 * min 15 nv.spares + 2 ^ 24 * 0x30

/-! ## Reset values -/

/-- A register listed at a value. -/
def KMap.listed (m : KMap Word) (x : Nat × Nat) : KMap Word := KMap.put 0 x.1 (BitVec.ofNat 32 x.2) m

/-- The registers whose reset value is not 0, outside the partition pages; DEV_CAPS0's widths bound the copies. -/
def NonVol.resetRegs (nv : NonVol) : List (Nat × Nat) :=
  [(Reg.DEV_ID, nv.devId), (Reg.DEV_CAPS0, nv.caps0), (Reg.DEV_CAPS1, nv.caps1),
   (Reg.BATCH_RANGE, 0x1000 * 2 ^ 16)]
  ++ (List.range 16).map (fun p => (Reg.BATCH_TOKMAX + 8 * p, 0x10000))
  ++ [(Reg.SC_STATUS, 0xF * 2), (Reg.CTX_FREE, 0x10 + 0x13 * 2 ^ 8)]
  ++ (List.range nv.outputs).map (fun n => (Reg.LCE_PIPE_CTL + 0x100 * n, 1 * 2 ^ 2 + 1 * 2 ^ 4))
  ++ [(Reg.AXL_SERIAL_LO, nv.serial.toNat % 2 ^ 32), (Reg.AXL_SERIAL_HI, nv.serial.toNat / 2 ^ 32),
      (Reg.AXL_TAGS_FREE, 0x2000)]
  ++ (List.range nv.linkPorts).map (fun n => (Reg.AXL_PORT_CTL + 0x40 * n, 0x10 * 2 ^ 8))
  ++ (List.range 16).map (fun p => (Reg.AXL_PTAGS + 4 * p, 0x400))
  ++ [(Reg.GTC_CTL, 0x3F * 2 ^ 16), (Reg.DET_MAP, nv.lclusters + 2 ^ 8 * nv.lclusters), (Reg.DET_MAP_FORCE, nv.lclusters),
      (Reg.PWR_CAP, 0x258 + 0x258 * 2 ^ 16), (Reg.PWR_EFFECTIVE, nv.totalWatts), (Reg.PWR_PRIO, 1 * 2 ^ 2 + 2 * 2 ^ 4),
      (Reg.PWR_FLOOR, 0x78 + 0x3C * 2 ^ 8 + 0x14 * 2 ^ 16), (Reg.PWR_EXT_CAP, 0xFA), (Reg.PWR_SHIFT_CTL, 5 * 2 ^ 8),
      (Reg.PWR_AUTO, 0x3E8 * 2 ^ 16), (Reg.PWR_THERM_CFG, 5),
      (Reg.RAS_SEQ_STATUS, 2 ^ 8), (Reg.RAS_SEQ_CFG, 2), (Reg.RAS_SPARES, min 15 nv.spares), (Reg.RAS_TEST_CFG, 1 + 8 * 2 ^ 8),
      (Reg.SEC_STATUS, nv.dbgMax * 2 ^ 4 + nv.revoked % 16 * 2 ^ 6), (Reg.SEC_CFG, 2), (Reg.MGT_AGE_STATUS, 0x100)]

/-- R3: the logical clusters at manufacture: cluster c is backed by the (c + 1)-th healthy physical one. -/
def NonVol.resetClusters (nv : NonVol) : KMap Cluster :=
  ((nv.healthy.take nv.lclusters).zipIdx).map fun x => (x.2, { phys := x.1 })

/-- The chip after a reset; `n` is the count of steps so far, which no reset changes.
(DESIGN CHOICE, assumptions 2, 3; DEDUCED, assumption 93.) -/
def Chip.fresh (nv : NonVol) (n : Nat) : Chip :=
  { ctr := n
    regs := nv.resetRegs.foldl KMap.listed []
    clusters := nv.resetClusters
    fusedOff := nv.fusedOff
    mgt := { bands := nv.fusedBands.map (5 * ·) } }

end Sys2Proof.Machine
end

