-- ==== Sys2Proof/Machine/State.lean ====
section
/-!
DEFINITION. The machine's state: the chip, its nonvolatile stores and the commands that wait; the reasons to
stop; and the state after reset.
-/

namespace Sys2Proof.Machine

/-- Reasons to stop with a fault. No command of this model stops: what the manual calls an error is a
status, a register or an event of the next state. -/
inductive Fault where
  /-- Raised by no meaning; kept so that the type is inhabited. Safe. -/
  | none
  deriving DecidableEq, Repr

/-- Reasons to refuse a command. -/
inductive Refusal where
  /-- The command has no meaning yet; raised only by the dispatch. Safe: it stops. -/
  | notModelled (mnemonic : String)
  deriving DecidableEq, Repr

/-- The machine's state: the chip, its nonvolatile stores, and the commands that wait. -/
structure State where
  pending : List Instr := []
  nv : NonVol := {}
  chip : Chip := {}
  deriving DecidableEq, Repr

/-- The state after power-up, with PERST_N held low (R522, R523): nothing waits, and no boot has begun.
(DESIGN CHOICE, assumption 2.) -/
def State.reset : State := { chip := Chip.fresh {} 0 }

end Sys2Proof.Machine
end

