-- ==== Sys2Proof/Machine/Ops.lean ====
section
/-!
DEFINITION. The named operations over the state: registers, partition memory and its map, translation,
fault capture, events and interrupts. Every unit reaches registers and memory through these.
-/

namespace Sys2Proof.Machine

/-! ## Registers -/

/-- Offset of partition `p`'s page from partition 0's (R55, R83). -/
def pg (p : Nat) : Nat := p * 0x1000

/-- Offset that tells apart the copies of a steered register. -/
def steer (i : Nat) : Nat := i * 0x100000000

/-- The word of a register. -/
def Chip.rg (c : Chip) (a : Nat) : Word := KMap.getD c.regs a 0

/-- Store a register's word. -/
def Chip.setRg (c : Chip) (a : Nat) (v : Word) : Chip := { c with regs := KMap.put 0 a v c.regs }

/-- A register field, `o` bytes from the field's own register. -/
def Chip.fld (c : Chip) (f : Fld) (o : Nat := 0) : Nat := wbits (c.rg (f.base + o)) f.hi f.lo

/-- Store a register field; the other bits of the word stay. -/
def Chip.setFld (c : Chip) (f : Fld) (o v : Nat) : Chip :=
  c.setRg (f.base + o) (wset (c.rg (f.base + o)) f.hi f.lo v)

/-- Whether a one-bit field is set. -/
def Chip.flag (c : Chip) (f : Fld) (o : Nat := 0) : Bool := c.fld f o != 0

/-- Set a bit of a field (sticky status). -/
def Chip.setBit (c : Chip) (f : Fld) (o i : Nat) : Chip := c.setFld f o (c.fld f o ||| 2 ^ i)

/-- Add to a counter field that saturates at its greatest value. -/
def Chip.count (c : Chip) (f : Fld) (o : Nat := 0) (n : Nat := 1) : Chip :=
  c.setFld f o (satAdd (f.hi + 1 - f.lo) (c.fld f o) n)

/-- Two registers as one 64-bit value. -/
def Chip.rg64 (c : Chip) (lo hi : Nat) : Nat := (c.rg lo).toNat + 2 ^ 32 * (c.rg hi).toNat

/-- Store a 64-bit value in a register pair. -/
def Chip.setRg64 (c : Chip) (lo hi v : Nat) : Chip :=
  (c.setRg lo (BitVec.ofNat 32 v)).setRg hi (BitVec.ofNat 32 (v / 2 ^ 32))

/-! ## Tables -/

def Chip.queue (c : Chip) (q : Nat) : Queue := KMap.getD c.queues q {}
def Chip.setQueue (c : Chip) (q : Nat) (x : Queue) : Chip := { c with queues := KMap.set q x c.queues }
def Chip.part (c : Chip) (p : Nat) : Part := KMap.getD c.parts p {}
def Chip.setPart (c : Chip) (p : Nat) (x : Part) : Chip := { c with parts := KMap.set p x c.parts }
def Chip.cluster (c : Chip) (i : Nat) : Cluster := KMap.getD c.clusters i {}
def Chip.setCluster (c : Chip) (i : Nat) (x : Cluster) : Chip :=
  { c with clusters := KMap.set i x c.clusters }

/-- The partition a queue belongs to (R57). -/
def partOf (q : Nat) : Nat := q / 64

/-- The queue's index in its partition; 0 is the kernel ring (R57). -/
def indexOf (q : Nat) : Nat := q % 64

/-- Whether the partition exists. -/
def Chip.exists? (c : Chip) (p : Nat) : Bool := (c.part p).state != .absent

/-- Append a message to what leaves the device. (DESIGN CHOICE, assumption 8.) -/
def Chip.emit (c : Chip) (o : Out) : Chip := { c with outbox := c.outbox ++ [o] }

/-! ## Functions (R502, R504, R509, R510) -/

/-- The host can reach a function: the link is up, and a virtual function is enabled. -/
def Chip.fnEnabled (c : Chip) (fn : Nat) : Bool :=
  c.flag Fld.PCI_LINK_UP && (fn == 0 || (c.pcie.vfEnable && decide (fn ≤ c.pcie.numVfs)))

/-- R509: a function may master the bus. -/
def Chip.mayMaster (c : Chip) (fn : Nat) : Bool := c.fnEnabled fn && bit c.pcie.bme fn && !bit c.pcie.d3 fn

/-- R87, R502, R510: a function can send an MSI-X message. -/
def Chip.mayMsix (c : Chip) (fn : Nat) : Bool :=
  c.mayMaster fn && bit c.pcie.msixOn fn && !bit c.pcie.msixMask fn

/-! ## Interrupts (R87, R88) -/

/-- Raise vector `v` of function `fn`: one that is masked, or whose function cannot send, sets its pending bit.
(PRESUMED, assumption 142.) -/
def Chip.raiseMsix (c : Chip) (fn v : Nat) : Chip :=
  let k := fn * 2048 + v
  let e := KMap.getD c.msix k {}
  if e.masked || !c.mayMsix fn then { c with msix := KMap.set k { e with pending := true } c.msix }
  else c.emit (.msix fn v)

/-- A partition's vector: partition 0's stand at table entries 1,024 to 1,087. -/
def Chip.raiseVector (c : Chip) (p v : Nat) : Chip :=
  c.raiseMsix p (if p = 0 then 1024 + v else v)

/-- A device-owner vector (R88). -/
def Chip.raiseOwner (c : Chip) (v : Nat) : Chip := c.raiseMsix 0 v

/-! ## Status codes (R82) -/

namespace St
def ok : Half := 0x0000
def illegalOpcode : Half := 0x0101
def illegalPrivilege : Half := 0x0102
def malformed : Half := 0x0103
def indirectFault : Half := 0x0104
def queueFaulted : Half := 0x0110
def translationFault : Half := 0x0201
def permissionFault : Half := 0x0202
def poisoned : Half := 0x0203
def linkUnreachable : Half := 0x0401
def remotePoisoned : Half := 0x0402
def swapCollided : Half := 0x0403
def contextPageFault : Half := 0x0501
def slotStateInvalid : Half := 0x0502
def outputOverflow : Half := 0x0601
def verifyMismatch : Half := 0x0602
def historyAbsent : Half := 0x0603
def streamCorrupt : Half := 0x0604
def abortedReset : Half := 0x0701
def partitionResetting : Half := 0x0702
def launchLate : Half := 0x0801
def reproKeyMismatch : Half := 0x8801
def timingPerturbed : Half := 0x8802
def flipRejected : Half := 0x0901
def mgtBusy : Half := 0x0A01
end St

/-- Bit 15 of a status marks a warning (R82). -/
def isWarning (s : Half) : Bool := s.getLsbD 15

/-- An error status: neither OK nor a warning. -/
def isError (s : Half) : Bool := s != St.ok && !isWarning s

/-! ## Partition memory (R35 to R40, R210) -/

/-- Why an access did not complete. `wait` is no failure: the data is at the host or a remote device. -/
inductive AccErr where
  | xlate | perm | pinned | bound | illegal
  /-- A poisoned line of a stack (by its number), or poison elsewhere. -/
  | poison (line : Option Nat)
  | wait (host : Bool) (dev addr n : Nat)
  /-- No link tag or engine is free: the access waits and nothing has happened. -/
  | stall
  | remote (status : Half)
  deriving DecidableEq, Repr

/-- The status of a failed access. -/
def AccErr.status : AccErr → Half
  | .xlate => St.translationFault
  | .perm | .pinned | .bound => St.permissionFault
  | .poison _ => St.poisoned
  | .illegal => St.illegalOpcode
  | .wait _ _ _ _ => St.ok
  | .stall => St.ok
  | .remote s => s

/-- One GiB. -/
def gib : Nat := 2 ^ 30

/-- Where scratch bytes stand in the numbering of locations, above every device-physical address.
(DESIGN CHOICE, assumption 10.) -/
def scratchBase : Nat := 2 ^ 45

/-- R210: the scratch byte of a partition-physical address in the scratch range.
(DESIGN CHOICE, assumption 10.) -/
def scratchLoc (ways : List Nat) (a : Nat) : Nat :=
  let l := a / 128
  let i := l / 24
  scratchBase + (((l % 24 * 16 + ways.getD (i / 2048) 0) * 2048 + i % 2048) * 128 + a % 128)

/-- The size of a partition's scratch range (R210). -/
def Part.scratchBytes (x : Part) : Nat := x.ways.length * 24 * 2048 * 128

/-- R37, R198: the device-physical address of a carve-out's partition-physical address. -/
def carveLoc (pcgs : List Nat) (a : Nat) : Nat :=
  let u := a / 4096
  let n := 4 * pcgs.length
  3 * gib * pcgs.getD (u % n / 4) 0 + (u / n * 4 + u % n % 4) * 4096 + a % 4096

/-- R38, R198: the device-physical address of an elastic partition's partition-physical address. -/
def frameLoc (frames : List Nat) (a : Nat) : Nat := gib * frames.getD (a / gib) 0 + a % gib

/-- The size of a partition's memory. -/
def Part.memBytes (x : Part) : Nat := gib * x.memGib

/-- R37 to R39, R210: the location of a partition-physical address, or none beyond MEM_GIB. -/
def Part.loc (x : Part) (a : Nat) : Option Nat :=
  if a ≥ x.memBytes then none
  else if x.det then
    some (if a < x.scratchBytes then scratchLoc x.ways a else carveLoc x.pcgs a)
  else some (frameLoc x.frames a)

/-- The byte at a location; an unwritten one is unrelated to earlier contents (R40).
(DESIGN CHOICE, assumption 9.) -/
def Chip.byteAt (c : Chip) (l : Nat) : Byte :=
  if l ≥ scratchBase then KMap.getD c.scratch l 0
  else
    match KMap.find l c.mem with
    | some b => b
    | none => Config.unwritten (KMap.getD c.keyGen (l / gib) 0) l

/-- Store a byte at a location. (DESIGN CHOICE, assumption 9.) -/
def Chip.setByte (c : Chip) (l : Nat) (b : Byte) : Chip :=
  if l ≥ scratchBase then { c with scratch := KMap.put 0 l b c.scratch }
  else { c with mem := KMap.set l b c.mem }

/-- The locations of `n` bytes at a partition-physical address, or none where one lies beyond. -/
def Part.locs (x : Part) (a n : Nat) : Option (List Nat) :=
  if a + n > x.memBytes then none else some ((rangeFrom a n).filterMap x.loc)

/-- The failure of an access to a poisoned location. -/
def poisonAt (l : Nat) : AccErr := .poison (if l ≥ scratchBase then none else some (l / 128))

/-- R198: the hash of a device line address. -/
def homeHash (l : Nat) : Nat := l ^^^ (l >>> 11) ^^^ (l >>> 22)

/-- R198: the home slice of a line. -/
def homeSlice (l : Nat) : Nat := homeHash l % 24

/-- R437: a location is reached through a slice or a memory controller that has failed; a deterministic
partition's memory bypasses the slices (R211). -/
def Chip.deadLoc (c : Chip) (x : Part) (l : Nat) : Bool :=
  c.ras.dead.any fun u =>
    match u.1 with
    | .slice => if l ≥ scratchBase then (l - scratchBase) / (2048 * 128) / 16 == u.2
                else !x.det && homeSlice (l / 128) == u.2
    | .memory => decide (l < scratchBase) && l / (48 * gib) == u.2
    | _ => false

/-- R222, R223: a location in a failed group of a stack in which another group has failed too: the code cannot rebuild
it. -/
def Chip.lostLoc (c : Chip) (l : Nat) : Bool :=
  let bad := c.fld Fld.CTX_STK_STATUS_DEGRADED (steer (l / (48 * gib)))
  decide (l < scratchBase) && bit bad (l / (3 * gib) % 16)
    && decide (2 ≤ ((List.range 16).filter (bit bad)).length)

/-- R222: a location whose line is poisoned or lost. -/
def Chip.badLoc (c : Chip) (l : Nat) : Bool := c.poison.contains (l / 128) || c.lostLoc l

/-- R220, R221: an access to a group of a carve-out in which a refresh window is open. -/
def Chip.inWindow (c : Chip) (p a n : Nat) : Bool :=
  let x := c.part p
  x.det && !c.windows.isEmpty && match x.locs a n with
    | none => false
    | some ls => ls.any fun l =>
        decide (l < scratchBase) && decide (c.gtc.toNat < KMap.getD c.windows (l / (3 * gib)) 0)

/-- Read `n` bytes at a partition-physical address (R39, R433). -/
def Chip.readPP (c : Chip) (p a n : Nat) : Except AccErr (List Byte) :=
  match (c.part p).locs a n with
  | none => .error .bound
  | some ls =>
    if ls.any (c.deadLoc (c.part p)) then .error (.poison none)
    else
    match ls.find? c.badLoc with
    | some l => .error (poisonAt l)
    | none => .ok (ls.map c.byteAt)

/-- The dword at a location, poison aside. -/
def Chip.dwordLoc (c : Chip) (l : Nat) : Dword :=
  BitVec.ofNat 64 (leNat ((rangeFrom l 8).map c.byteAt))

/-- R104: a write to the watched line re-evaluates the wait. -/
def Chip.reevaluate (c : Chip) (line : Nat) (e : Entry) : Entry :=
  match e.watch with
  | .fence a t met =>
    if a / 128 = line then { e with watch := .fence a t (met || decide (t.toNat ≤ (c.dwordLoc a).toNat)) }
    else e
  | _ => e

/-- Every wait on a line is re-evaluated. -/
def Chip.touch (c : Chip) (line : Nat) : Chip :=
  { c with queues := c.queues.map fun kq =>
      (kq.1, { kq.2 with entries := kq.2.entries.map fun ke => (ke.1, c.reevaluate line ke.2) }) }

/-- The distinct values of a list, in order of first appearance. -/
def distinct : List Nat → List Nat
  | [] => []
  | x :: xs => x :: (distinct xs).filter (· != x)

/-- The first number of an ascending list after `last`, round robin. -/
def nextAfter (last : Nat) (l : List Nat) : Option Nat :=
  match l.find? (last < ·) with
  | some x => some x
  | none => l.head?

/-- R52: what a store to these locations leaves behind for walks that may still use old values.
(DEDUCED, assumption 12.) -/
def Chip.oldOf (c : Chip) (ls : List Nat) : List OldWord :=
  (distinct (ls.map (· / 8))).map fun w =>
    { addr := w * 8
      mask := BitVec.ofNat 8 (((List.range 8).filter fun i => ls.contains (w * 8 + i)).foldl
        (fun m i => m + 2 ^ i) 0)
      old := c.dwordLoc (w * 8), seq := c.wseq }

/-- Write bytes at locations: the bytes, the old table values, poison that a whole line replaces
(R433), and the waits on the lines. -/
def Chip.writeLocs (c : Chip) (ls : List Nat) (bs : List Byte) : Chip :=
  let old := c.oldOf ls
  let lines := distinct (ls.map (· / 128))
  let c1 := (ls.zip bs).foldl (fun c x => c.setByte x.1 x.2) c
  let whole := lines.filter fun n => (List.range 128).all fun i => ls.contains (n * 128 + i)
  let c2 := { c1 with wseq := c.wseq + 1, oldWords := old ++ c.oldWords
                      poison := c.poison.filter fun n => !whole.contains n }
  lines.foldl Chip.touch c2

/-- Write bytes at a partition-physical address; a pinned table page refuses a store (R54). -/
def Chip.writePP (c : Chip) (p a : Nat) (bs : List Byte) : Except AccErr Chip :=
  let x := c.part p
  match x.locs a bs.length with
  | none => .error .bound
  | some ls =>
    if x.sealed && ((rangeFrom a bs.length).any fun b => x.pinnedPages.contains (b / 4096)) then
      .error .pinned
    else if ls.any (c.deadLoc x) then .error (.poison none)
    else .ok (c.writeLocs ls bs)

/-! ## Signatures of paired partitions (R400) -/

/-- R400: one aligned piece added: its address shifted by 3, its byte mask and its value. -/
def PairSig.add (s : PairSig) (x m v : Nat) : PairSig :=
  let h := mix (mix (BitVec.ofNat 64 (x * 256 + m)) ^^^ BitVec.ofNat 64 v)
  { s0 := s.s0 + h, s1 := s.s1 + mix (h ^^^ 0x5DEECE66D1CE4E5B), cnt := s.cnt + 1 }

/-- Signatures added and subtracted, word by word. -/
def PairSig.plus (a b : PairSig) : PairSig := { s0 := a.s0 + b.s0, s1 := a.s1 + b.s1, cnt := a.cnt + b.cnt }
/-- DEDUCED, assumption 83. -/
def PairSig.minus (a b : PairSig) : PairSig := { s0 := a.s0 - b.s0, s1 := a.s1 - b.s1, cnt := a.cnt - b.cnt }

/-- R136: the mask and the value, unwritten bytes 0, of the piece `x` of bytes written at `a`. -/
def pieceOf (a : Nat) (bs : List Byte) (x : Nat) : Nat × Nat :=
  (List.range 8).foldl (fun mv i =>
    if a ≤ 8 * x + i ∧ 8 * x + i < a + bs.length then
      (mv.1 + 2 ^ i, mv.2 + (bs.getD (8 * x + i - a) 0).toNat * 256 ^ i)
    else mv) (0, 0)

/-- R400: a write by a descriptor of queue `q` is added to the queue's signature. (DEDUCED, assumption 36.) -/
def Chip.sign (c : Chip) (q p a : Nat) (bs : List Byte) : Chip :=
  if !(c.part p).pairEn ∨ bs.isEmpty then c
  else
    let xs := rangeFrom (a / 8) ((a + bs.length - 1) / 8 + 1 - a / 8)
    { c with sigs := KMap.modify q {} (fun s => xs.foldl (fun s x =>
        s.add x (pieceOf a bs x).1 (pieceOf a bs x).2) s) c.sigs }

/-- R400: the value that a descriptor's operation left in `n` bytes is added. -/
def Chip.signLeft (c : Chip) (q p a n : Nat) : Chip :=
  match c.readPP p a n with
  | .ok bs => c.sign q p a bs
  | .error _ => c

/-! ## Translation (R44 to R54) -/

/-- The kinds of access that a leaf permits separately (R47). -/
inductive Access where
  | read | write | fetch | atomic
  deriving DecidableEq, Repr

/-- Where a virtual address leads. -/
inductive Dest where
  | here (ppa : Nat)
  | host (addr : Nat)
  | remote (dev addr : Nat)
  deriving DecidableEq, Repr

/-- Who accesses: partition, ASID, whether from the kernel ring, a number that tells apart the accesses
of one step, and whom data from outside is for. -/
structure Actor where
  p : Nat
  asid : Nat
  kernel : Bool
  rid : Nat := 0
  salt : Nat := 0
  deriving DecidableEq, Repr

/-- R51: a completed invalidation covers the ASID-table entry of an ASID, or the table entries on the path of a VA. -/
def InvRec.covers (r : InvRec) (asid : Nat) : Option Nat → Bool
  | none => (r.asid == none || r.asid == some asid) && r.table
  | some va => (r.asid == none || r.asid == some asid) && decide (r.lo ≤ va) && decide (va < r.hi)

/-- R52: the write sequence number from which a table value may have been read: the start of the latest covering
invalidation, or the binding of the ASID. `none` stands for the ASID-table entry. (DEDUCED, assumption 12.) -/
def Part.horizon (x : Part) (asid : Nat) (va : Option Nat) : Nat :=
  x.invals.foldl (fun h r => if r.covers asid va then max h r.seq else h) (KMap.getD x.bound asid x.bornSeq)

/-- R52: ASID `asid` is bound at a write sequence number. (DEDUCED, assumption 12.) -/
def Part.bind (x : Part) (asid seq : Nat) : Part := { x with bound := KMap.set asid seq x.bound }

/-- Bytes of `old` under the mask, of `cur` elsewhere. -/
def mixBytes (mask : Byte) (old cur : Dword) : Dword :=
  BitVec.ofNat 64 (leNat ((List.range 8).map fun i =>
    BitVec.ofNat 8 (bits (if mask.getLsbD i then old.toNat else cur.toNat) (8 * i + 7) (8 * i))))

/-- R50, R52: a table entry as a walk reads it: each store since the horizon counts as done or not.
(DEDUCED, assumption 12.) -/
def Chip.tableWord (c : Chip) (p asid : Nat) (va : Option Nat) (a salt : Nat) : Except AccErr Dword :=
  match c.readPP p a 8, (c.part p).loc a with
  | .ok bs, some l =>
    let h := (c.part p).horizon asid va
    .ok (c.oldWords.foldl (fun v o =>
      if o.addr = l ∧ h ≤ o.seq ∧ Config.freeNat c.ctr (salt * 2 ^ 64 + o.seq * 2 ^ 48 + a) % 2 = 1
      then mixBytes o.mask o.old v else v) (dwordAt bs 0))
  | .error e, _ => .error e
  | .ok _, none => .error .bound

/-- What a table entry is (R47, R48). -/
inductive Entry8 where
  | bad
  | table (ppa : Nat)
  | leaf (size : Nat)
  deriving DecidableEq, Repr

/-- R47, R48: an entry judged at its level. (DEDUCED, assumption 134.) -/
def judgeEntry (level : Nat) (e : Dword) : Entry8 :=
  let n := e.toNat
  let v := bit n 0
  let leaf := bit n 1
  let target := bits n 55 52
  let c64 := bit n 6
  if !v then .bad
  else if bits n 11 9 ≠ 0 ∨ bits n 63 62 ≠ 0 ∨ (level ≠ 1 && c64) then .bad
  else if bits n 61 56 ≠ 0 ∧ target ≠ 2 then .bad
  else if level = 1 then (if target > 2 then .bad else .leaf (if c64 then 65536 else 4096))
  else if leaf then
    if level = 4 then .bad
    else
      let size := if level = 3 then gib else 2 ^ 21
      if target > 2 then .bad
      else if bits n 51 12 * 4096 % size ≠ 0 then .bad
      else .leaf size
  else if target ≠ 0 then .bad
  else .table (bits n 51 12 * 4096)

/-- The table index of a VA at a level (R46). -/
def vaIndex (level va : Nat) : Nat := va / 2 ^ (12 + 9 * (level - 1)) % 512

/-- R49: the entries of a VA's 64 KiB run, in a level-1 table, that have C64 set. -/
def Chip.runEntries (c : Chip) (p asid va salt table : Nat) : List Dword :=
  (List.range 16).filterMap fun i =>
    match c.tableWord p asid (some va) (table + 8 * (vaIndex 1 va / 16 * 16 + i)) (salt * 8) with
    | .ok e => if judgeEntry 1 e = .leaf 65536 then some e else none
    | .error _ => none

/-- R49: a translation taken from an entry with C64 set covers its whole run, and which entry supplies it depends on
which address was accessed first. Each access uses its own entry's result `own`, or any entry of the run that has C64
set: a free choice. (DESIGN CHOICE, assumption 154.) -/
def Chip.overRun (c : Chip) (p asid va salt table : Nat) (own : Except AccErr (Dword × Nat)) :
    Except AccErr (Dword × Nat) :=
  let es := c.runEntries p asid va salt table
  if es.isEmpty then own
  else
    match es[Config.freeNat c.ctr (salt * 2 ^ 64 + 2 ^ 60 + va / 65536) % (es.length + 1)]? with
    | some e => .ok (e, 65536)
    | none => own

/-- R46: the walk below a table: the leaf entry and its size. -/
def Chip.walkFrom (c : Chip) (p asid va salt : Nat) : Nat → Nat → Except AccErr (Dword × Nat)
  | 0, _ => .error .xlate
  | level + 1, table =>
    let own :=
      match c.tableWord p asid (some va) (table + 8 * vaIndex (level + 1) va) (salt * 8 + level) with
      | .error e => .error e
      | .ok e =>
        match judgeEntry (level + 1) e with
        | .bad => .error .xlate
        | .leaf size => .ok (e, size)
        | .table t => Chip.walkFrom c p asid va salt level t
    if level = 0 then c.overRun p asid va salt table own else own

/-- PART_ASIDT. A change of it is used at once: the spec ties it to the scope of an invalidation (R51) and does not say
how long an old value may be used. (DESIGN CHOICE, assumption 155.) -/
def Chip.asidTable (c : Chip) (p : Nat) : Nat :=
  4096 * c.fld Fld.PART_ASIDT_LO_BASE_LO (pg p) + 2 ^ 32 * c.fld Fld.PART_ASIDT_HI_BASE_HI (pg p)

/-- R45: an ASID-table entry: VALID alone beside the table address. -/
def asidEntry (e : Dword) : Option Nat :=
  let n := e.toNat
  if bit n 0 && (bits n 11 1 == 0 && bits n 63 39 == 0) then some (bits n 38 12 * 4096) else none

/-- R45, R46: the walk from the ASID table. -/
def Chip.walk (c : Chip) (p asid va salt : Nat) : Except AccErr (Dword × Nat) :=
  let x := c.part p
  if asid < x.asidBase ∨ asid ≥ x.asidBase + x.asidCount then .error .perm
  else
    match c.tableWord p asid none (c.asidTable p + 8 * (asid - x.asidBase)) (salt * 8 + 7) with
    | .error e => .error e
    | .ok e =>
      match asidEntry e with
      | none => .error .xlate
      | some t => c.walkFrom p asid va salt 4 t

/-- R54: the pinned leaf that covers a VA. -/
def Part.pinnedLeaf (x : Part) (asid va : Nat) : Option Leaf :=
  x.pinned.find? fun f => f.asid == asid && decide (f.va ≤ va) && decide (va < f.va + f.size)

/-- R46 to R54: the leaf entry of a VA and its size. -/
def Chip.leafOf (c : Chip) (w : Actor) (va : Nat) : Except AccErr (Dword × Nat) :=
  let x := c.part w.p
  if va ≥ 2 ^ 48 then .error .xlate
  else if x.sealed then
    match x.pinnedLeaf w.asid va with
    | some f => .ok (f.entry, f.size)
    | none => .error .xlate
  else c.walk w.p w.asid va w.salt

/-- R47, R132: whether a leaf permits an access. -/
def permits (e : Dword) (k : Access) (kernel : Bool) : Bool :=
  let n := e.toNat
  (!bit n 5 || kernel) &&
  match k with
  | .read => bit n 2
  | .write => bit n 3
  | .fetch => bit n 4
  | .atomic => bit n 3 && bits n 55 52 != 1

/-- Where an access to a VA goes, or why it fails. -/
def Chip.translate (c : Chip) (w : Actor) (k : Access) (va : Nat) : Except AccErr Dest :=
  match c.leafOf w va with
  | .error e => .error e
  | .ok (e, size) =>
    if !permits e k w.kernel then .error .perm
    else
      let n := e.toNat
      let pa := bits n 51 12 * 4096 / size * size + va % size
      match bits n 55 52 with
      | 0 => if pa ≥ (c.part w.p).memBytes then .error .bound else .ok (.here pa)
      | 1 => .ok (.host pa)
      | _ => .ok (.remote (bits n 61 56) pa)

/-- The pieces of a VA range that lie in one 4 KiB page each. -/
def pagePieces : Nat → Nat → Nat → List (Nat × Nat)
  | 0, _, _ => []
  | fuel + 1, va, n =>
    if n = 0 then []
    else
      let k := min n (4096 - va % 4096)
      (va, k) :: pagePieces fuel (va + k) (n - k)

/-- The 4 KiB pieces of `n` bytes at `va`. -/
def pieces (va n : Nat) : List (Nat × Nat) := pagePieces (n / 4096 + 2) va n

/-- The key of a host or remote byte in a requester's buffer of delivered data. -/
def outsideKey (host : Bool) (dev a : Nat) : Nat := (if host then 0 else dev + 1) * 2 ^ 60 + a

/-- Data already delivered to a requester, or the wait for it. -/
def Chip.delivered (c : Chip) (rid : Nat) (host : Bool) (dev a n : Nat) : Except AccErr (List Byte) :=
  let buf := KMap.getD c.inbuf rid []
  let got := (rangeFrom a n).filterMap fun b => KMap.find (outsideKey host dev b) buf
  if got.length = n then .ok got else .error (.wait host dev a n)

/-- Read one piece; one whose memory is in a refresh window waits until it ends (R220).
(DESIGN CHOICE, assumption 28.) -/
def Chip.readPiece (c : Chip) (w : Actor) (k : Access) (va n : Nat) : Except AccErr (List Byte) :=
  match c.translate w k va with
  | .error e => .error e
  | .ok (.here a) => if c.inWindow w.p a n then .error .stall else c.readPP w.p a n
  | .ok (.host a) => c.delivered w.rid true 0 a n
  | .ok (.remote d a) => c.delivered w.rid false d a n

/-- Read pieces in order, with the VA at which a failure arose. -/
def Chip.readPieces (c : Chip) (w : Actor) (k : Access) :
    List (Nat × Nat) → Except (AccErr × Nat) (List Byte)
  | [] => .ok []
  | (va, n) :: t =>
    match c.readPiece w k va n with
    | .error e => .error (e, va)
    | .ok bs =>
      match Chip.readPieces c w k t with
      | .error e => .error e
      | .ok r => .ok (bs ++ r)

/-- Read `n` bytes at a VA. -/
def Chip.readVA (c : Chip) (w : Actor) (va n : Nat) : Except (AccErr × Nat) (List Byte) :=
  c.readPieces w .read (pieces va n)

/-! ## Fault capture (R55) -/

/-- The bit of PART_FAULT that an error sets, by its status and cause. A refusal from outside the device is PERM where
its status is PERMISSION_FAULT and POISON where it is POISONED. -/
def AccErr.faultBit : AccErr → Option Nat
  | .xlate => some 0
  | .perm => some 1
  | .pinned => some 2
  | .bound => some 3
  | .poison _ => some 5
  | .illegal => some 6
  | .wait _ _ _ _ => none
  | .stall => none
  | .remote s => if s = St.permissionFault then some 1 else if s = St.poisoned then some 5 else none

/-! Units named in PART_FAULT_ID (R55). -/

namespace FaultUnit
def cluster : Nat := 0
def copy : Nat := 1
def compression : Nat := 2
def grinder : Nat := 3
def layer : Nat := 4
def inbound : Nat := 5
def sealWalk : Nat := 6
/-- DEDUCED, assumption 29. -/
def frontEnd : Nat := 7
end FaultUnit

/-- The stack of a line (R36, R198). -/
def stackOf (line : Nat) : Nat := line * 128 / (48 * gib)

/-- R222: a read of a poisoned line is counted in its stack. -/
def Chip.countUe (c : Chip) (e : AccErr) : Chip :=
  match e with
  | .poison (some n) => c.count Fld.CTX_ECC_UE_COUNT (steer (stackOf n))
  | _ => c

/-- R55: the first fault sets its bit and fills the capture registers; a further one sets MORE. -/
def Chip.captureBit (c : Chip) (p b unit asid va tag : Nat) : Chip :=
  let held := (c.rg (Reg.PART_FAULT + pg p)).toNat
  if held &&& 0x6F ≠ 0 then c.setRg (Reg.PART_FAULT + pg p) (BitVec.ofNat 32 (held ||| 0x10))
  else
    let c1 := c.setRg (Reg.PART_FAULT + pg p) (BitVec.ofNat 32 (held ||| 2 ^ b))
    let c2 := c1.setRg (Reg.PART_FAULT_ID + pg p)
      (BitVec.ofNat 32 (asid % 4096 + unit % 16 * 2 ^ 12 + tag % 2 ^ 16 * 2 ^ 16))
    (c2.setRg (Reg.PART_FAULT_VA_LO + pg p) (BitVec.ofNat 32 va)).setRg
      (Reg.PART_FAULT_VA_HI + pg p) (BitVec.ofNat 32 (va / 2 ^ 32 % 2 ^ 16))

/-- R55, R222: a fault is captured where its status has a bit. (DEDUCED, assumption 29.) -/
def Chip.capture (c0 : Chip) (p : Nat) (e : AccErr) (unit asid va tag : Nat) : Chip :=
  let c := c0.countUe e
  match e.faultBit with
  | none => c
  | some b => c.captureBit p b unit asid va tag

/-- R55, R69, R128: the bit of a fault that a rule captures whatever its status: REMOTE_POISONED is POISON, and a status
for which R55 names no bit sets one of the six, a free choice. (DESIGN CHOICE, assumption 156.) -/
def Chip.bitOf (c : Chip) (e : AccErr) : Nat :=
  match e with
  | .remote s =>
    if s = St.remotePoisoned then 5 else [0, 1, 2, 3, 5, 6].getD (Config.freeNat c.ctr (2 ^ 71 + s.toNat) % 6) 0
  | _ => 0

/-- R55, R69, R128: capture a fault whatever its status. (DESIGN CHOICE, assumption 156.) -/
def Chip.captureAny (c : Chip) (p : Nat) (e : AccErr) (unit asid va tag : Nat) : Chip :=
  (c.countUe e).captureBit p (e.faultBit.getD (c.bitOf e)) unit asid va tag

/-! ## Events (R84, R85) -/

/-- EVRING's base address. -/
def Chip.evBase (c : Chip) (p : Nat) : Nat :=
  4096 * c.fld Fld.EVRING_BASE_LO_BASE_LO (pg p) + 2 ^ 32 * c.fld Fld.EVRING_BASE_HI_BASE_HI (pg p)

/-- The 16 bytes of an event record (R84). -/
def eventRecord (code queue : Nat) (phase : Bool) (detail : Nat) (gtc : Dword) : List Byte :=
  leBytes 4 (code % 2 ^ 16 + queue % 1024 * 2 ^ 16 + b2n phase * 2 ^ 31) ++ leBytes 4 detail
    ++ leBytes 8 gtc.toNat

/-- R79, R84: PHASE is 1 on the first pass through a ring of 2^L entries and alternates. -/
def phaseOf (n l : Nat) : Bool := n / 2 ^ l % 2 == 0

/-- R84, R85, R533: post an event to a partition's ring, or count it lost. -/
def Chip.postEvent (c : Chip) (p code queue detail : Nat) : Chip :=
  if !c.exists? p then c
  else
    let head := c.fld Fld.EVRING_HEAD_HEAD (pg p)
    let tail := c.fld Fld.EVRING_TAIL_TAIL (pg p)
    let l := c.fld Fld.EVRING_CTL_LOG2 (pg p)
    if !c.flag Fld.EVRING_CTL_EV_ENABLE (pg p) ∨ (tail + 2 ^ 32 - head) % 2 ^ 32 ≥ 2 ^ l then
      c.count Fld.EVRING_LOST_COUNT (pg p)
    else
      match c.writePP p (c.evBase p + 16 * (tail % 2 ^ l))
          (eventRecord code queue (phaseOf tail l) detail c.gtc) with
      | .error _ => c.count Fld.EVRING_LOST_COUNT (pg p)
      | .ok c1 =>
        (c1.setFld Fld.EVRING_TAIL_TAIL (pg p) ((tail + 1) % 2 ^ 32)).raiseVector p
          (c.fld Fld.EVRING_CTL_VECTOR (pg p))

/-- Post to a partition and to partition 0 (once where they are the same). -/
def Chip.postBoth (c : Chip) (p code queue detail : Nat) : Chip :=
  let c1 := c.postEvent p code queue detail
  if p = 0 then c1 else c1.postEvent 0 code queue detail

/-! ## Poisoned lines (R222, R472) -/

/-- R472: a line is poisoned; where its controller's list of 1,024 is full, its frame is withheld. -/
def Chip.addPoison (c : Chip) (line : Nat) : Chip :=
  let f := line / (gib / 128)
  if c.poison.contains line then c
  else if line ≥ scratchBase / 128 ∨ (c.poison.filter fun l => stackOf l == stackOf line).length < 1024
      ∨ c.sec.withheld.contains f then { c with poison := line :: c.poison }
  else
    let c1 := { c with poison := line :: c.poison, sec := { c.sec with withheld := f :: c.sec.withheld } }
    ((c1.count Fld.SEC_KEY_STATUS_COUNT).postEvent 0 0x0072 0 f).raiseOwner 4

/-! ## Register access errors (R12, R459) -/

/-- R12: log a register access error at an offset. (DEDUCED, assumption 123.) -/
def Chip.regError (c : Chip) (addr : Nat) : Chip :=
  (c.count Fld.RAS_REGERR_CNT_COUNT).setRg Reg.RAS_REGERR_ADDR (BitVec.ofNat 32 addr)

/-! ## Commands -/

/-- The step counter moves on, so that the next step's free values are fresh. (DESIGN CHOICE, assumption 7.) -/
def Chip.tick (c : Chip) : Chip := { c with ctr := c.ctr + 1 }

/-- A command whose effect is on the chip alone; none while the clocks are stopped (R416).
(DESIGN CHOICE, assumption 5; DEDUCED, assumption 6.) -/
def onChip (f : Chip → Chip) (s : State) : Host.Outcome State Fault Refusal :=
  .next { s with chip := (if s.chip.stopped then s.chip else f s.chip).tick }

/-- R482: boot step 31 has completed. -/
def Chip.booted (c : Chip) : Bool := c.fld Fld.MGT_STATE_MODE == 1 || c.fld Fld.MGT_STATE_MODE == 3

/-- R482: a register write from the host; until boot step 31 completes, or while the link is down, it is discarded.
(DESIGN CHOICE, assumption 5.) -/
def onHost (f : Chip → Chip) (s : State) : Host.Outcome State Fault Refusal :=
  onChip (fun c => if c.booted && c.flag Fld.PCI_LINK_UP then f c else c) s

/-- A command of the always-on domain, whose clock never stops (R416).
(DESIGN CHOICE, assumption 5; DEDUCED, assumption 6.) -/
def onAlways (f : Chip → Chip) (s : State) : Host.Outcome State Fault Refusal :=
  .next { s with chip := (f s.chip).tick }

/-- R482: a register write of the always-on domain from the host. (DEDUCED, assumption 6.) -/
def onHostAlways (f : Chip → Chip) (s : State) : Host.Outcome State Fault Refusal :=
  onAlways (fun c => if c.booted && c.flag Fld.PCI_LINK_UP then f c else c) s

/-- A command that also reaches the nonvolatile stores. (DESIGN CHOICE, assumption 5.) -/
def onBoth (f : NonVol → Chip → NonVol × Chip) (s : State) : Host.Outcome State Fault Refusal :=
  let r := if s.chip.stopped then (s.nv, s.chip) else f s.nv s.chip
  .next { s with nv := r.1, chip := r.2.tick }

/-- A command of the always-on domain that also reaches the nonvolatile stores. (DEDUCED, assumption 6.) -/
def onBothAlways (f : NonVol → Chip → NonVol × Chip) (s : State) : Host.Outcome State Fault Refusal :=
  let r := f s.nv s.chip
  .next { s with nv := r.1, chip := r.2.tick }

end Sys2Proof.Machine
end

