-- ==== Sys2Proof/Machine/Requests.lean ====
section
/-!
DEFINITION. Requests that leave the device (R356 to R362, R509), the device's own inbound path (R359),
atomics (R132), and writes by virtual address.
-/

namespace Sys2Proof.Machine

/-! ## Atomics (R132) -/

/-- The value an atomic leaves: ATOP over `size` bytes. -/
def atomicVal (op size : Nat) (old operand compare : Nat) : Nat :=
  let w := 8 * size
  let old := old % 2 ^ w
  let x := operand % 2 ^ w
  match op with
  | 0 => (old + x) % 2 ^ w
  | 1 => let f := if size = 8 then fp64 else fp32
         f.round .rne false ((f.decode old).add .rne (f.decode x))
  | 2 => max old x
  | 3 => min old x
  | 4 => old &&& x
  | 5 => old ||| x
  | 6 => x
  | _ => if old = compare % 2 ^ w then x else old

/-- An atomic on `size` bytes at a partition-physical address: the new state and the old value. -/
def Chip.atomicPP (c : Chip) (p a size op operand compare : Nat) : Except AccErr (Chip × Nat) :=
  match c.readPP p a size with
  | .error e => .error e
  | .ok bs =>
    let old := leNat bs
    match c.writePP p a (leBytes size (atomicVal op size old operand compare)) with
    | .error e => .error e
    | .ok c1 => .ok (c1, old)

/-! ## The inbound path (R359, R377) -/

/-- R377: whether window `w` admits the operation. -/
def Chip.windowAdmits (c : Chip) (p w srcDev srcPart line : Nat) (write : Bool) : Bool :=
  let o := pg p + 0x10 * w
  let base := 2 ^ 16 * c.fld Fld.AXL_IN_BASE_LO_BASE_LO o + 2 ^ 32 * c.fld Fld.AXL_IN_BASE_HI_BASE_HI o
  let size := 2 ^ 16 * c.fld Fld.AXL_IN_SIZE_SIZE o
  c.flag Fld.AXL_IN_SRC_EN o && decide (base ≤ line) && decide (line + 128 ≤ base + size)
    && (c.flag Fld.AXL_IN_SRC_ANY_DEV o || c.fld Fld.AXL_IN_SRC_SRC_DEV o == srcDev)
    && bit (c.fld Fld.AXL_IN_SRC_SRC_PARTS o) srcPart
    && (if write then c.flag Fld.AXL_IN_SRC_W o else c.flag Fld.AXL_IN_SRC_R o)

/-- R359: why an inbound request is refused, or none. -/
def Chip.inboundRefusal (c : Chip) (srcDev srcPart p line : Nat) (kind : ReqKind) : Option AccErr :=
  let x := c.part p
  let write := match kind with | .read _ => false | _ => true
  if x.state = .absent ∨ x.state = .opened ∨ x.state = .destroying then some (.remote St.permissionFault)
  else if x.state = .resetting then
    match kind with
    | .write _ => some (.remote St.partitionResetting)
    | _ => some (.remote St.remotePoisoned)
  else if !((List.range 8).any fun w => c.windowAdmits p w srcDev srcPart line write) then
    some (.remote St.permissionFault)
  else if line + 128 > x.memBytes then some .bound
  else none

/-- R359: a refusal under orders 1, 3 and 4 is counted; R39, R55: one beyond MEM_GIB is captured as BOUND. -/
def Chip.countDenied (c : Chip) (p : Nat) (e : AccErr) : Chip :=
  let c1 := if e.status = St.permissionFault then c.count Fld.AXL_IN_DENY_CNT_COUNT (pg p) else c
  if e = .bound then c1.capture p .bound FaultUnit.inbound 0 0 0 else c1

/-- R359, R433: an inbound request served at its target: the state, the status and the response data. -/
def Chip.inbound (c : Chip) (srcDev srcPart p addr : Nat) (kind : ReqKind) : Chip × Half × List Byte :=
  let line := addr / 128 * 128
  match c.inboundRefusal srcDev srcPart p line kind with
  | some e => (c.countDenied p e, e.status, [])
  | none =>
    match kind with
    | .read n =>
      match c.readPP p addr n with
      | .ok bs => (c, St.ok, bs)
      | .error (.poison n) => (c.countUe (.poison n), St.remotePoisoned, [])
      | .error _ => (c, St.permissionFault, [])
    | .write bs =>
      match c.writePP p addr bs with
      | .ok c1 => (c1, St.ok, [])
      | .error .pinned => (c.capture p .pinned FaultUnit.inbound 0 0 0, St.permissionFault, [])
      | .error _ => (c, St.permissionFault, [])
    | .atomic op size x y =>
      match c.atomicPP p addr size op x.toNat y.toNat with
      | .ok (c1, old) => (c1, St.ok, leBytes size old)
      | .error (.poison n) => (c.countUe (.poison n), St.remotePoisoned, [])
      | .error _ => (c, St.permissionFault, [])

/-! ## Outgoing requests (R356 to R358) -/

/-- Whether a port is UP (R346, R375). -/
def Chip.portUp (c : Chip) (port : Nat) : Bool := c.fld Fld.AXL_PORT_STATUS_STATE (port * 0x40) == 2

/-- R357: candidate ports for a device, ascending. -/
def Chip.routes (c : Chip) (dev : Nat) : List Nat :=
  (List.range (c.fld Fld.DEV_CAPS0_LINK_PORTS)).filter fun n =>
    bit (c.fld Fld.AXL_ROUTE_PORTS (4 * dev)) n && c.portUp n

/-- R357: the port of a request to a remote address. -/
def Chip.routeOf (c : Chip) (dev ra : Nat) : Option Nat :=
  let cs := c.routes dev
  let l := ra >>> 7
  cs[(l ^^^ (l >>> 11)) % cs.length]?

/-- The slots that a partition owns on a port (R363). -/
def Part.slotCount (x : Part) (port : Nat) : Nat := bits x.linkSlots (8 * port + 7) (8 * port + 4)

/-- R364, R365: whether a partition may send on a port: a deterministic one needs slots there. -/
def Chip.sendsOn (c : Chip) (p port : Nat) : Bool :=
  !(c.part p).det || ((c.part p).slotCount port != 0 && !bit (c.part p).lostPorts port)

/-- R357, R365: the ports on which a partition reaches a device. -/
def Chip.ownRoutes (c : Chip) (p dev : Nat) : List Nat := (c.routes dev).filter (c.sendsOn p)

/-- The partition number of a remote request whose tag a reset has returned (R446): its response is discarded.
(DEDUCED, assumption 137.) -/
def noPart : Nat := 16

/-- The tags outstanding of remote requests that satisfy `f`. -/
def Chip.tagsHeld (c : Chip) (f : Req → Bool) : Nat :=
  (c.reqs.filter fun r => r.sent && !r.host && r.part != noPart && f r).length

/-- Tags held by deterministic partitions at CREATE (R358). (DEDUCED, assumption 141.) -/
def Chip.detTags (c : Chip) : Nat :=
  c.parts.foldl (fun n kp => if kp.2.det then n + kp.2.linkTags else n) 0

/-- The lowest tag that no outstanding request holds. -/
def Chip.freeTag (c : Chip) (host : Bool) : Nat :=
  let used := (c.reqs.filter fun r => r.sent && r.host == host).map Req.tag
  ((List.range (used.length + 1)).find? fun t => !used.contains t).getD 0

/-- R358: whether a partition's queue may take one more link tag. -/
def Chip.mayTakeTag (c : Chip) (p q : Nat) : Bool :=
  let x := c.part p
  let held := c.tagsHeld fun r => r.part == p
  if c.freeTag false ≥ 8192 then false
  else if x.det then decide (held < x.linkTags)
  else
    let quota := c.fld Fld.AXL_PTAGS_QUOTA (4 * p)
    let qmax := c.fld Fld.AXL_QTAGS_QMAX (pg p)
    let elastic := c.tagsHeld fun r => !(c.part r.part).det
    decide (held < quota)
      && decide (c.tagsHeld (fun r => r.queue == q) < (if qmax = 0 then quota else qmax))
      && decide (elastic + c.detTags < 8192)

/-! ## Ports and messages (R351 to R355) -/

def Chip.lport (c : Chip) (n : Nat) : LPort := KMap.getD c.ports n {}
def Chip.setLport (c : Chip) (n : Nat) (x : LPort) : Chip := { c with ports := KMap.set n x c.ports }

/-- R354: the virtual channel of a message of partition `p`: DET for a deterministic one.
(DEDUCED, assumption 54.) -/
def Chip.vcFor (c : Chip) (p vc : Nat) : Nat := if (c.part p).det then Vc.det else vc

/-- Append to one list of a table. -/
def pushTo {α : Type} (k : Nat) (x : α) (m : KMap (List α)) : KMap (List α) :=
  KMap.modify k [] (· ++ [x]) m

/-- R355: a message is ready to be sent on a port. -/
def Chip.sendMsg (c : Chip) (port : Nat) (m : Msg) : Chip :=
  let x := c.lport port
  c.setLport port { x with txq := pushTo m.vc m x.txq }

/-- The first element that satisfies `f`, and the list without it. -/
def takeFirst {α : Type} (f : α → Bool) : List α → Option (α × List α)
  | [] => none
  | x :: xs =>
    if f x then some (x, xs)
    else
      match takeFirst f xs with
      | some (y, ys) => some (y, x :: ys)
      | none => none

/-- R355: the first received message of a virtual channel that satisfies `f` is taken; its slots return. -/
def Chip.takeMsg (c : Chip) (port vc : Nat) (f : Msg → Bool) : Option (Msg × Chip) :=
  let x := c.lport port
  match takeFirst f (KMap.getD x.rxq vc []) with
  | none => none
  | some (m, rest) =>
    some (m, c.setLport port { x with rxq := KMap.set vc rest x.rxq
                                      freed := KMap.modify vc 0 (· + (1 + m.data.length)) x.freed })

/-- A received COLL or SWAP message whose content a command carries gives its slots back. -/
def Chip.dropMsg (c : Chip) (port vc : Nat) (f : Msg → Bool) : Chip :=
  match c.takeMsg port vc f with
  | some (_, c1) => c1
  | none => c

/-- R474: the receive counter of a direction advances with every flit. -/
def Chip.countRx (c : Chip) (port : Nat) : Chip :=
  let x := c.lport port
  c.setLport port { x with rxCount := x.rxCount + 1 }

/-- R347, R353: `n` data slots of bytes. -/
def slotsOf (bs : List Byte) (n : Nat) : List Nat := (List.range n).map fun i => fieldLE bs (16 * i) 16

/-- R353: the byte mask and the 128 bytes of a WRITE_PARTIAL of `bs` at an address. -/
def partialSlots (a : Nat) (bs : List Byte) : List Nat :=
  let o := a % 128
  ((2 ^ bs.length - 1) * 2 ^ o) :: slotsOf (List.replicate o 0 ++ bs) 8

/-- R353, R357: operation, ATOM field and data slots of a request at an address. -/
def ReqKind.wire (a : Nat) : ReqKind → Nat × Nat × List Nat
  | .read _ => (MOp.read, 0, [])
  | .write bs =>
    if a % 128 = 0 ∧ bs.length = 128 then (MOp.write, 0, slotsOf bs 8)
    else (MOp.writePartial, 0, partialSlots a bs)
  | .atomic op size x y =>
    (MOp.atomic, op % 8 + 8 * (if size = 8 then 3 else 2), [x.toNat + 2 ^ 64 * y.toNat])

/-- R353: the message of a request; an atomic names its own address, the others their line.
(DEDUCED, assumption 53.) -/
def Chip.requestMsg (c : Chip) (r : Req) : Msg :=
  let w := r.kind.wire r.addr
  let a := r.addr % 2 ^ 39
  { vc := c.vcFor r.part Vc.req, op := w.1, srcDev := c.fld Fld.AXL_DEVICE_DEVNUM, srcPart := r.part,
    dstDev := r.dev, dstPart := bits r.addr 42 39, tag := r.tag
    addr := if w.1 = MOp.atomic then a else a / 128 * 128, atom := w.2.1, data := w.2.2 }

/-- R347, R348: the physical lane that carries a logical lane. -/
def Chip.physLane (c : Chip) (port k : Nat) : Nat :=
  if c.flag Fld.AXL_PORT_STATUS_SPARE_USED (port * 0x40) && c.fld Fld.AXL_PORT_STATUS_SPARED_LANE (port * 0x40) == k then 8
  else k

/-- R347: a flit striped over the lanes, 32 bytes each. -/
def Chip.stripe (c : Chip) (port : Nat) (bytes : List Byte) : List (Nat × List Byte) :=
  (List.range 8).map fun k => (c.physLane port k, (bytes.drop (32 * k)).take 32)

/-- R352: flits up to ACK leave the retry buffer. -/
def LPort.acked (x : LPort) (ack : Nat) : LPort :=
  if x.retry.any fun f => f.hdr.seq == ack then
    let rest := (x.retry.dropWhile fun f => f.hdr.seq != ack).drop 1
    { x with retry := rest, again := x.again.filter fun s => rest.any fun f => f.hdr.seq == s }
  else x

/-- R355: credits return on a virtual channel. -/
def LPort.credited (x : LPort) (h : FlitHdr) : LPort :=
  { x with debt := KMap.modify h.cvc 0 (· - h.credits) x.debt }

/-- R352, R355: what the header of every flit received says: an acknowledgement and credits. -/
def LPort.heard (x : LPort) (h : FlitHdr) : LPort := (x.acked h.ack).credited h

/-- R351, R474: a flit leaves a port, sealed where CRYPT is set. -/
def Chip.sendFlit (c : Chip) (port : Nat) (h : FlitHdr) (slots : List Nat) : Chip :=
  let x := c.lport port
  let body := if c.flag Fld.AXL_PORT_CTL_CRYPT (port * 0x40)
    then gcmSeal (linkGcm x.key 0 x.txCount) h.num ((List.range 14).map fun i => slots.getD i 0) else slots
  (c.setLport port { x with txCount := x.txCount + 1 }).emit
    (.flit port (c.stripe port (flitBytes h.num body)))

/-- Keep a request as outstanding. -/
def Chip.hold (c : Chip) (r : Req) : Chip := { c with reqs := c.reqs ++ [r] }

/-- R357, R358, R509: a request waits: for a tag, for the requests on a port that leaves the set of candidates, or,
to the host, for one of the 768. -/
def Chip.mustWait (c : Chip) (r : Req) : Bool :=
  if r.host then decide ((c.reqs.filter fun o => o.sent && o.host).length ≥ 768)
  else !c.mayTakeTag r.part r.queue
    || (r.dev != c.fld Fld.AXL_DEVICE_DEVNUM && !(c.routes r.dev).isEmpty
        && c.reqs.any fun o => o.sent && !o.host && o.dev == r.dev && o.answer.isNone && !(c.routes r.dev).contains o.port)

/-- R509: what the address translation cache holds for a function's host address. -/
def Pcie.translated (x : Pcie) (fn addr : Nat) : Option Nat :=
  (x.atc.find? fun e => e.1 == fn && e.2.1 == addr / 4096).map fun e => 4096 * e.2.2 + addr % 4096

/-- R509: a translation enters the cache of 2,048 entries, the oldest of which makes room. (DESIGN CHOICE,
assumption 188.) -/
def Pcie.learn (x : Pcie) (fn page dest : Nat) : Pcie :=
  let kept := x.atc.filter fun e => !(e.1 == fn && e.2.1 == page)
  { x with atc := kept.drop (kept.length - 2047) ++ [(fn, page, dest)] }

/-- R509: translations that a function loses. -/
def Pcie.forget (x : Pcie) (fn : Nat) (f : Nat → Bool) : Pcie :=
  { x with atc := x.atc.filter fun e => !(e.1 == fn && f e.2.1) }

/-- The pieces of at most `k` of `n` bytes at an address. -/
def chunks (k a n : Nat) : List (Nat × Nat) :=
  (List.range (ceilDiv n k)).map fun i => (a + i * k, min k (n - i * k))

/-- R502: a posted write to the host, in packets of at most the Max Payload Size. -/
def Chip.postHost (c : Chip) (addr : Nat) (bs : List Byte) : Chip :=
  (chunks c.pcie.maxPayload addr bs.length).foldl (fun c x => c.emit (.hostWrite x.1 ((bs.drop (x.1 - addr)).take x.2))) c

/-- R509: a request goes to the host, at its translated address where it has one: a read awaits its completion. -/
def Chip.sendHost (c : Chip) (r : Req) : Chip :=
  match r.kind with
  | .read n => (c.hold r).emit (.hostRead r.tag (r.xlat.getD r.addr) n)
  | .write bs => c.postHost (r.xlat.getD r.addr) bs
  | _ => c

/-- R509: a request to the host leaves: with ATS enabled on its function, at the address that the cache holds, or once
the host's translation agent has answered. -/
def Chip.transmitHost (c : Chip) (r : Req) : Chip :=
  if !bit c.pcie.ats r.part then c.sendHost r
  else
    match c.pcie.translated r.part r.addr with
    | some a => c.sendHost { r with xlat := some a }
    | none => (c.hold { r with asks := true }).emit (.atsRequest r.tag r.addr)

/-- R356 to R358, R364, R365, R509: a request that need not wait takes its tag and leaves. -/
def Chip.transmit (c : Chip) (r0 : Req) : Except AccErr Chip :=
  let r := { r0 with tag := c.freeTag r0.host, sent := true }
  if r.host then .ok (c.transmitHost r)
  else if r.dev = c.fld Fld.AXL_DEVICE_DEVNUM then
    let (c1, s, bs) := c.inbound r.dev r.part (bits r.addr 42 39) (r.addr % 2 ^ 39) r.kind
    .ok (c1.hold { r with answer := some (s, bs) })
  else
    match c.routeOf r.dev r.addr with
    | none => .error (.remote St.linkUnreachable)
    | some port =>
      if !c.sendsOn r.part port then .error (.remote St.linkUnreachable)
      else .ok ((c.hold { r with port := port }).sendMsg port (c.requestMsg { r with port := port }))

/-- R358, R509: a request is sent, or kept until it may be, behind those of its queue that wait already. It is never
refused for want of a tag. (DESIGN CHOICE, assumption 158.) -/
def Chip.request (c : Chip) (r : Req) : Except AccErr Chip :=
  if c.mustWait r || c.reqs.any (fun o => !o.sent && o.host == r.host && o.queue == r.queue) then
    .ok (c.hold { r with sent := false })
  else c.transmit r

/-- One waiting request is sent if it may be; a queue whose oldest one may not keeps its others back. One that can
no longer be routed is answered with that status. (DESIGN CHOICE, assumption 158.) -/
def Chip.pumpOne (x : Chip × List (Bool × Nat)) (r : Req) : Chip × List (Bool × Nat) :=
  let (c, held) := x
  if r.sent || held.contains (r.host, r.queue) then x
  else if c.mustWait r then (c, (r.host, r.queue) :: held)
  else
    let c1 := { c with reqs := c.reqs.erase r }
    match c1.transmit r with
    | .ok c2 => (c2, held)
    | .error e => (c1.hold { r with tag := c1.freeTag r.host, sent := true, answer := some (e.status, []) }, held)

/-- R358: the waiting requests that may now be sent are sent, oldest first. -/
def Chip.pump (c : Chip) : Chip := (c.reqs.foldl Chip.pumpOne (c, [])).1

/-- R356 to R358, R365: a request of one line to a remote device. -/
def Chip.requestRemote (c : Chip) (dev ra : Nat) (kind : ReqKind) (p q : Nat) (who : Requester) (va : Nat := 0) :
    Except AccErr Chip :=
  if ra / 2 ^ 43 ≠ 0 then .error .perm
  else c.request { tag := 0, host := false, dev := dev, addr := ra, kind := kind, part := p, queue := q, port := 0xFF,
                   who := who, va := va }

/-- R502, R509: a request to the host; at most 768 are outstanding. -/
def Chip.requestHost (c : Chip) (addr : Nat) (kind : ReqKind) (p q : Nat) (who : Requester) (va : Nat := 0) :
    Except AccErr Chip :=
  if !c.mayMaster p then .error .perm
  else c.request { tag := 0, host := true, dev := 0, addr := addr, kind := kind, part := p, queue := q, port := 0xFF,
                   who := who, va := va }

/-- R47, R509: a write to host memory: posted, or once the host's translation agent has answered where ATS is
enabled on the function. -/
def Chip.writeHost (c : Chip) (addr : Nat) (bs : List Byte) (p q : Nat) (who : Requester) (va : Nat := 0) :
    Except AccErr Chip :=
  if !c.mayMaster p then .error .perm
  else if bit c.pcie.ats p then c.requestHost addr (.write bs) p q who va
  else .ok (c.postHost addr bs)

/-- The aligned 128-byte lines that `n` bytes at `a` meet: start and length of each part. -/
def lineParts : Nat → Nat → Nat → List (Nat × Nat)
  | 0, _, _ => []
  | fuel + 1, a, n =>
    if n = 0 then []
    else
      let k := min n (128 - a % 128)
      (a, k) :: lineParts fuel (a + k) (n - k)

/-- R357: requests for every line of a remote range that begins at `start` and at VA `va`. -/
def Chip.requestLines (c : Chip) (dev : Nat) (p q : Nat) (who : Requester)
    (mk : Nat → Nat → ReqKind) (start va : Nat) : List (Nat × Nat) → Except AccErr Chip
  | [] => .ok c
  | (a, k) :: t =>
    match c.requestRemote dev a (mk a k) p q who (va + (a - start)) with
    | .error e => .error e
    | .ok c1 => Chip.requestLines c1 dev p q who mk start va t

/-- Ask for data at the host or a remote device on behalf of a requester. (DESIGN CHOICE, assumption 28.) -/
def Chip.askFor (c : Chip) (host : Bool) (dev addr n p q : Nat) (who : Requester) (va : Nat := 0) : Except AccErr Chip :=
  if host then
    -- R502: reads of at most the Max Read Request Size.
    (chunks c.pcie.maxRead addr n).foldlM (fun c x => c.requestHost x.1 (.read x.2) p q who (va + (x.1 - addr))) c
  else
    -- R357: a read of any part of a line is sent as READ and returns the whole line.
    let first := addr / 128 * 128
    c.requestLines dev p q who (fun _ _ => .read 128) addr va
      (lineParts (n / 128 + 3) first (ceilDiv (addr + n - first) 128 * 128))

/-! ## Writes by virtual address -/

/-- Write one piece that lies in one page; one whose memory is in a refresh window waits until it ends (R220). -/
def Chip.writePiece (c : Chip) (w : Actor) (q : Nat) (who : Requester) (va : Nat) (bs : List Byte) :
    Except AccErr Chip :=
  match c.translate w .write va with
  | .error e => .error e
  | .ok (.here a) =>
    if c.inWindow w.p a bs.length then .error .stall
    else
      match c.writePP w.p a bs with
      | .ok c1 => .ok (c1.sign q w.p a bs)
      | .error e => .error e
  | .ok (.host a) => c.writeHost a bs w.p q who va
  | .ok (.remote d a) =>
    match c.requestLines d w.p q who (fun x k => .write ((bs.drop (x - a)).take k)) a va
        (lineParts (bs.length + 1) a bs.length) with
    | .ok c1 => .ok (c1.sign q w.p a bs)
    | .error e => .error e

/-- Write pieces in order; a failure names its VA and leaves the caller's state as it was. -/
def Chip.writePieces (c : Chip) (w : Actor) (q : Nat) (who : Requester) :
    List (Nat × Nat) → List Byte → Except (AccErr × Nat) Chip
  | [], _ => .ok c
  | (va, n) :: t, bs =>
    match c.writePiece w q who va (bs.take n) with
    | .error e => .error (e, va)
    | .ok c1 => Chip.writePieces c1 w q who t (bs.drop n)

/-- Write bytes at a VA. -/
def Chip.writeVA (c : Chip) (w : Actor) (q : Nat) (who : Requester) (va : Nat) (bs : List Byte) :
    Except (AccErr × Nat) Chip :=
  c.writePieces w q who (pieces va bs.length) bs

end Sys2Proof.Machine
end

