-- ==== Sys2Proof/Machine/Queues.lean ====
section
/-!
DEFINITION. Descriptors, rings and completion records (R57 to R89): the operations that every opcode
shares. The commands of the front end are in Submission.lean.
-/

namespace Sys2Proof.Machine

/-! ## Descriptors (R67) -/

/-- R67: a descriptor read from its 64 bytes. -/
def Desc.ofBytes (b : List Byte) : Desc :=
  let h := fieldLE b 0 4
  { opcode := BitVec.ofNat 8 h, indirect := bit h 8, waitPrior := bit h 9, signalAfter := bit h 10,
    priv := bit h 11, rsv := BitVec.ofNat 4 (bits h 15 12), tag := BitVec.ofNat 16 (bits h 31 16),
    w1 := wordAt b 4, sigAddr := dwordAt b 8, sigVal := dwordAt b 16,
    p0 := dwordAt b 0x18, p1 := dwordAt b 0x20, p2 := dwordAt b 0x28, p3 := dwordAt b 0x30,
    p4 := dwordAt b 0x38 }

/-- R67: the header word of a descriptor. -/
def Desc.header (d : Desc) : Nat :=
  d.opcode.toNat + 2 ^ 8 * b2n d.indirect + 2 ^ 9 * b2n d.waitPrior + 2 ^ 10 * b2n d.signalAfter
    + 2 ^ 11 * b2n d.priv + 2 ^ 12 * d.rsv.toNat + 2 ^ 16 * d.tag.toNat

/-- R67: the 64 bytes of a descriptor. -/
def Desc.bytes (d : Desc) : List Byte :=
  leBytes 4 d.header ++ leBytes 4 d.w1.toNat ++ leBytes 8 d.sigAddr.toNat ++ leBytes 8 d.sigVal.toNat
    ++ leBytes 8 d.p0.toNat ++ leBytes 8 d.p1.toNat ++ leBytes 8 d.p2.toNat ++ leBytes 8 d.p3.toNat
    ++ leBytes 8 d.p4.toNat

/-- R68: a descriptor with its payload replaced by the 40 parameter bytes. -/
def Desc.withParams (d : Desc) (b : List Byte) : Desc :=
  { d with p0 := dwordAt b 0, p1 := dwordAt b 8, p2 := dwordAt b 16, p3 := dwordAt b 24, p4 := dwordAt b 32 }

/-! Opcodes of R75. -/

namespace Op
def nop := 0x00
def dispatch := 0x01
def draw := 0x02
def copy := 0x03
def fill := 0x04
def fenceSignal := 0x08
def fenceWait := 0x09
def semAcquire := 0x0A
def semRelease := 0x0B
def timestamp := 0x0C
def step := 0x10
def seqJoin := 0x11
def seqLeave := 0x12
def seqPark := 0x13
def ctxScan := 0x18
def ctxGather := 0x19
def ctxAppend := 0x1A
def compress := 0x20
def decompress := 0x21
def collective := 0x28
def remoteCopy := 0x29
def displayFlip := 0x30
def launchAt := 0x38
def checkpoint := 0x39
def eventSet := 0x40
def eventReset := 0x41
def eventWait := 0x42
def ptInvalidate := 0x43
def regulatorSet := 0x44
def protectedFlip := 0x45
def partitionCtl := 0x46
def memAccount := 0x47
def queueCtl := 0x48
def ctxQuery := 0x49
end Op

/-- R75: the opcodes accepted anywhere. -/
def opcodes : List Nat :=
  [0x00, 0x01, 0x02, 0x03, 0x04, 0x08, 0x09, 0x0A, 0x0B, 0x0C, 0x10, 0x11, 0x12, 0x13, 0x18, 0x19, 0x1A,
   0x20, 0x21, 0x28, 0x29, 0x30, 0x38, 0x39, 0x40, 0x41, 0x42, 0x43, 0x44, 0x45, 0x46, 0x47, 0x48, 0x49]

/-- R65: opcodes that hold back every later descriptor of their queue until they complete. -/
def holdsLater (op : Nat) : Bool :=
  op == Op.fenceWait || op == Op.semAcquire || op == Op.eventWait || op == Op.launchAt
    || op == Op.partitionCtl

/-- R33: opcodes that a kernel ring executes while its partition is OPEN. -/
def allowedOpen (op : Nat) : Bool :=
  [Op.copy, Op.fill, Op.nop, Op.timestamp, Op.fenceSignal, Op.fenceWait, Op.semAcquire, Op.semRelease,
   Op.eventSet, Op.eventReset, Op.eventWait, Op.queueCtl, Op.memAccount, Op.ptInvalidate].contains op

/-- A dword none of whose bits lie outside `mask`. -/
def only (mask : Nat) (d : Dword) : Bool := d.toNat &&& mask == d.toNat

/-- R77: the ranges of a QUEUE_CTL's interrupt word and slice. -/
def queueIrqOk (d : Desc) : Bool :=
  let m := dbits d.p2 9 8
  m != 3 && (m != 2 || (dbits d.p2 23 16 ≥ 1 && dbits d.p2 41 32 ≥ 1))
    && (d.p3.toNat == 0 || (50 ≤ d.p3.toNat && d.p3.toNat ≤ 10000))

/-- R77: a QUEUE_CTL payload's ranges; only LOG2 is bound to an operation. -/
def queueCtlOk (d : Desc) : Bool :=
  let op := dbits d.p0 2 0
  only 0xFFF00013F07 d.p0 && op ≤ 4 && 1 ≤ dbits d.p0 13 8
    && only 0x7FFFFFF01F d.p1 && only 0x3FF00FF033F d.p2 && only 0x3FFF d.p3 && only 0 d.p4
    && (op != 0 || (6 ≤ dbits d.p1 4 0 && dbits d.p1 4 0 ≤ 16))
    && queueIrqOk d

/-- R70 check 6, R75: RsvdZ payload fields, ranges and alignments by opcode. -/
def payloadOk (d : Desc) : Bool :=
  let z (ds : List Dword) := ds.all (only 0)
  let al (v : Dword) (n : Nat) := v.toNat % n == 0
  match d.opcode.toNat with
  | 0x00 => z [d.p0, d.p1, d.p2, d.p3, d.p4]
  | 0x01 => al d.p0 256 && only 0xFFFFFFFFFF d.p3 && 1 ≤ dbits d.p3 39 32 && dbits d.p3 39 32 ≤ 64
            && only 0xFFFF d.p4
  | 0x02 => true
  | 0x03 => only 0xFFFFFFFFFFFF d.p2 && z [d.p3, d.p4]
  | 0x04 => only 0xFFFFFFFFFFFF d.p1 && z [d.p3, d.p4]
  | 0x08 => al d.p0 8 && z [d.p2, d.p3, d.p4]
  | 0x09 => al d.p0 8 && z [d.p2, d.p3, d.p4]
  | 0x0A => al d.p0 8 && only 0xFFFFFFFFFFFF d.p1 && d.p1 != 0 && z [d.p2, d.p3, d.p4]
  | 0x0B => al d.p0 8 && only 0xFFFFFFFFFFFF d.p1 && d.p1 != 0 && z [d.p2, d.p3, d.p4]
  | 0x0C => al d.p0 8 && z [d.p1, d.p2, d.p3, d.p4]
  | 0x10 => al d.p0 8 && only 0x1FFFF d.p1 && 1 ≤ d.p1.toNat && d.p1.toNat ≤ 65536 && z [d.p2, d.p3, d.p4]
  | 0x11 => only 0xFFF d.p0 && z [d.p3, d.p4]
  | 0x12 => only 0xFFF d.p0 && z [d.p1, d.p2, d.p3, d.p4]
  | 0x13 => only 0xFFF d.p0 && z [d.p1, d.p2, d.p3, d.p4]
  | 0x18 => al d.p0 8 && al d.p1 64 && z [d.p2, d.p3, d.p4]
  | 0x19 => al d.p0 8 && z [d.p2, d.p3, d.p4]
  | 0x1A => al d.p0 8 && z [d.p2, d.p3, d.p4]
  | 0x20 => al d.p0 8 && z [d.p1, d.p2, d.p3, d.p4]
  | 0x21 => al d.p0 8 && z [d.p1, d.p2, d.p3, d.p4]
  | 0x28 => al d.p0 8 && z [d.p1, d.p2, d.p3, d.p4]
  | 0x29 => only 0xFFFFFFFFFFFF d.p2 && z [d.p3, d.p4]
  | 0x30 => al d.p0 64 && z [d.p1, d.p2, d.p3, d.p4]
  | 0x38 => z [d.p1, d.p2, d.p3, d.p4]
  | 0x39 => only 0xFFFFFFFF d.p0 && z [d.p1, d.p2, d.p3, d.p4]
  | 0x40 => only 0xFF d.p0 && z [d.p1, d.p2, d.p3, d.p4]
  | 0x41 => only 0xFF d.p0 && z [d.p1, d.p2, d.p3, d.p4]
  | 0x42 => only 0xFF d.p0 && z [d.p1, d.p2, d.p3, d.p4]
  | 0x43 => only 0xFFF0003 d.p0 && dbits d.p0 1 0 ≤ 2 && al d.p1 4096 && only 0xFFFFFFFFF d.p2
            && z [d.p3, d.p4]
  | 0x44 => only 0xF d.p0 && only 0xFFFFFFFF d.p1 && only 0xFFFFFFFF d.p2 && z [d.p3, d.p4]
  | 0x45 => al d.p0 64 && z [d.p1, d.p2, d.p3, d.p4]
  | 0x46 => only 7 d.p0 && d.p0.toNat ≤ 4 && al d.p1 8 && z [d.p2, d.p3, d.p4]
  | 0x47 => only 0xFFFF d.p0 && z [d.p2, d.p3, d.p4]
  | 0x48 => queueCtlOk d
  | 0x49 => only 0xFFFF d.p0 && al d.p1 64 && z [d.p2, d.p3, d.p4]
  | _ => false

/-- R70 check 2: the common header. -/
def headerOk (d : Desc) : Bool :=
  d.rsv == 0 && d.w1 == 0 && (d.signalAfter || (d.sigAddr == 0 && d.sigVal == 0))
    && d.sigAddr.toNat % 8 == 0

/-- R68, R70 check 6: the payload as far as decode can check it. -/
def payloadDecodeOk (d : Desc) : Bool :=
  if d.indirect then d.p0.toNat % 8 == 0 && d.p1 == 0 && d.p2 == 0 && d.p3 == 0 && d.p4 == 0
  else payloadOk d

/-- R70 checks 3 and 4: the privilege checks of a descriptor in queue `q`. -/
def Chip.privilegeOk (c : Chip) (q : Nat) (d : Desc) : Bool :=
  let op := d.opcode.toNat
  if indexOf q ≠ 0 then !d.priv && decide (op < 0x40)
  else if op < 0x40 then true
  else d.priv
    && (!(op == Op.regulatorSet || op == Op.partitionCtl) || partOf q == 0)
    && (op != Op.protectedFlip || (c.part (partOf q)).safety)

/-- R70 check 6: the ranges that depend on the partition: a LAUNCH_AT of a deterministic partition names a count
on the launch grid of 30,720 ns (R393), and a STEP's token count is within the quota (R254). -/
def Chip.rangesOk (c : Chip) (q : Nat) (d : Desc) : Bool :=
  (d.opcode.toNat != Op.launchAt || !(c.part (partOf q)).det || d.p0.toNat % 30720 == 0)
    && (d.opcode.toNat != Op.step
      || decide (dbits d.p1 16 0 ≤ c.fld Fld.BATCH_TOKMAX_TOKENS_MAX (8 * partOf q)))

/-- R70: the first check that fails, with whether it halts a work queue (R71). -/
def Chip.decodeCheck (c : Chip) (q : Nat) (d : Desc) : Option (Half × Bool) :=
  let op := d.opcode.toNat
  if !opcodes.contains op then some (St.illegalOpcode, true)
  else if !headerOk d then some (St.malformed, true)
  else if !c.privilegeOk q d then some (St.illegalPrivilege, true)
  else if (op == Op.ctxScan || op == Op.ctxGather || op == Op.ctxAppend)
      && !c.flag Fld.DEV_CAPS0_CTX_ENGINE then some (St.illegalOpcode, false)
  else if !payloadDecodeOk d || !(d.indirect || c.rangesOk q d) then some (St.malformed, true)
  else none

/-! ## Rings -/

/-- Where a queue's descriptor ring lies: a kernel ring's registers, or the queue's own (R77, R83). -/
def Chip.ringBase (c : Chip) (q : Nat) : Nat :=
  let o := pg (partOf q)
  if indexOf q = 0 then
    4096 * c.fld Fld.KRING_BASE_LO_BASE_LO o + 2 ^ 32 * c.fld Fld.KRING_BASE_HI_BASE_HI o
  else (c.queue q).ring

/-- L of a queue. -/
def Chip.ringLog2 (c : Chip) (q : Nat) : Nat :=
  if indexOf q = 0 then c.fld Fld.KRING_CTL_LOG2 (pg (partOf q)) else (c.queue q).log2

/-- R77: the completion ring lies directly after the descriptor ring. -/
def Chip.cplBase (c : Chip) (q : Nat) : Nat := c.ringBase q + 64 * 2 ^ c.ringLog2 q

/-- The ASID a queue is bound to (R44). -/
def Chip.asidOf (c : Chip) (q : Nat) : Nat :=
  if indexOf q = 0 then (c.part (partOf q)).asidBase else (c.queue q).asid

/-- The accesses of a descriptor in slot `slot` of queue `q`. -/
def Chip.actor (c : Chip) (q slot : Nat) : Actor :=
  { p := partOf q, asid := c.asidOf q, kernel := indexOf q == 0, rid := q * 64 + slot, salt := slot }

/-- R446: the partition is being reset. -/
def Chip.inReset (c : Chip) (p : Nat) : Bool := (c.part p).state == .resetting || (c.part p).state == .destroying

/-- R446 step 3: the transfers of a queue's partition are stopping. -/
def Chip.stopping (c : Chip) (q : Nat) : Bool := c.inReset (partOf q) && (c.part (partOf q)).resetStage == 1

/-- A queue's begun descriptor in a slot. -/
def Chip.entry (c : Chip) (q slot : Nat) : Option Entry := KMap.find slot (c.queue q).entries

/-- Replace a queue's entry. -/
def Chip.setEntry (c : Chip) (q slot : Nat) (e : Entry) : Chip :=
  let x := c.queue q
  c.setQueue q { x with entries := KMap.set slot e x.entries }

/-- R81: the descriptor has executed with this status and detail; its record is still to be written. -/
def Chip.finish (c : Chip) (q slot : Nat) (s : Half) (detail : Nat) (halts : Bool := false) : Chip :=
  match c.entry q slot with
  | none => c
  | some e => c.setEntry q slot
      { e with phase := .done s (BitVec.ofNat 32 (min detail (2 ^ 32 - 1))) halts, watch := .none, donees := [] }

/-- The descriptor executed and completes with OK. -/
def Chip.finishOk (c : Chip) (q slot : Nat) (detail : Nat := 0) : Chip := c.finish q slot St.ok detail

/-- R71: MALFORMED_DESCRIPTOR halts a work queue. -/
def Chip.finishMalformed (c : Chip) (q slot : Nat) : Chip := c.finish q slot St.malformed 0 true

/-- An access of a descriptor through an ASID failed for good: it is captured (R55) and the descriptor completes with its
status. -/
def Chip.failed (c : Chip) (q slot unit asid : Nat) (e : AccErr) (va : Nat) (detail : Nat := 0) : Chip :=
  let tag := match c.entry q slot with | some x => x.desc.tag.toNat | none => 0
  (c.capture (partOf q) e unit asid va tag).finish q slot e.status detail

/-- An access of a descriptor through an ASID failed: data from outside is asked for and the descriptor stays as it is;
anything else is captured (R55) and completes it with the fault's status. (DESIGN CHOICE, assumption 28.) -/
def Chip.failAs (c : Chip) (q slot unit asid : Nat) (e : AccErr × Nat) (detail : Nat := 0) : Chip :=
  match e.1 with
  | .wait host dev a n =>
    if c.reqs.any fun r => r.who == .entry q slot then c else
    match c.askFor host dev a n (partOf q) q (.entry q slot) e.2 with
    | .ok c1 => c1
    | .error e1 => c.failed q slot unit asid e1 e.2 detail
  | .stall => c
  | err => c.failed q slot unit asid err e.2 detail

/-- An access of a descriptor through its queue's ASID failed. -/
def Chip.failAt (c : Chip) (q slot unit : Nat) (e : AccErr × Nat) (detail : Nat := 0) : Chip :=
  c.failAs q slot unit (c.asidOf q) e detail

/-- R68: read the parameters of an INDIRECT descriptor, once. -/
def Chip.loadParams (c : Chip) (q slot : Nat) (e : Entry) : Except Chip (Chip × Entry) :=
  if e.loaded then .ok (c, e)
  else
    match c.readVA (c.actor q slot) e.desc.p0.toNat 40 with
    | .error (.wait h d a n, va) =>
      if c.reqs.any fun r => r.who == .entry q slot then .error c
      else
        match c.askFor h d a n (partOf q) q (.entry q slot) va with
        | .ok c1 => .error c1
        | .error _ => .error (c.finish q slot St.indirectFault 0)
    | .error (.stall, _) => .error c
    | .error _ => .error (c.finish q slot St.indirectFault 0)
    | .ok b =>
      let e1 := { e with desc := e.desc.withParams b, loaded := true, decodedAt := c.gtc }
      let c1 := c.setEntry q slot e1
      if payloadOk e1.desc && c.rangesOk q e1.desc then .ok (c1, e1) else .error (c1.finishMalformed q slot)

/-- The shared unit that an opcode's work needs beside the front end. (DEDUCED, assumption 89.) -/
def unitNeeded (op : Nat) : Option SharedUnit :=
  if op = Op.copy ∨ op = Op.fill then some .copy
  else if op = Op.compress ∨ op = Op.decompress then some .compression
  else if op = Op.draw then some .grinder
  else if op = Op.ctxScan ∨ op = Op.ctxGather ∨ op = Op.ctxAppend then some .context
  else if op = Op.collective ∨ op = Op.remoteCopy then some .collective
  else if op = Op.displayFlip ∨ op = Op.protectedFlip then some .layer
  else if op = Op.eventSet ∨ op = Op.eventReset ∨ op = Op.eventWait then some .event
  else if op = Op.fenceSignal ∨ op = Op.fenceWait ∨ op = Op.semAcquire ∨ op = Op.semRelease then some .fence
  else none

/-- R437: a unit that an opcode's work needs has failed. (DEDUCED, assumption 89.) -/
def Chip.unitDead (c : Chip) (op : Nat) : Bool :=
  c.ras.dead.any fun u => u.1 == .frontEnd || unitNeeded op == some u.1

/-- R447: a copy, move or job of which data has been asked for, has come or has moved. -/
def Chip.transferStarted (c : Chip) (q slot : Nat) (e : Entry) : Bool :=
  [Op.copy, Op.remoteCopy, Op.compress, Op.decompress].contains e.desc.opcode.toNat
    && (e.progress != 0 || (KMap.find (q * 64 + slot) c.inbuf).isSome
      || c.reqs.any fun r => r.who == .entry q slot && match r.kind with | .read _ => true | _ => false)

/-- R270, R446: once its partition is being reset a descriptor is not executed any more, a started transfer apart. -/
def Chip.held? (c : Chip) (q slot : Nat) (e : Entry) : Bool := c.inReset (partOf q) && !c.transferStarted q slot e

/-- Execute a begun descriptor of the given opcode: nothing happens where the slot holds none that is
ready, or the partition is being reset. -/
def Chip.run (c : Chip) (q slot op : Nat) (f : Chip → Entry → Chip) : Chip :=
  match c.entry q slot with
  | none => c
  | some e =>
    if e.desc.opcode.toNat ≠ op ∨ e.phase ≠ .ready ∨ c.held? q slot e then c
    else if c.unitDead op then c.finish q slot St.poisoned 0
    else
      match c.loadParams q slot e with
      | .error c1 => c1
      | .ok (c1, e1) => f c1 e1

/-! ## Completion (R79, R80, R89) -/

/-- R79: the 32 bytes of a completion record. -/
def recordBytes (s tag : Half) (index : Word) (gtc cycles : Dword) (detail : Word) (op : Byte)
    (phase : Bool) : List Byte :=
  leBytes 2 s.toNat ++ leBytes 2 tag.toNat ++ leBytes 4 index.toNat ++ leBytes 8 gtc.toNat
    ++ leBytes 8 cycles.toNat ++ leBytes 4 detail.toNat ++ leBytes 4 (op.toNat + 2 ^ 31 * b2n phase)

/-- R89: the interrupt that a record makes due. -/
def Chip.recordIrq (c : Chip) (q : Nat) : Chip :=
  let p := partOf q
  if indexOf q = 0 then
    if c.flag Fld.KRING_CTL_IRQ_EN (pg p) then c.raiseVector p (c.fld Fld.KRING_CTL_VECTOR (pg p)) else c
  else
    let x := c.queue q
    match x.irqMode with
    | 1 => c.raiseVector p x.vector
    | 2 =>
      if x.coalSeen + 1 ≥ x.coalCount then
        (c.setQueue q { x with coalSeen := 0 }).raiseVector p x.vector
      else c.setQueue q { x with coalSeen := x.coalSeen + 1,
                                 coalFirst := if x.coalSeen = 0 then c.gtc else x.coalFirst }
    | _ => c

/-- The halted state of a queue, in its registers too where it is a kernel ring (R73, R83).
(DEDUCED, assumption 42.) -/
def Chip.setQState (c : Chip) (q : Nat) (st : QState) (status : Half) : Chip :=
  let x := c.queue q
  let c1 := c.setQueue q { x with state := st, haltStatus := status }
  if indexOf q ≠ 0 then c1
  else
    let o := pg (partOf q)
    let n := match st with | .unbound => 0 | .running => 1 | _ => 2
    (c1.setFld Fld.KRING_STATUS_STATE o n).setFld Fld.KRING_STATUS_HALT_STATUS o status.toNat

/-- R73: a queue halts. One that is halted already keeps the status that halted it (R60).
(DEDUCED, assumption 42.) -/
def Chip.halt (c : Chip) (q : Nat) (status : Half) (index : Word) : Chip :=
  if (c.queue q).state = .halted then c
  else (c.setQState q .halted status).postEvent (partOf q) 0x0001 q index.toNat

/-- R79, R533: write a record to the completion ring; one that cannot be written is lost, is captured
and halts the queue. -/
def Chip.writeRecord (c : Chip) (q : Nat) (s tag : Half) (index : Word) (cycles : Dword) (detail : Word)
    (op : Byte) : Chip :=
  let x := c.queue q
  let l := c.ringLog2 q
  let n := x.written.toNat
  let c0 := c.setQueue q { x with written := x.written + 1 }
  match c0.writePP (partOf q) (c.cplBase q + 32 * (n % 2 ^ l))
      (recordBytes s tag index c.gtc cycles detail op (phaseOf n l)) with
  | .ok c1 => c1.recordIrq q
  | .error e =>
    (c0.capture (partOf q) e FaultUnit.frontEnd (c.asidOf q) 0 tag.toNat).halt q e.status index

/-! ## Fence signals (R101 to R103) -/

/-- R103: a regression is counted and posted. -/
def Chip.regression (c : Chip) (q : Nat) (va : Nat) : Chip :=
  (c.count Fld.FENCE_REG_CNT_COUNT (pg (partOf q))).postEvent (partOf q) 0x0002 q (va % 2 ^ 32)

/-- What a fence signal came to. -/
inductive Signalled where
  | done (c : Chip)
  | remote (c : Chip)
  | failed (e : AccErr)

/-- R101 to R103: signal the fence word at `va` with `v` from queue `q`. (DEDUCED, assumption 36.) -/
def Chip.signalFence (c : Chip) (w : Actor) (q : Nat) (va v : Nat) (who : Requester) : Signalled :=
  match c.translate w .atomic va with
  | .error e => .failed e
  | .ok (.host _) => .failed .perm
  | .ok (.remote d a) =>
    match c.requestRemote d a (.atomic 2 8 (BitVec.ofNat 64 v) 0) w.p q who va with
    | .ok c1 => .remote c1
    | .error e => .failed e
  | .ok (.here a) =>
    if c.inWindow w.p a 8 then .failed .stall else
    match c.readPP w.p a 8 with
    | .error e => .failed e
    | .ok bs =>
      let old := leNat bs
      if v < old then .done (c.regression q va)
      else
        match c.writePP w.p a (leBytes 8 v) with
        | .error e => .failed e
        | .ok c1 =>
          let c2 := c1.sign q w.p a (leBytes 8 v)
          .done (if v = 2 ^ 64 - 1 ∧ old ≠ v then c2.postEvent w.p 0x0003 q (va % 2 ^ 32) else c2)

/-! ## Accounting (R113) -/

/-- The address of a tag's accounting entry. -/
def Chip.acctAddr (c : Chip) (p tag : Nat) : Nat :=
  2 ^ 22 * c.fld Fld.ACCT_BASE_LO_BASE_LO (pg p) + 2 ^ 32 * c.fld Fld.ACCT_BASE_HI_BASE_HI (pg p) + 64 * tag

/-- R113: add to a counter of a tag, or count the update lost. (DEDUCED, assumption 37.) -/
def Chip.account (c : Chip) (p tag off : Nat) (delta : Int) : Chip :=
  if !c.flag Fld.ACCT_BASE_LO_ACCT_EN (pg p) then c
  else
    let a := c.acctAddr p tag + off
    match c.readPP p a 8 with
    | .error _ => c.count Fld.ACCT_LOST_COUNT (pg p)
    | .ok bs =>
      match c.writePP p a (leBytes 8 (wrapN 64 ((leNat bs : Int) + delta))) with
      | .error _ => c.count Fld.ACCT_LOST_COUNT (pg p)
      | .ok c1 => c1

/-- R113: the scratch bytes allocated to a workgroup that becomes resident: a deterministic partition holds scratch, and
the spec does not say how it falls to resident work, so that they are a free value. (DESIGN CHOICE, assumption 39.) -/
def Chip.scratchFor (c : Chip) (p id : Nat) : Nat :=
  if (c.part p).det then Config.freeNat c.ctr (2 ^ 74 + id) % ((c.part p).scratchBytes + 1) else 0

/-- R113: crema and scratch granted to, or given back by, a tag's resident work. (DESIGN CHOICE, assumption 39.) -/
def Chip.onchip (c : Chip) (p tag : Nat) (delta : Int) : Chip :=
  if delta = 0 then c else c.account p tag 0x30 delta

/-- R113: the counters that a completed descriptor adds. (DEDUCED, assumption 37.) -/
def Chip.accountUsage (c : Chip) (p tag : Nat) (u : Usage) : Chip :=
  [(0x00, 1), (0x08, u.clusterCycles.toNat), (0x10, u.tensorCycles.toNat), (0x18, u.engineNs.toNat),
   (0x20, u.linkBytes.toNat)].foldl (fun c x => c.account p tag x.1 (x.2 : Nat)) c

/-! ## Hardware events (R109 to R112) -/

/-- The slots of a partition's queues whose descriptors wait on event `n`, with the order they began. -/
def Chip.eventWaiters (c : Chip) (n : Nat) : List (Nat × Nat × Nat) :=
  c.queues.flatMap fun kq => kq.2.entries.filterMap fun ke =>
    if ke.2.phase = .waiting ∧ ke.2.watch = .event n then some (ke.2.waitSeq, kq.1, ke.1) else none

/-- The earliest of a list of waiters. -/
def earliest : List (Nat × Nat × Nat) → Option (Nat × Nat × Nat)
  | [] => none
  | x :: xs =>
    match earliest xs with
    | none => some x
    | some y => if x.1 ≤ y.1 then some x else some y

/-- R110: EVENT_SET or a source signal. -/
def Chip.signalEvent (c : Chip) (n : Nat) : Chip :=
  let ws := c.eventWaiters n
  if c.flag Fld.EVT_CFG_MODE (4 * n) then
    (ws.foldl (fun c w => c.finishOk w.2.1 w.2.2) c).setFld Fld.EVT_CFG_STATE (4 * n) 1
  else
    match earliest ws with
    | some w => c.finishOk w.2.1 w.2.2
    | none => c.setFld Fld.EVT_CFG_STATE (4 * n) 1

/-- R111: a source signals every event that names it and whose owner exists (source 5: in partition `p`). -/
def Chip.sourceSignal (c : Chip) (source p : Nat) : Chip :=
  (List.range 256).foldl (fun c n =>
    let owner := c.fld Fld.EVT_CFG_OWNER (4 * n)
    if c.fld Fld.EVT_CFG_SOURCE (4 * n) = source ∧ c.exists? owner ∧ (source ≠ 5 ∨ owner = p)
    then c.signalEvent n else c) c

end Sys2Proof.Machine
end

