-- ==== Sys2Proof/Machine/Sched.lean ====
section
/-!
DEFINITION. The scheduler of a partition's clusters: the run list and its slices (R90, R91, R105), claims and
donations at the DISPLAY_PRIORITY class (R94, R108), pre-emption and save records (R96 to R98), and how a cluster
descriptor ends.
-/

namespace Sys2Proof.Machine

/-- The key of a wave slot. -/
def waveKey (cl w : Nat) : Nat := cl * 64 + w

def Chip.wave (c : Chip) (k : Nat) : Option Wave := KMap.find k c.waves
def Chip.setWave (c : Chip) (k : Nat) (w : Wave) : Chip := { c with waves := KMap.set k w c.waves }
def Chip.grid (c : Chip) (q slot : Nat) : Option Grid := KMap.find (q * 64 + slot) c.grids
def Chip.setGrid (c : Chip) (q slot : Nat) (g : Grid) : Chip :=
  { c with grids := KMap.set (q * 64 + slot) g c.grids }

/-- The clusters a partition holds within the map in force (R382), ascending. -/
def Chip.clustersOf (c : Chip) (p : Nat) : List Nat :=
  (c.clusters.filter fun kc => kc.2.part == p && decide (kc.1 < c.fld Fld.DET_MAP_CLUSTERS)).map Prod.fst

/-- The code of a state in PART_STATUS (R55). -/
def PState.code : PState → Nat
  | .absent => 0
  | .opened => 1
  | .ready => 2
  | .resetting => 3
  | .destroying => 4

/-- R55: PART_STATUS, PART_MEM and PART_ASID show a partition; an ABSENT one's read 0. -/
def Chip.showPart (c : Chip) (p : Nat) : Chip :=
  let x := c.part p
  let w (n : Nat) : Word := if x.state = .absent then 0 else BitVec.ofNat 32 n
  let n := (c.clustersOf p).length
  let c1 := c.setRg (Reg.PART_STATUS + pg p) (w (x.state.code + 2 ^ 3 * b2n x.det + 2 ^ 4 * x.clock
    + 2 ^ 6 * b2n x.safety + 2 ^ 7 * b2n x.pairEn + 2 ^ 8 * x.groups
    + 2 ^ 12 * (if x.det then 0 else n) + 2 ^ 19 * x.scratchWays))
  let c2 := c1.setRg (Reg.PART_MEM + pg p) (w (x.memGib + 2 ^ 16 * x.pcgs.length))
  c2.setRg (Reg.PART_ASID + pg p) (w (x.asidBase + 2 ^ 16 * x.asidCount))

/-- What an item's writes added to its queue's signature is remembered with its descriptor, so that a
re-execution can take its place (R400, R445). -/
def Chip.signItem (c c0 : Chip) (q slot item : Nat) : Chip :=
  if !(c.part (partOf q)).pairEn then c
  else
    match c.grid q slot with
    | none => c
    | some g =>
      let d := (KMap.getD c.sigs q {}).minus (KMap.getD c0.sigs q {})
      c.setGrid q slot { g with sigBy := KMap.modify item {} (·.plus d) g.sigBy }

/-- A cluster descriptor has items not yet launched. -/
def Grid.pending (g : Grid) : Bool := g.fault.isNone && (decide (g.next < g.total) || !g.redo.isEmpty)

/-- A queue has a cluster descriptor with items not yet launched. -/
def Chip.queuePending (c : Chip) (q : Nat) : Bool :=
  c.grids.any fun kg => kg.1 / 64 == q && kg.2.pending

/-- A queue's workgroups are resident on a cluster. -/
def Chip.residentOn (c : Chip) (q cl : Nat) : Bool := (c.cluster cl).wgs.any fun kw => kw.2.q == q

/-- A queue's workgroups are resident on some cluster. -/
def Chip.residentAny (c : Chip) (q : Nat) : Bool := c.clusters.any fun kc => kc.2.wgs.any fun kw => kw.2.q == q

/-- Whether a descriptor has workgroups resident anywhere. -/
def Chip.resident (c : Chip) (q slot : Nat) : Bool :=
  c.clusters.any fun kc => kc.2.wgs.any fun kw => kw.2.q == q && kw.2.slot == slot

/-! ## Donation (R108) -/

/-- COUNT and OWNER of a semaphore word. -/
def semCount (w : Nat) : Nat := bits w 47 0
def semOwner (w : Nat) : Nat := bits w 63 48

/-- R90: the opcodes that need clusters. -/
def clusterOp (op : Byte) : Bool := op.toNat == Op.dispatch || op.toNat == Op.draw

/-- R90: a begun descriptor that needs clusters, and has not ended. -/
def Entry.needsClusters (e : Entry) : Bool := clusterOp e.desc.opcode && (e.phase == .ready || e.phase == .running)

/-- R108: whether a queue holds a begun cluster descriptor with tag `t`, and whether one runs on no cluster. -/
def Chip.holdsTag (c : Chip) (o t : Nat) : Bool × Bool :=
  let es := (c.queue o).entries.filter fun ke => ke.2.desc.tag.toNat == t && ke.2.needsClusters
  (!es.isEmpty, es.any fun ke => !c.resident o ke.1)

/-- R108: whether a queue is itself blocked on an acquire. -/
def Queue.blocked (x : Queue) : Bool :=
  x.entries.any fun ke => ke.2.phase == .waiting && ke.2.desc.opcode.toNat == Op.semAcquire

/-- R108: the queues to which a waiting acquire donates now: each while OWNER is the tag and the queue holds such a
descriptor. -/
def Chip.liveDonees (c : Chip) (e : Entry) : List Nat :=
  match e.phase, e.watch with
  | .waiting, .sem l _ =>
    if semOwner (c.dwordLoc l).toNat ≠ e.doneeTag then []
    else e.donees.filter fun o => (c.holdsTag o e.doneeTag).1 && !(c.queue o).blocked
  | _, _ => []

/-- R108: the waiting acquires that donate to queue `o`, of DISPLAY_PRIORITY queues or of NORMAL ones, as wait order,
queue and slot. -/
def Chip.donorsTo (c : Chip) (o : Nat) (display : Bool) : List (Nat × Nat × Nat) :=
  c.queues.flatMap fun kq =>
    if kq.2.cls ≠ display then []
    else (kq.2.entries.filter fun ke => (c.liveDonees ke.2).contains o).map fun ke => (ke.2.waitSeq, kq.1, ke.1)

/-! ## Claims at the DISPLAY_PRIORITY class (R94, R108) -/

/-- The key of a claim: a descriptor's own, or a queue's by donation. -/
def claimKey (q slot : Nat) : Nat := q * 128 + slot
def donationKey (q : Nat) : Nat := q * 128 + 64

/-- R94, R108: a claim lasts until its descriptor completes, or its donation ends. -/
def Chip.claimLive (c : Chip) (key : Nat) : Bool :=
  let q := key / 128
  if key % 128 = 64 then !(c.donorsTo q true).isEmpty
  else
    match c.entry q (key % 128) with
    | some e => e.needsClusters
    | none => (c.grid q (key % 128)).isSome

/-- The claims in force in a partition: the key by cluster. -/
def Chip.claims (c : Chip) (p : Nat) : KMap Nat := (c.part p).dpClaims.filter fun kv => c.claimLive kv.2

/-- R94: how long the residents of a cluster take to their ends: 0 where it has none, and else a free value.
(DESIGN CHOICE, assumption 60.) -/
def Chip.toEnd (c : Chip) (cl : Nat) : Nat :=
  if (c.cluster cl).wgs.isEmpty then 0 else 1 + Config.freeNat c.ctr (2 ^ 72 + cl)

/-- Insert a number by a measure, behind its equals. -/
def insertBy (f : Nat → Nat) (x : Nat) : List Nat → List Nat
  | [] => [x]
  | y :: ys => if f x < f y then x :: y :: ys else y :: insertBy f x ys

/-- Numbers in the order of a measure. -/
def sortBy (f : Nat → Nat) (l : List Nat) : List Nat := l.foldl (fun a x => insertBy f x a) []

/-- R94, R108: a claim takes clusters until the partition's claims at the class hold DISPLAY_CLUSTERS between them:
those closest to their ends first. One that finds the budget taken waits. (DESIGN CHOICE, assumption 60.) -/
def Chip.claim (c : Chip) (q key : Nat) : Chip :=
  let p := partOf q
  let cs := (c.clustersOf p).filter fun cl => (c.cluster cl).st == .inService && !(c.cluster cl).draining
  let n := c.fld Fld.SCHED_CFG_DISPLAY_CLUSTERS (pg p)
  let held := c.claims p
  let free := sortBy c.toEnd (cs.filter fun cl => (KMap.find cl held).isNone)
  let now := (free.take ((if n = 0 then cs.length else n) - held.length)).foldl (fun m cl => KMap.set cl key m) held
  c.setPart p { c.part p with dpClaims := now }

/-- R94, R108: a cluster descriptor of a DISPLAY_PRIORITY queue claims clusters, and one of a queue that such a queue
donates to. -/
def Chip.claimDisplay (c : Chip) (q slot : Nat) : Chip :=
  if (c.part (partOf q)).det then c
  else if (c.queue q).cls then c.claim q (claimKey q slot)
  else if (c.donorsTo q true).isEmpty then c
  else c.claim q (donationKey q)

/-! ## The run list (R90, R91, R105) -/

/-- The DISPLAY_PRIORITY queue of a partition. -/
def Chip.displayQueue (c : Chip) (p : Nat) : Option Nat :=
  (c.queues.find? fun kq => partOf kq.1 == p && kq.2.cls).map Prod.fst

/-- R90: a queue has a begun descriptor that needs clusters, or items that run again. -/
def Chip.needsClusters (c : Chip) (q : Nat) : Bool :=
  (c.queue q).entries.any (fun ke => ke.2.needsClusters)
    || c.grids.any fun kg => kg.1 / 64 == q && (c.entry q (kg.1 % 64)).isNone

/-- R90: the run list of an elastic partition, head first. -/
def Chip.runList (c : Chip) (p : Nat) : List Nat := (c.part p).runList.filter c.needsClusters

/-- R105: the queue is held by a FENCE_WAIT, a SEM_ACQUIRE or an EVENT_WAIT. -/
def Queue.heldByWait (x : Queue) : Bool :=
  x.entries.any fun ke => ke.2.phase == .waiting &&
    [Op.fenceWait, Op.semAcquire, Op.eventWait].contains ke.2.desc.opcode.toNat

/-- R90, R94, R105: whether queue `q` may launch on cluster `cl` of its elastic partition: on one that it has claimed,
or, unclaimed, on one that the queues before it on the run list leave idle. A queue that a wait holds takes none. -/
def Chip.mayUse (c : Chip) (q cl : Nat) : Bool :=
  let p := partOf q
  let k := c.cluster cl
  if k.part ≠ p ∨ k.st ≠ .inService ∨ k.draining ∨ (c.queue q).heldByWait then false
  else
    match KMap.find cl (c.claims p) with
    | some key => key / 128 == q
    | none => !(c.queue q).cls && ((c.runList p).takeWhile (· != q)).all fun o =>
        (!c.queuePending o || (c.queue o).heldByWait) && !c.residentOn o cl

/-- R90, R91: a queue whose descriptor begins joins the run list at its tail with a full slice, unless it is on it. -/
def Chip.joinRunList (c : Chip) (q : Nat) : Chip :=
  let p := partOf q
  let x := c.part p
  if x.det || (c.queue q).cls || (x.runList.contains q && c.needsClusters q) then c
  else c.setPart p { x with runList := x.runList.filter (· != q) ++ [q], sliceUsed := KMap.erase q x.sliceUsed }

/-- R91: the time slice of a queue in ns. -/
def Chip.sliceNs (c : Chip) (q : Nat) : Nat :=
  let us := (c.queue q).sliceUs
  1000 * (if indexOf q = 0 ∨ us = 0 then c.fld Fld.SCHED_CFG_DEFAULT_SLICE_US (pg (partOf q)) else us)

/-- R108: whom a queue's time as head is charged to: the NORMAL waiter that donates to it and has waited longest, or
itself. (DEDUCED, assumption 159.) -/
def Chip.sliceKey (c : Chip) (h : Nat) : Nat :=
  match earliest (c.donorsTo h false) with
  | some w => w.2.1
  | none => h

/-- R91: one nanosecond of the slice of a partition's head: it counts while the head has work resident. -/
def Chip.sliceTick (c : Chip) (p : Nat) : Chip :=
  match c.runList p with
  | [] => c
  | h :: _ =>
    if (c.part p).det || (c.queue h).heldByWait || !c.residentAny h then c
    else
      let x := c.part p
      let k := c.sliceKey h
      c.setPart p { x with sliceUsed := KMap.modify k 0 (fun n => min (n + 1) (c.sliceNs k)) x.sliceUsed }

/-- R91: a queue moves to the tail of the run list; the rest of its slice is forfeited. -/
def Chip.toTail (c : Chip) (h : Nat) : Chip :=
  let x := c.part (partOf h)
  c.setPart (partOf h) { x with runList := x.runList.filter (· != h) ++ [h],
                                sliceUsed := KMap.erase h (KMap.erase (c.sliceKey h) x.sliceUsed) }

/-! ## Save records (R97, R98) -/

/-- R97: where a save record lies. -/
def Chip.saveAddr (c : Chip) (q slot : Nat) : Nat :=
  let p := partOf q
  4096 * c.fld Fld.SAVE_BASE_LO_BASE_LO (pg p) + 2 ^ 32 * c.fld Fld.SAVE_BASE_HI_BASE_HI (pg p)
    + (indexOf q * 64 + slot) * 64

/-- R98, R302: the 60 bytes of a save record before its check; a DRAW counts its vertex batches and then its tiles. -/
def saveBody (index : Word) (op q slot : Nat) (g : Grid) (gtc : Dword) : List Byte :=
  leBytes 4 index.toNat ++ leBytes 4 (op + 2 ^ 8 * indexOf q + 2 ^ 16 * slot) ++ leBytes 8 g.next
    ++ leBytes 8 g.completed ++ leBytes 8 gtc.toNat ++ leBytes 28 (Config.saveState index.toNat g.next g.completed)

/-- R98: a save record. (DESIGN CHOICE, assumption 66.) -/
def saveBytes (b : List Byte) : List Byte := b ++ leBytes 4 (Config.saveCheck (leNat b)).toNat

/-- R113: what a descriptor has used when it loses its last cluster is added to its tag's counters.
(DESIGN CHOICE, assumption 38.) -/
def Chip.accountSoFar (c : Chip) (p tag : Nat) : Chip :=
  [0x08, 0x10, 0x18, 0x20].foldl (fun c o => c.account p tag o (Config.usedSoFar c.ctr o : Nat)) c

/-- R272: a DRAW of the queue's chain ended in an error: the chain is failed, and closed by its LAST. -/
def Chip.failChain (c : Chip) (q : Nat) (s : Half) (last : Bool) : Chip :=
  match KMap.find q c.chains with
  | none => c
  | some ch =>
    let c1 := if ch.failed.isNone then c.count Fld.RAS_PIPE_CHAIN_FAIL_COUNT (pg (partOf q)) else c
    { c1 with chains := if last then KMap.erase q c1.chains
                        else KMap.set q { ch with failed := some (ch.failed.getD s) } c1.chains }

/-- R289, R303: a DRAW ends with a fault's status; the chain is failed. -/
def Chip.drawFailed (c : Chip) (q slot : Nat) (d : DrawRun) (s : Half) (n : Nat) : Chip :=
  let detail := if s = St.outputOverflow then n else if d.tiles then d.tilesDone else d.prims
  { (c.finish q slot s detail (s == St.malformed)).failChain q s d.last with
    grids := KMap.erase (q * 64 + slot) c.grids }

/-- R98: a descriptor ends without being resumed; work done before stays done. R272: a DRAW fails its chain. -/
def Chip.dropGrid (c : Chip) (q slot : Nat) (g : Grid) (s : Half) : Chip :=
  match g.run with
  | some d => c.drawFailed q slot d s 0
  | none => { c.finish q slot s g.completed with grids := KMap.erase (q * 64 + slot) c.grids }

/-- R97, R98: a descriptor that lost its last cluster writes its record; where it cannot, the descriptor
completes at once with PERMISSION_FAULT. -/
def Chip.saveGrid (c : Chip) (q slot : Nat) (g : Grid) : Chip :=
  match c.entry q slot with
  | none => c
  | some e =>
    let p := partOf q
    let c1 := ((c.setGrid q slot { g with saved := true }).count Fld.PREEMPT_CNT_COUNT (pg p)).accountSoFar p g.tag
    match c1.writePP p (c.saveAddr q slot)
        (saveBytes (saveBody e.index e.desc.opcode.toNat q slot g c.gtc)) with
    | .ok c2 => c2
    | .error err =>
      (c1.capture p err FaultUnit.frontEnd (c.asidOf q) 0 e.desc.tag.toNat).dropGrid q slot g err.status

/-- R98: the record is read back and checked when the descriptor resumes. One whose frames a RESIZE took away reads
back nothing: it too ends the descriptor with POISONED. (DESIGN CHOICE, assumptions 66, 160.) -/
def Chip.resumeGrid (c : Chip) (q slot : Nat) (g : Grid) : Except Chip Chip :=
  match c.readPP (partOf q) (c.saveAddr q slot) 64 with
  | .ok b =>
    if b.drop 60 = leBytes 4 (Config.saveCheck (leNat (b.take 60))).toNat
    then .ok (c.setGrid q slot { g with saved := false })
    else .error (c.dropGrid q slot g St.poisoned)
  | .error _ => .error (c.dropGrid q slot g St.poisoned)

/-- R143: what has run again for a completed descriptor is remembered until its queue's next commit point. -/
def Chip.shelve (c : Chip) (q slot : Nat) (g : Grid) : Chip :=
  { c with grids := KMap.erase (q * 64 + slot) c.grids, hist := KMap.modify q [] (g :: ·) c.hist }

/-- R273: a DRAW has executed. The LAST one closes its chain; what its items need is kept with it (R143). -/
def Chip.drawDone (c : Chip) (q slot : Nat) (g : Grid) (d : DrawRun) : Chip :=
  let c1 := match g.chain with
    | some _ => c
    | none =>
      let c1 := c.setGrid q slot { g with chain := KMap.find q c.chains }
      if d.last then { c1 with chains := KMap.erase q c1.chains } else c1
  c1.finishOk q slot (if d.last then d.tilesDone else d.prims)

/-- R97, R128: after a workgroup has gone, or a claim: the descriptor is done, or has lost its last cluster. -/
def Chip.settleGrid (c : Chip) (q slot : Nat) : Chip :=
  match c.grid q slot with
  | none => c
  | some g =>
    if c.resident q slot then c
    else
      match g.fault with
      | some (st, n, _) =>
        if (c.entry q slot).isNone then { c with grids := KMap.erase (q * 64 + slot) c.grids }
        else
          match g.run with
          | some d => c.drawFailed q slot d st n
          | none => c.finish q slot st g.completed
      | none =>
        if !g.pending then
          (if (c.entry q slot).isNone then c.shelve q slot g
           else
             match g.run with
             | some d => if d.tiles || g.chain.isSome then c.drawDone q slot g d else c
             | none => c.finishOk q slot g.completed)
        else if (c.part (partOf q)).det ∨ g.saved ∨ g.ran.isEmpty then c
        else if indexOf q = 0 ∧ !c.flag Fld.SAVE_BASE_LO_SAVE_EN (pg (partOf q)) then c
        else if (c.clustersOf (partOf q)).any (c.mayUse q) then c
        else c.saveGrid q slot g

/-- R97: descriptors of a partition that have lost their last cluster write their save records. -/
def Chip.settlePart (c : Chip) (p : Nat) : Chip :=
  c.grids.foldl (fun c kg => if partOf (kg.1 / 64) = p then c.settleGrid (kg.1 / 64) (kg.1 % 64) else c) c

/-- R91: SLICE_EXPIRY: the head whose slice is used up moves to the tail of the run list, and what runs on no cluster
any more is saved. (DEDUCED, assumption 159.) -/
def Chip.sliceExpiry (c : Chip) (p : Nat) : Chip :=
  match c.runList p with
  | h :: _ =>
    if KMap.getD (c.part p).sliceUsed (c.sliceKey h) 0 < c.sliceNs (c.sliceKey h) then c
    else (c.toTail h).settlePart p
  | [] => c

/-- R91, R105: a wait begins to hold a queue: it takes no clusters, and the head moves to the tail.
(DEDUCED, assumption 159.) -/
def Chip.holdQueue (c : Chip) (q : Nat) : Chip :=
  if (c.part (partOf q)).det then c
  else (if (c.runList (partOf q)).head? = some q then c.toTail q else c).settlePart (partOf q)

/-- R90, R94: a cluster descriptor of an elastic partition has begun: its queue joins the run list, or claims. -/
def Chip.beginCluster (c : Chip) (q slot : Nat) : Chip :=
  if (c.part (partOf q)).det then c else (c.claimDisplay q slot).settlePart (partOf q)

end Sys2Proof.Machine
end

