-- ==== Sys2Proof/Machine/Submission.lean ====
section
/-!
DEFINITION. The command front end: doorbells, fetch, begin, completion (R57 to R89) and QUEUE_CTL (R77,
R78).
-/

namespace Sys2Proof.Machine

/-! ## Decaf (R424 to R427) -/

/-- R425, R427: a wake event: latched while the device enters decaf, and in decaf the wake begins. -/
def Chip.wakeDevice (c : Chip) : Chip :=
  match c.fld Fld.PWR_DEVSTATE_STATE with
  | 1 => { c with pwr := { c.pwr with devLatched := true } }
  | 2 => c.setFld Fld.PWR_DEVSTATE_STATE 0 3
  | _ => c

/-- The logical clusters backed by a physical group, within the map. -/
def Chip.groupClusters (c : Chip) (g : Nat) : List Nat :=
  (c.clusters.filter fun kc => kc.2.phys / 8 == g).map Prod.fst

/-- A group's state in PWR_GROUP_STATE. -/
def Chip.groupState (c : Chip) (g : Nat) : Nat :=
  bits (c.fld Fld.PWR_GROUP_STATE_STATE) (2 * g + 1) (2 * g)

/-- Set a group's state. (DEDUCED, assumption 79.) -/
def Chip.setGroupState (c : Chip) (g v : Nat) : Chip :=
  c.setRg Reg.PWR_GROUP_STATE (wset (c.rg Reg.PWR_GROUP_STATE) (2 * g + 1) (2 * g) v)

/-- R426, R427: an access to a group: latched while it enters decaf; in decaf it wakes. -/
def Chip.groupWake (c : Chip) (g : Nat) : Chip :=
  if c.pwr.entering.contains g then { c with pwr := { c.pwr with latched := g :: c.pwr.latched } }
  else if c.groupState g = 2 then (c.setGroupState g 3).count Fld.PWR_WAKE_CNT_COUNT
  else c

/-- R426: an access to a cluster in decaf wakes its group. -/
def Chip.wakeCluster (c : Chip) (cl : Nat) : Chip :=
  if (c.cluster cl).st = .decaf then c.groupWake ((c.cluster cl).phys / 8) else c

/-! ## Doorbells (R60 to R62) -/

/-- A doorbell write discarded: counted and posted, to partition 0 where the function's is ABSENT.
(DEDUCED, assumption 41.) -/
def Chip.discardDoorbell (c : Chip) (fn q code val : Nat) : Chip :=
  let p := if c.exists? fn then fn else 0
  (c.count Fld.DB_DISCARD_COUNT (pg p)).postEvent p code q val

/-- Whether a queue exists: bound and not on its way out. -/
def Chip.queueExists (c : Chip) (q : Nat) : Bool := (c.queue q).state != .unbound

/-- R61: a DB_TAIL value within both windows. -/
def Chip.tailOk (c : Chip) (q : Nat) (val : Word) : Bool :=
  let x := c.queue q
  let n := 2 ^ c.ringLog2 q
  decide ((val - x.head).toNat ≤ n) && decide ((val - x.tail).toNat ≤ n)

/-- R61: a write of DB_TAIL. (DEDUCED, assumption 41.) -/
def Chip.dbTail (c : Chip) (fn page : Nat) (val : Word) : Chip :=
  let q := fn * 64 + page
  let st := (c.part fn).state
  if !c.fnEnabled fn then c
  else if !c.exists? fn || st == .resetting || st == .destroying || !c.queueExists q || !c.tailOk q val then
    c.discardDoorbell fn q 0x0004 val.toNat
  else c.wakeDevice.setQueue q { c.queue q with tail := val }

/-- R61: DB_TAIL_WRITE. -/
def execDbTailWrite (fn : BitVec 4) (page : BitVec 6) (val : Word) (s : State) :
    Host.Outcome State Fault Refusal :=
  onHost (fun c => c.dbTail fn.toNat page.toNat val) s

/-- R62: a CPL_HEAD value between the previous one and the number of records written. -/
def Chip.cplOk (c : Chip) (q : Nat) (val : Word) : Bool :=
  let x := c.queue q
  decide ((val - x.cplHead).toNat ≤ (x.written - x.cplHead).toNat)

/-- R62: a write of CPL_HEAD. Only a discard by R61 counts in DB_DISCARD; R83 counts every one.
(DEDUCED, assumption 41.) -/
def Chip.cplHeadWrite (c : Chip) (fn page : Nat) (val : Word) : Chip :=
  let q := fn * 64 + page
  if !c.fnEnabled fn then c
  else if !c.exists? fn || !c.queueExists q || !c.cplOk q val then c.discardDoorbell fn q 0x0005 val.toNat
  else c.setQueue q { c.queue q with cplHead := val }

/-- R62: CPL_HEAD_WRITE. -/
def execCplHeadWrite (fn : BitVec 4) (page : BitVec 6) (val : Word) (s : State) :
    Host.Outcome State Fault Refusal :=
  onHost (fun c => c.cplHeadWrite fn.toNat page.toNat val) s

/-! ## Fetch (R64, R72) -/

/-- R491: while a stack retrains, partition 0's doorbells are latched and served afterwards. -/
def Chip.retraining (c : Chip) (q : Nat) : Bool :=
  partOf q == 0 && c.mgt.op.any fun o => o.code == 0x30

/-- R33, R64: whether the front end may fetch from a queue. -/
def Chip.mayFetch (c : Chip) (q : Nat) : Bool :=
  let x := c.queue q
  let st := (c.part (partOf q)).state
  x.state == .running && !x.stopping && x.head != x.tail && !c.retraining q && c.fld Fld.PWR_DEVSTATE_STATE == 0
    && (st == .ready || (st == .opened && indexOf q == 0))

/-- R64, R72: the descriptor at the queue's head, or its fetch failure. -/
def Chip.fetchDesc (c : Chip) (q : Nat) (index : Word) : Fetched :=
  match c.readPP (partOf q) (c.ringBase q + 64 * (index.toNat % 2 ^ c.ringLog2 q)) 64 with
  | .ok b => .ok (Desc.ofBytes b)
  | .error e => .bad e.status

/-- R64: read the next descriptor once. -/
def Chip.fetch (c : Chip) (q : Nat) : Chip :=
  if !c.mayFetch q then c
  else
    let x := c.queue q
    let c1 := match c.readPP (partOf q) (c.ringBase q + 64 * (x.head.toNat % 2 ^ c.ringLog2 q)) 64 with
      | .error e => c.countUe e
      | .ok _ => c
    c1.setQueue q { x with head := x.head + 1, fetched := x.fetched ++ [c.fetchDesc q x.head] }

/-- R64: DESCRIPTOR_FETCH. -/
def execDescriptorFetch (q : BitVec 10) (s : State) : Host.Outcome State Fault Refusal :=
  onChip (fun c => c.fetch q.toNat) s

/-! ## Begin (R65, R66, R70) -/

/-- Entries that a partition's queues hold. -/
def Chip.entriesOf (c : Chip) (p : Nat) : Nat :=
  c.queues.foldl (fun n kq => if partOf kq.1 = p then n + kq.2.entries.length else n) 0

/-- R66: entries held from the shared pool by partition `p`. -/
def Chip.sharedUse (c : Chip) (p : Nat) : Nat := c.entriesOf p - (if (c.part p).det then 256 else 0)

/-- R66: a command entry is available to the queue. -/
def Chip.entryAvailable (c : Chip) (q : Nat) : Bool :=
  let p := partOf q
  let nDet := (c.parts.filter fun kp => kp.2.det && kp.2.state != .absent).length
  let shared := (List.range 16).foldl (fun n p => n + c.sharedUse p) 0
  (List.range 64).any (fun j => (KMap.find j (c.queue q).entries).isNone
      && (KMap.find (q * 64 + j) c.grids).isNone)
    && (((c.part p).det && decide (c.entriesOf p < 256)) || decide (shared < 4096 - 256 * nDet))

/-- R66: ring room for one more descriptor. -/
def Chip.ringRoom (c : Chip) (q : Nat) : Bool :=
  let x := c.queue q
  decide (x.entries.length + (x.written - x.cplHead).toNat < 2 ^ c.ringLog2 q)

/-- R71: whether a completed descriptor halts its queue: a fetch failure halts any queue, the other
marked statuses only a work queue. -/
def haltsQueue (q : Nat) (op : Byte) (s : Half) (halts : Bool) : Bool :=
  halts && (indexOf q != 0 || (op == 0 && (s == St.permissionFault || s == St.poisoned)))

/-- R65, R71: an earlier descriptor of the queue holds later ones back, or has halted the queue. -/
def Queue.heldBack (x : Queue) (q : Nat) : Bool :=
  x.entries.any fun ke =>
    holdsLater ke.2.desc.opcode.toNat ||
    match ke.2.phase with
    | .done s _ h => haltsQueue q ke.2.desc.opcode s h
    | _ => false

/-- R33, R65: whether a fetched descriptor may begin now; none does in decaf (R424), nor on a partition 0 whose stacks
retrain (R491). (DEDUCED, assumption 190.) -/
def Chip.mayBegin (c : Chip) (q : Nat) (f : Fetched) : Bool :=
  let x := c.queue q
  let st := (c.part (partOf q)).state
  x.state == .running && !x.stopping && c.entryAvailable q && c.ringRoom q
    && !x.heldBack q && !c.retraining q && decide (c.fld Fld.PWR_DEVSTATE_STATE ≤ 1)
    && match f with
       | .bad _ => true
       | .ok d => (!d.waitPrior || x.entries.isEmpty)
          && (st == .ready || (st == .opened && allowedOpen d.opcode.toNat))

/-- R66: the lowest-numbered free slot; one in which items of a completed descriptor run again (R143) is
busy. -/
def Queue.freeSlot (x : Queue) (busy : Nat → Bool) : Nat :=
  ((List.range 64).find? fun j => (KMap.find j x.entries).isNone && !busy j).getD 0

/-- R392: how many descriptors are still to be retired as late once `f` has begun, and whether `f` is one:
a LAUNCH_AT ends the run, and a failed fetch is judged by R72. (DEDUCED, assumption 32.) -/
def Queue.lateStep (x : Queue) (f : Fetched) : Nat × Bool :=
  match f with
  | .bad _ => (x.lateLeft - 1, false)
  | .ok d => if x.lateLeft = 0 ∨ d.opcode.toNat = Op.launchAt then (0, false) else (x.lateLeft - 1, true)

/-- R65, R70, R72, R90, R94, R392: the next fetched descriptor begins and is checked; one that needs clusters enters
its queue in the scheduler. (DEDUCED, assumption 32.) -/
def Chip.beginEntry (c : Chip) (q : Nat) (f : Fetched) (rest : List Fetched) : Chip :=
  let x := c.queue q
  let slot := x.freeSlot fun j => (KMap.find (q * 64 + j) c.grids).isSome
  let d := match f with
    | .ok d => d
    | .bad _ => Desc.ofBytes []
  let e : Entry := { index := x.next, desc := d, loaded := !d.indirect,
                      began := c.gtc, decodedAt := c.gtc, beginSeq := c.waitCtr }
  let c0 := match f with
    | .ok d => if clusterOp d.opcode then c.joinRunList q else c
    | .bad _ => c
  let c1 := { c0 with waitCtr := c.waitCtr + 1 }.setQueue q
    { x with fetched := rest, next := x.next + 1, entries := KMap.set slot e x.entries,
             lateLeft := (x.lateStep f).1 }
  match f with
  | .bad s =>
    let err := if s = St.poisoned then AccErr.poison none else AccErr.bound
    (c1.capture (partOf q) err FaultUnit.frontEnd (c.asidOf q) 0 0).finish q slot s 0 true
  | .ok d =>
    if (x.lateStep f).2 then c1.finish q slot St.launchLate 0
    else
    match c1.decodeCheck q d with
    | some (s, h) => c1.finish q slot s 0 h
    | none => if clusterOp d.opcode then c1.beginCluster q slot else c1

/-- R65: begin the next descriptor where it may. -/
def Chip.beginNext (c : Chip) (q : Nat) : Chip :=
  match (c.queue q).fetched with
  | [] => c
  | f :: rest => if c.mayBegin q f then c.beginEntry q f rest else c

/-- R65: DESCRIPTOR_BEGIN. -/
def execDescriptorBegin (q : BitVec 10) (s : State) : Host.Outcome State Fault Refusal :=
  onChip (fun c => c.beginNext q.toNat) s

/-! ## Completion (R69, R73, R80) -/

/-- R80 step 1: no request of the descriptor is still to be acknowledged. -/
def Chip.acknowledged (c : Chip) (q slot : Nat) : Bool :=
  !c.reqs.any fun r => match r.who with
    | .entry q' s' => q' == q && s' == slot
    | _ => false

/-- R69: the status after the signal: a fault replaces OK and warnings, and an error is kept. -/
def statusAfterSignal (s : Half) (fault : Half) : Half := if isError s then s else fault

/-- R69, R80 step 2: perform or continue the SIGNAL_AFTER of an executed descriptor. `none`: its remote
signal is still to be acknowledged. A descriptor that failed check 2 of R70 for a misaligned SIGNAL_ADDR signals too, at
that address: R69 names every completion status and R70 says that nothing else happens. (DESIGN CHOICE, assumption
164.) -/
def Chip.signalAfter (c : Chip) (q slot : Nat) (e : Entry) (s : Half) : Chip × Option Half :=
  if !e.desc.signalAfter || s == St.queueFaulted || s == St.abortedReset then (c, some s)
  else
    match e.sig with
    | .performed => (c, some s)
    | .faulted f => (c, some (statusAfterSignal s f))
    | .sent _ => (c, none)
    | .idle =>
      let w := c.actor q slot
      match c.signalFence w q e.desc.sigAddr.toNat e.desc.sigVal.toNat (.signal q slot) with
      | .done c1 => (c1, some s)
      | .remote c1 => (c1.setEntry q slot { e with sig := .sent 0 }, none)
      | .failed .stall => (c, none)
      | .failed err =>
        (c.captureAny w.p err FaultUnit.frontEnd w.asid e.desc.sigAddr.toNat e.desc.tag.toNat,
          some (statusAfterSignal s err.status))

/-- R81: the status with the warning due, where no error occurred: a differing key ranks before a mark. -/
def statusWithWarning (s warn : Half) (marked : Bool) : Half :=
  if s ≠ St.ok then s else if warn ≠ 0 then warn else if marked then St.timingPerturbed else s

/-- R398: whether a descriptor is marked when it completes. (DEDUCED, assumption 33.) -/
def Chip.marked (c : Chip) (q : Nat) (e : Entry) : Bool :=
  let x := c.part (partOf q)
  x.det && (e.pert || (x.span && x.spanBits != 0))

/-- R398: a marked descriptor is counted, and the first of a span posted. -/
def Chip.countMark (c : Chip) (q : Nat) (e : Entry) : Chip :=
  if !c.marked q e then c
  else
    let p := partOf q
    let x := c.part p
    let c1 := c.count Fld.DET_PERT_CNT_COUNT (pg p)
    if x.spanPosted then c1
    else (c1.setPart p { x with spanPosted := true }).postEvent p 0x0040 q
      (c.fld Fld.DET_PERTURB_REASON (pg p))

/-- R143: a DISPATCH or DRAW that ran without a fault is remembered until its queue's next commit point.
(DEDUCED, assumption 82.) -/
def Chip.archive (c : Chip) (q slot : Nat) : Chip :=
  match KMap.find (q * 64 + slot) c.grids with
  | none => c
  | some g =>
    if g.fault.isSome ∨ g.ran.isEmpty then c
    else { c with hist := KMap.modify q [] (g :: ·) c.hist }

/-- R78: the DESTROYs that wait for the end of a queue complete. -/
def Chip.endDestroys (c : Chip) (q : Nat) : Chip :=
  let r := partOf q * 64
  (c.queue r).entries.foldl (fun c ke => if ke.2.watch = .unbound q then c.finishOk r ke.1 else c) c

/-- A queue is unbound, and what was remembered of its work goes; R78: a DESTROY of it is complete. -/
def Chip.unbind (c : Chip) (q : Nat) : Chip :=
  { (c.setQueue q {}).setQState q .unbound 0 with
    hist := KMap.erase q c.hist, chains := KMap.erase q c.chains }.endDestroys q

/-- R83: the kernel ring starts, with index 0 as its first descriptor. -/
def Chip.startKring (c : Chip) (p : Nat) : Chip :=
  (c.setQueue (p * 64) {}).setQState (p * 64) .running 0

/-- R83: a kernel ring that was enabled again while its begun descriptors completed starts. -/
def Chip.restartKring (c : Chip) (q : Nat) : Chip :=
  if indexOf q = 0 ∧ c.flag Fld.KRING_CTL_ENABLE (pg (partOf q)) then c.startKring (partOf q) else c

/-- The entry's slot is free again; a queue that is stopping and has none left is unbound (R78, R83). -/
def Chip.freeEntry (c : Chip) (q slot : Nat) : Chip :=
  let x := c.queue q
  let es := KMap.erase slot x.entries
  let c1 := { (c.archive q slot).setQueue q { x with entries := es } with
    grids := KMap.erase (q * 64 + slot) c.grids, inbuf := KMap.erase (q * 64 + slot) c.inbuf }
  if x.stopping ∧ es.isEmpty then (c1.unbind q).restartKring q else c1

/-- R392: late descriptors complete in index order. -/
def Chip.lateTurn (c : Chip) (q slot : Nat) (e : Entry) (s : Half) : Bool :=
  s != St.launchLate || (c.queue q).entries.all fun ke =>
    ke.1 == slot || decide ((ke.2.index - e.index).toNat < 2 ^ 31)

/-- A batch descriptor (R260). -/
def isBatchOp (op : Nat) : Bool := [Op.seqJoin, Op.seqLeave, Op.seqPark, Op.step].contains op

/-- R260, R261: the time at which a batch descriptor completes, from which later ones are ready. -/
def Chip.noteBatch (c : Chip) (q op : Nat) : Chip :=
  if !isBatchOp op then c
  else
    let c1 := c.setQueue q { c.queue q with batchDone := c.gtc }
    if op = Op.step then c1.setPart (partOf q) { c1.part (partOf q) with stepDone := c.gtc } else c1

/-- R80: complete an executed descriptor: signal, accounting, record, interrupt, halt; during a reset its record goes
to the reset report instead (R446). R272: a DRAW that completes with an error fails the open chain, misuse apart.
(DEDUCED, assumption 73.) -/
def Chip.complete (c : Chip) (q slot : Nat) (u : Usage) : Chip :=
  match c.entry q slot with
  | none => c
  | some e =>
    match e.phase with
    | .done s detail halts =>
      if c.inReset (partOf q) || !c.acknowledged q slot || !c.lateTurn q slot e s then c
      else
        match c.signalAfter q slot e s with
        | (c1, none) => c1
        | (c1, some s1) =>
          let c2 := c1.accountUsage (partOf q) e.desc.tag.toNat u
          let s2 := statusWithWarning s1 e.warn (c.marked q e)
          let c3 := (c2.countMark q e).writeRecord q s2 e.desc.tag e.index u.cycles detail e.desc.opcode
          let c4 := if haltsQueue q e.desc.opcode s halts then c3.halt q s e.index else c3
          let c5 := if e.desc.opcode.toNat = Op.draw ∧ isError s1 ∧ s1 ≠ St.malformed then c4.failChain q s1 false else c4
          (c5.noteBatch q e.desc.opcode.toNat).freeEntry q slot
    | _ => c

/-- R80: DESCRIPTOR_COMPLETE. -/
def execDescriptorComplete (q : BitVec 10) (slot : BitVec 6) (u : Usage) (s : State) :
    Host.Outcome State Fault Refusal :=
  onChip (fun c => c.complete q.toNat slot.toNat u) s

/-- R89: COAL_US has passed since the first record not yet signalled. -/
def Chip.coalesce (c : Chip) (q : Nat) : Chip :=
  let x := c.queue q
  if x.irqMode = 2 ∧ x.coalSeen > 0 then
    (c.setQueue q { x with coalSeen := 0 }).raiseVector (partOf q) x.vector
  else c

/-- R89: COALESCE_TIMEOUT. -/
def execCoalesceTimeout (q : BitVec 10) (s : State) : Host.Outcome State Fault Refusal :=
  onChip (fun c => c.coalesce q.toNat) s

/-- R75: NOP does nothing but complete. -/
def execNop (q : BitVec 10) (slot : BitVec 6) (s : State) : Host.Outcome State Fault Refusal :=
  onChip (fun c => c.run q.toNat slot.toNat Op.nop fun c _ => c.finishOk q.toNat slot.toNat) s

/-! ## QUEUE_CTL (R77, R78) -/

/-- The queue that a QUEUE_CTL names. -/
def ctlTarget (q : Nat) (d : Desc) : Nat := partOf q * 64 + dbits d.p0 13 8

/-- R44: the ASID lies in the partition's range. -/
def Chip.asidOk (c : Chip) (p asid : Nat) : Bool :=
  let x := c.part p
  decide (x.asidBase ≤ asid) && decide (asid < x.asidBase + x.asidCount)

/-- R78, R97: why a CREATE is malformed. -/
def Chip.createBad (c : Chip) (p t : Nat) (d : Desc) : Bool :=
  let x := c.part p
  let bound := (c.queues.filter fun kq => partOf kq.1 == p && indexOf kq.1 != 0
    && kq.2.state != .unbound)
  let l := dbits d.p1 4 0
  c.queueExists t || decide (bound.length ≥ x.wqueues)
    || (bit d.p0.toNat 16 && (x.det || bound.any fun kq => kq.2.cls))
    || decide (dbits d.p1 38 12 * 4096 + 96 * 2 ^ l > x.memBytes)
    || (!x.det && !c.flag Fld.SAVE_BASE_LO_SAVE_EN (pg p))

/-- R52: a queue of the partition is bound to an ASID already, or the kernel ring is (R44). -/
def Chip.asidBound (c : Chip) (p asid : Nat) : Bool :=
  asid == (c.part p).asidBase || c.queues.any fun kq =>
    partOf kq.1 == p && indexOf kq.1 != 0 && kq.2.state != .unbound && kq.2.asid == asid

/-- R52: an ASID that no queue was bound to is bound now. (DEDUCED, assumption 12.) -/
def Chip.bindAsid (c : Chip) (p asid : Nat) : Chip :=
  if c.asidBound p asid then c else c.setPart p ((c.part p).bind asid c.wseq)

/-- R78: CREATE binds and enables a queue. -/
def Chip.createQueue (c : Chip) (t : Nat) (d : Desc) : Chip :=
  (c.bindAsid (partOf t) (dbits d.p0 43 32)).setQueue t
    { state := .running, log2 := dbits d.p1 4 0, ring := dbits d.p1 38 12 * 4096,
      asid := dbits d.p0 43 32, cls := bit d.p0.toNat 16, vector := dbits d.p2 5 0,
      irqMode := dbits d.p2 9 8, coalCount := dbits d.p2 23 16, coalUs := dbits d.p2 41 32,
      sliceUs := dbits d.p3 13 0 }

/-- Execute a QUEUE_CTL whose operation is `op`. -/
def Chip.runCtl (c : Chip) (q slot op : Nat) (f : Chip → Entry → Nat → Chip) : Chip :=
  c.run q slot Op.queueCtl fun c e =>
    if dbits e.desc.p0 2 0 = op then f c e (ctlTarget q e.desc) else c

/-- R78: QUEUE_CTL CREATE; a malformed one takes precedence over an ASID out of range. -/
def Chip.queueCreate (c : Chip) (q slot : Nat) : Chip :=
  c.runCtl q slot 0 fun c e t =>
    if c.createBad (partOf q) t e.desc then c.finishMalformed q slot
    else if !c.asidOk (partOf q) (dbits e.desc.p0 43 32) then c.finish q slot St.permissionFault 0
    else (c.createQueue t e.desc).finishOk q slot

def execQueueCreate (q : BitVec 10) (slot : BitVec 6) (s : State) : Host.Outcome State Fault Refusal :=
  onChip (fun c => c.queueCreate q.toNat slot.toNat) s

/-- R105: the FENCE_WAIT, SEM_ACQUIRE or EVENT_WAIT that holds a queue ends with QUEUE_FAULTED where the queue stops. -/
def Queue.endWaits (x : Queue) : Queue :=
  { x with entries := x.entries.map fun ke =>
      if ke.2.phase = .waiting ∧ [Op.fenceWait, Op.semAcquire, Op.eventWait].contains ke.2.desc.opcode.toNat then
        (ke.1, { ke.2 with phase := .done St.queueFaulted 0 false, watch := .none, donees := [] })
      else ke }

/-- R78, R83, R105: a queue stops fetching; begun descriptors complete, and then it is unbound. KRING_STATUS.STATE of a
kernel ring stays as it is until then, and an ENABLE written 1 meanwhile starts the ring only then: the spec does not
say when STATE turns 0. (DESIGN CHOICE, assumption 162.) -/
def Chip.stopQueue (c : Chip) (t : Nat) : Chip :=
  let x := c.queue t
  if x.entries.isEmpty then c.unbind t
  else c.setQueue t { x.endWaits with stopping := true, fetched := [] }

/-- R78: QUEUE_CTL DESTROY: it completes once the queue is unbound. -/
def Chip.queueDestroy (c : Chip) (q slot : Nat) : Chip :=
  c.runCtl q slot 1 fun c e t =>
    if !c.queueExists t then c.finishMalformed q slot
    else (c.setEntry q slot { e with phase := .running, watch := .unbound t }).stopQueue t

def execQueueDestroy (q : BitVec 10) (slot : BitVec 6) (s : State) : Host.Outcome State Fault Refusal :=
  onChip (fun c => c.queueDestroy q.toNat slot.toNat) s

/-- R78: QUEUE_CTL RESUME. -/
def Chip.queueResume (c : Chip) (q slot : Nat) : Chip :=
  c.runCtl q slot 2 fun c _ t =>
    if (c.queue t).state ≠ .halted then c.finishMalformed q slot
    else (c.setQState t .running 0).finishOk q slot

def execQueueResume (q : BitVec 10) (slot : BitVec 6) (s : State) : Host.Outcome State Fault Refusal :=
  onChip (fun c => c.queueResume q.toNat slot.toNat) s

/-- R78: FLUSH retires the next unbegun descriptor with QUEUE_FAULTED. One whose ring entry cannot be read gets its
record with tag 0 and opcode 0, and captures nothing: the spec does not say. (DEDUCED, assumption 144; DESIGN CHOICE,
assumption 163.) -/
def Chip.flushOne (c : Chip) (t : Nat) : Chip :=
  let x := c.queue t
  let (f, rest, head) := match x.fetched with
    | f :: rest => (f, rest, x.head)
    | [] => (c.fetchDesc t x.next, [], x.head + 1)
  let d := match f with
    | .ok d => d
    | .bad _ => Desc.ofBytes []
  let c1 := c.setQueue t { x with fetched := rest, head := head, next := x.next + 1 }
  c1.writeRecord t St.queueFaulted d.tag x.next 0 0 d.opcode

/-- R78: FLUSH of up to `n` descriptors. (DEDUCED, assumption 144.) -/
def Chip.flushMany (t : Nat) : Nat → Chip → Chip
  | 0, c => c
  | n + 1, c => Chip.flushMany t n (c.flushOne t)

/-- R78: QUEUE_CTL FLUSH: every descriptor not begun up to the tail gets a record, and the queue runs
again from that tail. (DEDUCED, assumption 144.) -/
def Chip.queueFlush (c : Chip) (q slot : Nat) : Chip :=
  c.runCtl q slot 3 fun c _ t =>
    if (c.queue t).state ≠ .halted then c.finishMalformed q slot
    else
      let n := ((c.queue t).tail - (c.queue t).next).toNat
      let c1 := Chip.flushMany t n (c.setQState t .draining (c.queue t).haltStatus)
      (if (c1.queue t).state = .draining then c1.setQState t .running 0 else c1).finishOk q slot

def execQueueFlush (q : BitVec 10) (slot : BitVec 6) (s : State) : Host.Outcome State Fault Refusal :=
  onChip (fun c => c.queueFlush q.toNat slot.toNat) s

/-- R78: QUEUE_CTL MODIFY replaces the interrupt fields and the slice. -/
def Chip.queueModify (c : Chip) (q slot : Nat) : Chip :=
  c.runCtl q slot 4 fun c e t =>
    if !c.queueExists t then c.finishMalformed q slot
    else
      let d := e.desc
      (c.setQueue t { c.queue t with
        vector := dbits d.p2 5 0, irqMode := dbits d.p2 9 8, coalCount := dbits d.p2 23 16,
        coalUs := dbits d.p2 41 32, sliceUs := dbits d.p3 13 0 }).finishOk q slot

def execQueueModify (q : BitVec 10) (slot : BitVec 6) (s : State) : Host.Outcome State Fault Refusal :=
  onChip (fun c => c.queueModify q.toNat slot.toNat) s

end Sys2Proof.Machine
end

