-- ==== Sys2Proof/Machine/Bar4.lean ====
section
/-!
DEFINITION. The BAR4 window (R508, R526): host accesses to partition memory.
-/

namespace Sys2Proof.Machine

/-- The size of a function's BAR4, as a power of 2 (R504). -/
def Chip.bar4Log (c : Chip) (fn : Nat) : Nat := if fn = 0 then c.pcie.bar4 else c.pcie.vfBar4

/-- R526: the base of a function's window; bits below the window's size are taken as 0. -/
def Chip.bar4Base (c : Chip) (fn : Nat) : Nat :=
  let b := 2 ^ 28 * c.fld Fld.PCI_BAR4_BASE_LO_BASE_LO (steer fn) + 2 ^ 32 * c.fld Fld.PCI_BAR4_BASE_HI_BASE_HI (steer fn)
  b / 2 ^ c.bar4Log fn * 2 ^ c.bar4Log fn

/-- R491: a location in a stack that retrains. -/
def Chip.stackRetrains (c : Chip) (l : Nat) : Bool :=
  match c.mgt.op with
  | some o => o.code == 0x30 && decide (l < scratchBase) && bit (o.args.headD 0) (l / (48 * gib))
  | none => false

/-- The bytes of a read that is refused. -/
def allOnes (n : Nat) : Out := .hostData (List.replicate n 0xFF)

/-- R508: a refused access is counted. -/
def Chip.bar4Refused (c : Chip) (o : Bar4Op) : Chip :=
  let c1 := c.count Fld.PCI_BAR4_ERR_COUNT (steer o.fn)
  if o.write.isNone then c1.emit (allOnes o.n) else c1

/-- R433, R508: a read through the window. -/
def Chip.bar4Read (c : Chip) (p a n : Nat) (ls : List Nat) : Chip :=
  if ls.any c.stackRetrains then c.emit (allOnes n)
  else
    match c.readPP p a n with
    | .ok bs => c.emit (.hostData bs)
    | .error e => (c.countUe e).emit .hostPoison

/-- R54, R508: a write through the window: discarded where it meets a pinned table page, or a stack that retrains. -/
def Chip.bar4Write (c : Chip) (p a : Nat) (bs : List Byte) (ls : List Nat) : Chip :=
  if ls.any c.stackRetrains then c
  else
    match c.writePP p a bs with
    | .ok c1 => c1
    | .error .pinned => c.count Fld.PART_PINWR_CNT_COUNT (pg p)
    | .error _ => c

/-- R508: an access of a device that is awake. -/
def Chip.bar4Serve (c : Chip) (o : Bar4Op) : Chip :=
  let x := c.part o.fn
  let a := c.bar4Base o.fn + o.off
  let n := match o.write with | some bs => bs.length | none => o.n
  match x.locs a n with
  | none => c.bar4Refused o
  | some ls =>
    if x.state ≠ .ready then c.bar4Refused o
    else
      match o.write with
      | some bs => c.bar4Write o.fn a bs ls
      | none => c.bar4Read o.fn a n ls

/-- R425, R508: the accesses that waited for the wake are served, in order. (DEDUCED, assumption 119.) -/
def Chip.serveHeld (c : Chip) : Chip :=
  c.pcie.held.foldl Chip.bar4Serve { c with pcie := { c.pcie with held := [] } }

/-- R508: a host access at an offset of a function's BAR4. Before step 31 a read returns 0 and a write is discarded;
in decaf the access wakes the device and waits. (DEDUCED, assumption 119.) -/
def Chip.bar4Access (c : Chip) (o : Bar4Op) : Chip :=
  if !c.fnEnabled o.fn ∨ o.off ≥ 2 ^ c.bar4Log o.fn then c
  else if !c.booted then (if o.write.isNone then c.emit (.hostData (List.replicate o.n 0)) else c)
  else if c.fld Fld.PWR_DEVSTATE_STATE = 0 then c.bar4Serve o
  else { c.wakeDevice with pcie := { c.pcie with held := c.pcie.held ++ [o] } }

/-- R508: BAR4_ACCESS. -/
def execBar4Access (fn : BitVec 4) (off : Dword) (w : Option (List Byte)) (n : Half) (s : State) :
    Host.Outcome State Fault Refusal :=
  onChip (fun c => c.bar4Access { fn := fn.toNat, off := off.toNat, write := w, n := n.toNat }) s

end Sys2Proof.Machine
end

