-- ==== Sys2Proof/Machine/Context.lean ====
section
/-!
DEFINITION. Context pages, tables and the page pool (R225 to R232), and what the context commands share
(R239, R248, R253). The commands are in ContextOps.lean.
-/

namespace Sys2Proof.Machine

/-! ## Slots of the batch table (R252, R253) -/

/-- A partition's slot range: its first device slot and its size (R252). -/
def Chip.slotRange (c : Chip) (p : Nat) : Nat × Nat :=
  (c.fld Fld.BATCH_RANGE_BASE (8 * p), c.fld Fld.BATCH_RANGE_COUNT (8 * p))

/-- The device slot of a partition slot, where it is below COUNT. -/
def Chip.deviceSlot (c : Chip) (p s : Nat) : Option Nat :=
  let r := c.slotRange p
  if s < r.2 then some (r.1 + s) else none

def Chip.bslot (c : Chip) (n : Nat) : BSlot := KMap.getD c.bslots n {}
def Chip.setBslot (c : Chip) (n : Nat) (b : BSlot) : Chip := { c with bslots := KMap.put {} n b c.bslots }

/-- R253: the slot is held: joined and its leave not yet in effect. -/
def BSlot.held (b : BSlot) : Bool := b.state != .free && !b.releasing

/-- R256: a context command may use the slot. -/
def BSlot.usable (b : BSlot) : Bool := b.held && (b.state == .active || b.state == .leaving)

/-- R256: a tiering job may use the slot. -/
def BSlot.tierable (b : BSlot) : Bool := b.usable || (b.held && b.state == .parked)

/-- The accesses to a slot's table, through the ASID of its join (R226). -/
def BSlot.actor (b : BSlot) (p rid : Nat) : Actor :=
  { p := p, asid := b.asid, kernel := b.kernel, rid := rid, salt := 0 }

/-! ## The table (R225 to R228) -/

/-- The header of a context table. -/
structure CtxHeader where
  heads : Nat
  kfmt : Nat
  kuns : Bool
  d : Nat
  vrow : Nat
  capacity : Nat
  length : Nat
  rsvOk : Bool
  deriving DecidableEq, Repr

/-- R227: a header read from its 64 bytes. -/
def CtxHeader.ofBytes (b : List Byte) : CtxHeader :=
  let w := fieldLE b 0 4
  let v := fieldLE b 4 4
  { heads := bits w 6 0, kfmt := bits w 11 8, kuns := bit w 12, d := 32 * (bits w 18 16 + 1),
    vrow := 32 * (bits w 28 24 + 1), capacity := bits v 16 0, length := fieldLE b 8 4,
    rsvOk := (!bit w 7 && bits w 15 13 == 0) && (bits w 23 19 == 0 && bits w 31 29 == 0)
      && (bits v 31 17 == 0 && (b.drop 12).all (· == 0)) }

/-- R225: MXFP8 keys carry a scale for each 32 elements. -/
def CtxHeader.mx (h : CtxHeader) : Bool := h.kfmt == 4 || h.kfmt == 5

/-- R225: the key row size, the rows of a 4 KiB unit and the positions of a page. -/
def CtxHeader.rs (h : CtxHeader) : Nat := h.d + (if h.mx then h.d / 32 else 0)
def CtxHeader.rows (h : CtxHeader) : Nat := min (4096 / h.rs) (4096 / h.vrow)
def CtxHeader.perPage (h : CtxHeader) : Nat := 16 * h.rows

/-- R228: the positions that the table can hold. -/
def CtxHeader.holds (h : CtxHeader) : Nat := h.perPage * h.capacity / (2 * h.heads)

/-- R227, R228: a usable header. -/
def CtxHeader.usable (h : CtxHeader) : Bool :=
  h.rsvOk && decide (1 ≤ h.heads) && decide (h.heads ≤ 64) && [0, 2, 3, 4, 5].contains h.kfmt
    && (!h.kuns || h.kfmt == 0) && decide (2 ≤ h.capacity) && decide (h.capacity ≤ 65536)
    && h.capacity % (2 * h.heads) == 0 && decide (h.length ≤ h.holds)

/-- What an entry is (R228). -/
inductive CtxEntry where
  | absent
  | resident (page : Nat)
  | compressed (obj bytes cfmt : Nat)
  | unusable
  deriving DecidableEq, Repr

/-- R225: a page at or above the scratch range and below MEM_GIB. -/
def Part.pageOk (x : Part) (page : Nat) : Bool :=
  page % 65536 == 0 && decide (x.scratchBytes ≤ page) && decide (page + 65536 ≤ x.memBytes)

/-- R228: an entry judged. STATE 0b10 and 0b11 make an entry invalid, as V = 0 does (DEDUCED: R228 tells
'invalid' from 'unusable'). (DEDUCED, assumption 44.) -/
def judgeCtx (x : Part) (e : Nat) : CtxEntry :=
  if !bit e 0 ∨ 2 ≤ bits e 2 1 then .absent
  else if bits e 7 3 ≠ 0 ∨ bits e 63 49 ≠ 0 then .unusable
  else if bits e 2 1 = 0 then
    let page := bits e 38 8 * 256
    if bits e 48 39 = 0 ∧ x.pageOk page then .resident page else .unusable
  else if bits e 48 47 < 2 then
    .compressed (bits e 38 8 * 256) (256 * (bits e 46 39 + 1)) (bits e 48 47)
  else .unusable

/-- R232: the bytes that an entry accounts. -/
def CtxEntry.bytes : CtxEntry → Nat
  | .resident _ => 65536
  | .compressed _ n _ => n
  | _ => 0

/-- R228: the entry of a resident page, and of a compressed object. -/
def residentWord (page : Nat) : Nat := page + 1
def compressedWord (obj clen cfmt : Nat) : Nat := obj + 3 + clen * 2 ^ 39 + cfmt * 2 ^ 47

/-- R228: the key entry of page `g` of head `head`; the value entry follows it. -/
def CtxHeader.keyIndex (h : CtxHeader) (g head : Nat) : Nat := 2 * (g * h.heads + head)

/-- The VA of an entry. -/
def entryVa (table i : Nat) : Nat := table + 64 + 8 * i

/-- R225: the place in a page of a row of `size` bytes. -/
def CtxHeader.rowAt (h : CtxHeader) (r size : Nat) : Nat := r / h.rows * 4096 + r % h.rows * size

/-- Read the header of a slot's table; a slot without a table, or an unusable header, is a page fault. -/
def Chip.ctxHeader (c : Chip) (w : Actor) (b : BSlot) : Except (AccErr × Nat) (Option (List Byte × CtxHeader)) :=
  if b.table = 0 then .ok none
  else
    match c.readVA w b.table 64 with
    | .error e => .error e
    | .ok bs =>
      let h := CtxHeader.ofBytes bs
      .ok (if h.usable then some (bs, h) else none)

/-- Read one entry with a single aligned access (R229). -/
def Chip.ctxEntry (c : Chip) (w : Actor) (table i : Nat) : Except (AccErr × Nat) CtxEntry :=
  match c.readVA w (entryVa table i) 8 with
  | .error e => .error e
  | .ok bs => .ok (judgeCtx (c.part w.p) (leNat bs))

/-- Read entries in order. -/
def Chip.ctxEntries (c : Chip) (w : Actor) (table : Nat) :
    List Nat → Except (AccErr × Nat) (List (Nat × CtxEntry))
  | [] => .ok []
  | i :: is =>
    match c.ctxEntry w table i with
    | .error e => .error e
    | .ok e =>
      match Chip.ctxEntries c w table is with
      | .error x => .error x
      | .ok r => .ok ((i, e) :: r)

/-! ## The page pool (R230, R231) -/

/-- The pool's head page. -/
def Chip.poolHead (c : Chip) (p : Nat) : Nat :=
  2 ^ 16 * c.fld Fld.CTX_POOL_HEAD_LO_HEAD_LO (pg p) + 2 ^ 32 * c.fld Fld.CTX_POOL_HEAD_HI_HEAD_HI (pg p)

/-- Pages in the pool; none while POOL_EN is 0. -/
def Chip.poolCount (c : Chip) (p : Nat) : Nat :=
  if c.flag Fld.CTX_POOL_HEAD_LO_POOL_EN (pg p) then c.fld Fld.CTX_POOL_CNT_COUNT (pg p) else 0

/-- Set the head and the count. -/
def Chip.setPool (c : Chip) (p head n : Nat) : Chip :=
  ((c.setFld Fld.CTX_POOL_HEAD_LO_HEAD_LO (pg p) (bits head 31 16)).setFld Fld.CTX_POOL_HEAD_HI_HEAD_HI
    (pg p) (bits head 38 32)).setFld Fld.CTX_POOL_CNT_COUNT (pg p) n

/-- Why the pool stopped giving pages. -/
inductive PoolStop where
  | enough | broken
  | failed (e : AccErr)
  deriving DecidableEq, Repr

/-- R231: the pages that the pool would give for `n` takes from a head and a count, the head after them,
and why it stops. -/
def Chip.peekPool (c : Chip) (p : Nat) : Nat → Nat → Nat → List Nat × Nat × PoolStop
  | 0, head, _ => ([], head, .enough)
  | n + 1, head, count =>
    match c.readPP p head 8 with
    | .error e => ([], head, .failed e)
    | .ok bs =>
      let w := leNat bs
      if !bit w 0 && decide (count > 1) then ([], head, .broken)
      else
        let (ps, h, s) := Chip.peekPool c p n (bits w 38 16 * 65536) (count - 1)
        (head :: ps, h, s)

/-- R231: BROKEN is set and the count becomes 0. -/
def Chip.breakPool (c : Chip) (p : Nat) : Chip :=
  (c.setFld Fld.CTX_POOL_CNT_BROKEN (pg p) 1).setFld Fld.CTX_POOL_CNT_COUNT (pg p) 0

/-- R230, R231: link a page at the head of the list. (DEDUCED, assumption 45.) -/
def Chip.linkPage (c : Chip) (p page : Nat) : Chip :=
  match c.writePP p page (leBytes 8 (c.poolHead p + 1)) with
  | .ok c1 => c1.setPool p page (c.poolCount p + 1)
  | .error _ => c

/-- R231: the device returns a page, or sets LOST where it cannot be linked. -/
def Chip.returnPage (c : Chip) (p page : Nat) : Chip :=
  if !c.flag Fld.CTX_POOL_HEAD_LO_POOL_EN (pg p) ∨ c.poolCount p ≥ 0x7FFFFF then
    c.setFld Fld.CTX_POOL_CNT_LOST (pg p) 1
  else c.linkPage p page

/-- R230: a write of CTX_POOL_PUSH_HI. -/
def Chip.poolPush (c : Chip) (p : Nat) (hi : Word) : Chip :=
  let page := 2 ^ 16 * c.fld Fld.CTX_POOL_PUSH_LO_PAGE_LO (pg p) + wbits hi 6 0 * 2 ^ 32
  if !c.exists? p ∨ !c.flag Fld.CTX_POOL_HEAD_LO_POOL_EN (pg p) ∨ !(c.part p).pageOk page
      ∨ c.poolCount p ≥ 0x7FFFFF then c.regError (Reg.CTX_POOL_PUSH_HI + pg p)
  else c.linkPage p page

/-- R230: CTX_POOL_PUSH; a part without context engines discards it (R251). -/
def execCtxPoolPush (p : BitVec 4) (val : Word) (s : State) : Host.Outcome State Fault Refusal :=
  onHost (fun c => if c.flag Fld.DEV_CAPS0_CTX_ENGINE then c.poolPush p.toNat val else c) s

/-- R232: bytes added to the tag's CARAFE_BYTES. -/
def Chip.carafe (c : Chip) (p : Nat) (b : BSlot) (delta : Int) : Chip := c.account p b.tag.toNat 0x28 delta

/-! ## Commands that meet on one slot (R239, R248) -/

/-- Whether an operation is a context command, or a compression job. -/
def isCtxOp (op : Nat) : Bool := op == Op.ctxScan || op == Op.ctxGather || op == Op.ctxAppend
def isJobOp (op : Nat) : Bool := op == Op.compress || op == Op.decompress

/-- R248, R331: whether a command works on partition slot `s`: a context command that names it, or a job in context
mode. One whose parameters or block are not at hand yet may name any slot. -/
def Chip.worksOn (c : Chip) (q slot : Nat) (e : Entry) (s : Nat) : Bool :=
  let op := e.desc.opcode.toNat
  if !(isCtxOp op || isJobOp op) then false
  else if !e.loaded then true
  else
    match c.readVA (c.actor q slot) e.desc.p0.toNat 8 with
    | .ok b => if isCtxOp op then bits (leNat b) 11 0 == s else bit (leNat b) 2 && bits (leNat b) 43 32 == s
    | .error (.wait _ _ _ _, _) => true
    | .error (.stall, _) => true
    | .error _ => false

/-- R239, R248, R262: whether a descriptor of partition `p` on partition slot `s` that began before `seq`, with an opcode
that `f` picks, has not completed. -/
def Chip.slotBusy (c : Chip) (p s seq : Nat) (f : Nat → Bool) : Bool :=
  c.queues.any fun kq => partOf kq.1 == p && kq.2.entries.any fun ke =>
    decide (ke.2.beginSeq < seq) && f ke.2.desc.opcode.toNat && c.worksOn kq.1 ke.1 ke.2 s

/-- CONTEXT_PAGE_FAULT on the header. (DEDUCED, assumption 46.) -/
def headerDetail : Nat := 0xFFFFFFFF

end Sys2Proof.Machine
end

