-- ==== Sys2Proof/Machine/Faults.lean ====
section
/-!
DEFINITION. The shared operations of the reliability block: unit faults, the fault log and the latched
causes of the safety sequencer (R431, R438, R450, R456, R458).
-/

namespace Sys2Proof.Machine

/-- R324, R454: management firmware runs. -/
def Chip.firmwareRuns (c : Chip) : Bool := c.fld Fld.RAS_SEQ_STATUS_BARISTA_STATE == 0

/-- The units of R458. -/
inductive Unit8 where
  | cluster | way | stackGroup | lane | port | ucie | compressionLane | barista | timeBase | crossing
  /-- A unit to which R458 gives no code: its code is the argument, taken modulo 16. -/
  | other (code : Nat)
  deriving DecidableEq, Repr

/-- The code of a unit in the fault log and in UNIT_FAULT (R456, R458). -/
def Unit8.code : Unit8 → Nat
  | .cluster => 0
  | .way => 1
  | .stackGroup => 2
  | .lane => 3
  | .port => 4
  | .ucie => 5
  | .compressionLane => 6
  | .barista => 7
  | .timeBase => 8
  | .crossing => 9
  | .other n => n % 16

/-- The outcomes of R458. -/
inductive FaultOutcome where
  | replaced | bypassed | withdrawn | partitionReset | unrecovered
  deriving DecidableEq, Repr

/-- The code of an outcome. -/
def FaultOutcome.code : FaultOutcome → Nat
  | .replaced => 0
  | .bypassed => 1
  | .withdrawn => 2
  | .partitionReset => 3
  | .unrecovered => 4

/-- R458: write a fault-log entry and advance the head. -/
def Chip.logFault (c : Chip) (u : Unit8) (index part : Nat) (o : FaultOutcome) : Chip :=
  let h := c.fld Fld.RAS_FLOG_HEAD_COUNT
  let a := Reg.RAS_FLOG + 16 * (h % 64)
  let w0 := u.code + index % 128 * 2 ^ 8 + part * 2 ^ 16 + o.code * 2 ^ 20
  let c1 := ((c.setRg a (BitVec.ofNat 32 w0)).setRg (a + 4) 0).setRg64 (a + 8) (a + 12) c.gtc.toNat
  c1.setFld Fld.RAS_FLOG_HEAD_COUNT 0 ((h + 1) % 2 ^ 32)

/-- R456: an event of the reliability block with its vector. -/
def Chip.postRas (c : Chip) (p code queue detail : Nat) : Chip :=
  (c.postEvent p code queue detail).raiseOwner 1

/-- R431, R456: a unit fault that affects partitions `ps`: logged, counted and posted. -/
def Chip.unitFault (c : Chip) (u : Unit8) (index : Nat) (ps : List Nat) (o : FaultOutcome) : Chip :=
  let c1 := (c.logFault u index (ps.headD 0) o).count Fld.RAS_UNIT_FAULT_CNT_COUNT
  let d := u.code + index % 128 * 2 ^ 8
  let c2 := c1.postRas 0 0x0060 (ps.headD 0 * 64) d
  ps.foldl (fun c p =>
    let c := c.count Fld.RAS_PFAULT_CNT_COUNT (pg p)
    if p = 0 then c else c.postEvent p 0x0060 (p * 64) d) c2

/-- R438: a fault breaks the launched span of a deterministic partition. (DEDUCED, assumption 33.) -/
def Chip.breakSpan (c : Chip) (p : Nat) : Chip :=
  if (c.part p).det then c.setFld Fld.RAS_PSTATUS_SPAN_BROKEN (pg p) 1 else c

/-- The deterministic partitions that exist. -/
def Chip.detParts (c : Chip) : List Nat :=
  (c.parts.filter fun kp => kp.2.det && kp.2.state != .absent).map Prod.fst

/-! The causes of R450. -/
namespace Cause
def barista : Nat := 0
def crcLimit : Nat := 1
def thermal : Nat := 2
def pair : Nat := 3
def detLoss : Nat := 4
def software : Nat := 5
end Cause

/-- FAULT_N and its register bit; asserting it signals event source 3 (R111, R450). -/
def Chip.assertFault (c : Chip) : Chip :=
  if c.faultN then c.setFld Fld.RAS_SEQ_STATUS_FAULT 0 1
  else ({ c with faultN := true }.setFld Fld.RAS_SEQ_STATUS_FAULT 0 1).sourceSignal 3 0

/-- R450: a cause is latched: FAULT_N, vector 0, SAFETY_STATE and SMB_ALERT_N. -/
def Chip.latchCause (c : Chip) (i : Nat) : Chip :=
  if bit (c.fld Fld.RAS_SEQ_STATUS_CAUSE) i then c
  else
    let c1 := (c.setBit Fld.RAS_SEQ_STATUS_CAUSE 0 i).assertFault
    { (c1.raiseOwner 0).postEvent 0 0x0064 0 (c1.fld Fld.RAS_SEQ_STATUS_CAUSE) with smbAlertN := true }

/-- R398: a reason of R397 delays descriptors of a deterministic partition, those that `hit` picks by queue and slot: the
reason is logged and they are marked; a running span remembers it. -/
def Chip.perturbOnly (c : Chip) (p mask : Nat) (hit : Nat → Nat → Bool) : Chip :=
  let x := c.part p
  if !x.det || mask == 0 then c
  else
    let c1 := c.setFld Fld.DET_PERTURB_REASON (pg p) (c.fld Fld.DET_PERTURB_REASON (pg p) ||| mask)
    let c2 := c1.setPart p { x with spanBits := if x.span then x.spanBits ||| mask else x.spanBits }
    { c2 with queues := c2.queues.map fun kq =>
        if partOf kq.1 = p then
          (kq.1, { kq.2 with entries := kq.2.entries.map fun ke =>
            (ke.1, { ke.2 with pert := ke.2.pert || hit kq.1 ke.1 }) })
        else kq }

/-- R398: a reason that delays everything of the partition that is in execution. (DEDUCED, assumption 33.) -/
def Chip.perturb (c : Chip) (p mask : Nat) : Chip := c.perturbOnly p mask fun _ _ => true

end Sys2Proof.Machine
end

