-- ==== Sys2Proof/Machine/ContextOps.lean ====
section
/-!
DEFINITION. CTX_APPEND, CTX_SCAN and CTX_GATHER, and the engine frame (R233 to R248).
-/

namespace Sys2Proof.Machine

/-! ## What the context commands share -/

/-- What a context command works on: its block, its slot, its table's header and the table's accesses. -/
structure CtxCmd where
  blk : List Byte
  hdr : List Byte
  dev : Nat
  b : BSlot
  h : CtxHeader
  w : Actor

/-- The first checks of a context command, in the order of R240 and R244: the block is readable; the commands that it waits
for (`f`, R239, R248) have completed; the slot is held and in a state that allows the command; the block is in range (`ok`
looks at it); the header is usable. -/
def Chip.ctxCmd (c : Chip) (q slot : Nat) (e : Entry) (f : Nat → Bool) (ok : List Byte → Bool) : Except Chip CtxCmd :=
  let p := partOf q
  match c.readVA (c.actor q slot) e.desc.p0.toNat 64 with
  | .error err => .error (c.failAt q slot FaultUnit.frontEnd err)
  | .ok blk =>
    if c.slotBusy p (bits (fieldLE blk 0 4) 11 0) e.beginSeq f then .error c else
    match c.deviceSlot p (bits (fieldLE blk 0 4) 11 0) with
    | none => .error (c.finish q slot St.slotStateInvalid 0)
    | some dev =>
      let b := c.bslot dev
      if !b.usable then .error (c.finish q slot St.slotStateInvalid 0)
      else if !ok blk then .error (c.finishMalformed q slot)
      else
        let w := b.actor p (q * 64 + slot)
        match c.ctxHeader w b with
        | .error err => .error (c.failAs q slot FaultUnit.frontEnd w.asid err)
        | .ok none => .error (c.finish q slot St.contextPageFault headerDetail)
        | .ok (some (hdr, h)) => .ok { blk := blk, hdr := hdr, dev := dev, b := b, h := h, w := w }

/-! ## CTX_APPEND (R238 to R240) -/

/-- R238: the bytes of a source key row. -/
def srcRowBytes (h : CtxHeader) (fmt : Nat) : Nat :=
  match fmt with
  | 0 => h.rs
  | 1 => 4 * h.d
  | _ => 2 * h.d

/-- R238: an append block in range; SATF is for E4M3 keys that are converted. -/
def appendOk (kfmt : Nat) (b : List Byte) : Bool :=
  let w := fieldLE b 0 4
  let n := fieldLE b 4 4
  let fmt := bits w 18 16
  bits w 15 12 == 0 && !bit w 19 && bits w 31 21 == 0 && decide (fmt ≤ 3)
    && (!bit w 20 || (kfmt == 2 && fmt != 0))
    && decide (1 ≤ n) && decide (n ≤ 65536) && (b.drop 0x10).all (· == 0)

/-- R238: the block's checks that do not need the header. -/
def appendBlockOk (b : List Byte) : Bool := appendOk 2 b

/-- R239: a source key element, and the format of the source. -/
def srcFmt : Nat → FFmt
  | 1 => fp32
  | 2 => bf16
  | _ => fp16

/-- R185, R239: one element converted to an FP8 or INT8 key. -/
def keyByte (kfmt : Nat) (uns satf : Bool) (v : FVal) : Nat :=
  match kfmt with
  | 2 => e4m3.round .rne satf v
  | 3 => e5m2.round .rne satf v
  | _ => toIntSat 8 (!uns) .rne v

/-- R187, R239: one block of MXFP8 elements: the element bytes, the scale, and how many LOSS marks. -/
def mxBlock (kfmt : Nat) (xs : List FVal) : List Nat × Nat × Nat :=
  let ws := xs.map fun x => qmxWord kfmt false xs x
  (ws.map fun w => w.1 % 256, ws.head?.elim 0 (fun w => bits w.1 15 8), (ws.filter (·.2)).length)

/-- The elements of a source row. -/
def srcElems (fmt d : Nat) (row : List Byte) : List FVal :=
  let f := srcFmt fmt
  (List.range d).map fun i => f.decode (fieldLE row (i * (f.width / 8)) (f.width / 8))

/-- R225, R239: a key row as it is stored, and the elements flushed to zero. -/
def keyRow (h : CtxHeader) (fmt : Nat) (satf : Bool) (row : List Byte) : List Byte × Nat :=
  if fmt = 0 then (row, 0)
  else
    let xs := srcElems fmt h.d row
    if h.mx then
      let bs := (List.range (h.d / 32)).map fun i => mxBlock h.kfmt ((xs.drop (32 * i)).take 32)
      ((bs.flatMap fun b => b.1.map (BitVec.ofNat 8)) ++ bs.map (fun b => BitVec.ofNat 8 b.2.1),
        bs.foldl (fun n b => n + b.2.2) 0)
    else (xs.map fun x => BitVec.ofNat 8 (keyByte h.kfmt h.kuns satf x), 0)

/-- R228, R239: the entries that rows `lo` to `lo + n − 1` of every head fall into, ascending. -/
def CtxHeader.entriesFor (h : CtxHeader) (lo n : Nat) : List Nat :=
  let g0 := lo / h.perPage
  let g1 := (lo + n - 1) / h.perPage
  rangeFrom (2 * g0 * h.heads) (2 * (g1 + 1 - g0) * h.heads)

/-- The first entry that an append cannot write into. -/
def badEntry (l : List (Nat × CtxEntry)) : Option Nat :=
  (l.find? fun e => match e.2 with
    | .absent => false
    | .resident _ => false
    | _ => true).map Prod.fst

/-- R231, R239 step 4: take the pages one by one, each with the head that it leaves, and write its entry; a failure leaves
those before it, and its own page taken. -/
def Chip.writeEntries (q : Nat) (x : CtxCmd) (who : Requester) :
    List (Nat × Nat × Nat) → Nat → Chip → Chip × Nat × Option (AccErr × Nat)
  | [], n, c => (c, n, none)
  | (i, page, head) :: t, n, c0 =>
    let c := c0.setPool x.w.p head (c0.poolCount x.w.p - 1)
    match c.writeVA x.w q who (entryVa x.b.table i) (leBytes 8 (residentWord page)) with
    | .error e => (c, n + 1, some e)
    | .ok c1 => Chip.writeEntries q x who t (n + 1) (c1.carafe x.w.p x.b 65536)

/-- R239 step 5: one row written into its page. -/
def Chip.putRow (c : Chip) (q p page off : Nat) (row : List Byte) : Except AccErr Chip :=
  match c.writePP p (page + off) row with
  | .ok c1 => .ok (c1.sign q p (page + off) row)
  | .error e => .error e

/-- R239 step 5: the rows of one head and position. (DEDUCED, assumption 45.) -/
def Chip.appendRow (c : Chip) (q slot : Nat) (x : CtxCmd) (src val : Nat)
    (pages : KMap Nat) (head i : Nat) : Except (AccErr × Nat) Chip :=
  let w := fieldLE x.blk 0 4
  let n := fieldLE x.blk 4 4
  let fmt := bits w 18 16
  let srs := srcRowBytes x.h fmt
  let act := c.actor q slot
  match c.readVA act (src + (head * n + i) * srs) srs,
        c.readVA act (val + (head * n + i) * x.h.vrow) x.h.vrow with
  | .error e, _ => .error e
  | _, .error e => .error e
  | .ok kb, .ok vb =>
    let pos := x.h.length + i
    let key := x.h.keyIndex (pos / x.h.perPage) head
    let r := pos % x.h.perPage
    let (row, lost) := keyRow x.h fmt (bit w 20) kb
    match c.putRow q x.w.p (KMap.getD pages key 0) (x.h.rowAt r x.h.rs) row with
    | .error e => .error (e, 0)
    | .ok c1 =>
      match c1.putRow q x.w.p (KMap.getD pages (key + 1) 0) (x.h.rowAt r x.h.vrow) vb with
      | .error e => .error (e, 0)
      | .ok c2 => .ok (c2.count Fld.CTX_QLOSS_COUNT (pg x.w.p) lost)

/-- R239 step 5: the rows, head by head and position by position. (DEDUCED, assumption 45.) -/
def Chip.appendRows (q slot : Nat) (x : CtxCmd) (src val : Nat) (pages : KMap Nat) :
    List (Nat × Nat) → Chip → Chip × Option (AccErr × Nat)
  | [], c => (c, none)
  | (head, i) :: t, c =>
    match c.appendRow q slot x src val pages head i with
    | .error e => (c, some e)
    | .ok c1 => Chip.appendRows q slot x src val pages t c1

/-- Data that is outside, or a tag that is not free: the command has done nothing yet. -/
def AccErr.waits : AccErr → Bool
  | .wait _ _ _ _ => true
  | .stall => true
  | _ => false

/-- R239 steps 4 to 6, with `taken` pages for the entries that are not valid, each with the head after it. -/
def Chip.appendWrite (c : Chip) (q slot : Nat) (e : Entry) (x : CtxCmd)
    (ents : List (Nat × CtxEntry)) (taken : List (Nat × Nat × Nat)) (stop : Option AccErr) : Chip :=
  let (c1, n, err) := Chip.writeEntries q x (.entry q slot) taken 0 c
  let fail (ch : Chip) (asid : Nat) (e : AccErr × Nat) : Chip :=
    (if e.1.waits then c else ch).failAs q slot FaultUnit.frontEnd asid e n
  match err, stop with
  | some e, _ => fail c1 x.w.asid e
  | none, some s => fail c1 (c.asidOf q) (s, 0)
  | none, none =>
    let pages := (ents.filterMap fun en => match en.2 with
      | .resident g => some (en.1, g)
      | _ => none).foldl (fun m en => KMap.set en.1 en.2 m) ([] : KMap Nat)
    let pages := taken.foldl (fun m en => KMap.set en.1 en.2.1 m) pages
    let cnt := fieldLE x.blk 4 4
    let rows := (List.range x.h.heads).flatMap fun hd => (List.range cnt).map fun i => (hd, i)
    let (c2, err2) := Chip.appendRows q slot x e.desc.p1.toNat (fieldLE x.blk 8 8) pages rows c1
    match err2 with
    | some e => fail c2 (c.asidOf q) e
    | none =>
      match c2.writeVA x.w q (.entry q slot) (x.b.table + 8) (leBytes 4 (x.h.length + cnt)) with
      | .error e => fail c2 x.w.asid e
      | .ok c3 => c3.finishOk q slot n

/-- R239, R240: CTX_APPEND. (DESIGN CHOICE, assumption 13; DEDUCED, assumption 46.) -/
def Chip.ctxAppend (c : Chip) (q slot : Nat) : Chip :=
  c.run q slot Op.ctxAppend fun c e =>
    match c.ctxCmd q slot e (fun op => op == Op.ctxAppend || isJobOp op) appendBlockOk with
    | .error c1 => c1
    | .ok x =>
      let p := partOf q
      let cnt := fieldLE x.blk 4 4
      if !appendOk x.h.kfmt x.blk then c.finishMalformed q slot
      else if x.h.length + cnt > x.h.holds then c.finish q slot St.contextPageFault headerDetail
      else
        match c.ctxEntries x.w x.b.table (x.h.entriesFor x.h.length cnt) with
        | .error err => c.failAs q slot FaultUnit.frontEnd x.w.asid err
        | .ok ents =>
          match badEntry ents with
          | some i => c.finish q slot St.contextPageFault i
          | none =>
            let miss := (ents.filter fun en => en.2 == .absent).map Prod.fst
            let avail := c.poolCount p
            if avail < miss.length then c.finish q slot St.contextPageFault (miss.length - avail)
            else
              let (pages, head, stop) := c.peekPool p miss.length (c.poolHead p) avail
              match stop with
              | .broken => (c.breakPool p).finish q slot St.contextPageFault (miss.length - pages.length)
              | _ =>
                Chip.appendWrite c q slot e x ents (miss.zip (pages.zip (pages.drop 1 ++ [head])))
                  (match stop with | .failed err => some err | _ => none)

def execCtxAppend (q : BitVec 10) (slot : BitVec 6) (s : State) : Host.Outcome State Fault Refusal :=
  onChip (fun c => c.ctxAppend q.toNat slot.toNat) s

/-! ## CTX_SCAN (R241 to R245) -/

/-- A scan block, read from its bytes (R241). -/
structure ScanBlk where
  mode : Nat
  head : Nat
  nq : Nat
  qfmt : Nat
  quns : Bool
  k : Nat
  first : Nat
  count : Nat
  queryVa : Nat
  thresh : Nat
  maxsel : Nat
  limitVa : Nat
  rsvOk : Bool

/-- R241: the fields of a scan block. -/
def ScanBlk.ofBytes (b : List Byte) : ScanBlk :=
  let w := fieldLE b 0 4
  let v := fieldLE b 4 4
  let m := fieldLE b 0x1C 4
  let mode := bits w 13 12
  { mode := mode, head := bits w 21 16, nq := bits w 29 24 + 1, qfmt := bits v 3 0, quns := bit v 4,
    k := bits v 26 16 + 1, first := fieldLE b 8 4, count := fieldLE b 0xC 4, queryVa := fieldLE b 0x10 8,
    thresh := fieldLE b 0x18 4, maxsel := bits m 16 0, limitVa := fieldLE b 0x20 8
    rsvOk := bits w 15 14 == 0 && bits w 23 22 == 0 && bits w 31 30 == 0 && bits v 15 5 == 0
      && bits v 31 27 == 0 && bits m 31 17 == 0 && (b.drop 0x28).all (· == 0)
      && (mode == 0 || bits v 26 16 == 0) && (mode == 1 || (fieldLE b 0x18 4 == 0 && m == 0)) }

/-- R241: a block in range, apart from the key format. -/
def ScanBlk.ok (s : ScanBlk) : Bool :=
  s.rsvOk && decide (s.mode ≤ 2) && decide (1 ≤ s.count)
    && (s.mode != 1 || (decide (1 ≤ s.maxsel) && decide (s.maxsel ≤ 65536)))
    && s.queryVa % 32 == 0 && (!s.quns || s.qfmt == 0)

/-- R241: the query format is of the key format's pairing group. -/
def pairFmt (kfmt qfmt : Nat) : Bool :=
  match kfmt with
  | 0 => qfmt == 0
  | 2 => qfmt == 2 || qfmt == 3
  | 3 => qfmt == 2 || qfmt == 3
  | _ => qfmt == 4 || qfmt == 5

/-- R225, R241: the value of element `i` of a row. -/
def rowVal (fmt : Nat) (uns : Bool) (d : Nat) (row : List Byte) (i : Nat) : FVal :=
  let sc := if fmt = 4 ∨ fmt = 5 then fieldLE row (d + i / 32) 1 else 127
  operandVal fmt uns (fieldLE row i 1) sc

/-- R242: the score of a query row against a key row, as FP32, with its drain flags. -/
def scoreOf (h : CtxHeader) (s : ScanBlk) (qrow krow : List Byte) : Nat × DFlags :=
  let p := ((List.range h.d).foldl (fun (a : LPos) i => a.contribute
    (contribution s.qfmt h.kfmt (rowVal s.qfmt s.quns h.d qrow i) (rowVal h.kfmt h.kuns h.d krow i)))
    LPos.zero).count h.d
  let r := drainVal 0 .rne false p.value
  (r.1, { r.2 with termOvf := p.ovf })

/-- R243: the rank of a score: NaN lowest, then by value, the zeros equal. -/
def rankOf (n : Nat) : Nat :=
  let mag := n % 2 ^ 31
  if mag > 0x7F800000 then 0 else if bit n 31 then 2 ^ 31 - mag else 2 ^ 31 + mag

/-- R243: whether entry `a` (position, score) ranks before `b`. -/
def ranksBefore (a b : Nat × Nat) : Bool :=
  decide (rankOf b.2 < rankOf a.2) || (rankOf a.2 == rankOf b.2 && decide (a.1 < b.1))

/-- Insert by rank. -/
def insertRanked (x : Nat × Nat) : List (Nat × Nat) → List (Nat × Nat)
  | [] => [x]
  | y :: ys => if ranksBefore x y then x :: y :: ys else y :: insertRanked x ys

/-- R243: entries in rank order. -/
def ranked (l : List (Nat × Nat)) : List (Nat × Nat) := l.foldr insertRanked []

/-- Insert by position. -/
def insertPos (x : Nat × Nat) : List (Nat × Nat) → List (Nat × Nat)
  | [] => [x]
  | y :: ys => if x.1 ≤ y.1 then x :: y :: ys else y :: insertPos x ys

/-- R243: an entry of a result. -/
def resultEntry (x : Nat × Nat) : List Byte := leBytes 4 x.1 ++ leBytes 4 x.2

/-- R183, R243: a score that qualifies under THRESH. -/
def qualifies (thresh score : Nat) : Bool := FCmp.eval .ge (fp32.decode score) (fp32.decode thresh)

/-- R243: the stride of a query's result. -/
def ScanBlk.stride (s : ScanBlk) : Nat :=
  match s.mode with
  | 0 => 8 * s.k
  | 1 => 8 * (s.maxsel + 1)
  | _ => ceilDiv (4 * s.count) 64 * 64

/-- R243: the result of one query, from its unmasked scores in ascending position. -/
def ScanBlk.result (s : ScanBlk) (l : List (Nat × Nat)) : List Byte :=
  match s.mode with
  | 0 =>
    let top := (ranked l).take s.k
    top.flatMap resultEntry
      ++ (List.replicate (s.k - top.length) (leBytes 8 0x7FC00000FFFFFFFF)).flatten
  | 1 =>
    let good := l.filter fun x => qualifies s.thresh x.2
    let kept := if good.length > s.maxsel
      then ((ranked good).take s.maxsel).foldr insertPos [] else good
    leBytes 8 (good.length + 2 ^ 32 * b2n (decide (good.length > s.maxsel))) ++ kept.flatMap resultEntry
  | _ => (rangeFrom s.first s.count).flatMap fun n =>
      leBytes 4 ((l.find? fun x => x.1 == n).elim 0xFFFFFFFF Prod.snd)

/-- What a scan reads in its first phase: the limits and the queries of each query, and the pages. -/
structure ScanRead where
  limits : List Nat
  queries : List (List Byte)
  entries : List (Nat × CtxEntry)

/-- R241, R245: read the limits, the queries and the key entries of the range. -/
def Chip.scanRead (c : Chip) (q slot : Nat) (x : CtxCmd) (s : ScanBlk) :
    Except (AccErr × Nat) ScanRead :=
  let act := c.actor q slot
  let g0 := s.first / x.h.perPage
  let g1 := (s.first + s.count - 1) / x.h.perPage
  match (if s.limitVa = 0 then .ok [] else c.readVA act s.limitVa (4 * s.nq)) with
  | .error e => .error e
  | .ok lb =>
    match c.readVA act s.queryVa (s.nq * x.h.rs) with
    | .error e => .error e
    | .ok qb =>
      match c.ctxEntries x.w x.b.table
          ((rangeFrom g0 (g1 + 1 - g0)).map fun g => x.h.keyIndex g s.head) with
      | .error e => .error e
      | .ok es => .ok
          { limits := if s.limitVa = 0 then List.replicate s.nq (2 ^ 32)
                      else (List.range s.nq).map fun i => fieldLE lb (4 * i) 4
            queries := (List.range s.nq).map fun i => (qb.drop (i * x.h.rs)).take x.h.rs
            entries := es }

/-- The first entry of a range that is not a resident page. -/
def notResident (l : List (Nat × CtxEntry)) : Option Nat :=
  (l.find? fun e => match e.2 with | .resident _ => false | _ => true).map Prod.fst

/-- The pages of resident entries. -/
def residentPages (l : List (Nat × CtxEntry)) : List Nat :=
  l.filterMap fun e => match e.2 with | .resident g => some g | _ => none

/-- The partition-physical address of a position's key row. -/
def rowPpa (h : CtxHeader) (s : ScanBlk) (pages : List Nat) (n : Nat) : Nat :=
  pages.getD (n / h.perPage - s.first / h.perPage) 0 + h.rowAt (n % h.perPage) h.rs

/-- R241: positions of the range that at least one query considers. -/
def ScanBlk.considered (s : ScanBlk) (limits : List Nat) : List Nat :=
  let top := limits.foldl max 0
  rangeFrom s.first (min s.count (top - s.first))

/-- R36, R244: the stack that holds a partition-physical address. -/
def Chip.rowStack (c : Chip) (p a : Nat) : Nat := ((c.part p).loc a).elim 0 fun l => l / (48 * gib)

/-- R245: the units of scoring work in an engine clock. -/
def clockUnits : Nat := 4096 * 2752

/-- R223, R245: the units that a row takes, at 4,096 MAC and 2,752 bytes a clock; the port rebuilds the rows of a degraded
group at one sixteenth of its rate. -/
def rowUnits (nq d rs : Nat) (rebuilt : Bool) : Nat :=
  max (nq * d * 2752) (rs * 4096 * (if rebuilt then 16 else 1))

/-- R223: whether the group that holds a partition-physical address is degraded. -/
def Chip.rowRebuilt (c : Chip) (p a : Nat) : Bool :=
  ((c.part p).loc a).elim false fun l =>
    bit (c.fld Fld.CTX_STK_STATUS_DEGRADED (steer (l / (48 * gib)))) (l / (3 * gib) % 16)

/-- R242 to R244: score every considered row for every query that considers it; poison ends the scan. -/
def Chip.scanScores (c : Chip) (p : Nat) (h : CtxHeader) (s : ScanBlk) (r : Scan) :
    List Nat → Except AccErr (List (Nat × List (Nat × DFlags)))
  | [] => .ok []
  | n :: ns =>
    match c.readPP p (rowPpa h s r.pages n) h.rs with
    | .error e => .error e
    | .ok row =>
      match Chip.scanScores c p h s r ns with
      | .error e => .error e
      | .ok t => .ok ((n, r.queries.map fun qr => scoreOf h s qr row) :: t)

/-- R243: the result bytes of every query with their offsets, and the OR of the drain flags. -/
def scanResult (s : ScanBlk) (limits : List Nat) (scores : List (Nat × List (Nat × DFlags))) :
    List (Nat × List Byte) × DFlags :=
  let perQ (i : Nat) : List (Nat × Nat × DFlags) := scores.filterMap fun row =>
    if row.1 < limits.getD i 0 then (row.2[i]?).map fun v => (row.1, v.1, v.2) else none
  ((List.range s.nq).map fun i =>
      (i * s.stride, s.result ((perQ i).map fun v => (v.1, v.2.1))),
    (List.range s.nq).foldl (fun f i => (perQ i).foldl (fun f v => f.or v.2.2) f) {})

/-- Write pieces at offsets from a base, all or none. -/
def Chip.writeParts (w : Actor) (q : Nat) (who : Requester) (base : Nat) :
    List (Nat × List Byte) → Chip → Except (AccErr × Nat) Chip
  | [], c => .ok c
  | (o, bs) :: t, c =>
    match c.writeVA w q who (base + o) bs with
    | .error e => .error e
    | .ok c1 => Chip.writeParts w q who base t c1

/-- The checked scan of a descriptor, or how it ends. (DEDUCED, assumption 46.) -/
def Chip.scanSetup (c : Chip) (q slot : Nat) (e : Entry) : Except Chip (CtxCmd × ScanBlk × ScanRead) :=
  match c.ctxCmd q slot e isJobOp (fun b => (ScanBlk.ofBytes b).ok) with
  | .error c1 => .error c1
  | .ok x =>
    let s := ScanBlk.ofBytes x.blk
    if !(pairFmt x.h.kfmt s.qfmt && decide (s.head < x.h.heads)) then .error (c.finishMalformed q slot)
    else if s.first + s.count > x.h.length then .error (c.finish q slot St.contextPageFault headerDetail)
    else
      match c.scanRead q slot x s with
      | .error err => .error (c.failAt q slot FaultUnit.frontEnd err)
      | .ok r =>
        match notResident r.entries with
        | some i => .error (c.finish q slot St.contextPageFault i)
        | none => .ok (x, s, r)

/-- Whether no row of a scan is left in any stack. -/
def Scan.ended (s : Scan) : Bool := s.left.isEmpty && s.slow.isEmpty

/-- R244: every engine has finished: the result is merged and written whole. -/
def Chip.scanFinish (c : Chip) (q slot : Nat) (e : Entry) (r : Scan) : Chip :=
  let c0 := { c with scans := KMap.erase (q * 64 + slot) c.scans }
  let s := ScanBlk.ofBytes r.blk
  match c0.scanScores (partOf q) (CtxHeader.ofBytes r.hdr) s r (s.considered r.limits) with
  | .error err => c0.failAt q slot FaultUnit.frontEnd (err, 0)
  | .ok sc =>
    let (parts, flags) := scanResult s r.limits sc
    match Chip.writeParts (c0.actor q slot) q (.entry q slot) e.desc.p1.toNat parts c0 with
    | .error err => if err.1.waits then c else c0.failAt q slot FaultUnit.frontEnd err
    | .ok c1 => c1.finishOk q slot flags.word

/-- R233, R244, R245: CTX_SCAN: its first phase; the engines then score in their frame slots. A scan that
has nothing to score finishes at once. -/
def Chip.ctxScan (c : Chip) (q slot : Nat) : Chip :=
  c.run q slot Op.ctxScan fun c e =>
    let p := partOf q
    if (c.part p).det && (c.part p).ctxSlots.isEmpty then c.finish q slot St.illegalOpcode 0
    else
      match c.scanSetup q slot e with
      | .error c1 => c1
      | .ok (x, s, r) =>
        let pages := residentPages r.entries
        let rows (rebuilt : Bool) : KMap Nat := (s.considered r.limits).foldl (fun m n =>
          let a := rowPpa x.h s pages n
          if c.rowRebuilt p a = rebuilt then KMap.modify (c.rowStack p a) 0 (· + 1) m else m) []
        let sc : Scan := { seq := e.beginSeq, blk := x.blk, hdr := x.hdr, limits := r.limits,
                           queries := r.queries, pages := pages, left := rows false, slow := rows true
                           cost := rowUnits s.nq x.h.d x.h.rs false, slowCost := rowUnits s.nq x.h.d x.h.rs true
                           lines := ceilDiv x.h.rs 128, energy := 48 * x.h.rs + 6 * s.nq * x.h.d }
        if sc.ended then c.scanFinish q slot e sc
        else
          { c.setEntry q slot { e with phase := .running } with
            scans := KMap.set (q * 64 + slot) sc c.scans }

def execCtxScan (q : BitVec 10) (slot : BitVec 6) (s : State) : Host.Outcome State Fault Refusal :=
  onChip (fun c => c.ctxScan q.toNat slot.toNat) s

/-! ## The engine frame (R233, R236, R237) -/

/-- R233: the owner of frame slot `k`, or 0. -/
def Chip.frameOwner (c : Chip) (k : Nat) : Nat :=
  let w := if k < 8 then c.rg Reg.CTX_SLOT_OWN_LO else c.rg Reg.CTX_SLOT_OWN_HI
  bits w.toNat (4 * (k % 8) + 3) (4 * (k % 8))

/-- A scan with rows left in a stack. -/
def Scan.pendingIn (s : Scan) (stack : Nat) : Bool := KMap.getD s.left stack 0 != 0 || KMap.getD s.slow stack 0 != 0

/-- The oldest of the scans with rows left in a stack whose queue `f` picks. -/
def Chip.oldestScan (c : Chip) (stack : Nat) (f : Nat → Bool) : Option (Nat × Scan) :=
  c.scans.foldl (fun best ks =>
    if f (ks.1 / 64) && ks.2.pendingIn stack then
      match best with
      | none => some ks
      | some b => if ks.2.seq < b.2.seq then some ks else some b
    else best) none

/-- What a stack has of a scan: the rows left, those of degraded groups, the work earned, and the energy at hand. -/
structure ScanTurn where
  left : Nat
  slow : Nat
  credit : Nat
  bucket : Nat

/-- R236: one engine clock of a scan: the bucket gains, and rows are scored while the rate and the bucket allow.
(DEDUCED, assumption 47.) -/
def scanClock (s : Scan) (cap gain : Nat) (x : ScanTurn) : ScanTurn :=
  let bucket := min cap (x.bucket + gain)
  let credit := min (x.credit + clockUnits) (clockUnits + if x.left = 0 then s.slowCost else s.cost)
  let n := min x.left (min (credit / s.cost) (bucket / s.energy))
  let credit1 := credit - n * s.cost
  let bucket1 := bucket - n * s.energy
  let m := if n = x.left then min x.slow (min (credit1 / s.slowCost) (bucket1 / s.energy)) else 0
  ⟨x.left - n, x.slow - m, credit1 - m * s.slowCost, bucket1 - m * s.energy⟩

/-- `n` engine clocks of a deterministic scan. (DEDUCED, assumption 47.) -/
def scanClocks (s : Scan) (cap gain : Nat) : Nat → ScanTurn → ScanTurn
  | 0, x => x
  | n + 1, x => scanClocks s cap gain n (scanClock s cap gain x)

/-- R236: a partition's bucket capacity and gain per clock. -/
def Part.scanCap (x : Part) : Nat := 6000000 * x.ctxWatts
def Part.scanGain (x : Part) : Nat := 5 * x.ctxWatts

/-- The bucket of a partition in a stack. -/
def Chip.scanBucket (c : Chip) (stack p : Nat) : Nat :=
  (c.part p).scanCap - KMap.getD c.scanDebt (stack * 16 + p) 0

/-- Set a bucket. -/
def Chip.setScanBucket (c : Chip) (stack p v : Nat) : Chip :=
  { c with scanDebt := KMap.put 0 (stack * 16 + p) ((c.part p).scanCap - v) c.scanDebt }

/-- R236: 64 clocks of filling for the deterministic partitions that do not scan in this slot. -/
def Chip.fillScanBuckets (c : Chip) (stack : Nat) (scanning : Option Nat) : Chip :=
  c.detParts.foldl (fun c p =>
    if scanning = some p then c
    else c.setScanBucket stack p (min (c.part p).scanCap (c.scanBucket stack p + 64 * (c.part p).scanGain))) c

/-- A scan of which no row is left anywhere is finished. -/
def Chip.settleScan (c : Chip) (key : Nat) : Chip :=
  match KMap.find key c.scans with
  | none => c
  | some s =>
    if !s.ended then c
    else
      match c.entry (key / 64) (key % 64) with
      | some e => c.scanFinish (key / 64) (key % 64) e s
      | none => c

/-- A scan's progress in a stack, with its energy (R234) and its rebuilt reads (R223). -/
def Chip.advanceScan (c : Chip) (key stack : Nat) (elastic : Bool) (x : ScanTurn) : Chip :=
  match KMap.find key c.scans with
  | none => c
  | some s =>
    let rebuilt := KMap.getD s.slow stack 0 - x.slow
    let energy := (KMap.getD s.left stack 0 - x.left + rebuilt) * s.energy
    let s1 := { s with left := KMap.put 0 stack x.left s.left, slow := KMap.put 0 stack x.slow s.slow
                       credit := KMap.put 0 stack (if x.left + x.slow = 0 then 0 else x.credit) s.credit }
    let y := KMap.getD c.stackPow stack {}
    let y1 := { y with scan := y.scan + energy, elastic := if elastic then y.elastic + energy else y.elastic }
    let c1 := { c with scans := KMap.set key s1 c.scans, stackPow := KMap.put {} stack y1 c.stackPow }
    (if rebuilt = 0 then c1 else c1.count Fld.CTX_ECC_CE_COUNT (steer stack) (rebuilt * s.lines)).settleScan key

/-- What a stack has of a scan. -/
def Scan.turn (s : Scan) (stack bucket : Nat) : ScanTurn :=
  ⟨KMap.getD s.left stack 0, KMap.getD s.slow stack 0, KMap.getD s.credit stack 0, bucket⟩

/-- R233: the owner's slot: 64 clocks of its oldest scan. -/
def Chip.detSlot (c : Chip) (stack p key : Nat) (s : Scan) : Chip :=
  let x := c.part p
  let r := scanClocks s x.scanCap x.scanGain 64 (s.turn stack (c.scanBucket stack p))
  (c.setScanBucket stack p r.bucket).advanceScan key stack false r

/-- R92, R233: the next elastic scan of a stack: the partitions in turn after the last served, and within one its queues
in turn. -/
def Chip.nextElastic (c : Chip) (stack : Nat) : Option (Nat × Scan) :=
  let last := KMap.getD c.lastServed stack 0
  let order := (List.range 16).map fun i => (last + 1 + i) % 16
  order.findSome? fun p =>
    if (c.part p).det then none
    else
      let qs := (c.scans.filter fun ks => ks.2.pendingIn stack).map fun ks => ks.1 / 64
      (nextAfter (KMap.getD c.scanQueue (stack * 16 + p) (64 * p + 63)) (qs.filter fun q => partOf q == p)).bind
        fun q => c.oldestScan stack (· == q)

/-- R22, R408: a stack's share of the memory power in mW: an equal part, and at most 30 W. -/
def Chip.stackShare (c : Chip) : Nat :=
  match c.pwr.alloc[1]? with
  | none => 30000
  | some m => min 30000 (m / c.fld Fld.DEV_CAPS0_STACKS)

/-- R237, R408: the energy, in 1/12 pJ, that elastic scans of a stack may still use in this period: its share less the base
power of 4 W, the deterministic allowances, the external power of the last period where external traffic goes first, and
what they have used. -/
def Chip.elasticLeft (c : Chip) (stack : Nat) : Nat :=
  let y := KMap.getD c.stackPow stack {}
  let ext := if c.flag Fld.CTX_GOV_PRIO then 0 else 120 * y.ext
  (c.stackShare - 4000) * 12000 - (c.detParts.map fun p => (c.part p).scanCap).sum - ext - y.elastic

/-- R237, R419: an elastic scan of a partition was held for power. -/
def Chip.holdScan (c : Chip) (stack p : Nat) : Chip :=
  let y := KMap.getD c.stackPow stack {}
  { c with stackPow := KMap.put {} stack { y with held := y.held ||| 2 ^ p } c.stackPow }

/-- R233, R237: elastic scans use `clocks` engine clocks of a slot, one scan after another. -/
def Chip.elasticSlot (stack : Nat) : Nat → Chip → Chip
  | 0, c =>
    match KMap.find (KMap.getD c.elasticScan stack 0 - 1) c.scans with
    | some s => if s.pendingIn stack then c else { c with elasticScan := KMap.erase stack c.elasticScan }
    | none => { c with elasticScan := KMap.erase stack c.elasticScan }
  | clocks + 1, c =>
    let held := KMap.getD c.elasticScan stack 0
    let cur : Option (Nat × Scan) :=
      match (if held = 0 then none else KMap.find (held - 1) c.scans) with
      | some s => if s.pendingIn stack then some (held - 1, s) else c.nextElastic stack
      | none => c.nextElastic stack
    match cur with
    | none => { c with elasticScan := KMap.erase stack c.elasticScan }
    | some (key, s) =>
      let p := partOf (key / 64)
      let energy := c.elasticLeft stack
      let c1 := { c with lastServed := KMap.set stack p c.lastServed
                         scanQueue := KMap.set (stack * 16 + p) (key / 64) c.scanQueue
                         elasticScan := KMap.set stack (key + 1) c.elasticScan }
      let c2 := if energy < s.energy then c1.holdScan stack p else c1
      Chip.elasticSlot stack clocks (c2.advanceScan key stack true (scanClock s energy 0 (s.turn stack energy)))

/-- R233: ENGINE_FRAME_SLOT: the next slot of a stack's frame serves its owner's scan, or elastic scans for the clocks that
power does not hold (R237). A scan whose result waited for a refresh window is finished first. Errors that ECC corrected in
rows of the stack that scans read are counted (R222; DESIGN CHOICE, assumption 174). -/
def Chip.frameSlotStart (c : Chip) (stack corrected : Nat) : Chip :=
  if stack ≥ c.fld Fld.DEV_CAPS0_STACKS ∨ !c.flag Fld.DEV_CAPS0_CTX_ENGINE then c
  else
    let k := KMap.getD c.frameSlot stack 0
    let owner := c.frameOwner k
    let c0 := c.scans.foldl (fun c ks => c.settleScan ks.1)
      { (if c.scans.any fun ks => ks.2.pendingIn stack
         then c.count Fld.CTX_ECC_CE_COUNT (steer stack) corrected else c) with
        frameSlot := KMap.set stack ((k + 1) % 16) c.frameSlot }
    match (if owner = 0 then none else c0.oldestScan stack (partOf · == owner)) with
    | some (key, s) => (c0.detSlot stack owner key s).fillScanBuckets stack (some owner)
    | none => (Chip.elasticSlot stack 64 c0).fillScanBuckets stack none

def execEngineFrameSlot (stack : BitVec 3) (corrected : Half) (s : State) : Host.Outcome State Fault Refusal :=
  onChip (fun c => c.frameSlotStart stack.toNat corrected.toNat) s

/-! ## CTX_GATHER (R246, R247) -/

/-- R246: a gather block in range, without the header's part. -/
def gatherOk (b : List Byte) : Bool :=
  let w := fieldLE b 0 4
  let n := fieldLE b 4 4
  bits w 15 12 == 0 && bits w 23 22 == 0 && bits w 31 25 == 0 && decide (1 ≤ n) && decide (n ≤ 65536)
    && fieldLE b 8 8 % 8 == 0 && (b.drop 0x14).all (· == 0)

/-- R247: the pages of the selected positions, by entry. -/
def gatherEntries (h : CtxHeader) (head kind : Nat) (idx : List Nat) : List Nat :=
  distinct ((idx.filter (· != 0xFFFFFFFF)).map fun n => h.keyIndex (n / h.perPage) head + 1 - kind)

/-- R247: copy rows in order from row `i`; the rows written, and the failure that stops it.
(DESIGN CHOICE, assumption 13.) -/
def Chip.gatherRows (q slot p : Nat) (h : CtxHeader) (head kind size dst stride : Nat)
    (ents : List (Nat × CtxEntry)) : List Nat → Nat → Chip → Chip × Nat × Option (AccErr × Nat)
  | [], i, c => (c, i, none)
  | n :: ns, i, c =>
    let e := h.keyIndex (n / h.perPage) head + 1 - kind
    let row : Except AccErr (List Byte) :=
      if n = 0xFFFFFFFF then .ok (List.replicate size 0)
      else
        match ents.find? fun x => x.1 == e with
        | some (_, .resident g) => c.readPP p (g + h.rowAt (n % h.perPage) size) size
        | _ => .error .bound
    match row with
    | .error err => (c, i, some (err, 0))
    | .ok bs =>
      match c.writeVA (c.actor q slot) q (.entry q slot) (dst + i * stride) bs with
      | .error err => (c, i, some err)
      | .ok c1 => Chip.gatherRows q slot p h head kind size dst stride ents ns (i + 1) c1

/-- R247: CTX_GATHER. (DEDUCED, assumption 46.) -/
def Chip.ctxGather (c : Chip) (q slot : Nat) : Chip :=
  c.run q slot Op.ctxGather fun c e =>
    match c.ctxCmd q slot e isJobOp gatherOk with
    | .error c1 => c1
    | .ok x =>
      let p := partOf q
      let w := fieldLE x.blk 0 4
      let head := bits w 21 16
      let kind := bits w 24 24
      let size := if kind = 1 then x.h.rs else x.h.vrow
      let str := fieldLE x.blk 0x10 4
      let stride := if str = 0 then size else str
      if head ≥ x.h.heads ∨ stride < size then c.finishMalformed q slot
      else
        match c.readVA (c.actor q slot) (fieldLE x.blk 8 8) (8 * fieldLE x.blk 4 4) with
        | .error err => c.failAt q slot FaultUnit.frontEnd err
        | .ok ib =>
          let idx := (List.range (fieldLE x.blk 4 4)).map fun i => fieldLE ib (8 * i) 4
          if idx.any fun n => decide (n ≥ x.h.length) && n != 0xFFFFFFFF then
            c.finish q slot St.contextPageFault headerDetail
          else
            match c.ctxEntries x.w x.b.table (gatherEntries x.h head kind idx) with
            | .error err => c.failAs q slot FaultUnit.frontEnd x.w.asid err
            | .ok ents =>
              match notResident ents with
              | some i => c.finish q slot St.contextPageFault i
              | none =>
                let (c1, n, err) := Chip.gatherRows q slot p x.h head kind size e.desc.p1.toNat stride ents
                  (idx.drop e.progress) e.progress c
                match err with
                | none => c1.finishOk q slot n
                | some er =>
                  match c1.entry q slot with
                  | some e1 => (c1.setEntry q slot { e1 with progress := n }).failAt q slot
                      FaultUnit.frontEnd er n
                  | none => c1

def execCtxGather (q : BitVec 10) (slot : BitVec 6) (s : State) : Host.Outcome State Fault Refusal :=
  onChip (fun c => c.ctxGather q.toNat slot.toNat) s

/-- R235: a write of CTX_NEXT_DET. -/
def Chip.nextDetWrite (c : Chip) (val : Word) : Chip :=
  let s := wbits val 4 0
  let w := wbits val 12 8
  if !c.flag Fld.DEV_CAPS0_CTX_ENGINE then c
  else if s > c.fld Fld.CTX_FREE_SLOTS ∨ w > c.fld Fld.CTX_FREE_WATTS ∨ (s == 0) != (w == 0) then
    c.regError Reg.CTX_NEXT_DET
  else (c.setFld Fld.CTX_NEXT_DET_SLOTS 0 s).setFld Fld.CTX_NEXT_DET_WATTS 0 w

def execCtxNextDetWrite (val : Word) (s : State) : Host.Outcome State Fault Refusal :=
  onHost (fun c => c.nextDetWrite val) s

end Sys2Proof.Machine
end

