-- ==== Sys2Proof/Machine/Batch.lean ====
section
/-!
DEFINITION. The step scheduler: SEQ_JOIN, SEQ_LEAVE, SEQ_PARK, STEP, the release of slots and the batch
registers (R252 to R269).
-/

namespace Sys2Proof.Machine

/-- R260, R261: a batch descriptor that may be applied: the earlier ones of its queue have completed, and for a STEP so
has every STEP of the partition that was applied. -/
def Chip.batchReady (c : Chip) (q slot : Nat) (e : Entry) : Bool :=
  isBatchOp e.desc.opcode.toNat && e.phase == .ready
  && (c.queue q).entries.all (fun ke =>
    ke.1 == slot || !isBatchOp ke.2.desc.opcode.toNat || decide ((ke.2.index - e.index).toNat < 2 ^ 31))
  && (e.desc.opcode.toNat != Op.step || c.queues.all fun kq =>
    partOf kq.1 != partOf q || kq.2.entries.all fun ke => ke.2.desc.opcode.toNat != Op.step || ke.2.phase == .ready)

/-- R260: when a batch descriptor became ready: it had begun, and what R260 and R261 have it wait for had completed.
(DEDUCED, assumption 179.) -/
def Chip.batchSince (c : Chip) (q : Nat) (e : Entry) : Nat :=
  max (max e.began.toNat (c.queue q).batchDone.toNat)
    (if e.desc.opcode.toNat = Op.step then (c.part (partOf q)).stepDone.toNat else 0)

/-- R260: a batch descriptor's turn: of the partition's ready ones it became ready first, and of those of one time its
queue has the lowest number. (DEDUCED, assumption 179.) -/
def Chip.batchTurn (c : Chip) (q slot : Nat) (e : Entry) : Bool :=
  c.batchReady q slot e && c.queues.all fun kq =>
    partOf kq.1 != partOf q || kq.1 == q || kq.2.entries.all fun ke =>
      !c.batchReady kq.1 ke.1 ke.2 || decide (c.batchSince q e < c.batchSince kq.1 ke.2)
        || (c.batchSince q e == c.batchSince kq.1 ke.2 && decide (q < kq.1))

/-- Execute a batch descriptor in its turn. -/
def Chip.runBatch (c : Chip) (q slot op : Nat) (f : Chip → Entry → Chip) : Chip :=
  c.run q slot op fun c e => if c.batchTurn q slot e then f c e else c

/-! ## SEQ_JOIN (R255, R257, R258) -/

/-- R257: the join block: POS_START, COOKIE, and whether its RsvdZ bits are 0. -/
def joinBlock (b : List Byte) : Word × Dword × Bool :=
  (wordAt b 0, dwordAt b 8, (b.drop 4).take 4 == [0, 0, 0, 0] && (b.drop 0x10).all (· == 0))

/-- The first unusable entry of a table. -/
def unusableEntry (l : List (Nat × CtxEntry)) : Option Nat :=
  (l.find? fun e => e.2 == .unusable).map Prod.fst

/-- R257: the bytes that a table's entries account. -/
def tableBytes (l : List (Nat × CtxEntry)) : Nat := l.foldl (fun n e => n + e.2.bytes) 0

/-- R257, R258: what a new join reads of its table comes to: data must first come from outside, the header is unusable,
the valid entry of this index is, a read fails, or the bytes that the table accounts. -/
inductive JoinTable where
  | ask (e : AccErr × Nat)
  | header
  | entry (i : Nat)
  | fault (e : AccErr × Nat)
  | ok (bytes : Nat)

/-- The entries of a join's table, all read; the reads that fail count last (R258). -/
def joinEntries (rs : List (Nat × Except (AccErr × Nat) CtxEntry)) : JoinTable :=
  let errs := rs.filterMap fun r => match r.2 with | .error e => some e | .ok _ => none
  let es := rs.filterMap fun r => match r.2 with | .ok e => some (r.1, e) | .error _ => none
  match errs.find? (fun e => e.1.waits), unusableEntry es, errs with
  | some e, _, _ => .ask e
  | none, some i, _ => .entry i
  | none, none, e :: _ => .fault e
  | none, none, [] => .ok (tableBytes es)

/-- R257, R258: read a new join's table. -/
def Chip.joinTable (c : Chip) (w : Actor) (b : BSlot) : JoinTable :=
  if b.table = 0 then .ok 0
  else
    match c.ctxHeader w b with
    | .error e => if e.1.waits then .ask e else .fault e
    | .ok none => .header
    | .ok (some (_, h)) => joinEntries ((List.range h.capacity).map fun i => (i, c.ctxEntry w b.table i))

/-- R258: a new join ends with the first failing row of the table, or is applied; `jb` is the failed read of its join
block, which the last row judges. -/
def Chip.joinEnd (c : Chip) (q slot dev : Nat) (b : BSlot) (jb : Option (AccErr × Nat)) : Chip :=
  match c.joinTable (b.actor (partOf q) (q * 64 + slot)) b, jb with
  | .ask e, _ => c.failAt q slot FaultUnit.frontEnd e
  | .header, _ => c.finish q slot St.contextPageFault headerDetail
  | .entry i, _ => c.finish q slot St.contextPageFault i
  | _, some e => c.failAt q slot FaultUnit.frontEnd e
  | .fault e, none => c.failAt q slot FaultUnit.frontEnd e
  | .ok n, none => (c.setBslot dev { b with counted := n }).finishOk q slot

/-- R257, R258: a new join on a FREE slot. -/
def Chip.newJoin (c : Chip) (q slot dev : Nat) (e : Entry) : Chip :=
  let table := e.desc.p1.toNat
  let jva := e.desc.p2.toNat
  let b : BSlot := { state := .joining, tag := e.desc.tag, table := table, asid := c.asidOf q, kernel := indexOf q == 0 }
  let noEngine := table != 0 && !c.flag Fld.DEV_CAPS0_CTX_ENGINE
  if table % 64 ≠ 0 ∨ jva % 8 ≠ 0 then c.finishMalformed q slot
  else
    match (if jva = 0 then .ok (leBytes 64 0) else c.readVA (c.actor q slot) jva 64) with
    | .error err =>
      if err.1.waits then c.failAt q slot FaultUnit.frontEnd err
      else if noEngine then c.finish q slot St.illegalOpcode 0
      else c.joinEnd q slot dev b (some err)
    | .ok jb =>
      let (pos, cookie, ok) := joinBlock jb
      if !ok then c.finishMalformed q slot
      else if noEngine then c.finish q slot St.illegalOpcode 0
      else c.joinEnd q slot dev { b with pos := pos, cookie := cookie } none

/-- R255, R257: SEQ_JOIN. -/
def Chip.seqJoin (c : Chip) (q slot : Nat) : Chip :=
  c.runBatch q slot Op.seqJoin fun c e =>
    let none2 := e.desc.p1 == 0 && e.desc.p2 == 0
    match c.deviceSlot (partOf q) (dbits e.desc.p0 11 0) with
    | none => c.finish q slot St.slotStateInvalid 0
    | some dev =>
      let b := c.bslot dev
      match b.state with
      | .free => c.newJoin q slot dev e
      | .active =>
        if none2 && b.parkPend then (c.setBslot dev { b with parkPend := false }).finishOk q slot
        else c.finish q slot St.slotStateInvalid 0
      | .parked =>
        if none2 then (c.setBslot dev { b with state := .joining, resume := true }).finishOk q slot
        else c.finish q slot St.slotStateInvalid 0
      | _ => c.finish q slot St.slotStateInvalid 0

def execSeqJoin (q : BitVec 10) (slot : BitVec 6) (s : State) : Host.Outcome State Fault Refusal :=
  onChip (fun c => c.seqJoin q.toNat slot.toNat) s

/-! ## SEQ_LEAVE and SEQ_PARK (R255, R259) -/

/-- R255: a slot after a SEQ_LEAVE, or none where it is invalid. -/
def BSlot.leave (b : BSlot) : Option BSlot :=
  match b.state with
  | .free => none
  | .joining => some (if b.resume then { b with state := .leaving, resume := false } else {})
  | .active => some { b with state := .leaving, parkPend := false }
  | .leaving => if b.releasing then none else some b
  | .parked => some { b with state := .leaving }

/-- R255: a slot after a SEQ_PARK, or none where it is invalid. -/
def BSlot.park (b : BSlot) : Option BSlot :=
  match b.state with
  | .active => some { b with parkPend := true }
  | .parked => some b
  | _ => none

/-- R259: SEQ_LEAVE and SEQ_PARK. -/
def Chip.seqChange (c : Chip) (q slot op : Nat) (f : BSlot → Option BSlot) : Chip :=
  c.runBatch q slot op fun c e =>
    match c.deviceSlot (partOf q) (dbits e.desc.p0 11 0) with
    | none => c.finish q slot St.slotStateInvalid 0
    | some dev =>
      match f (c.bslot dev) with
      | none => c.finish q slot St.slotStateInvalid 0
      | some b => (c.setBslot dev b).finishOk q slot

def execSeqLeave (q : BitVec 10) (slot : BitVec 6) (s : State) : Host.Outcome State Fault Refusal :=
  onChip (fun c => c.seqChange q.toNat slot.toNat Op.seqLeave BSlot.leave) s

def execSeqPark (q : BitVec 10) (slot : BitVec 6) (s : State) : Host.Outcome State Fault Refusal :=
  onChip (fun c => c.seqChange q.toNat slot.toNat Op.seqPark BSlot.park) s

/-! ## The step boundary (R255, R261) -/

/-- R255: a slot after a boundary; `seq` is the begin order at the boundary (R262). -/
def BSlot.atBoundary (seq : Nat) (b : BSlot) : BSlot :=
  match b.state with
  | .joining => { b with state := .active, resume := false, counted := 0 }
  | .active => if b.parkPend then { b with state := .parked, parkPend := false } else b
  | .leaving => if b.releasing then b else { b with releasing := true, leaveSeq := seq }
  | _ => b

/-- Whether a slot would be ACTIVE after the boundary. -/
def BSlot.activeAfter (b : BSlot) : Bool := (b.atBoundary 0).state == .active

/-- The slots of a partition's range, by device slot. -/
def Chip.batchSlots (c : Chip) (p : Nat) : List (Nat × BSlot) :=
  let r := c.slotRange p
  c.bslots.filter fun kb => decide (r.1 ≤ kb.1) && decide (kb.1 < r.1 + r.2)

/-- R261: apply the boundary to every slot of the partition at one instant; new joins add their bytes. -/
def Chip.boundary (c : Chip) (p : Nat) : Chip :=
  let c1 := (c.batchSlots p).foldl (fun c kb =>
    if kb.2.state = .joining ∧ kb.2.counted ≠ 0 then c.carafe p kb.2 kb.2.counted else c) c
  let c2 := (c.batchSlots p).foldl (fun c kb => c.setBslot kb.1 (kb.2.atBoundary c.waitCtr)) c1
  c2.setRg64 (Reg.BATCH_STEP_LO + pg p) (Reg.BATCH_STEP_HI + pg p)
    ((c.rg64 (Reg.BATCH_STEP_LO + pg p) (Reg.BATCH_STEP_HI + pg p) + 1) % 2 ^ 64)

/-! ## STEP (R263 to R265) -/

/-- R263: a step block. -/
structure StepBlk where
  reqVa : Nat
  nreq : Nat
  tile : Nat
  manifest : Nat
  template : List Byte
  rsvOk : Bool

/-- R263: the fields of a step block. -/
def StepBlk.ofBytes (b : List Byte) : StepBlk :=
  let v := fieldLE b 8 8
  { reqVa := fieldLE b 0 8, nreq := bits v 12 0, tile := bits v 48 32, manifest := fieldLE b 0x10 8,
    template := b.drop 0x18, rsvOk := bits v 31 13 == 0 && bits v 63 49 == 0 }

/-- R265 check 1. (DEDUCED, assumption 40.) -/
def StepBlk.ok (s : StepBlk) : Bool :=
  s.rsvOk && s.reqVa % 8 == 0 && s.manifest % 64 == 0 && decide (1 ≤ s.nreq) && decide (s.nreq ≤ 4096)
    && decide (s.tile ≤ 65536)

/-- R263: a request: slot and tokens. (DEDUCED, assumption 40.) -/
def stepReq (w : Nat) : Nat × Nat := (bits w 11 0, bits w 48 32)

/-- Strictly ascending slots. -/
def ascending : List (Nat × Nat) → Bool
  | [] => true
  | [_] => true
  | x :: y :: t => decide (x.1 < y.1) && ascending (y :: t)

/-- R265 check 2. -/
def reqsOk (ws : List Nat) (tokens quota : Nat) : Bool :=
  let rs := ws.map stepReq
  ws.all (fun w => bits w 31 12 == 0 && bits w 63 49 == 0)
    && rs.all (fun r => decide (1 ≤ r.2) && decide (r.2 ≤ 65536))
    && ascending rs && rs.foldl (fun n r => n + r.2) 0 == tokens && decide (tokens ≤ quota)

/-- The index of the first element for which a test fails. -/
def firstFailing {α : Type} (f : α → Bool) : List α → Nat → Option Nat
  | [], _ => none
  | x :: xs, i => if f x then firstFailing f xs (i + 1) else some i

/-- R265 check 3: the named slot is below COUNT and would be ACTIVE. -/
def Chip.stepSlotOk (c : Chip) (p : Nat) (r : Nat × Nat) : Bool :=
  match c.deviceSlot p r.1 with
  | some dev => (c.bslot dev).activeAfter
  | none => false

/-- R265 check 4: the position does not overflow. -/
def Chip.stepPosOk (c : Chip) (p : Nat) (r : Nat × Nat) : Bool :=
  match c.deviceSlot p r.1 with
  | some dev => decide ((c.bslot dev).pos.toNat + r.2 ≤ 0xFFFFFFFF)
  | none => false

/-- R264, R265 check 5: the LENGTH of each slot's table; 0 without one. A read that fails is named with its ASID. -/
def Chip.stepLengths (c : Chip) (p rid : Nat) : List BSlot → Except (Nat × AccErr × Nat) (List Nat)
  | [] => .ok []
  | b :: bs =>
    match (if b.table = 0 then .ok (leBytes 4 0) else c.readVA (b.actor p rid) (b.table + 8) 4) with
    | .error e => .error (b.asid, e)
    | .ok l =>
      match Chip.stepLengths c p rid bs with
      | .error e => .error e
      | .ok t => .ok (leNat l :: t)

/-- R265 check 5: the slots that the partition holds with a table. (DEDUCED, assumption 180.) -/
def Chip.tableSlots (c : Chip) (p : Nat) : List BSlot :=
  ((c.batchSlots p).map Prod.snd).filter fun b => b.state != .free && !b.releasing && b.table != 0

/-- The slots that a request list names. -/
def Chip.namedSlots (c : Chip) (p : Nat) (rs : List (Nat × Nat)) : List BSlot :=
  rs.map fun r => (c.deviceSlot p r.1).elim {} c.bslot

/-- R264: the manifest's first 64 bytes. -/
def manifestHead (s : StepBlk) (stepNo tokens : Nat) : List Byte :=
  let t := s.template
  let gx := if s.tile = 0 then (t.drop 0x10).take 4 else leBytes 4 (ceilDiv tokens s.tile)
  t.take 0x10 ++ gx ++ t.drop 0x14 ++ leBytes 8 stepNo ++ leBytes 4 tokens ++ leBytes 4 s.nreq
    ++ leBytes 8 0

/-- R264: one manifest entry. -/
def manifestEntry (r : Nat × Nat) (base : Nat) (b : BSlot) (length : Nat) : List Byte :=
  leBytes 4 r.1 ++ leBytes 4 r.2 ++ leBytes 4 base ++ leBytes 4 b.pos.toNat ++ leBytes 4 length
    ++ leBytes 4 b.tag.toNat ++ leBytes 8 b.cookie.toNat

/-- R264: the entries of a manifest in order. -/
def Chip.manifestEntries (c : Chip) (p : Nat) : List (Nat × Nat) → List Nat → Nat → List (List Byte)
  | r :: rs, l :: ls, base =>
    manifestEntry r base ((c.deviceSlot p r.1).elim {} c.bslot) l :: Chip.manifestEntries c p rs ls (base + r.2)
  | _, _, _ => []

/-- R265: manifest writes in order; a failure stops at its write. -/
def Chip.writeManifest (q slot va : Nat) : List (List Byte) → Chip → Chip × Option (AccErr × Nat)
  | [], c => (c, none)
  | b :: bs, c =>
    match c.writeVA (c.actor q slot) q (.entry q slot) va b with
    | .error e => (c, some e)
    | .ok c1 => Chip.writeManifest q slot (va + b.length) bs c1

/-- R264: each named slot's TOKENS are added to its POS. -/
def Chip.addPositions (c : Chip) (p : Nat) (rs : List (Nat × Nat)) : Chip :=
  rs.foldl (fun c r =>
    match c.deviceSlot p r.1 with
    | some dev => let b := c.bslot dev; c.setBslot dev { b with pos := b.pos + BitVec.ofNat 32 r.2 }
    | none => c) c

/-- R261, R264: a STEP that passed its checks: the boundary, the manifest, the positions.
(DEDUCED, assumption 40.) -/
def Chip.stepForm (c : Chip) (q slot : Nat) (s : StepBlk) (rs : List (Nat × Nat)) (ls : List Nat)
    (tokens : Nat) : Chip :=
  let p := partOf q
  let c1 := c.boundary p
  let no := c1.rg64 (Reg.BATCH_STEP_LO + pg p) (Reg.BATCH_STEP_HI + pg p)
  let (c2, err) := Chip.writeManifest q slot s.manifest
    (manifestHead s no tokens :: c1.manifestEntries p rs ls 0) c1
  match err with
  | some e => if e.1.waits then c.failAt q slot FaultUnit.frontEnd e
              else c2.failAt q slot FaultUnit.frontEnd e
  | none => (c2.addPositions p rs).finishOk q slot (no % 2 ^ 32)

/-- R265: STEP. -/
def Chip.stepCmd (c : Chip) (q slot : Nat) : Chip :=
  c.runBatch q slot Op.step fun c e =>
    let p := partOf q
    let act := c.actor q slot
    match c.readVA act e.desc.p0.toNat 64 with
    | .error err => c.failAt q slot FaultUnit.frontEnd err
    | .ok b =>
      let s := StepBlk.ofBytes b
      if !s.ok then c.finishMalformed q slot
      else
        match c.readVA act s.reqVa (8 * s.nreq) with
        | .error err => c.failAt q slot FaultUnit.frontEnd err
        | .ok rb =>
          let ws := (List.range s.nreq).map fun i => fieldLE rb (8 * i) 8
          let rs := ws.map stepReq
          let tokens := dbits e.desc.p1 16 0
          if !reqsOk ws tokens (c.fld Fld.BATCH_TOKMAX_TOKENS_MAX (8 * p)) then c.finishMalformed q slot
          else
            match firstFailing (c.stepSlotOk p) rs 0, firstFailing (c.stepPosOk p) rs 0 with
            | some i, _ => c.finish q slot St.slotStateInvalid i
            | none, some i => c.finish q slot St.slotStateInvalid i
            | none, none =>
              match c.stepLengths p (q * 64 + slot) (c.tableSlots p),
                c.stepLengths p (q * 64 + slot) (c.namedSlots p rs) with
              | .error err, _ => c.failAs q slot FaultUnit.frontEnd err.1 err.2
              | .ok _, .error err => c.failAs q slot FaultUnit.frontEnd err.1 err.2
              | .ok _, .ok ls => c.stepForm q slot s rs ls tokens

def execStep (q : BitVec 10) (slot : BitVec 6) (s : State) : Host.Outcome State Fault Refusal :=
  onChip (fun c => c.stepCmd q.toNat slot.toNat) s

/-! ## Release (R232, R262) -/

/-- The entries of a slot's table as they stand, ascending; none where the table cannot be read. -/
def Chip.tableOf (c : Chip) (p : Nat) (b : BSlot) : List (Nat × CtxEntry) :=
  let w := b.actor p 0
  match c.ctxHeader w b with
  | .ok (some (_, h)) => (List.range h.capacity).filterMap fun i =>
      match c.ctxEntry w b.table i with
      | .ok e => some (i, e)
      | .error _ => none
  | _ => []

/-- R232, R262: release a slot once its commands from before the boundary have completed. -/
def Chip.slotRelease (c : Chip) (p bs : Nat) : Chip :=
  match c.deviceSlot p bs with
  | none => c
  | some dev =>
    let b := c.bslot dev
    if !(b.state == .leaving && b.releasing) || c.slotBusy p bs b.leaveSeq (fun op => isCtxOp op || isJobOp op)
    then c
    else
      let es := c.tableOf p b
      let c1 := (residentPages es).foldl (fun c g => c.returnPage p g) c
      (c1.carafe p b (-(tableBytes es : Int))).setBslot dev {}

/-- R262: SLOT_RELEASE. -/
def execSlotRelease (p : BitVec 4) (bs : BitVec 12) (s : State) : Host.Outcome State Fault Refusal :=
  onChip (fun c => c.slotRelease p.toNat bs.toNat) s

/-! ## Registers (R268) -/

/-- Whether two ranges of slots share one. -/
def rangesMeet (a b : Nat × Nat) : Bool :=
  decide (a.1 < b.1 + b.2) && decide (b.1 < a.1 + a.2) && decide (0 < a.2) && decide (0 < b.2)

/-- R268: a write of BATCH_RANGE, discarded whole where it overlaps, reaches beyond slot 4,095, or leaves
out a slot that is not FREE. -/
def Chip.batchRange (c : Chip) (p : Nat) (val : Word) : Chip :=
  let new := (wbits val 11 0, wbits val 28 16)
  let lost := (c.batchSlots p).any fun kb => !(decide (new.1 ≤ kb.1) && decide (kb.1 < new.1 + new.2))
    && kb.2.state != .free
  if new.1 + new.2 > 4096 ∨ lost ∨ ((List.range 16).any fun o => o != p && rangesMeet new (c.slotRange o)) then
    c.regError (Reg.BATCH_RANGE + 8 * p)
  else (c.setFld Fld.BATCH_RANGE_BASE (8 * p) new.1).setFld Fld.BATCH_RANGE_COUNT (8 * p) new.2

def execBatchRangeWrite (p : BitVec 4) (val : Word) (s : State) : Host.Outcome State Fault Refusal :=
  onHost (fun c => c.batchRange p.toNat val) s

/-- R268: a write of BATCH_TOKMAX outside 1 to 65,536 leaves it unchanged. -/
def execBatchTokmaxWrite (p : BitVec 4) (val : Word) (s : State) : Host.Outcome State Fault Refusal :=
  onHost (fun c =>
    let n := wbits val 16 0
    if 1 ≤ n ∧ n ≤ 65536 then c.setFld Fld.BATCH_TOKMAX_TOKENS_MAX (8 * p.toNat) n else c) s

end Sys2Proof.Machine
end

