-- ==== Sys2Proof/Machine/Cache.lean ====
section
/-!
DEFINITION. The shared cache: way modes and the directory of its slices (R197 to R209). The directory is
tags and states; memory data stands once, in the chip's memory, because no other unit holds a copy (R197).
-/

namespace Sys2Proof.Machine

/-! ## Ways (R206 to R209, R214) -/

def Chip.way (c : Chip) (w : Nat) : WayMode := KMap.getD c.ways w .cached

/-- The code of a way's mode in SC_WAYMODE. -/
def WayMode.code : WayMode → Nat
  | .cached => 0
  | .scratch _ => 1
  | .off => 2
  | .failed => 2
  | _ => 3

/-- Ways in cached mode, ascending. -/
def Chip.cachedWays (c : Chip) : List Nat := (List.range 16).filter fun w => c.way w == .cached

/-- Whether a way is changing. (DEDUCED, assumption 130.) -/
def Chip.waysBusy (c : Chip) : Bool := (List.range 16).any fun w => (c.way w).code == 3

/-- The owner field of a way (SC_SCROWN). -/
def WayMode.owner : WayMode → Nat
  | .scratch p => p
  | _ => 0

/-- SC_WAYMODE, SC_STATUS and SC_SCROWN follow the ways (R214). -/
def Chip.showWays (c : Chip) : Chip :=
  let sum (f : Nat → Nat) (l : List Nat) : Word := BitVec.ofNat 32 (l.foldl (fun n w => n + f w) 0)
  let c1 := c.setRg Reg.SC_WAYMODE (sum (fun w => (c.way w).code * 4 ^ w) (List.range 16))
  let c2 := c1.setRg Reg.SC_STATUS (BitVec.ofNat 32 (b2n c.waysBusy + 2 * (c.cachedWays.length - 1)))
  (c2.setRg Reg.SC_SCROWN_LO (sum (fun w => (c.way w).owner * 16 ^ w) (List.range 8))).setRg
    Reg.SC_SCROWN_HI (sum (fun w => (c.way w).owner * 16 ^ (w - 8)) (rangeFrom 8 8))

/-- Set a way's mode. -/
def Chip.setWay (c : Chip) (w : Nat) (m : WayMode) : Chip :=
  { c with ways := KMap.put .cached w m c.ways }

/-- R207 step 2: a way cleaned: its dirty lines are written back (memory already holds their data) and
every line of it leaves the directory. (DESIGN CHOICE, assumption 143.) -/
def Chip.cleanWay (c : Chip) (w : Nat) : Chip :=
  { c with slices := c.slices.map fun ks =>
      (ks.1, { ks.2 with lines := ks.2.lines.filter fun e => e.1 % 16 != w }) }

/-- R207 step 3, R208: all bytes of a way zero. (DESIGN CHOICE, assumption 10; DEDUCED, assumption 11.) -/
def Chip.zeroWay (c : Chip) (w : Nat) : Chip :=
  { c with scratch := c.scratch.filter fun e => (e.1 - scratchBase) / (2048 * 128) % 16 != w
           poison := c.poison.filter fun l =>
             !(decide (l ≥ scratchBase / 128) && (l - scratchBase / 128) / 2048 % 16 == w) }

/-- R207: the ways that a CREATE converts: off ways first, then cached ways, highest-numbered first; none
where fewer than 2 cached ways would be left. -/
def Chip.pickWays (c : Chip) (n : Nat) : Option (List Nat) :=
  let down := (List.range 16).reverse
  let off := down.filter fun w => c.way w == .off
  let cached := down.filter fun w => c.way w == .cached
  let taken := (off ++ cached).take n
  if taken.length < n ∨ cached.length < (n - min n off.length) + 2 then none else some taken

/-- R207, R209: ways converted to scratch of partition `p`. (DEDUCED, assumption 11.) -/
def Chip.convertWays (c : Chip) (p : Nat) (ws : List Nat) : Chip :=
  (ws.foldl (fun c w =>
    let c1 := ((c.cleanWay w).zeroWay w).setWay w (.scratch p)
    c1.setRg Reg.SC_WAYOFF (c1.rg Reg.SC_WAYOFF &&& ~~~(BitVec.ofNat 32 (2 ^ w)))) c).showWays

/-- R208: scratch ways returned to cached mode, empty, with their trees reset. (DEDUCED, assumption 11.) -/
def Chip.returnWays (c : Chip) (ws : List Nat) : Chip :=
  let c1 := ws.foldl (fun c w => (c.zeroWay w).setWay w .cached) c
  Chip.showWays { c1 with slices := c1.slices.map fun ks => (ks.1, { ks.2 with plru := ([] : KMap Nat) }) }

/-- R206, R209: a write of SC_WAYOFF. A way that is being powered up is not in cached mode, and does not count
among the 2 that must stay. (DEDUCED, assumption 129.) -/
def Chip.wayOff (c : Chip) (val : Word) : Chip :=
  let isScratch (w : Nat) : Bool := (c.way w).code == 1
  let now := c.rg Reg.SC_WAYOFF
  let want (w : Nat) : Bool := if isScratch w then wbit now w else wbit val w
  let down := (List.range 16).filter fun w => want w && c.way w == .cached
  let up := (List.range 16).filter fun w => !want w && c.way w == .off
  if c.flag Fld.SC_STATUS_BUSY ∨ c.cachedWays.length < down.length + 2 then c.regError Reg.SC_WAYOFF
  else
    let c1 := down.foldl (fun c w => (c.cleanWay w).setWay w .toOff) c
    let c2 := up.foldl (fun c w => c.setWay w .toCached) c1
    (c2.setRg Reg.SC_WAYOFF (BitVec.ofNat 32 ((List.range 16).foldl
      (fun n w => n + (if want w then 2 ^ w else 0)) 0))).showWays

/-- R209: SC_WAYOFF_WRITE. -/
def execScWayoffWrite (val : Word) (s : State) : Host.Outcome State Fault Refusal :=
  onHost (fun c => c.wayOff val) s

/-- R209: every way that was changing reaches its mode, and BUSY clears. -/
def Chip.waysSettle (c : Chip) : Chip :=
  ((List.range 16).foldl (fun c w =>
    match c.way w with
    | .toOff => c.setWay w .off
    | .toCached => c.setWay w .cached
    | .toScratch p => (c.zeroWay w).setWay w (.scratch p)
    | _ => c) c).showWays

/-- R209: WAY_MODE_CHANGE_DONE. -/
def execWayModeChangeDone (s : State) : Host.Outcome State Fault Refusal := onChip Chip.waysSettle s

/-! ## Lines (R198 to R205) -/

/-- R198: set and tag; the home slice is `homeSlice`. -/
def homeSet (l : Nat) : Nat := (l ^^^ (l >>> 11)) % 2048
def homeTag (l : Nat) : Nat := l >>> 11

/-- R198: set and tag together give the line. -/
def lineOf (set tag : Nat) : Nat := tag * 2048 + ((set ^^^ tag) % 2048)

def Chip.slice (c : Chip) (i : Nat) : Slice := KMap.getD c.slices i {}
def Chip.setSlice (c : Chip) (i : Nat) (x : Slice) : Chip := { c with slices := KMap.set i x c.slices }

/-- The way that holds a line, among the ways of the directory. -/
def Slice.lookup (x : Slice) (l : Nat) : Option Nat :=
  (List.range 16).find? fun w =>
    match KMap.find (homeSet l * 16 + w) x.lines with
    | some e => e.tag == homeTag l
    | none => false

/-- R201: the way that a pseudo-LRU tree points at, over the ways for which `ok` holds: at each node the
indicated half, or the other where it holds no such way. Node `n`'s children are 2n and 2n + 1; the leaves
16 to 31 are the ways. -/
def plruPick (tree : Nat) (ok : Nat → Bool) : Nat → Nat → Nat
  | 0, node => node - 16
  | d + 1, node =>
    let half := 2 ^ d
    let lowest := (if bit tree node then 2 * node + 1 else 2 * node)
    let any (n : Nat) : Bool := (List.range half).any fun i => ok (n * half + i - 16)
    plruPick tree ok d (if any lowest then lowest else lowest ^^^ 1)

/-- R201: a use of way `w` turns every node on its path away from it. -/
def plruTouch (tree w : Nat) : Nat :=
  [(1, 3), (2, 2), (3, 1), (4, 0)].foldl (fun t x =>
    let node := (16 + w) >>> (x.2 + 1)
    let right := bit (16 + w) x.2
    let cleared := t - (if bit t node then 2 ^ node else 0)
    if right then cleared else cleared + 2 ^ node) tree

/-- R201: the way a fill of set `set` replaces: the lowest-numbered line marked first for eviction, else
the pseudo-LRU way. -/
def Slice.replaceWay (x : Slice) (cached : List Nat) (set : Nat) : Nat :=
  match cached.find? fun w =>
      match KMap.find (set * 16 + w) x.lines with | some e => e.first | none => false with
  | some w => w
  | none => plruPick (KMap.getD x.plru set 0) (fun w => cached.contains w) 4 1

/-- R201: a line enters the victim cache of 32 lines, first in, first out. -/
def Slice.pushVictim (x : Slice) (v : VLine) : Slice :=
  let q := x.victim ++ [v]
  { x with victim := if q.length > 32 then q.drop 1 else q }

/-- R199: whether a request changes its line. -/
def LineReq.writes (r : LineReq) : Bool := r.kind != .read

/-- Use of a line by a request (R199): dirty marks, eviction marks, the tree. -/
def Slice.use (x : Slice) (l w : Nat) (r : LineReq) : Slice :=
  let key := homeSet l * 16 + w
  match KMap.find key x.lines with
  | none => x
  | some e =>
    let e1 := { e with dirty := e.dirty || (r.writes && (r.mt == 0 || r.mt == 2)), first := e.first || r.mt == 2 }
    { x with lines := KMap.set key e1 x.lines
             plru := KMap.set (homeSet l) (plruTouch (KMap.getD x.plru (homeSet l) 0) w) x.plru }

/-- R201: place a line in a way, the line it replaces going to the victim cache. -/
def Slice.place (x : Slice) (cached : List Nat) (l : Nat) (dirty : Bool) : Slice :=
  let w := x.replaceWay cached (homeSet l)
  let key := homeSet l * 16 + w
  let x1 := match KMap.find key x.lines with
    | some e => x.pushVictim { line := lineOf (homeSet l) e.tag, dirty := e.dirty }
    | none => x
  { x1 with lines := KMap.set key { tag := homeTag l, dirty := dirty, first := false } x1.lines
            plru := KMap.set (homeSet l) (plruTouch (KMap.getD x1.plru (homeSet l) 0) w) x1.plru }

/-- R202: a line recalled from the victim cache changes places with the set's pseudo-LRU way. -/
def Slice.recall (x : Slice) (cached : List Nat) (l : Nat) (v : VLine) : Slice :=
  let w := plruPick (KMap.getD x.plru (homeSet l) 0) (fun w => cached.contains w) 4 1
  let key := homeSet l * 16 + w
  let victims := match KMap.find key x.lines with
    | some e => x.victim.map fun u =>
        if u.line = l then { line := lineOf (homeSet l) e.tag, dirty := e.dirty } else u
    | none => x.victim.filter fun u => u.line != l
  { x with victim := victims
           lines := KMap.set key { tag := homeTag l, dirty := v.dirty, first := false } x.lines }

/-- Whether a miss of this kind fetches its line through a miss register (R199, R200). -/
def LineReq.fetches (r : LineReq) : Bool :=
  match r.kind with
  | .read => true
  | .atomic => true
  | .writePart => r.mt == 0
  | .writeFull => false

/-- R203: the miss register that is fetching a line. -/
def Slice.fetching (x : Slice) (l : Nat) : Option (Nat × MissReg) :=
  x.miss.find? fun kr => kr.2.line == l && !kr.2.discard

/-- R203, R204: a free miss register of the 256. -/
def Slice.freeMiss (x : Slice) : Option Nat :=
  (List.range 256).find? fun r => (KMap.find r x.miss).isNone

/-- R203: a request merges into the register that fetches its line, which holds up to 16 secondary ones; none where it
is full. -/
def Chip.mergeMiss (c : Chip) (i r : Nat) (m : MissReg) (q : LineReq) : Option Chip :=
  if m.secondary.length ≥ 16 then none
  else
    let x := c.slice i
    some ((c.setSlice i { x with miss := KMap.set r { m with secondary := m.secondary ++ [q] } x.miss }).count
      Fld.SC_MERGE_CNT_COUNT (steer i))

/-- R203, R204: a request waits in its slice, after those that wait already. -/
def Chip.waitInSlice (c : Chip) (i l : Nat) (q : LineReq) : Chip :=
  let x := c.slice i
  c.setSlice i { x with queue := x.queue ++ [{ line := l, req := q }] }

/-- R203, R204: a request whose line stands in no way and not in the victim cache: it merges, takes a register, waits,
or needs none. A register is free for it only where `free` says so. -/
def Chip.missRequest (c : Chip) (i l : Nat) (q : LineReq) (free : Bool) : Chip :=
  let x := c.slice i
  match x.fetching l with
  | some (r, m) => (c.mergeMiss i r m q).getD (c.waitInSlice i l q)
  | none =>
    if q.fetches then
      match if free then x.freeMiss else none with
      | some r =>
        (c.setSlice i { x with miss := KMap.set r { line := l, primary := q, secondary := [] } x.miss }).count
          Fld.SC_MISS_CNT_COUNT (steer i)
      | none => c.waitInSlice i l q
    else if q.mt = 0 then c.setSlice i (x.place c.cachedWays l q.writes)
    else c

/-- R199 to R203: a request served by a way, by a recall from the victim cache, or as a miss.
(DESIGN CHOICE, assumption 143.) -/
def Chip.serveLine (c : Chip) (i l : Nat) (q : LineReq) (free : Bool) : Chip :=
  let x := c.slice i
  match x.lookup l with
  | some w => (c.setSlice i (x.use l w q)).count Fld.SC_HIT_CNT_COUNT (steer i)
  | none =>
    match x.victim.find? fun v => v.line == l with
    | some v =>
      let x1 := x.recall c.cachedWays l v
      let x2 := match x1.lookup l with | some w => x1.use l w q | none => x1
      (c.setSlice i x2).count Fld.SC_VHIT_CNT_COUNT (steer i)
    | none => c.missRequest i l q free

/-- R204: some waiting request needs a register, and so goes before any later miss. -/
def Slice.registerWanted (x : Slice) : Bool := x.queue.any fun r => (x.fetching r.line).isNone

/-- R200, R204: a request that reaches its slice: it stays behind one to the same line that waits there, and a miss
behind those that wait for a register. -/
def Chip.lineRequest (c : Chip) (l : Nat) (q : LineReq) : Chip :=
  let i := homeSlice l
  let x := c.slice i
  if x.queue.any fun r => r.line == l then c.waitInSlice i l q else c.serveLine i l q !x.registerWanted

/-- R432: an error in a line that the arrays cannot correct: a clean line is invalidated, so that it is fetched again,
and a dirty one is poisoned. -/
def Chip.lineError (c : Chip) (l : Nat) : Chip :=
  let i := homeSlice l
  let x := c.slice i
  let dirty := match x.lookup l with
    | some w => (KMap.find (homeSet l * 16 + w) x.lines).map (·.dirty)
    | none => (x.victim.find? fun v => v.line == l).map (·.dirty)
  match dirty with
  | none => c
  | some true => c.addPoison l
  | some false => c.setSlice i { x with
      lines := match x.lookup l with | some w => KMap.erase (homeSet l * 16 + w) x.lines | none => x.lines
      victim := x.victim.filter fun v => v.line != l }

/-- R199, R203: a merged request takes effect on a filled line: under MT 0b00 it allocates the line, which later ones
then find in its way. -/
def Chip.fillRequest (c : Chip) (i l : Nat) (q : LineReq) : Chip :=
  let x := c.slice i
  match x.lookup l with
  | some w => c.setSlice i (x.use l w q)
  | none => if q.mt = 0 then c.setSlice i (x.place c.cachedWays l q.writes) else c

/-- R203: a request that found the register full is served from the line once the fill has completed.
(DEDUCED, assumption 143.) -/
def Chip.fillWaiter (c : Chip) (i l : Nat) (q : LineReq) : Chip :=
  let c1 := c.fillRequest i l q
  if ((c.slice i).lookup l).isSome then c1.count Fld.SC_HIT_CNT_COUNT (steer i) else c1

/-- R203, R205: a fill returns: the merged requests take effect on the line in order, then those that wait for it, and
the register is free; where the line was invalidated meanwhile the fill is discarded. (DESIGN CHOICE, assumption 143.) -/
def Chip.missFill (c : Chip) (i r : Nat) : Chip :=
  let x := c.slice i
  match KMap.find r x.miss with
  | none => c
  | some m =>
    let c1 := c.setSlice i { x with miss := KMap.erase r x.miss }
    if m.discard then c1
    else
      let mine := x.queue.filter fun q => q.line == m.line
      let c2 := (m.primary :: m.secondary).foldl (fun c q => c.fillRequest i m.line q) c1
      let c3 := mine.foldl (fun c q => c.fillWaiter i m.line q.req) c2
      c3.setSlice i { c3.slice i with queue := x.queue.filter fun q => q.line != m.line }

/-- R204: the requests that wait for a line merge into the register that begins to fetch it, as far as it has room. -/
def Chip.mergeWaiters (i l : Nat) : List WaitReq → Chip → List WaitReq → Chip
  | [], c, kept => c.setSlice i { c.slice i with queue := kept }
  | r :: rest, c, kept =>
    let merged := if r.line = l then ((c.slice i).fetching l).bind fun x => c.mergeMiss i x.1 x.2 r.req else none
    match merged with
    | some c1 => Chip.mergeWaiters i l rest c1 kept
    | none => Chip.mergeWaiters i l rest c (kept ++ [r])

/-- R204: the first request that waits for a register takes one that is free, and later ones to its line merge into it;
the cycles that they waited are counted. -/
def Chip.missGrant (c : Chip) (i cycles : Nat) : Chip :=
  let x := c.slice i
  match x.queue.findIdx? fun r => (x.fetching r.line).isNone with
  | none => c
  | some n =>
    match x.queue[n]? with
    | none => c
    | some r =>
      if r.req.fetches && (x.lookup r.line).isNone && x.freeMiss.isNone then c
      else
        let rest := x.queue.eraseIdx n
        let c1 := (c.setSlice i { x with queue := rest }).serveLine i r.line r.req true
        (Chip.mergeWaiters i r.line rest c1 []).count Fld.SC_MRFULL_CNT_COUNT (steer i) cycles

/-- R204: MISS_QUEUE_GRANT. -/
def execMissQueueGrant (slice : BitVec 5) (cycles : Word) (s : State) : Host.Outcome State Fault Refusal :=
  onChip (fun c => c.missGrant slice.toNat cycles.toNat) s

/-- R205: every line of the memory that `f` picks leaves sets, victim caches and miss registers without write-back,
and what waits for it in a slice goes with it. -/
def Chip.invalidateLines (c : Chip) (f : Nat → Bool) : Chip :=
  { c with slices := c.slices.map fun ks =>
      let x := ks.2
      (ks.1, { x with
        lines := x.lines.filter fun e => !f (lineOf (e.1 / 16) e.2.tag)
        victim := x.victim.filter fun v => !f v.line
        queue := x.queue.filter fun r => !f r.line
        miss := x.miss.map fun kr => if f kr.2.line then (kr.1, { kr.2 with discard := true }) else kr }) }

end Sys2Proof.Machine
end

