-- ==== Sys2Proof/Machine/Operands.lean ====
section
/-!
DEFINITION. Operand forms of FSI instructions (R129 to R133) and the register files of a wave (R121).
-/

namespace Sys2Proof.Machine

/-- R131: what an operand code names. -/
inductive Operand where
  | s (n : Nat)
  | none
  | exec
  | lane
  | literal
  | v (n : Nat)
  | bad
  deriving DecidableEq, Repr

/-- R131: an operand field decoded. -/
def Operand.of (code : BitVec 9) : Operand :=
  let n := code.toNat
  if n < 0x80 then .s n
  else if n = 0x80 then .none
  else if n = 0x81 then .exec
  else if n = 0x82 then .lane
  else if n = 0x83 then .literal
  else if n < 0x100 then .bad
  else .v (n - 0x100)

/-- R129: bytes of an instruction. (DESIGN CHOICE, assumption 15.) -/
def argBytes (a : Args) : Nat := if a.len = 1 then 12 else 8

/-- R131, R133: an operand that a 32-bit source may be: no illegal code, no register above VREGS − 1, and
LITERAL only in the 96-bit form. -/
def Operand.srcOk (o : Operand) (vregs : Nat) (long : Bool) : Bool :=
  match o with
  | .bad => false
  | .literal => long
  | .v n => decide (n < vregs)
  | _ => true

/-- R131 to R133: `words` consecutive 32-bit registers from the one named, within VREGS (or s127); a pair is named by its
even register. -/
def Operand.regOk (o : Operand) (vregs words : Nat) : Bool :=
  match o with
  | .v n => decide (n + words ≤ vregs) && (words != 2 || n % 2 == 0)
  | .s n => decide (n + words ≤ 128) && (words != 2 || n % 2 == 0)
  | _ => false

/-- R131, R132: a source of the MEM class: registers, or for 32 bits EXEC or LANE. (DEDUCED, assumption 24.) -/
def Operand.memSrc (o : Operand) (vregs words : Nat) : Bool :=
  o.regOk vregs words || (decide (words ≤ 1) && (o == .exec || o == .lane))

def Operand.isV : Operand → Bool
  | .v _ => true
  | _ => false

def Operand.isS : Operand → Bool
  | .s _ => true
  | _ => false

/-- An s-register. -/
def Wave.s (w : Wave) (n : Nat) : Word := KMap.getD w.sregs n 0

/-- A lane of a v-register. -/
def Wave.v (w : Wave) (n lane : Nat) : Word := KMap.getD w.vregs (32 * n + lane) 0

def Wave.setS (w : Wave) (n : Nat) (x : Word) : Wave := { w with sregs := KMap.put 0 n x w.sregs }

def Wave.setV (w : Wave) (n lane : Nat) (x : Word) : Wave :=
  { w with vregs := KMap.put 0 (32 * n + lane) x w.vregs }

/-- R121: whether a lane is active. -/
def Wave.active (w : Wave) (lane : Nat) : Bool := w.exec.getLsbD lane

/-- R121: the active lanes, ascending. -/
def Wave.lanes (w : Wave) : List Nat := (List.range 32).filter w.active

/-- A 32-bit source as a lane sees it; NONE reads as 0. (DESIGN CHOICE, assumption 167.) -/
def Wave.src (w : Wave) (o : Operand) (ext : Word) (lane : Nat) : Word :=
  match o with
  | .s n => w.s n
  | .v n => w.v n lane
  | .exec => w.exec
  | .lane => BitVec.ofNat 32 lane
  | .literal => ext
  | .none => 0
  | .bad => 0

/-- `words` consecutive registers from the one an operand names, as one number; the upper part of one that names no
register is free. (DESIGN CHOICE, assumption 168.) -/
def Wave.srcN (w : Wave) (o : Operand) (ext : Word) (lane : Nat) : Nat → Nat
  | 0 => 0
  | 1 => (w.src o ext lane).toNat
  | n + 1 =>
    match o with
    | .s k => (w.s k).toNat + 2 ^ 32 * Wave.srcN w (.s (k + 1)) ext lane n
    | .v k => (w.v k lane).toNat + 2 ^ 32 * Wave.srcN w (.v (k + 1)) ext lane n
    | o => (w.src o ext lane).toNat + 2 ^ 32 * Config.wideHalf (w.src o ext lane).toNat

/-- Write a number to `words` consecutive registers of a lane (a scalar destination is the wave's). A result whose
destination names LANE is discarded. (DESIGN CHOICE, assumption 167.) -/
def Wave.dstN (w : Wave) (o : Operand) (lane value : Nat) : Nat → Wave
  | 0 => w
  | n + 1 =>
    match o with
    | .s k => Wave.dstN (w.setS k (BitVec.ofNat 32 value)) (.s (k + 1)) lane (value / 2 ^ 32) n
    | .v k => Wave.dstN (w.setV k lane (BitVec.ofNat 32 value)) (.v (k + 1)) lane (value / 2 ^ 32) n
    | .exec => { w with exec := BitVec.ofNat 32 value }
    | _ => w

/-- Write results to a destination lane by lane. -/
def Wave.writeLanes (w : Wave) (o : Operand) (words : Nat) (r : List (Nat × Nat)) : Wave :=
  r.foldl (fun w x => w.dstN o x.1 x.2 words) w

/-- Write per-lane results: to a vector register lane by lane, to a register of the whole wave as a free function of them.
(DESIGN CHOICE, assumption 168.) -/
def Wave.laneResults (w : Wave) (o : Operand) (words : Nat) (r : List (Nat × Nat)) : Wave :=
  if o.isV then w.writeLanes o words r else w.dstN o 0 (Config.gathered r) words

/-- Write a result of the whole wave: to a vector register's lanes as a free function of it.
(DESIGN CHOICE, assumption 168.) -/
def Wave.waveResult (w : Wave) (o : Operand) (v : Nat) : Wave :=
  match o with
  | .v n => w.writeLanes o 1 ((List.range 32).map fun l => (l, Config.spread v l (w.v n l).toNat))
  | o => w.dstN o 0 v 1

/-- The 32-bit registers that `bytes` bytes of data occupy. -/
def wordsOf (bytes : Nat) : Nat := if bytes ≤ 4 then 1 else bytes / 4

/-- R132: the bytes of a SIZE, or none where it is illegal. -/
def sizeBytes : Nat → Option Nat
  | 0 => some 1
  | 1 => some 2
  | 2 => some 4
  | 3 => some 8
  | 4 => some 16
  | _ => none

/-- R132: SCOPE and ORDER of a MEM or SYNC instruction. -/
def argScope (a : Args) : Nat := a.mod.toNat % 8
def argOrder (a : Args) : Nat := a.mod.toNat / 8

/-- R129, R133: the common part of legality: LEN and the RsvdZ byte. (DEDUCED, assumptions 24, 26.) -/
def argOk (a : Args) : Bool := (a.len == 0 || a.len == 1) && a.rsv == 0

/-- The signed byte offset of a MEM instruction's 96-bit form. -/
def argOffset (a : Args) : Int := if a.len = 1 then a.ext.toInt else 0

/-- R132, R133: legality of a MEM instruction of kind `k` (0 LD … 6 LDS). Rules by kind: which operand
kinds stand where, ATOP only for atomics, ORDER by kind. (DEDUCED, assumption 24.) -/
def memLegal (k : Nat) (size atop : BitVec 3) (a : Args) (vregs : Nat) : Bool :=
  let atomic := k == 2 || k == 5
  let load := k == 0 || k == 3 || k == 6
  let store := k == 1 || k == 4
  let crema := k == 3 || k == 4 || k == 5
  let dst := Operand.of a.dst
  let s0 := Operand.of a.src0
  let s1 := Operand.of a.src1
  let s2 := Operand.of a.src2
  match sizeBytes size.toNat with
  | none => false
  | some n =>
    argOk a && argScope a ≤ 4
    && (!atomic || size == 2 || size == 3) && (atomic || atop == 0)
    && (argOrder a != 1 || !store) && (argOrder a != 2 || !load) && (argOrder a != 3 || atomic)
    && (if store then dst == .none
        else if k == 6 then dst.isS && dst.regOk vregs (wordsOf n)
        else dst == .none || (dst.isV && dst.regOk vregs (wordsOf n)))
    && (if crema then s0.memSrc vregs 1 else (k != 6 || s0.isS) && s0.regOk vregs 2)
    && (if load then s1 == .none else s1.memSrc vregs (wordsOf n))
    && (if atomic && atop == 7 then s2.memSrc vregs (wordsOf n) else s2 == .none)

/-- R132, R133: legality of an atomic of kind `k` (2 ATOM, 5 ATOMC); the FP64 add is FP64 arithmetic.
(DEDUCED, assumption 25.) -/
def atomLegal (fp64 : Bool) (k : Nat) (size atop : BitVec 3) (a : Args) (vregs : Nat) : Bool :=
  memLegal k size atop a vregs && (fp64 || !(atop == 1 && size == 3))

/-- R134: legality of a SYNC instruction: 64 bits, all fields NONE or 0 but those its operation uses.
(DEDUCED, assumption 26.) -/
def syncLegal (op : Nat) (a : Args) : Bool :=
  let blank (c : BitVec 9) := c == 0x80 || c == 0
  a.len == 0 && a.rsv == 0 && argScope a ≤ 4 && blank a.src0 && blank a.src1 && blank a.src2
    && (if op == 3 then (Operand.of a.dst).isS && (Operand.of a.dst).regOk 0 2 else blank a.dst)
    && (op != 0 || argOrder a != 0)

end Sys2Proof.Machine
end

