-- ==== Sys2Proof/Machine/Waves.lean ====
section
/-!
DEFINITION. Waves on clusters: launch (R126, R127), the end and the faults of waves (R128), and the shared frame in which every FSI instruction executes.
-/

namespace Sys2Proof.Machine

/-! ## Launch (R126, R127) -/

/-- The core of a wave slot: 16 slots per core. -/
def coreOf (slot : Nat) : Nat := slot / 16

/-- The free wave slots of a core: a workgroup holds its slots until its last wave ends. -/
def Chip.freeSlots (c : Chip) (cl core : Nat) : List Nat :=
  (rangeFrom (core * 16) 16).filter fun s =>
    (c.wave (waveKey cl s)).isNone && (c.cluster cl).wgs.all fun kw => !kw.2.slots.contains s

/-- Waves of a workgroup that stand on a core: wave k on core k mod 4. -/
def wavesOnCore (n core : Nat) : Nat := ((List.range n).filter fun k => k % 4 == core).length

/-- Registers per lane in use on a core. -/
def Cluster.vregsUsed (k : Cluster) (core : Nat) : Nat :=
  k.wgs.foldl (fun n kw => n + kw.2.vregs * (kw.2.slots.filter fun s => coreOf s == core).length) 0

/-- FREE granules, ascending (R193). -/
def Cluster.freeGranules (k : Cluster) : List Nat :=
  (List.range 256).filter fun g => (KMap.find g k.granules).isNone

/-- Accumulator tiles not allocated, ascending. -/
def Cluster.freeTiles (k : Cluster) : List Nat :=
  (List.range 8).filter fun t => (KMap.find t k.tileOwner).isNone

/-- Granules of a workgroup (R193). -/
def Grid.granules (g : Grid) : Nat := ceilDiv g.cremaKib 4

/-- R126, R292: one cluster can hold all of a workgroup now; a tile also needs one of two tile places. -/
def Chip.hasRoom (c : Chip) (cl : Nat) (g : Grid) : Bool :=
  let k := c.cluster cl
  (List.range 4).all (fun core =>
    decide (wavesOnCore g.wpw core ≤ (c.freeSlots cl core).length)
      && decide (k.vregsUsed core + wavesOnCore g.wpw core * g.vregs ≤ 2048))
    && decide (g.granules ≤ k.freeGranules.length) && decide (g.tiles ≤ k.freeTiles.length)
    && (!(g.run.elim false DrawRun.tiles)
      || decide ((c.tileRuns.filter fun r => r.1 / 2 ^ 32 == cl).length < 2))

/-- R126: initial scalar registers of wave `k` of workgroup `i`. -/
def initialS (g : Grid) (i k : Nat) : KMap Word :=
  let xs := [dbits g.argVa 31 0, dbits g.argVa 63 32, i % 2 ^ 32, i / 2 ^ 32,
             i % g.gx, i / g.gx % g.gy, i / g.gx / g.gy, k]
  (xs.zipIdx).foldl (fun m x => KMap.put 0 x.2 (BitVec.ofNat 32 x.1) m) []

/-- R126: initial v0: the thread number. -/
def initialV (k : Nat) : KMap Word :=
  (List.range 32).foldl (fun m l => KMap.put 0 l (BitVec.ofNat 32 (32 * k + l)) m) []

/-- The wave slots of a workgroup's waves, in wave order: the lowest free slots of each wave's core. -/
def Chip.pickSlots (c : Chip) (cl n : Nat) : List Nat :=
  (List.range n).map fun k => (c.freeSlots cl (k % 4)).getD (k / 4) 0

/-- R126: launch workgroup `i` of a descriptor on a cluster. The spec gives no SCC at launch: it starts clear.
(DESIGN CHOICE, assumption 161.) -/
def Chip.launch (c : Chip) (q slot cl i : Nat) (g : Grid) : Chip :=
  let k := c.cluster cl
  let id := k.nextWg
  let slots := c.pickSlots cl g.wpw
  let gs := k.freeGranules.take g.granules
  let ts := k.freeTiles.take g.tiles
  let wg : WGroup := { tag := g.tag, q := q, slot := slot, index := i, granules := gs, tileBase := ts, vregs := g.vregs,
                       waves := g.wpw, live := slots, slots := slots, scratch := c.scratchFor (partOf q) id }
  let k1 := { k with
    nextWg := id + 1, wgs := KMap.set id wg k.wgs
    granules := gs.foldl (fun m x => KMap.set x (Granule.workgroup id) m) k.granules
    tileOwner := ts.foldl (fun m x => KMap.set x id m) k.tileOwner
    tiles := ts.foldl (fun m x => KMap.erase x m) k.tiles }
  let ws := slots.zipIdx.foldl (fun m x =>
    KMap.set (waveKey cl x.1)
      ({ wg := id, k := x.2, pc := g.entryOff, sregs := initialS g i x.2, vregs := initialV x.2 } : Wave) m) c.waves
  { c.setCluster cl k1 with waves := ws }.onchip (partOf q) g.tag wg.onchip

/-- The position of a cluster among a partition's, ascending. -/
def posIn (cl : Nat) (cs : List Nat) : Nat := (cs.takeWhile (· != cl)).length

/-- R127: the next workgroup that a deterministic partition's cluster runs, or none. -/
def Grid.detNext (g : Grid) (cl : Nat) (cs : List Nat) : Option Nat :=
  let i := g.base + (posIn cl cs + cs.length * KMap.getD g.perCluster cl 0)
  if i < g.total then some i else none

/-- R143, R434: the item that a cluster runs again next. (DEDUCED, assumption 81.) -/
def Grid.redoFor (g : Grid) (cl : Nat) : Option (Option Nat × Nat) :=
  g.redo.find? fun r => r.1 == none || r.1 == some cl

/-- R93, R127: a deterministic partition's cluster takes descriptors in the order they began, those that have not
executed yet among them. -/
def Chip.detTurn (c : Chip) (q cl : Nat) (g : Grid) : Bool :=
  let cs := c.clustersOf (partOf q)
  (c.grids.all fun kg => partOf (kg.1 / 64) != partOf q || decide (kg.2.seq ≥ g.seq) || kg.2.fault.isSome
      || ((kg.2.detNext cl cs).isNone && (kg.2.redoFor cl).isNone))
    && c.queues.all fun kq => partOf kq.1 != partOf q || kq.2.entries.all fun ke =>
      !(clusterOp ke.2.desc.opcode && ke.2.phase == .ready) || decide (ke.2.beginSeq ≥ g.seq)

/-- R304: the shape of an item: a vertex batch that runs again in the tile phase needs what it needed before. -/
def Grid.shape (g : Grid) (i : Nat) : Grid :=
  match g.run with
  | some d => if d.tiles && decide (i < d.batches) then
      { g with cremaKib := 0, vregs := d.vregs, run := some { d with tiles := false } } else g
  | none => g

/-- R127, R293: the item to launch on a cluster next, where the launch is the scheduler's.
(DEDUCED, assumption 81.) -/
def Chip.launchChoice (c : Chip) (q cl : Nat) (g : Grid) : Option Nat :=
  let p := partOf q
  let k := c.cluster cl
  if g.fault.isSome ∨ k.part ≠ p ∨ k.st ≠ .inService ∨ k.draining then none
  else
    match g.redoFor cl with
    | some r => if ((c.part p).det || c.mayUse q cl) && c.hasRoom cl (g.shape r.2) then some r.2 else none
    | none =>
      if !c.hasRoom cl g then none
      else if (c.part p).det then (if c.detTurn q cl g then g.detNext cl (c.clustersOf p) else none)
      else if decide (g.next < g.total) && c.mayUse q cl
          && (c.clustersOf p).all (fun o => !(decide (o < cl) && c.mayUse q o && c.hasRoom o g)) then
        some g.next
      else none

/-- The progress of a descriptor after launching item `i` on a cluster. -/
def Grid.launched (g : Grid) (cl i : Nat) : Grid :=
  let ran := (i, cl) :: g.ran
  match g.redoFor cl with
  | some r => { g with redo := g.redo.erase r, ran := ran }
  | none => { g with next := g.next + 1, perCluster := KMap.modify cl 0 (· + 1) g.perCluster, ran := ran }

/-- R426: an item waits for a cluster in decaf that its queue may use. -/
def Chip.needsCluster (c : Chip) (q cl : Nat) (g : Grid) : Bool :=
  let p := partOf q
  g.fault.isNone && (c.cluster cl).part == p
    && ((g.redoFor cl).isSome
      || (if (c.part p).det then (g.detNext cl (c.clustersOf p)).isSome else decide (g.next < g.total)))
    && ((c.part p).det || c.mayUse q cl)

/-- R94 to R98, R126, R127: launch a workgroup on a cluster; a claim that waits for its budget takes what has become
free, and a pre-empted descriptor reads its record first. R426: a launch to a cluster in decaf wakes its group. `start` places the item on the cluster, where it is one of
those that the command launches (`own`). -/
def Chip.launchItem (c0 : Chip) (q slot cl : Nat) (own : Nat → Bool)
    (start : Chip → Grid → Nat → Except Chip (Chip × Grid)) : Chip :=
  let c := c0.claimDisplay q slot
  match c.grid q slot with
  | none => c0
  | some g =>
    match c.launchChoice q cl g with
    | none => if c.needsCluster q cl g then c.wakeCluster cl else c
    | some i =>
      if !own i then c
      else
      match (if g.saved then c.resumeGrid q slot g else .ok c) with
      | .error c1 => c1
      | .ok c1 =>
        match start c1 { g with saved := false } i with
        | .error c2 => c2
        | .ok (c2, g2) => c2.setGrid q slot (g2.launched cl i)

/-! ## Ends and faults of waves (R128) -/

/-- A cluster's crema scrubbed (R196): zero, unpoisoned, nothing allocated. (DESIGN CHOICE, assumption 146.) -/
def Cluster.scrub (k : Cluster) : Cluster :=
  { k with crema := [], cremaPoison := [], granules := [], tiles := [], tileOwner := [] }

/-- R141: a cluster whose last resident is gone has changed partition: its epoch advances and its crema is
scrubbed. -/
def Cluster.handed (k : Cluster) : Cluster := { k.scrub with epoch := k.epoch + 1, draining := false }

/-- R170, R191, R215: the cluster's own registers are cleared when it is handed to another partition. -/
def Chip.clearCluster (c : Chip) (cl : Nat) : Chip :=
  [Reg.CLU_TNS_STICKY, Reg.CLU_QLOSS, Reg.CREMA_ECC, Reg.CREMA_CONFLICT].foldl (fun c r => c.setRg (r + steer cl) 0) c

/-- R141, R170, R191, R215: a cluster with nothing resident goes over to a partition. -/
def Chip.handCluster (c : Chip) (cl p : Nat) (k : Cluster) : Chip :=
  (c.setCluster cl { k.handed with part := p }).clearCluster cl

/-- R128: release a workgroup's resources once no wave of it is left. -/
def Chip.releaseGroup (c : Chip) (cl id : Nat) (wg : WGroup) : Chip :=
  let k := c.cluster cl
  let k1 := { k with
    wgs := KMap.erase id k.wgs
    granules := k.granules.filter fun g => g.2 != Granule.workgroup id && g.2 != Granule.tile id
    tiles := wg.tileBase.foldl (fun m x => KMap.erase x m) k.tiles
    tileOwner := k.tileOwner.filter fun t => t.2 != id }
  let c1 := { (if k1.draining ∧ k1.wgs.isEmpty then c.handCluster cl k1.part k1 else c.setCluster cl k1) with
    tileRuns := KMap.erase (cl * 2 ^ 32 + id) c.tileRuns }.onchip (partOf wg.q) wg.tag (-(wg.onchip : Int))
  match c1.grid wg.q wg.slot with
  | none => c1
  | some g =>
    (c1.setGrid wg.q wg.slot
      (if wg.faulted then g else { g with completed := g.completed + 1 })).settleGrid wg.q wg.slot

/-- R128, R135: a wave ends; it counts as arrived at every later barrier. (DESIGN CHOICE, assumption 27.) -/
def Chip.endWave (c : Chip) (cl w : Nat) : Chip :=
  match c.wave (waveKey cl w) with
  | none => c
  | some wv =>
    let c0 := { c with waves := KMap.erase (waveKey cl w) c.waves }
    let k := c0.cluster cl
    match KMap.find wv.wg k.wgs with
    | none => c0
    | some wg =>
      let wg1 := { wg with live := wg.live.filter (· != w), arrived := wg.arrived.filter (· != w) }
      let c1 := c0.setCluster cl { k with wgs := KMap.set wv.wg wg1 k.wgs }
      if wg1.live.isEmpty then c1.releaseGroup cl wv.wg wg1 else c1

/-- R128: the earlier of two faults of a descriptor. -/
def firstFault (old : Option (Half × Nat × Nat)) (new : Half × Nat × Nat) : Option (Half × Nat × Nat) :=
  match old with
  | some f => some f
  | none => some new

/-- R303: a DRAW launches no further item, and ends once none is resident. -/
def Chip.itemFault (c : Chip) (q slot : Nat) (s : Half) (n : Nat) : Chip :=
  match c.grid q slot with
  | none => c
  | some g => (c.setGrid q slot { g with fault := firstFault g.fault (s, n, 0) }).settleGrid q slot

/-- R128: a wave faults: the fault is captured under its unit, the descriptor launches no more, and the
wave ends. -/
def Chip.waveFaultAs (c : Chip) (unit cl w : Nat) (wv : Wave) (err : AccErr) (va : Nat) : Chip :=
  let k := c.cluster cl
  match KMap.find wv.wg k.wgs with
  | none => c
  | some wg =>
    let tag := match c.entry wg.q wg.slot with | some e => e.desc.tag.toNat | none => 0
    let c1 := c.captureAny (partOf wg.q) err unit (c.asidOf wg.q) va tag
    let c2 := c1.setCluster cl { k with wgs := KMap.set wv.wg { wg with faulted := true } k.wgs }
    let c3 := match c2.grid wg.q wg.slot with
      | some g => c2.setGrid wg.q wg.slot
          { g with fault := firstFault g.fault (err.status, wg.index, wv.k) }
      | none => c2
    c3.endWave cl w

/-- R128: a wave faults at an instruction. -/
def Chip.waveFault (c : Chip) (cl w : Nat) (wv : Wave) (err : AccErr) (va : Nat) : Chip :=
  c.waveFaultAs FaultUnit.cluster cl w wv err va

/-! ## The frame of an instruction -/

/-- What an instruction of a wave sees: where it runs and for whom. -/
structure WCtx where
  cl : Nat
  w : Nat
  wv : Wave
  wg : WGroup
  g : Grid
  act : Actor

/-- The accesses of a wave. -/
def Chip.waveActor (c : Chip) (cl w : Nat) (wg : WGroup) : Actor :=
  { p := partOf wg.q, asid := c.asidOf wg.q, kernel := indexOf wg.q == 0, rid := 2 ^ 20 + waveKey cl w,
    salt := 0 }

/-- R129: an instruction as it stands in the code: its class, its operation and its operand fields. -/
structure Insn where
  cls : Nat
  op : Nat
  args : Args
  deriving DecidableEq, Repr

/-- R129: the fields of an instruction's bytes; the 64-bit form has no word at [95:64]. -/
def Insn.ofBytes (bs : List Byte) : Insn :=
  let n := leNat bs
  { cls := bits n 4 2, op := bits n 14 5,
    args := { len := BitVec.ofNat 2 n, dst := BitVec.ofNat 9 (bits n 23 15), src0 := BitVec.ofNat 9 (bits n 32 24),
              src1 := BitVec.ofNat 9 (bits n 41 33), src2 := BitVec.ofNat 9 (bits n 50 42),
              mod := BitVec.ofNat 5 (bits n 55 51), rsv := BitVec.ofNat 8 (bits n 63 56),
              ext := BitVec.ofNat 32 (n / 2 ^ 64) } }

/-! The classes (R130). -/

namespace Cls
def salu : Nat := 0
def valu : Nat := 1
def sfu : Nat := 2
def tensor : Nat := 3
def mem : Nat := 4
def sync : Nat := 5
def ctrl : Nat := 6
end Cls

/-- R130 to R134, R163: LEN, CLASS, RsvdZ, operand codes, KIND, TOP and SYNC operation of an instruction are legal: it is
one that some command executes. The operations of the other classes are in a catalogue outside the manual. -/
def Insn.defined (i : Insn) : Bool :=
  argOk i.args && decide (i.cls < 7) && (i.cls != Cls.mem || decide (i.op % 16 ≤ 6))
    && (i.cls != Cls.sync || decide (i.op ≤ 3)) && (i.cls != Cls.tensor || decide (i.op % 16 ≤ 5))
    && [i.args.dst, i.args.src0, i.args.src1, i.args.src2].all fun o => Operand.of o != .bad

/-- The instruction is the one that a command names: its class, its operation where the manual codes it, and its operand
fields. (DESIGN CHOICE, assumptions 15, 16.) -/
def Insn.is (i : Insn) (cls : Nat) (op : Option Nat) (a : Args) : Bool :=
  i.cls == cls && (match op with | some o => i.op == o | none => true)
    && i.args == { a with ext := if a.len = 1 then a.ext else 0 }

/-- R132: OP of a MEM instruction. -/
def memOp (kind : Nat) (size atop : BitVec 3) : Nat := kind + 16 * size.toNat + 128 * atop.toNat

/-- R163: OP of a tensor instruction. -/
def tensorOp (top : Nat) (tile opRsv : BitVec 3) : Nat := top + 16 * tile.toNat + 128 * opRsv.toNat

/-- R128, R129: bytes of code at the wave's program counter: within the code, on pages that permit fetches. -/
def Chip.codeBytes (c : Chip) (x : WCtx) (n : Nat) : Except (AccErr × Nat) (List Byte) :=
  let va := x.g.codeVa + x.wv.pc
  if x.wv.pc + n > x.g.codeBytes then .error (.perm, va)
  else c.readPieces { x.act with salt := 32 } .fetch (pieces va n)

/-- R129: the instruction at the wave's program counter; LEN tells its length. -/
def Chip.fetchInsn (c : Chip) (x : WCtx) : Except (AccErr × Nat) Insn :=
  match c.codeBytes x 8 with
  | .error e => .error e
  | .ok bs =>
    let i := Insn.ofBytes bs
    if i.args.len = 1 then
      match c.codeBytes x 12 with
      | .error e => .error e
      | .ok bs => .ok (Insn.ofBytes bs)
    else .ok i

/-- The context of a resident wave that can issue: not waiting at a barrier. (DESIGN CHOICE, assumption 15.) -/
def Chip.wctx (c : Chip) (cl w : Nat) : Option WCtx :=
  match c.wave (waveKey cl w) with
  | none => none
  | some wv =>
    match KMap.find wv.wg (c.cluster cl).wgs with
    | none => none
    | some wg =>
      match c.grid wg.q wg.slot with
      | none => none
      | some g =>
        let g := match wg.code with
          | some (va, n) => { g with codeVa := va, codeBytes := n }
          | none => g
        if wv.atBarrier then none
        else some { cl := cl, w := w, wv := wv, wg := wg, g := g, act := c.waveActor cl w wg }

/-- Whether the wave has requests outstanding outside the device. (DESIGN CHOICE, assumption 27.) -/
def Chip.waveOutstanding (c : Chip) (key : Nat) : Bool :=
  c.reqs.any fun r => match r.who with | .wave k _ => k == key | _ => false

/-- Whether a wave waits for data or a result from outside. -/
def Chip.waveAsking (c : Chip) (key : Nat) : Bool :=
  c.reqs.any fun r => match r.who, r.kind with
    | .wave k _, .read _ => k == key
    | .wave k _, .atomic _ _ _ _ => k == key
    | _, _ => false

/-- An instruction's effect failed: data outside is asked for and the wave stays at the instruction, or
the wave faults (R128). (DESIGN CHOICE, assumption 28.) -/
def Chip.waveFailed (c : Chip) (x : WCtx) (e : AccErr × Nat) : Chip :=
  let key := waveKey x.cl x.w
  match e.1 with
  | .wait host dev a n =>
    if c.waveAsking key then c
    else
      match c.askFor host dev a n x.act.p x.wg.q (.wave key none) e.2 with
      | .ok c1 => c1
      | .error err => c.waveFault x.cl x.w x.wv err e.2
  | .stall => c
  | err => c.waveFault x.cl x.w x.wv err e.2

/-- The wave has executed an instruction of `n` bytes and stands `n` bytes beyond the pc that `wv` holds
(a branch has put its target there, taken relative to the instruction's end).
(DESIGN CHOICE, assumption 15.) -/
def Chip.retire (c : Chip) (x : WCtx) (wv : Wave) (n : Nat) : Chip :=
  { c.setWave (waveKey x.cl x.w) { wv with pc := wv.pc + n } with
    inbuf := KMap.erase x.act.rid c.inbuf }

/-- What an instruction does: it fails, it stays at its place having changed the chip, or it completes. -/
inductive Effect where
  | failed (e : AccErr × Nat)
  | stays (c : Chip)
  | done (c : Chip) (wv : Wave)

/-- R128 to R134: execute the instruction at a wave's program counter: fetch, legality, effect. The command names the
instruction by class, operation and operands; where another stands there the command does nothing, and where none could
the wave faults. A fault leaves nothing of the instruction done. (DESIGN CHOICE, assumptions 14, 15, 16, 150.) -/
def Chip.issueAs (c : Chip) (cl w cls : Nat) (op : Option Nat) (a : Args) (legal : WCtx → Bool)
    (f : Chip → WCtx → Effect) : Chip :=
  match c.wctx cl w with
  | none => c
  | some x =>
    match c.fetchInsn x with
    | .error e => c.waveFailed x e
    | .ok i =>
      if i.defined && !i.is cls op a then c
      else if !(i.defined && legal x) then c.waveFault cl w x.wv .illegal (x.g.codeVa + x.wv.pc)
      else
        match f c x with
        | .failed e => c.waveFailed x e
        | .stays c1 => c1
        | .done c1 wv => (c1.signItem c x.wg.q x.wg.slot x.wg.index).retire x wv (argBytes a)

/-- An instruction that completes in one command. -/
def Chip.issue (c : Chip) (cl w cls : Nat) (op : Option Nat) (a : Args) (legal : WCtx → Bool)
    (f : Chip → WCtx → Except (AccErr × Nat) (Chip × Wave)) : Chip :=
  c.issueAs cl w cls op a legal fun c x =>
    match f c x with
    | .error e => .failed e
    | .ok (c1, wv) => .done c1 wv

/-- R100: PREEMPT_STALLED. -/
def execPreemptStalled (q : BitVec 10) (s : State) : Host.Outcome State Fault Refusal :=
  onChip (fun c => c.postBoth (partOf q.toNat) 0x0011 q.toNat q.toNat) s

/-- R95: DISPLAY_LATE: counted, and posted with the lateness in µs rounded up. -/
def execDisplayLate (p : BitVec 4) (lateNs : Word) (s : State) : Host.Outcome State Fault Refusal :=
  onChip (fun c =>
    match c.displayQueue p.toNat with
    | none => c
    | some q => (c.count Fld.DISP_LATE_CNT_COUNT (pg p.toNat)).postEvent p.toNat 0x0010 q
                  (ceilDiv lateNs.toNat 1000)) s

/-- R91: SLICE_EXPIRY. -/
def execSliceExpiry (p : BitVec 4) (s : State) : Host.Outcome State Fault Refusal :=
  onChip (fun c => c.sliceExpiry p.toNat) s

end Sys2Proof.Machine
end

