-- ==== Sys2Proof/Machine/Launch.lean ====
section
/-!
DEFINITION. DISPATCH (R123 to R125, R381), LAUNCH_AT (R391 to R393), CHECKPOINT and the signatures of
paired partitions (R142, R400, R401, R444).
-/

namespace Sys2Proof.Machine

/-! ## Program headers (R123, R124, R380, R381) -/

/-- R123: the fields of a program header. -/
structure Header where
  magic : Nat
  version : Nat
  codeVa : Nat
  codeBytes : Nat
  entry : Nat
  vregs : Nat
  tiles : Nat
  tfmt : Nat
  fp64 : Bool
  fwId : Nat
  map : Nat
  chips : Nat
  /-- The key is sixteen zero bytes (R381). -/
  unkeyed : Bool
  /-- Every RsvdZ bit is 0. -/
  rsvOk : Bool
  deriving DecidableEq, Repr

/-- R123, R380: a header read from its 256 bytes. -/
def Header.ofBytes (b : List Byte) : Header :=
  let w4 := fieldLE b 0x04 4
  let w18 := fieldLE b 0x18 4
  let w1c := fieldLE b 0x1C 4
  let w2c := fieldLE b 0x2C 4
  { magic := fieldLE b 0 4, version := bits w4 15 0, codeVa := fieldLE b 8 8,
    codeBytes := fieldLE b 0x10 4, entry := fieldLE b 0x14 4,
    vregs := bits w18 8 0, tiles := bits w18 12 9, tfmt := bits w1c 11 0, fp64 := bit w1c 12,
    fwId := fieldLE b 0x28 4, map := bits w2c 6 0, chips := bits w2c 14 8,
    unkeyed := ((b.drop 0x20).take 16).all (· == 0)
    rsvOk := bits w4 31 16 == 0 && bits w18 31 13 == 0 && bits w1c 31 13 == 0 && bits w2c 31 15 == 0
      && (bit w2c 7 == false) && (b.drop 0x30).all (· == 0) }

/-- R124: the header's own checks: magic, version, RsvdZ bits and ranges. -/
def Header.ok (h : Header) : Bool :=
  h.magic == 0x31495346 && h.version == 1 && h.rsvOk && h.codeVa % 256 == 0 && h.codeBytes % 4 == 0
    && decide (h.entry < h.codeBytes) && h.entry % 4 == 0
    && decide (16 ≤ h.vregs) && decide (h.vregs ≤ 256) && h.vregs % 16 == 0 && decide (h.tiles ≤ 8)

/-- R8: a format or unit that the program needs is absent. -/
def Chip.capsOk (c : Chip) (h : Header) : Bool :=
  (h.tfmt &&& c.fld Fld.DEV_CAPS1_TFMT) == h.tfmt && (!h.fp64 || c.flag Fld.DEV_CAPS0_FP64)

/-- R381: the fields of a key that differ, as bits of DET_KEY_WHY. (DEDUCED, assumption 30.) -/
def Chip.keyWhy (c : Chip) (p : Nat) (h : Header) : Nat :=
  if h.unkeyed then 8
  else b2n (h.fwId != c.fld Fld.DET_FW_ID_FW_ID) + 2 * b2n (h.map != c.fld Fld.DET_MAP_CLUSTERS)
    + 4 * b2n (h.chips != c.fld Fld.DET_JOB_CHIPS_M1 (pg p))

/-- R381: compare the key of a header that was read; a difference is a warning of the descriptor.
(DEDUCED, assumption 30.) -/
def Chip.compareKey (c : Chip) (q slot : Nat) (h : Header) : Chip :=
  let p := partOf q
  let why := c.keyWhy p h
  if why = 0 then c
  else
    let c1 := (c.setRg (Reg.DET_KEY_WHY + pg p)
      (c.rg (Reg.DET_KEY_WHY + pg p) ||| BitVec.ofNat 32 why)).count Fld.DET_KEY_CNT_COUNT (pg p)
    match c1.entry q slot with
    | some e => if h.unkeyed then c1 else c1.setEntry q slot { e with warn := St.reproKeyMismatch }
    | none => c1

/-! ## DISPATCH -/

/-- R124, R125: the geometry of a DISPATCH. -/
structure Geometry where
  gx : Nat
  gy : Nat
  gz : Nat
  wpw : Nat
  cremaKib : Nat

/-- R75: the geometry in a DISPATCH's payload. -/
def Geometry.of (d : Desc) : Geometry :=
  { gx := dbits d.p2 31 0, gy := dbits d.p2 63 32, gz := dbits d.p3 31 0, wpw := dbits d.p3 39 32,
    cremaKib := dbits d.p4 15 0 }

/-- R124, R125: a workgroup can fit on a cluster, and the grid has less than 2^48 workgroups. -/
def Geometry.ok (g : Geometry) (h : Header) : Bool :=
  decide (ceilDiv g.wpw 4 * h.vregs ≤ 2048) && decide (g.cremaKib ≤ 1024)
    && decide (g.gx * g.gy * g.gz < 2 ^ 48)

/-- R126, R127: the launch state of a DISPATCH that passed its checks. -/
def gridOf (d : Desc) (h : Header) (g : Geometry) (index : Word) (seq : Nat) : Grid :=
  { index := index, tag := d.tag.toNat, codeVa := h.codeVa, codeBytes := h.codeBytes, entryOff := h.entry, vregs := h.vregs, tiles := h.tiles,
    cremaKib := g.cremaKib, wpw := g.wpw, argVa := d.p1, gx := g.gx, gy := g.gy,
    total := g.gx * g.gy * g.gz, seq := seq }

/-- R123 to R127, R381: DISPATCH. (DEDUCED, assumption 30.) -/
def Chip.dispatch (c : Chip) (q slot : Nat) : Chip :=
  c.run q slot Op.dispatch fun c e =>
    match c.readVA (c.actor q slot) e.desc.p0.toNat 256 with
    | .error err => c.failAt q slot FaultUnit.frontEnd err
    | .ok b =>
      let h := Header.ofBytes b
      let g := Geometry.of e.desc
      let c1 := c.compareKey q slot h
      if !(h.ok && g.ok h) then c1.finishMalformed q slot
      else if !c1.capsOk h then c1.finish q slot St.illegalOpcode 0
      else if g.gx * g.gy * g.gz = 0 then c1.finishOk q slot
      else
        match c1.entry q slot with
        | none => c1
        | some e1 =>
          let c2 := (c1.setEntry q slot { e1 with phase := .running }).setGrid q slot
            (gridOf e.desc h g e.index e.beginSeq)
          c2

def execDispatch (q : BitVec 10) (slot : BitVec 6) (s : State) : Host.Outcome State Fault Refusal :=
  onChip (fun c => c.dispatch q.toNat slot.toNat) s

/-! ## LAUNCH_AT (R391 to R393) -/

/-- R392: the job is not run: later descriptors made available by now are retired as late. -/
def Chip.launchLate (c : Chip) (q slot : Nat) : Chip :=
  let x := c.queue q
  (c.setQueue q { x with lateLeft := (x.tail - x.next).toNat }).finish q slot St.launchLate 0

/-- R391: LAUNCH_AT. (DEDUCED, assumption 31.) -/
def Chip.launchAt (c : Chip) (q slot : Nat) : Chip :=
  c.run q slot Op.launchAt fun c e =>
    let n := e.desc.p0
    if n.toNat < e.decodedAt.toNat + 50000 ∨ n.toNat < e.began.toNat then c.launchLate q slot
    else c.setEntry q slot { e with phase := .waiting, watch := .launch n }

def execLaunchAt (q : BitVec 10) (slot : BitVec 6) (s : State) : Host.Outcome State Fault Refusal :=
  onChip (fun c => c.launchAt q.toNat slot.toNat) s

/-- R391, R394: the release of a LAUNCH_AT; in a deterministic partition it begins a span.
(DEDUCED, assumption 31.) -/
def Chip.launchRelease (c : Chip) (q slot : Nat) : Chip :=
  match c.entry q slot with
  | none => c
  | some e =>
    match e.phase, e.watch with
    | .waiting, .launch n =>
      if c.gtc.toNat < n.toNat then c
      else
        let p := partOf q
        let x := c.part p
        let c1 := c.setRg64 (Reg.DET_LAST_LAUNCH_LO + pg p) (Reg.DET_LAST_LAUNCH_HI + pg p) n.toNat
        let c2 := if x.det then c1.setPart p { x with span := true, spanBits := 0, spanPosted := false } else c1
        -- R437: a span of a partition that holds a degraded group is broken.
        let c3 := if c.flag Fld.RAS_PSTATUS_DEGRADED (pg p) then c2.setFld Fld.RAS_PSTATUS_SPAN_BROKEN (pg p) 1 else c2
        (c3.sourceSignal 5 p).finishOk q slot
    | _, _ => c

def execLaunchRelease (q : BitVec 10) (slot : BitVec 6) (s : State) : Host.Outcome State Fault Refusal :=
  onChip (fun c => c.launchRelease q.toNat slot.toNat) s

/-- R389, R392: a forward step of the counter past a waiting LAUNCH_AT completes it as late. -/
def Chip.stepCounter (c0 : Chip) (t : Dword) : Chip :=
  let c1 := { c0 with gtc := t }
  c1.queues.foldl (fun c kq => kq.2.entries.foldl (fun c ke =>
    match ke.2.phase, ke.2.watch with
    | .waiting, .launch n => if c0.gtc.toNat < n.toNat ∧ n.toNat < t.toNat then c.launchLate kq.1 ke.1 else c
    | _, _ => c) c) c1

/-! ## CHECKPOINT (R142, R401, R444, R445) -/

/-- R142: every earlier descriptor of the queue has completed. -/
def Queue.earlierDone (x : Queue) (slot : Nat) (e : Entry) : Bool :=
  x.entries.all fun ke => ke.1 == slot || decide ((ke.2.index - e.index).toNat < 2 ^ 31)

/-- R142: a descriptor index comes after another in its queue. -/
def after (i j : Word) : Bool := i != j && decide ((i - j).toNat < 2 ^ 31)

/-- R142, R143: work of the queue's descriptors before index `i` is still to be run again. -/
def Chip.errorPending (c : Chip) (q : Nat) (i : Word) : Bool :=
  (KMap.getD c.hist q []).any (fun g => after i g.index && !g.redo.isEmpty)
    || c.grids.any fun kg => kg.1 / 64 == q && after i kg.2.index && (c.entry q (kg.1 % 64)).isNone

/-- R142: the conditions of a commit point. -/
def Chip.mayCommit (c : Chip) (q slot : Nat) (e : Entry) : Bool :=
  (c.queue q).earlierDone slot e && !c.errorPending q e.index

/-- A commit point ends what a descriptor in progress has added to the signature before it. -/
def Grid.committed (g : Grid) : Grid := { g with sigBy := [] }

/-- R142: the queue commits and the CHECKPOINT completes with its identifier. What descriptors behind it have done
already is remembered on (R143). -/
def Chip.commit (c : Chip) (q slot : Nat) (e : Entry) : Chip :=
  let x := c.queue q
  ({ c.setQueue q { x with commit := e.index + 1 } with
    sigs := KMap.erase q c.sigs
    hist := KMap.modify q [] (·.filter fun g => after g.index e.index) c.hist
    grids := KMap.mapWhere (fun k => k / 64 == q) Grid.committed c.grids }).finishOk q slot
    (dbits e.desc.p0 31 0)

/-- R444: the pair disagrees: 1 by signature, 2 by commit identifier. (DEDUCED, assumption 34.) -/
def Chip.pairMismatch (c : Chip) (q slot kind : Nat) (e : Entry) : Chip :=
  let p := partOf q
  let id := dbits e.desc.p0 31 0
  let c1 := { c with sigs := KMap.erase q c.sigs }.finish q slot St.poisoned kind
  let c2 := (c1.postBoth p 0x0062 (p * 64) id).raiseOwner 1
  if c.flag Fld.RAS_PAIR_CFG_FAULT_ON_MISMATCH (pg p) then c2.latchCause Cause.pair else c2

/-- R401: the partner's message is released: compared with what was sent. A message released after the
CHECKPOINT could otherwise have completed passes its reasons on.
(DEDUCED, assumption 34; DESIGN CHOICE, assumption 35.) -/
def Chip.comparePair (c : Chip) (q slot : Nat) (e : Entry) (sent : PairSig) (m : SigMsg) : Chip :=
  let c0 := { c with sigIn := KMap.erase q c.sigIn }
  if m.commit.toNat ≠ dbits e.desc.p0 31 0 then c0.pairMismatch q slot 2 e
  else if m.sig ≠ sent then c0.pairMismatch q slot 1 e
  else
    let p := partOf q
    let late := decide (e.decodedAt.toNat < m.release.toNat) && m.reasons != 0
    let c1 := if late then
        c0.setFld Fld.DET_PERTURB_REASON (pg p) (c.fld Fld.DET_PERTURB_REASON (pg p) ||| m.reasons) else c0
    let e1 := { e with pert := e.pert || late }
    (c1.setEntry q slot e1).commit q slot e1

/-- R142, R401: compare where the CHECKPOINT of the queue waits, its partner's message is released and nothing is to be
run again.
(DESIGN CHOICE, assumption 35.) -/
def Chip.settlePair (c : Chip) (q : Nat) : Chip :=
  match KMap.find q c.sigIn with
  | none => c
  | some m =>
    if c.gtc.toNat < m.release.toNat then c
    else
      (c.queue q).entries.foldl (fun c ke =>
        match ke.2.phase, ke.2.watch with
        | .waiting, .partner sent => if c.errorPending q ke.2.index then c else c.comparePair q ke.1 ke.2 sent m
        | _, _ => c) c

/-- R401: the data slots of a signature message: the signature; then the identifier, the queue and the
sender's reason bits; then zeros. -/
def sigSlots (q : Nat) (commit : Nat) (s : PairSig) (reasons : Nat) : List Nat :=
  [s.s0.toNat + 2 ^ 64 * s.s1.toNat,
   s.cnt.toNat + 2 ^ 64 * (commit + 2 ^ 32 * indexOf q + 2 ^ 40 * reasons), 0]

/-- R396, R401, R445: send the queue's signature to the queue of the same index in the partner. -/
def Chip.sendSignature (c : Chip) (q : Nat) (commit : Nat) (s : PairSig) : Except Half Chip :=
  let x := c.part (partOf q)
  let reasons := c.fld Fld.DET_PERTURB_REASON (pg (partOf q))
  if x.pairDev = c.fld Fld.AXL_DEVICE_DEVNUM then
    let y := c.part x.pairPart
    if !(y.state = .opened ∨ y.state = .ready) then .error St.remotePoisoned
    else
      let m : SigMsg := { sig := s, commit := BitVec.ofNat 32 commit, reasons := reasons, release := c.gtc + 64 }
      .ok { c with sigIn := KMap.set (x.pairPart * 64 + indexOf q) m c.sigIn }
  else
    match c.ownRoutes (partOf q) x.pairDev with
    | [] => .error St.linkUnreachable
    | port :: _ => .ok (c.sendMsg port
        { vc := Vc.det, op := MOp.coll, srcDev := c.fld Fld.AXL_DEVICE_DEVNUM, srcPart := partOf q,
          dstDev := x.pairDev, dstPart := x.pairPart, tag := Config.collTag 0xFFFFFFFF 0 % 2 ^ 13
          data := sigSlots q commit s reasons })

/-- R142, R401: CHECKPOINT. -/
def Chip.checkpoint (c : Chip) (q slot : Nat) : Chip :=
  c.run q slot Op.checkpoint fun c e =>
    if !c.mayCommit q slot e then c
    else if !(c.part (partOf q)).pairEn then c.commit q slot e
    else
      let s := KMap.getD c.sigs q {}
      match c.sendSignature q (dbits e.desc.p0 31 0) s with
      | .error st => c.finish q slot st 0
      | .ok c1 =>
        (c1.setEntry q slot { e with phase := .waiting, watch := .partner s, decodedAt := c.gtc }).settlePair q

def execCheckpoint (q : BitVec 10) (slot : BitVec 6) (s : State) : Host.Outcome State Fault Refusal :=
  onChip (fun c => c.checkpoint q.toNat slot.toNat) s

/-- R396: the delay from a sender's count to the release in this device, by the kind of the hop. -/
def Chip.hopDelay (c : Chip) (port : Nat) : Nat :=
  if c.fld Fld.AXL_PORT_CTL_MODE (port * 0x40) = 1 then 350 else 180

/-- R401: SIGNATURE_MESSAGE: a partner's message arrives on a port for queue `q` (or, with none, a held
message reaches its release); the waiting CHECKPOINT compares it. A message for a partition that is not
paired is discarded (R445). -/
def execSignatureMessage (q : BitVec 10) (m : Option SigArgs) (s : State) :
    Host.Outcome State Fault Refusal :=
  onChip (fun c =>
    let q := q.toNat
    match m with
    | none => c.settlePair q
    | some a =>
      if !(c.part (partOf q)).pairEn then c
      else
        let m : SigMsg := { sig := { s0 := a.s0, s1 := a.s1, cnt := a.cnt }, commit := a.commit,
                            reasons := a.reasons.toNat
                            release := a.count + BitVec.ofNat 64 (c.hopDelay a.port.toNat) }
        { c.dropMsg a.port.toNat Vc.det (·.op == MOp.coll) with sigIn := KMap.set q m c.sigIn }.settlePair q) s

/-- R445: PARTNER_RESETTING: the partner of a pair, or a rank of a collective, is resetting: waiting
CHECKPOINTs complete with REMOTE_POISONED. -/
def Chip.partnerLost (c : Chip) (dev part : Nat) : Chip :=
  c.queues.foldl (fun c kq =>
    let x := c.part (partOf kq.1)
    if x.pairEn ∧ x.pairDev = dev ∧ x.pairPart = part then
      kq.2.entries.foldl (fun c ke =>
        match ke.2.phase, ke.2.watch with
        | .waiting, .partner _ => { c with sigIn := KMap.erase kq.1 c.sigIn }.finish kq.1 ke.1 St.remotePoisoned 0
        | _, _ => c) c
    else c) c

end Sys2Proof.Machine
end

