-- ==== Sys2Proof/Machine/GlobalTime.lean ====
section
/-!
DEFINITION. The unit map (R382, R383) and the global time counter: the time layer, its steps and its
captures (R384 to R390, R402, R403).
-/

namespace Sys2Proof.Machine

/-! ## The unit map -/

/-- R383: the map in force is the lower of the forced value and NATURAL. -/
def Chip.applyMap (c : Chip) (forced : Nat) : Chip :=
  let nat := c.fld Fld.DET_MAP_NATURAL
  (c.setFld Fld.DET_MAP_CLUSTERS 0 (min forced nat)).setFld Fld.DEV_CAPS1_MAP_FORCED 0
    (b2n (decide (forced < nat)))

/-- Partitions 1 to 15 are all ABSENT. -/
def Chip.aloneWithZero (c : Chip) : Bool := (rangeFrom 1 15).all fun p => !c.exists? p

/-- R383: MAP_FORCE. A value below 8, or a write while another partition exists, is discarded whole. Partition 0's work on
clusters that leave the map ends there at its wave boundaries, and what then runs on none is saved (R96, R97). -/
def Chip.mapForce (c : Chip) (val : Word) : Chip :=
  let v := wbits val 6 0
  if v < 8 ∨ !c.aloneWithZero then c.regError Reg.DET_MAP_FORCE
  else (((c.setFld Fld.DET_MAP_FORCE_CLUSTERS 0 v).applyMap v).settlePart 0).showPart 0

def execMapForce (val : Word) (s : State) : Host.Outcome State Fault Refusal :=
  onHost (fun c => c.mapForce val) s

/-! ## The time layer -/

/-! The states of R387 as GTC_CTL.STATE codes them. -/
namespace TimeState
def unlocked : Nat := 0
def acquiring : Nat := 1
def locked : Nat := 2
def holdover : Nat := 3
def master : Nat := 4
end TimeState

/-- GTC_CTL.STATE. -/
def Chip.timeState (c : Chip) : Nat := c.fld Fld.GTC_CTL_STATE

/-- R388: the HOPS value to advertise in a state, from the source's own value. -/
def advertised (state srcHops : Nat) : Nat :=
  if state = TimeState.master then 0
  else if state = TimeState.unlocked ∨ state = TimeState.holdover ∨ srcHops + 1 > 62 then 63
  else srcHops + 1

/-- R387, R402: enter a state; a change posts GTC_STATE and raises vector 5. -/
def Chip.setTimeState (c : Chip) (st srcHops : Nat) : Chip :=
  let c1 := (c.setFld Fld.GTC_CTL_HOPS 0 (advertised st srcHops)).setFld Fld.AXL_TSWAP_CTL_MASTER 0
    (b2n (st = TimeState.master))
  if c.timeState = st then c1
  else
    ((c1.setFld Fld.GTC_CTL_STATE 0 st).postEvent 0 0x0041 0
      (st + 2 ^ 8 * c.fld Fld.GTC_CTL_SRC_PORT)).raiseOwner 5

/-- R388: the order of candidates: lower serial of the master, then fewer hops, then the lower port.
(DEDUCED, assumption 49.) -/
def betterSource (a b : Nat × TimeIn) : Bool :=
  if a.2.serial ≠ b.2.serial then decide (a.2.serial.toNat < b.2.serial.toNat)
  else if a.2.hops ≠ b.2.hops then decide (a.2.hops < b.2.hops)
  else decide (a.1 < b.1)

/-- The best of the candidate sources. (DEDUCED, assumption 49.) -/
def bestSource : List (Nat × TimeIn) → Option (Nat × TimeIn)
  | [] => none
  | x :: xs =>
    match bestSource xs with
    | none => some x
    | some y => if betterSource x y then some x else some y

/-- R388: candidate sources: UP ports whose partners advertise less than 63 hops. -/
def Chip.timeSources (c : Chip) : List (Nat × TimeIn) :=
  c.timeIn.filter fun kt => c.portUp kt.1 && decide (kt.2.hops < 63)

/-- A 64-bit number of 1/256 ns as a signed one. -/
def time64 (n : Int) : Int := signed 64 (wrapN 64 n)

/-- R387: theta, in units of 1/256 ns. -/
def thetaOf (f : TimeFlit) : Int :=
  (time64 ((f.arrival.toNat : Int) - f.tx.toNat)
    - time64 ((f.echoRx.toNat : Int) - f.echoTx.toNat)) / 2

/-- R387: the delay, in units of 1/256 ns. -/
def delayOf (f : TimeFlit) : Int :=
  (time64 ((f.arrival.toNat : Int) - f.tx.toNat)
    + time64 ((f.echoRx.toNat : Int) - f.echoTx.toNat)) / 2

/-- R403: THETA saturates at 16 signed bits. -/
def satTheta (t : Int) : Nat := wrapN 16 (max (-32768) (min 32767 t))

/-- R387: the new RATE is the device's, within 100 ppm. (DESIGN CHOICE, assumption 48.) -/
def Chip.slew (c : Chip) : Chip :=
  c.setFld Fld.GTC_OFFSET_RATE 0
    (wrapN 16 ((Config.freeNat c.ctr 1 % 20001 : Nat) - 10000 : Int))

/-- R387: a flit from the source in a state other than MASTER: the step, the slew and the states. -/
def Chip.disciplined (c : Chip) (port : Nat) (f : TimeFlit) : Chip :=
  let th := thetaOf f
  let h := f.hops.toNat
  let src := c.setFld Fld.GTC_CTL_SRC_PORT 0 port
  let st := c.timeState
  if st = TimeState.unlocked then
    let dest := BitVec.ofNat 64 (wrapN 64 (f.count.toNat + delayOf f / 256))
    { (src.stepCounter dest) with lockRun := 0 }.setTimeState TimeState.acquiring h
  else
    let c1 := (src.setFld Fld.GTC_OFFSET_THETA 0 (satTheta th)).slew
    if st = TimeState.holdover then { c1 with lockRun := 0 }.setTimeState TimeState.acquiring h
    else if st = TimeState.acquiring then
      let run := if th.natAbs ≤ 128 then c.lockRun + 1 else 0
      { c1 with lockRun := run }.setTimeState
        (if run ≥ 4 then TimeState.locked else TimeState.acquiring) h
    else if th.natAbs > 256 then { c1 with lockRun := 0 }.setTimeState TimeState.acquiring h
    else c1.setTimeState TimeState.locked h

/-- R388: another master is announced: GTC_CONFLICT with its device number, and vector 5. -/
def Chip.timeConflict (c : Chip) (dev : Nat) : Chip := (c.postEvent 0 0x0042 0 dev).raiseOwner 5

/-- The serial of the master that the follower's source port announces. -/
def Chip.sourceSerial (c : Chip) : Option Dword :=
  (c.timeSources.find? fun kt => kt.1 == c.fld Fld.GTC_CTL_SRC_PORT).map fun kt => kt.2.serial

/-- R388: the other masters that a flit on a port brings to light: the flit's own, or, where the source port now
announces another master, those of the other ports. (DEDUCED, assumption 49.) -/
def Chip.timeClashes (c0 c : Chip) (port : Nat) : List Nat :=
  match c.sourceSerial with
  | none => []
  | some s =>
    if port = c.fld Fld.GTC_CTL_SRC_PORT ∧ c0.sourceSerial = some s then []
    else
      (c.timeSources.filter fun kt => kt.2.serial != s && (port == c.fld Fld.GTC_CTL_SRC_PORT || kt.1 == port)).map
        fun kt => kt.2.masterDev

/-- R387: a follower in LOCKED for which no source remains. -/
def Chip.sourcesGone (c : Chip) : Chip :=
  if c.timeState = TimeState.locked ∧ c.timeSources = [] then c.setTimeState TimeState.holdover 63 else c

/-- R387, R388: TIME_FLIT_RECEIVE. -/
def Chip.timeReceive (own : Dword) (c : Chip) (port : Nat) (f : TimeFlit) : Chip :=
  if !c.portUp port then c
  else
    let t : TimeIn := { tx := f.tx, rx := f.arrival, hops := f.hops.toNat, masterDev := f.masterDev.toNat,
                        serial := f.masterSerial }
    let c1 := { c with timeIn := KMap.set port t c.timeIn }
    if c.timeState = TimeState.master then
      if f.hops.toNat < 63 ∧ f.masterSerial ≠ own then c1.timeConflict f.masterDev.toNat else c1
    else
      let c2 := (c.timeClashes c1 port).foldl Chip.timeConflict c1
      match bestSource c2.timeSources with
      | some (src, _) => if src = port then c2.disciplined port f else c2
      | none => c2.sourcesGone

/-- R352, R355: a TIME flit's header, as any flit's. -/
def Chip.timeHeard (c : Chip) (port : Nat) (f : TimeFlit) : Chip :=
  if !c.portUp port then c
  else
    let c1 := c.countRx port
    c1.setLport port ((c1.lport port).heard
      { kind := 3, ack := f.ack.toNat, cvc := f.cvc.toNat, credits := f.credits.toNat })

def execTimeFlitReceive (port : BitVec 3) (f : TimeFlit) (s : State) : Host.Outcome State Fault Refusal :=
  onChip (fun c => Chip.timeReceive s.nv.serial (c.timeHeard port.toNat f) port.toNat f) s

/-- R388: the serial and the device number of the device's time master, as it advertises them. -/
def Chip.masterOf (c : Chip) (own : Dword) : Dword × Nat :=
  if c.timeState = TimeState.master then (own, c.fld Fld.AXL_DEVICE_DEVNUM)
  else
    match KMap.find (c.fld Fld.GTC_CTL_SRC_PORT) c.timeIn with
    | some t => (t.serial, t.masterDev)
    | none => (0, 0)

/-- R386: the payload of a TIME flit, in slots. -/
def Chip.timePayload (c : Chip) (own : Dword) (port : Nat) (tx : Dword) : List Nat :=
  let echo := KMap.find port c.timeIn
  let m := c.masterOf own
  let e := (echo.map fun t => t.tx.toNat).getD 0
  let r := (echo.map fun t => t.rx.toNat).getD 0
  let w := c.fld Fld.AXL_DEVICE_DEVNUM + 2 ^ 6 * m.2 + 2 ^ 12 * c.fld Fld.GTC_CTL_HOPS
  [tx.toNat + 2 ^ 64 * e, r + 2 ^ 64 * c.gtc.toNat, w + 2 ^ 64 * m.1.toNat]

/-- R348, R386: TIME_FLIT_SEND: a port in UP sends its TIME flit, but none during a switch-over. -/
def execTimeFlitSend (port : BitVec 3) (tx : Dword) (s : State) : Host.Outcome State Fault Refusal :=
  onChip (fun c => if c.portUp port.toNat && !(c.lport port.toNat).switching then
    c.sendFlit port.toNat { ack := (c.lport port.toNat).rxNext + 4095, kind := 3 }
      (c.timePayload s.nv.serial port.toNat tx) else c) s

/-- R387: no source remains after a port has left UP. -/
def Chip.timeSourceLost (c : Chip) (port : Nat) : Chip :=
  { c with timeIn := KMap.erase port c.timeIn }.sourcesGone

/-- R390, R437: GTC_COMPARE: where the copies differ, the compute die's is reloaded; the time base has
faulted and every deterministic span is broken. -/
def execGtcCompare (differs : Bool) (s : State) : Host.Outcome State Fault Refusal :=
  onChip (fun c =>
    if differs then c.detParts.foldl Chip.breakSpan (c.unitFault .timeBase 0 c.detParts .replaced)
    else c) s

/-- R111, R389: GTC_PPS_EDGE: the counter is captured and event source 4 signalled; a master with PPS_EN
slews. -/
def execGtcPpsEdge (s : State) : Host.Outcome State Fault Refusal :=
  onChip (fun c =>
    let c1 := (c.setRg64 Reg.GTC_PPS_LO Reg.GTC_PPS_HI c.gtc.toNat).sourceSignal 4 0
    if c.timeState = TimeState.master ∧ c.flag Fld.GTC_CTL_PPS_EN then c1.slew else c1) s

/-- R384, R385: one nanosecond passes: the counter advances, and wraps, and the slices of the run lists' heads run
(R91), unless the clocks are stopped (R416) or the device is held in reset. (DESIGN CHOICE, assumption 1.) -/
def Chip.idleTick (c : Chip) : Chip :=
  (if c.stopped ∨ c.perst ∨ !c.powered then c
   else { c.parts.foldl (fun c kp => c.sliceTick kp.1) c with gtc := c.gtc + 1 }).tick

/-- R389: a write of GTC_SET_HI steps a master's counter while partitions 1 to 15 are ABSENT. -/
def Chip.gtcSet (c : Chip) (hi : Word) : Chip :=
  if c.timeState = TimeState.master ∧ c.aloneWithZero then
    c.stepCounter (BitVec.ofNat 64 ((c.rg Reg.GTC_SET_LO).toNat + 2 ^ 32 * hi.toNat))
  else c.regError Reg.GTC_SET_HI

def execGtcSet (val : Word) (s : State) : Host.Outcome State Fault Refusal := onHost (fun c => c.gtcSet val) s

/-- R11, R403: a write of GTC_CTL, whatever it changes, meets its locked fields while a port is on. -/
def Chip.gtcLocked (c : Chip) : Chip :=
  if (List.range 8).any fun n => c.fld Fld.AXL_PORT_CTL_MODE (n * 0x40) != 0 then c.regError Reg.GTC_CTL else c

/-- R389: RESYNC returns a follower to UNLOCKED. -/
def execResync (s : State) : Host.Outcome State Fault Refusal :=
  onHost (fun c0 => let c := c0.gtcLocked
    if c.timeState = TimeState.master then c
    else { c with lockRun := 0 }.setTimeState TimeState.unlocked 63) s

/-- R403, R404: a read of GTC_LO (or of a partition's DET_GTC_LO) returns the low half and latches the
high half. While the partition is ABSENT its register reads 0 (R83). -/
def Chip.gtcRead (c : Chip) (page : Option Nat) : Chip :=
  match page with
  | none =>
    { c with gtcLatch := KMap.put 0 0 (BitVec.ofNat 32 (dbits c.gtc 63 32)) c.gtcLatch }.emit
      (.hostData (leBytes 4 (dbits c.gtc 31 0)))
  | some p =>
    if !c.exists? p then c.emit (.hostData (leBytes 4 0))
    else
      { c with gtcLatch := KMap.put 0 (p + 1) (BitVec.ofNat 32 (dbits c.gtc 63 32)) c.gtcLatch }.emit
        (.hostData (leBytes 4 (dbits c.gtc 31 0)))

def execGtcLoRead (page : Option (BitVec 4)) (s : State) : Host.Outcome State Fault Refusal :=
  onHost (fun c => c.gtcRead (page.map BitVec.toNat)) s

end Sys2Proof.Machine
end

