-- ==== Sys2Proof/Machine/Streams.lean ====
section
/-!
DEFINITION. Compressed streams as data: the fixed parse (R337), blocks, stream headers and trailers
(R334, R337) and running checks (R331).
-/

namespace Sys2Proof.Machine

/-! ## The parse (R337) -/

/-- A step of the parse: a literal, or a match of a length at a distance. -/
inductive Tok where
  | lit (b : Byte)
  | mat (len dist : Nat)
  deriving DecidableEq, Repr

/-- The settings of a parse. -/
structure Parse where
  buf : List Byte
  jobEnd : Nat
  lazy : Bool
  depth : Nat
  w : Nat
  maxlen : Nat

def Parse.at (s : Parse) (p : Nat) : Byte := s.buf.getD p 0

/-- R337: hash4. -/
def Parse.hash4 (s : Parse) (p : Nat) : Nat :=
  (leNat ((s.buf.drop p).take 4) * 0x9E3779B1 % 2 ^ 32) >>> 16

/-- The common prefix of two lists, at most `n`. -/
def prefixLen : Nat → List Byte → List Byte → Nat
  | n + 1, x :: xs, y :: ys => if x = y then prefixLen n xs ys + 1 else 0
  | _, _, _ => 0

/-- R337: the chains: positions by hash, newest first. A position closer than 4 bytes to the job's end is
not inserted. -/
def Parse.insert (s : Parse) (ch : KMap (List Nat)) (p : Nat) : KMap (List Nat) :=
  if p + 4 > s.jobEnd then ch else KMap.modify (s.hash4 p) [] (fun l => p :: l) ch

/-- R337: the walk of a chain. -/
def Parse.walk (s : Parse) (p lim : Nat) : Nat → List Nat → Nat × Nat → Nat × Nat
  | n + 1, q :: qs, r =>
    if p - q > s.w then r
    else
      let m := prefixLen lim (s.buf.drop q) (s.buf.drop p)
      Parse.walk s p lim n qs (if m > r.1 then (m, p - q) else r)
  | _, _, r => r

/-- R337: best. -/
def Parse.best (s : Parse) (ch : KMap (List Nat)) (p fin : Nat) : Nat × Nat :=
  if p + 4 > s.jobEnd then (0, 0)
  else s.walk p (min s.maxlen (fin - p)) s.depth (KMap.getD ch (s.hash4 p) []) (0, 0)

/-- R337: compress_range. -/
def Parse.range (s : Parse) (fin : Nat) : Nat → Nat → KMap (List Nat) → List Tok × KMap (List Nat)
  | 0, _, ch => ([], ch)
  | n + 1, p, ch =>
    if p ≥ fin then ([], ch)
    else
      let m := s.best ch p fin
      let m2 := if s.lazy ∧ m.1 ≥ 4 ∧ p + 1 < fin then s.best ch (p + 1) fin else (0, 0)
      let moved := decide (m2.1 > m.1)
      let (pre, p1, ch1, m1) :=
        if moved then ([Tok.lit (s.at p)], p + 1, s.insert ch p, m2) else ([], p, ch, m)
      if m1.1 < 4 then
        let r := Parse.range s fin n (p1 + 1) (s.insert ch1 p1)
        (pre ++ Tok.lit (s.at p1) :: r.1, r.2)
      else
        let r := Parse.range s fin n (p1 + m1.1) ((rangeFrom p1 m1.1).foldl s.insert ch1)
        (pre ++ Tok.mat m1.1 m1.2 :: r.1, r.2)

/-- R337: the tokens of each block of `size` input bytes. -/
def Parse.blocks (s : Parse) (size : Nat) : Nat → Nat → KMap (List Nat) → List (List Tok × List Byte)
  | 0, _, _ => []
  | n + 1, p, ch =>
    if p ≥ s.jobEnd then []
    else
      let fin := min (p + size) s.jobEnd
      let r := s.range fin (fin - p) p ch
      (r.1, (s.buf.drop p).take (fin - p)) :: Parse.blocks s size n fin r.2

/-! ## DEFLATE blocks (R337) -/

/-- `n` bits of a number, least significant first, and most significant first. -/
def lsb : Nat → Nat → List Bool
  | 0, _ => []
  | n + 1, v => (v % 2 == 1) :: lsb n (v / 2)

def msb (n v : Nat) : List Bool := (lsb n v).reverse

/-- The last entry of a rising table that does not exceed `v`. -/
def slotOf (t : List Nat) (v : Nat) : Nat := (t.filter fun b => decide (b ≤ v)).length - 1

def lenBase : List Nat :=
  [3, 4, 5, 6, 7, 8, 9, 10, 11, 13, 15, 17, 19, 23, 27, 31, 35, 43, 51, 59, 67, 83, 99, 115, 131, 163, 195,
   227, 258]

def distBase : List Nat :=
  [1, 2, 3, 4, 5, 7, 9, 13, 17, 25, 33, 49, 65, 97, 129, 193, 257, 385, 513, 769, 1025, 1537, 2049, 3073,
   4097, 6145, 8193, 12289, 16385, 24577]

/-- Extra bits of length slot `i` and of distance slot `i`. -/
def lenExtra (i : Nat) : Nat := if i < 4 ∨ i = 28 then 0 else i / 4 - 1
def distExtra (i : Nat) : Nat := if i < 2 then 0 else i / 2 - 1

/-- The fixed Huffman code of a literal or length symbol. -/
def fixedSym (s : Nat) : List Bool :=
  if s < 144 then msb 8 (0x30 + s) else if s < 256 then msb 9 (0x190 + (s - 144))
  else if s < 280 then msb 7 (s - 256) else msb 8 (0xC0 + (s - 280))

/-- A token under codes for the literal and length symbols and for the distances. -/
def Tok.bits (sym dist : Nat → List Bool) : Tok → List Bool
  | .lit b => sym b.toNat
  | .mat l d =>
    let i := slotOf lenBase l
    let j := slotOf distBase d
    sym (257 + i) ++ lsb (lenExtra i) (l - lenBase.getD i 0) ++ dist j ++ lsb (distExtra j) (d - distBase.getD j 0)

/-- The tokens of a block and its end under such codes. -/
def tokBits (sym dist : Nat → List Bool) (ts : List Tok) : List Bool := ts.flatMap (Tok.bits sym dist) ++ sym 256

/-- RFC 1951: the canonical Huffman code of a symbol under code lengths: shorter codes first, and codes of one length by
symbol. -/
def canonBits (lens : List Nat) (i : Nat) : List Bool :=
  let l := lens.getD i 0
  msb l ((lens.filter fun k => decide (0 < k) && decide (k < l)).foldl (fun n k => n + 2 ^ (l - k)) 0
    + ((lens.take i).filter (· == l)).length)

/-- A token as a number, with distances scaled by `m`. -/
def Tok.code (m : Nat) : Tok → Nat
  | .lit b => b.toNat
  | .mat l d => 256 + l + m * d

/-- A stored block that begins `at` bits into a stream. -/
def storedBlock (pos : Nat) (fin : Bool) (bs : List Byte) : List Bool :=
  [fin, false, false] ++ List.replicate ((8 - (pos + 3) % 8) % 8) false
    ++ lsb 16 bs.length ++ lsb 16 (65535 - bs.length) ++ bs.flatMap fun b => lsb 8 b.toNat

/-- RFC 1951: the order of the code lengths for the code length alphabet. -/
def runOrder : List Nat := [16, 17, 18, 0, 8, 7, 9, 6, 10, 5, 11, 4, 12, 3, 13, 2, 14, 1, 15]

/-- RFC 1951: a run-length symbol under its code, with its repeat count. -/
def runBits (lens : List Nat) (r : Nat × Nat) : List Bool :=
  canonBits lens r.1 ++ (if r.1 = 16 then lsb 2 (r.2 - 3) else if r.1 = 17 then lsb 3 (r.2 - 3)
    else if r.1 = 18 then lsb 7 (r.2 - 11) else [])

/-- RFC 1951, R337: a block under dynamic Huffman codes, without the three header bits. The codes' lengths are those of the
reference model. (DESIGN CHOICE, assumption 61.) -/
def dynamicBlock (ts : List Tok) : List Bool :=
  let ls := Config.dynLengths (ts.map (Tok.code 1024))
  let runs := Config.dynRuns (ls.1 ++ ls.2)
  let rl := Config.dynRunLengths runs
  let used := ((runOrder.map fun i => rl.getD i 0).reverse.dropWhile (· == 0)).reverse
  let cl := used ++ List.replicate (4 - used.length) 0
  lsb 5 (ls.1.length - 257) ++ lsb 5 (ls.2.length - 1) ++ lsb 4 (cl.length - 4) ++ cl.flatMap (lsb 3)
    ++ runs.flatMap (runBits rl) ++ tokBits (canonBits ls.1) (canonBits ls.2) ts

/-- R337: a block as the shortest of stored, fixed-Huffman and dynamic-Huffman, ties in that order. -/
def deflateBlock (pos : Nat) (fin : Bool) (ts : List Tok) (bs : List Byte) : List Bool :=
  let st := storedBlock pos fin bs
  let fx := [fin, true, false] ++ tokBits fixedSym (msb 5) ts
  let dy := [fin, false, true] ++ dynamicBlock ts
  if st.length ≤ fx.length ∧ st.length ≤ dy.length then st
  else if fx.length ≤ dy.length then fx else dy

/-- R334, R337: the blocks of a job; the last is final with LAST. -/
def deflateBlocks (last : Bool) : List Bool → List (List Tok × List Byte) → List Bool
  | acc, [] => if last then acc else acc ++ storedBlock acc.length false []
  | acc, [b] =>
    if last then acc ++ deflateBlock acc.length true b.1 b.2
    else
      let a := acc ++ deflateBlock acc.length false b.1 b.2
      a ++ storedBlock a.length false []
  | acc, b :: bs => deflateBlocks last (acc ++ deflateBlock acc.length false b.1 b.2) bs

/-- Bits packed into bytes, least significant first, the last byte filled with zeros. -/
def packBits : Nat → List Bool → List Byte
  | 0, _ => []
  | n + 1, l =>
    if l.isEmpty then []
    else BitVec.ofNat 8 ((l.take 8).reverse.foldl (fun v b => 2 * v + b2n b) 0) :: packBits n (l.drop 8)

/-! ## Zstandard blocks (R337) -/

/-- A Zstandard block header: last, type, size. -/
def zstdHead (fin : Bool) (type size : Nat) : List Byte := leBytes 3 (b2n fin + 2 * type + 8 * size)

/-- RFC 8878, R337: the offset value that codes a distance after `ll` literals: that of the first repeat offset that it
equals, or the distance + 3. -/
def offsetValue (rep : List Nat) (ll d : Nat) : Nat :=
  let r := if ll = 0 then [rep.getD 1 0, rep.getD 2 0, rep.getD 0 0 - 1] else rep
  match r.findIdx? (· == d) with
  | some i => i + 1
  | none => d + 3

/-- RFC 8878: the repeat offsets after a sequence: the one used moves to the front. -/
def repeatsAfter (rep : List Nat) (ll d v : Nat) : List Nat :=
  match (if 3 < v then 4 else if ll = 0 then v + 1 else v) with
  | 1 => rep
  | 2 => [d, rep.getD 0 0, rep.getD 2 0]
  | _ => [d, rep.getD 0 0, rep.getD 1 0]

/-- RFC 8878, R337: the sequences of a block's tokens, each its literals length, match length and offset value, and the
repeat offsets after them; `ll` literals stand before. -/
def zstdSeqs : List Tok → Nat → List Nat → List (Nat × Nat × Nat) × List Nat
  | [], _, rep => ([], rep)
  | .lit _ :: ts, ll, rep => zstdSeqs ts (ll + 1) rep
  | .mat l d :: ts, ll, rep =>
    let v := offsetValue rep ll d
    let r := zstdSeqs ts 0 (repeatsAfter rep ll d v)
    ((ll, l, v) :: r.1, r.2)

/-- RFC 8878: the count that begins a sequences section. -/
def seqCount (n : Nat) : List Byte :=
  if n < 128 then leBytes 1 n
  else if n < 0x7F00 then leBytes 1 (n / 256 + 128) ++ leBytes 1 n
  else leBytes 1 255 ++ leBytes 2 (n - 0x7F00)

/-- RFC 8878, R337: a compressed block's content: the literals section, then the sequences section. How either is entropy
coded is the reference model's. (DESIGN CHOICE, assumption 61.) -/
def zstdContent (ts : List Tok) (seqs : List (Nat × Nat × Nat)) : List Byte :=
  Config.zstdLiterals (ts.filterMap fun t => match t with | .lit b => some b.toNat | .mat _ _ => none)
    ++ seqCount seqs.length ++ (if seqs.isEmpty then [] else Config.zstdSequences seqs)

/-- R337: a block as the shortest of raw, RLE and compressed, ties in that order. -/
def zstdOne (fin : Bool) (ts : List Tok) (bs : List Byte) (rep : List Nat) : List Byte × List Nat :=
  let raw := zstdHead fin 0 bs.length ++ bs
  let seqs := zstdSeqs ts 0 rep
  let cp := zstdContent ts seqs.1
  let cpb := zstdHead fin 2 cp.length ++ cp
  let same := !bs.isEmpty && bs.all (· == bs.headD 0)
  if raw.length ≤ cpb.length ∧ (!same ∨ bs.length ≤ 1) then (raw, rep)
  else if same ∧ 4 ≤ cpb.length then (zstdHead fin 1 bs.length ++ bs.take 1, rep)
  else (cpb, seqs.2)

/-- The blocks of a job and the repeat offsets after them. -/
def zstdBlocks (last : Bool) (rep : List Nat) : List (List Tok × List Byte) → List Byte × List Nat
  | [] => ([], rep)
  | b :: bs =>
    let x := zstdOne (last && bs.isEmpty) b.1 b.2 rep
    let r := zstdBlocks last x.2 bs
    (x.1 ++ r.1, r.2)

/-! ## Running checks (R331) -/

/-- Adler-32 continued from its two sums. -/
def adlerRun (a b : Nat) : List Byte → Nat × Nat
  | [] => (a, b)
  | x :: xs => let a1 := (a + x.toNat) % 65521; adlerRun a1 ((b + a1) % 65521) xs

/-- CRC-32 continued from its value before. -/
def crc32 (before : Nat) (bs : List Byte) : Nat := crcRun 0xEDB88320 (before ^^^ 0xFFFFFFFF) bs ^^^ 0xFFFFFFFF

/-! XXH64: its primes, a round, and the running state: four lanes, the length, the bytes not yet taken. -/

def xp1 : Nat := 0x9E3779B185EBCA87
def xp2 : Nat := 0xC2B2AE3D27D4EB4F
def xp3 : Nat := 0x165667B19E3779F9
def xp4 : Nat := 0x85EBCA77C2B2AE63
def xp5 : Nat := 0x27D4EB2F165667C5

def rotl64 (v n : Nat) : Nat := (v * 2 ^ n % 2 ^ 64) + v / 2 ^ (64 - n)

def xxRound (acc x : Nat) : Nat := rotl64 ((acc + x * xp2) % 2 ^ 64) 31 * xp1 % 2 ^ 64

/-- Take whole 32-byte stripes into the lanes. -/
def xxTake : Nat → List Nat → List Byte → List Nat × List Byte
  | 0, vs, bs => (vs, bs)
  | n + 1, vs, bs =>
    if bs.length < 32 then (vs, bs)
    else xxTake n ((List.range 4).map fun i => xxRound (vs.getD i 0) (fieldLE bs (8 * i) 8)) (bs.drop 32)

/-- The state before any byte. -/
def xxInit : List Nat := [(xp1 + xp2) % 2 ^ 64, xp2, 0, 2 ^ 64 - xp1, 0]

/-- The state after more bytes. -/
def xxMore (s : List Nat) (bs : List Byte) : List Nat :=
  let all := (s.drop 5).map (BitVec.ofNat 8) ++ bs
  let r := xxTake (all.length / 32 + 1) (s.take 4) all
  r.1 ++ [s.getD 4 0 + bs.length] ++ r.2.map BitVec.toNat

/-- The last bytes of the digest. -/
def xxTail : Nat → Nat → List Byte → Nat
  | 0, h, _ => h
  | n + 1, h, bs =>
    if bs.length ≥ 8 then
      xxTail n ((rotl64 (h ^^^ xxRound 0 (fieldLE bs 0 8)) 27 * xp1 + xp4) % 2 ^ 64) (bs.drop 8)
    else if bs.length ≥ 4 then
      xxTail n ((rotl64 (h ^^^ (fieldLE bs 0 4 * xp1 % 2 ^ 64)) 23 * xp2 + xp3) % 2 ^ 64) (bs.drop 4)
    else if bs.isEmpty then h
    else xxTail n (rotl64 (h ^^^ (fieldLE bs 0 1 * xp5 % 2 ^ 64)) 11 * xp1 % 2 ^ 64) (bs.drop 1)

/-- The digest. -/
def xxDigest (s : List Nat) : Nat :=
  let v (i : Nat) := s.getD i 0
  let n := v 4
  let h0 := if n ≥ 32 then
      let h := (rotl64 (v 0) 1 + rotl64 (v 1) 7 + rotl64 (v 2) 12 + rotl64 (v 3) 18) % 2 ^ 64
      (List.range 4).foldl (fun h i => ((h ^^^ xxRound 0 (v i)) * xp1 + xp4) % 2 ^ 64) h
    else xp5
  let h1 := xxTail 40 ((h0 + n) % 2 ^ 64) ((s.drop 5).map (BitVec.ofNat 8))
  let h2 := (h1 ^^^ h1 / 2 ^ 33) * xp2 % 2 ^ 64
  let h3 := (h2 ^^^ h2 / 2 ^ 29) * xp3 % 2 ^ 64
  h3 ^^^ h3 / 2 ^ 32

/-- The running check of a format before any byte, and after more. -/
def checkInit : Nat → List Nat
  | 1 => [1, 0]
  | 2 => [0]
  | 3 => xxInit
  | _ => []

def checkMore (fmt : Nat) (s : List Nat) (bs : List Byte) : List Nat :=
  match fmt with
  | 1 => let r := adlerRun (s.getD 0 0) (s.getD 1 0) bs; [r.1, r.2]
  | 2 => [crc32 (s.getD 0 0) bs]
  | 3 => xxMore s bs
  | _ => []

/-- CHECKVAL of a running check (R331). -/
def checkVal (fmt : Nat) (s : List Nat) : Nat :=
  match fmt with
  | 1 => s.getD 0 0 + 2 ^ 16 * s.getD 1 0
  | 2 => s.getD 0 0
  | 3 => xxDigest s % 2 ^ 32
  | _ => 0

/-! ## Streams (R334) -/

/-- What a COMPRESS does to a stream. -/
structure StreamJob where
  fmt : Nat
  first : Bool
  last : Bool
  checksum : Bool
  lazy : Bool
  depth : Nat
  wlog : Nat
  /-- The history continued: its window, the stream's bytes, the check and the repeat offsets so far. -/
  window : List Byte
  bytes : Nat
  check : List Nat
  repeats : List Nat
  deriving DecidableEq, Repr

/-- The window size W. -/
def StreamJob.w (j : StreamJob) : Nat := if j.fmt = 3 then 2 ^ j.wlog else 32768

/-- R334: FLEVEL. -/
def flevel (depth : Nat) : Nat := if depth ≤ 4 then 0 else if depth ≤ 32 then 1 else if depth ≤ 128 then 2 else 3

/-- R334: the stream header. -/
def StreamJob.head (j : StreamJob) : List Byte :=
  match j.fmt with
  | 1 => let f := 64 * flevel j.depth; [0x78, BitVec.ofNat 8 (f + (31 - (0x7800 + f) % 31) % 31)]
  | 2 => [0x1F, 0x8B, 0x08, 0, 0, 0, 0, 0, 0, 0xFF]
  | 3 => leBytes 4 0xFD2FB528 ++ [if j.checksum then 0x04 else 0, BitVec.ofNat 8 ((j.wlog - 10) * 8)]
  | _ => []

/-- R334: the trailer, for a stream of `n` bytes. -/
def StreamJob.trailer (j : StreamJob) (check : List Nat) (n : Nat) : List Byte :=
  match j.fmt with
  | 1 => (leBytes 4 (checkVal 1 check)).reverse
  | 2 => leBytes 4 (checkVal 2 check) ++ leBytes 4 n
  | 3 => if j.checksum then leBytes 4 (checkVal 3 check) else []
  | _ => []

/-- R337: the blocks of a job's input, at least one in the job that ends the stream. -/
def StreamJob.parse (j : StreamJob) (input : List Byte) : List (List Tok × List Byte) :=
  let h := j.window.length
  let s : Parse := { buf := j.window ++ input, jobEnd := h + input.length, lazy := j.lazy, depth := j.depth
                     w := j.w, maxlen := if j.fmt = 3 then 65536 else 258 }
  let bs := s.blocks (if j.fmt = 3 then min 131072 (2 ^ j.wlog) else 65535) (input.length + 1) h
    ((List.range h).foldl s.insert [])
  if bs.isEmpty && j.last then [([], [])] else bs

/-- R334, R337: the bytes that a job adds to its stream, and the repeat offsets after them. -/
def StreamJob.body (j : StreamJob) (input : List Byte) : List Byte × List Nat :=
  let bs := j.parse input
  if j.fmt = 3 then zstdBlocks j.last j.repeats bs
  else let l := deflateBlocks j.last [] bs; (packBits (l.length + 1) l, j.repeats)

/-- R334: all output of a job. -/
def StreamJob.output (j : StreamJob) (input : List Byte) : List Byte :=
  (if j.first then j.head else []) ++ (j.body input).1
    ++ (if j.last then j.trailer (checkMore j.fmt j.check input) (j.bytes + input.length) else [])

end Sys2Proof.Machine
end

