-- ==== Sys2Proof/Machine/Inflate.lean ====
section
/-!
DEFINITION. Decoding a raw stream of RFC 1951, which R340 accepts. The format's rules come from the RFC
that R340 names. What the RFC neither allows nor forbids is a free value.
-/

namespace Sys2Proof.Machine

/-- What a decode came to: the bytes decoded, the input bytes used or the offset found invalid, and
whether the stream is valid. (DESIGN CHOICE, assumption 63.) -/
structure Decoded where
  out : List Byte
  used : Nat
  ok : Bool

/-- An invalid stream whose first invalid byte stands at `n`. -/
def badAt (out : List Byte) (n : Nat) : Decoded := { out := out, used := n, ok := false }

/-- R340: the first byte found invalid, of an invalid element that takes bytes `lo` to `hi`: R340 does not
say which of them. (DESIGN CHOICE, assumption 63.) -/
def badIn (out : List Byte) (lo hi : Nat) : Decoded :=
  badAt out (if hi ≤ lo then lo else lo + Config.corruptByte lo hi % (hi + 1 - lo))

/-- What reading one element of a stream gives: a value and the rest, an invalid element with the rest
after it, or the end of the input. -/
inductive Got (α : Type) where
  | got (v : α) (rest : List Bool)
  | bad (rest : List Bool)
  | ended

/-- Go on with the value read. -/
def Got.andThen {α β : Type} (g : Got α) (f : α → List Bool → Got β) : Got β :=
  match g with
  | .got v rest => f v rest
  | .bad rest => .bad rest
  | .ended => .ended

/-- The bits of a stream, in the order in which DEFLATE reads them. -/
def streamBits (s : List Byte) : List Bool := s.flatMap fun b => lsb 8 b.toNat

/-- A number of bits, the first being the most significant. -/
def msbNat (l : List Bool) : Nat := l.foldl (fun v b => 2 * v + b.toNat) 0

/-- An `n`-bit number, least significant bit first. -/
def getNum (n : Nat) (l : List Bool) : Got Nat :=
  if (l.take n).length < n then .ended
  else .got (msbNat (l.take n).reverse) (l.drop n)

/-! ## Huffman codes -/

/-- A set of codes: how many there are of each length from 1 on, and the symbols by rising length and
symbol. -/
structure Codes where
  counts : List Nat
  symbols : List Nat
  deriving DecidableEq, Repr

/-- The set that a list of code lengths defines. -/
def codesOf (lens : List Nat) : Codes :=
  let ls := [1, 2, 3, 4, 5, 6, 7, 8, 9, 10, 11, 12, 13, 14, 15].map fun n =>
    ((List.range lens.length).zip lens).filter fun e => e.2 == n
  { counts := ls.map List.length, symbols := ls.flatMap fun l => l.map Prod.fst }

/-- The codes of 15 bits that no symbol has: none where the lengths ask for more codes than there are. -/
def Codes.spare (c : Codes) : Option Nat :=
  c.counts.foldl (fun l n => l.bind fun left => if 2 * left < n then none else some (2 * left - n)) (some 1)

/-- Whether a set may stand in a block: a full set, and where `one` is set also a set of one code of one
bit, or of none. (DESIGN CHOICE, assumption 64.) -/
def Codes.legal (c : Codes) (one : Bool) (lens : List Nat) : Bool :=
  match c.spare with
  | none => false
  | some 0 => true
  | some _ => (one && decide (c.symbols.length ≤ 1 ∧ c.counts.headD 0 = c.symbols.length)) || Config.oddCodes lens

/-- Read a symbol: `code` less the first code of this length, the place of that first code in the symbols,
and the counts of the lengths still to try. -/
def Codes.read (syms : List Nat) : List Nat → Nat → Nat → List Bool → Got Nat
  | [], _, _, rest => .bad rest
  | _ :: _, _, _, [] => .ended
  | n :: ns, code, index, b :: rest =>
    let code := 2 * code + b.toNat
    if code < n then .got (syms.getD (index + code) 0) rest
    else Codes.read syms ns (code - n) (index + n) rest

def Codes.sym (c : Codes) (l : List Bool) : Got Nat := Codes.read c.symbols c.counts 0 0 l

/-! ## Blocks -/

/-- Where a decode stands: the bytes decoded, last first, how many, and the bits not yet read. -/
structure Inf where
  rev : List Byte
  n : Nat
  bits : List Bool

/-- How an element, a block or a stream ended. -/
inductive InfEnd where
  | done (s : Inf)
  /-- An invalid element from the bits `s.bits` on, up to those left. -/
  | bad (s : Inf) (left : Nat)
  /-- The input ended. -/
  | cut (s : Inf)

/-- Copy `l` bytes from `d` back, one at a time. -/
def copyBack (d : Nat) : Nat → List Byte → List Byte
  | 0, rev => rev
  | l + 1, rev => copyBack d l (rev.getD (d - 1) 0 :: rev)

/-- A length or a distance: slot `i` of a table with its extra bits. -/
def slotVal (t : List Nat) (extra : Nat → Nat) (i : Nat) (l : List Bool) : Got Nat :=
  if i < t.length then (getNum (extra i) l).andThen fun e rest => .got (t.getD i 0 + e) rest else .bad l

/-- The symbols of a block under its two sets of codes, up to its end. -/
def infSyms (lit dist : Codes) : Nat → Inf → InfEnd
  | 0, s => .cut s
  | fuel + 1, s =>
    match lit.sym s.bits with
    | .bad rest => .bad s rest.length
    | .ended => .cut s
    | .got v rest =>
      if v < 256 then infSyms lit dist fuel { rev := BitVec.ofNat 8 v :: s.rev, n := s.n + 1, bits := rest }
      else if v = 256 then .done { s with bits := rest }
      else
        match (slotVal lenBase lenExtra (v - 257) rest).andThen fun l r1 =>
            (dist.sym r1).andThen fun i r2 =>
              (slotVal distBase distExtra i r2).andThen fun d r3 =>
                if d > s.n then .bad r3 else .got (l, d) r3 with
        | .bad r => .bad s r.length
        | .ended => .cut s
        | .got (l, d) r => infSyms lit dist fuel { rev := copyBack d l s.rev, n := s.n + l, bits := r }

/-- The code lengths of a dynamic block, `n` of them, last first; the repeats of RFC 1951, 3.2.7. -/
def codeLens (c : Codes) (n : Nat) : Nat → List Nat → List Bool → Got (List Nat)
  | 0, _, _ => .ended
  | fuel + 1, rev, l =>
    if rev.length = n then .got rev.reverse l
    else
      (c.sym l).andThen fun v r =>
        let run (bits base val : Nat) : Got (List Nat) :=
          (getNum bits r).andThen fun k r2 =>
            if rev.length + base + k > n then .bad r2
            else codeLens c n fuel (List.replicate (base + k) val ++ rev) r2
        match v with
        | 16 => if rev.isEmpty then .bad r else run 2 3 (rev.headD 0)
        | 17 => run 3 3 0
        | 18 => run 7 11 0
        | _ => codeLens c n fuel (v :: rev) r

/-- `k` numbers of 3 bits. -/
def getThrees : Nat → List Bool → Got (List Nat)
  | 0, l => .got [] l
  | k + 1, l => (getNum 3 l).andThen fun v r => (getThrees k r).andThen fun vs r2 => .got (v :: vs) r2

/-- The order of the code-length code lengths. -/
def lenOrder : List Nat := [16, 17, 18, 0, 8, 7, 9, 6, 10, 5, 11, 4, 12, 3, 13, 2, 14, 1, 15]

/-- The two sets of codes at the head of a dynamic block. (DESIGN CHOICE, assumption 64.) -/
def dynCodes (l : List Bool) : Got (Codes × Codes) :=
  (getNum 5 l).andThen fun hlit r1 =>
  (getNum 5 r1).andThen fun hdist r2 =>
  (getNum 4 r2).andThen fun hclen r3 =>
  if hlit > 29 then .bad r3
  else
    (getThrees (hclen + 4) r3).andThen fun threes r4 =>
      let cl := (List.range 19).map fun i => ((lenOrder.zip threes).find? fun e => e.1 == i).elim 0 Prod.snd
      if !(codesOf cl).legal false cl then .bad r4
      else
        (codeLens (codesOf cl) (hlit + 257 + (hdist + 1)) 400 [] r4).andThen fun lens r5 =>
          let ll := lens.take (hlit + 257)
          let dl := lens.drop (hlit + 257)
          if (codesOf ll).legal false ll ∧ (codesOf dl).legal true dl
              ∧ (ll.getD 256 0 ≠ 0 ∨ Config.oddCodes (ll ++ dl))
          then .got (codesOf ll, codesOf dl) r5 else .bad r5

/-- The sets of codes of a fixed block. -/
def fixedLit : Codes := codesOf
  (List.replicate 144 8 ++ List.replicate 112 9 ++ List.replicate 24 7 ++ List.replicate 8 8)
def fixedDist : Codes := codesOf (List.replicate 32 5)

/-- The bytes of a number of bits. -/
def bytesOfBits : Nat → List Bool → List Byte
  | 0, _ => []
  | n + 1, l => BitVec.ofNat 8 (msbNat (l.take 8).reverse) :: bytesOfBits n (l.drop 8)

/-- A stored block, from the bits after its header. -/
def infStored (s : Inf) (r : List Bool) : InfEnd :=
  let at8 := r.drop (r.length % 8)
  match (getNum 16 at8).andThen fun len r1 => (getNum 16 r1).andThen fun nlen r2 => .got (len, nlen) r2 with
  | .got (len, nlen) r2 =>
    if len + nlen ≠ 65535 then .bad { s with bits := at8 } r2.length
    else
      let data := bytesOfBits (min len (r2.length / 8)) r2
      let s1 : Inf := { rev := data.reverse ++ s.rev, n := s.n + data.length, bits := r2.drop (8 * len) }
      if data.length < len then .cut s1 else .done s1
  | _ => .cut s

/-- The blocks up to the final one. (PRESUMED, assumption 62.) -/
def infBlocks : Nat → Inf → InfEnd
  | 0, s => .cut s
  | fuel + 1, s =>
    match (getNum 1 s.bits).andThen fun f r => (getNum 2 r).andThen fun t r1 => .got (f, t) r1 with
    | .got (f, t) r =>
      let e :=
        match t with
        | 0 => infStored s r
        | 1 => infSyms fixedLit fixedDist (r.length + 1) { s with bits := r }
        | 2 =>
          match dynCodes r with
          | .got (lit, dist) r1 => infSyms lit dist (r1.length + 1) { s with bits := r1 }
          | .bad r1 => .bad s r1.length
          | .ended => .cut s
        | _ => .bad s r.length
      match e with
      | .done s1 => if f = 1 then .done s1 else infBlocks fuel s1
      | o => o
    | _ => .cut s

/-- R340: RFC 1951: what the raw stream in `s` from offset `o` on decodes to; `used` counts from the start
of `s`. (PRESUMED, assumption 62.) -/
def inflate (s : List Byte) (o : Nat) : Decoded :=
  let bits := streamBits (s.drop o)
  match infBlocks (bits.length + 1) { rev := [], n := 0, bits := bits } with
  | .done e => { out := e.rev.reverse, used := s.length - e.bits.length / 8, ok := true }
  | .cut e => badAt e.rev.reverse s.length
  | .bad e left =>
    badIn e.rev.reverse (s.length - (e.bits.length + 7) / 8) (s.length - 1 - left / 8)

end Sys2Proof.Machine
end

