-- ==== Sys2Proof/Machine/Zstd.lean ====
section
/-!
DEFINITION. Decoding Zstandard input (RFC 8878), with the limits of R340: one frame after any number of
skippable frames, a window of at most 8 MiB, no dictionary. The format's rules and its predefined tables
come from the RFC.
-/

namespace Sys2Proof.Machine

/-- The largest `n` with 2^n ≤ `v`. -/
def topBit (v : Nat) : Nat := Nat.log2 v

/-! ## FSE tables -/

/-- One state of an FSE table: the symbol, how many bits the next state takes, and what they are added
to. -/
structure FseCell where
  sym : Nat
  nb : Nat
  base : Nat
  deriving DecidableEq, Repr

/-- A table with its accuracy log. -/
structure Fse where
  al : Nat
  cells : List FseCell
  deriving DecidableEq, Repr

/-- The table of one symbol (RLE mode). -/
def fseOne (sym : Nat) : Fse := { al := 0, cells := [{ sym := sym, nb := 0, base := 0 }] }

/-- Give each place its symbol. -/
def fsePlace : List Nat → List Nat → List Nat → List Nat
  | p :: ps, s :: ss, t => fsePlace ps ss (t.set p s)
  | _, _, t => t

/-- Number the states of each symbol, in the order of their places: `next` counts, by symbol. -/
def fseCells (al : Nat) : List Nat → List Nat → List FseCell
  | [], _ => []
  | s :: rest, next =>
    let k := next.getD s 1
    let nb := al - topBit k
    { sym := s, nb := nb, base := k * 2 ^ nb - 2 ^ al } :: fseCells al rest (next.set s (k + 1))

/-- A table from the probabilities of its symbols, plus one: 0 for "less than one". -/
def fseBuild (al : Nat) (probs : List Nat) : Fse :=
  let size := 2 ^ al
  let syms := List.range probs.length
  let low := syms.filter fun s => probs.getD s 1 == 0
  let high := size - low.length
  let step := size / 2 + size / 8 + 3
  let places := ((List.range size).map fun k => k * step % size).filter fun p => decide (p < high)
  let spread := syms.flatMap fun s => List.replicate (probs.getD s 1 - 1) s
  let table := fsePlace places spread (List.replicate high 0 ++ low.reverse)
  { al := al, cells := fseCells al table (probs.map fun p => if p = 0 then 1 else p - 1) }

/-- The probabilities plus one of a table description: `left` is the probability still to give. -/
def fseProbs : Nat → Nat → List Nat → List Bool → Got (List Nat)
  | 0, _, _, l => .bad l
  | fuel + 1, left, rev, l =>
    if left = 0 then .got rev.reverse l
    else
      let bits := topBit (left + 1) + 1
      let threshold := 2 ^ bits - 1 - (left + 1)
      (getNum (bits - 1) l).andThen fun low r =>
        let value : Got Nat :=
          if low < threshold then .got low r
          else
            (getNum bits l).andThen fun v r1 =>
              .got (if v ≥ 2 ^ (bits - 1) then v - threshold else v) r1
        value.andThen fun v r1 =>
          if v = 1 then
            let z := fseZeros fuel r1
            z.andThen fun k r2 => fseProbs fuel left (List.replicate (k + 1) 1 ++ rev) r2
          else fseProbs fuel (left - (if v = 0 then 1 else v - 1)) (v :: rev) r1
where
  /-- How many further symbols have probability zero. -/
  fseZeros : Nat → List Bool → Got Nat
    | 0, l => .bad l
    | fuel + 1, l =>
      (getNum 2 l).andThen fun k r =>
        if k = 3 then (fseZeros fuel r).andThen fun m r2 => .got (3 + m) r2 else .got k r

/-- A table at the start of some bytes, of at most `maxLog` and symbols up to `maxSym`, and the bytes after
it. -/
def fseRead (maxLog maxSym : Nat) (bs : List Byte) : Option (Fse × List Byte) :=
  let l := streamBits (bs.take 512)
  match getNum 4 l with
  | .got a r =>
    if a + 5 > maxLog then none
    else
      match fseProbs 300 (2 ^ (a + 5)) [] r with
      | .got probs r2 =>
        if probs.length > maxSym + 1 then none
        else some (fseBuild (a + 5) probs, bs.drop ((l.length - r2.length + 7) / 8))
      | _ => none
  | _ => none

/-! ## Backward streams -/

/-- The bits of a backward stream in reading order, after its end mark; none where it has no end mark. -/
def backBits (bs : List Byte) : Option (List Bool) :=
  match (streamBits bs).reverse.dropWhile (!·) with
  | [] => none
  | _ :: l => if bs.getLast?.elim true (· == 0) then none else some l

/-- An `n`-bit number of a backward stream. -/
def getBack (n : Nat) (l : List Bool) : Option (Nat × List Bool) :=
  if (l.take n).length < n then none else some (msbNat (l.take n), l.drop n)

/-! ## Huffman trees of literals -/

/-- A Huffman table: its width, and symbol and code length by the next bits. -/
structure Huf where
  width : Nat
  cells : List (Nat × Nat)
  deriving DecidableEq, Repr

/-- The weights of an FSE-coded description: two states by turns, until the bits run out. -/
def fseWeights (t : Fse) : Nat → Nat → Nat → List Bool → Option (List Nat)
  | 0, _, _, _ => none
  | fuel + 1, a, b, l =>
    let c := t.cells.getD a { sym := 0, nb := 0, base := 0 }
    match getBack c.nb l with
    | none => some [c.sym, (t.cells.getD b { sym := 0, nb := 0, base := 0 }).sym]
    | some (v, r) => (fseWeights t fuel b (c.base + v) r).map (c.sym :: ·)

/-- The table of a list of weights without the last one. (DESIGN CHOICE, assumption 64.) -/
def hufOf (ws : List Nat) : Option Huf :=
  let sum := ws.foldl (fun n w => n + (if w = 0 then 0 else 2 ^ (w - 1))) 0
  let width := topBit sum + 1
  let left := 2 ^ width - sum
  let all := ws ++ [topBit left + 1]
  if sum = 0 ∨ width > 11 ∨ 2 ^ topBit left ≠ left ∨ ws.length > 255 then none
  else if all.all (· != 1) ∧ !Config.oddCodes all then none
  else
    let cells := [1, 2, 3, 4, 5, 6, 7, 8, 9, 10, 11].flatMap fun w =>
      (((List.range all.length).zip all).filter fun e => e.2 == w).flatMap fun e =>
        List.replicate (2 ^ (w - 1)) (e.1, width + 1 - w)
    some { width := width, cells := cells }

/-- A tree description and the bytes after it. -/
def hufRead (bs : List Byte) : Option (Huf × List Byte) :=
  match bs with
  | [] => none
  | h :: rest =>
    let n := h.toNat
    if n ≥ 128 then
      let k := n - 127
      let m := (k + 1) / 2
      if rest.length < m then none
      else
        let ws := ((rest.take m).flatMap fun b => [b.toNat / 16, b.toNat % 16]).take k
        (hufOf ws).map fun t => (t, rest.drop m)
    else
      if rest.length < n then none
      else
        (fseRead 6 255 (rest.take n)).bind fun (t, r) =>
          (backBits r).bind fun l =>
            (getBack t.al l).bind fun (a, l1) =>
              (getBack t.al l1).bind fun (b, l2) =>
                (fseWeights t 256 a b l2).bind fun ws => (hufOf ws).map fun h => (h, rest.drop n)

/-- `n` literals of a backward stream, which they must use up. -/
def hufLits (t : Huf) : Nat → List Bool → Option (List Byte)
  | 0, l => if l.isEmpty then some [] else none
  | n + 1, l =>
    let seen := l.take t.width
    let c := t.cells.getD (msbNat seen * 2 ^ (t.width - seen.length)) (0, 0)
    if seen.length < c.2 then none
    else (hufLits t n (l.drop c.2)).map (BitVec.ofNat 8 c.1 :: ·)

/-- `n` literals of one stream. -/
def hufStream (t : Huf) (n : Nat) (bs : List Byte) : Option (List Byte) := (backBits bs).bind (hufLits t n)

/-- `n` literals of four streams with their jump table. -/
def hufFour (t : Huf) (n : Nat) (bs : List Byte) : Option (List Byte) :=
  let s1 := fieldLE bs 0 2
  let s2 := fieldLE bs 2 2
  let s3 := fieldLE bs 4 2
  let body := bs.drop 6
  let k := (n + 3) / 4
  if bs.length < 6 ∨ body.length < s1 + s2 + s3 ∨ n < 3 * k then none
  else
    (hufStream t k (body.take s1)).bind fun a =>
      (hufStream t k ((body.drop s1).take s2)).bind fun b =>
        (hufStream t k ((body.drop (s1 + s2)).take s3)).bind fun c =>
          (hufStream t (n - 3 * k) (body.drop (s1 + s2 + s3))).map fun d => a ++ b ++ c ++ d

/-! ## Blocks -/

/-- What one block hands to the next: the bytes decoded, last first, and how many; the repeat offsets; the
trees of the last compressed block. -/
structure Zst where
  rev : List Byte
  n : Nat
  reps : Nat × Nat × Nat
  huf : Option Huf
  ll : Option Fse
  off : Option Fse
  ml : Option Fse

/-- The literals of a compressed block, its tree, and the bytes after the literals section. -/
def zstLiterals (old : Option Huf) (bs : List Byte) : Option (List Byte × Option Huf × List Byte) :=
  let b0 := fieldLE bs 0 1
  let typ := b0 % 4
  let fmt := b0 / 4 % 4
  if bs.isEmpty then none
  else if typ < 2 then
    let (h, size) :=
      if fmt % 2 = 0 then (1, b0 / 8) else if fmt = 1 then (2, fieldLE bs 0 2 / 16) else (3, fieldLE bs 0 3 / 16)
    let body := bs.drop h
    let take := if typ = 0 then size else 1
    if bs.length < h ∨ body.length < take then none
    else
      let lits := if typ = 0 then body.take size else List.replicate size (body.headD 0)
      some (lits, old, body.drop take)
  else
    let (h, w) := if fmt < 2 then (3, 10) else if fmt = 2 then (4, 14) else (5, 18)
    let v := fieldLE bs 0 h / 16
    let size := v % 2 ^ w
    let comp := v / 2 ^ w
    let body := (bs.drop h).take comp
    if bs.length < h + comp then none
    else
      (if typ = 2 then hufRead body else old.map fun t => (t, body)).bind fun (t, streams) =>
        ((if fmt = 0 then hufStream else hufFour) t size streams).map fun lits =>
          (lits, some t, bs.drop (h + comp))

/-- The predefined distributions, as probabilities plus one. -/
def llDefault : Fse := fseBuild 6
  [5, 4, 3, 3, 3, 3, 3, 3, 3, 3, 3, 3, 3, 2, 2, 2, 3, 3, 3, 3, 3, 3, 3, 3, 3, 4, 3, 2, 2, 2, 2, 2, 0, 0, 0, 0]
def mlDefault : Fse := fseBuild 6
  ([2, 5, 4, 3, 3, 3, 3, 3, 3] ++ List.replicate 37 2 ++ List.replicate 7 0)
def offDefault : Fse := fseBuild 5
  ([2, 2, 2, 2, 2, 2, 3, 3, 3] ++ List.replicate 15 2 ++ List.replicate 5 0)

/-- The table of one kind of symbol by its mode: predefined, RLE, described, or repeated. -/
def zstTable (mode maxLog maxSym : Nat) (dflt : Fse) (old : Option Fse) (bs : List Byte) :
    Option (Fse × List Byte) :=
  match mode with
  | 0 => some (dflt, bs)
  | 1 => match bs with
    | [] => none
    | b :: rest => if b.toNat > maxSym then none else some (fseOne b.toNat, rest)
  | 2 => fseRead maxLog maxSym bs
  | _ => old.map fun t => (t, bs)

/-- Extra bits and base of a literals-length code. -/
def llExtra (c : Nat) : Nat :=
  if c < 16 then 0 else if c < 20 then 1 else if c < 22 then 2 else if c < 24 then 3
  else if c = 24 then 4 else c - 19
def llBase (c : Nat) : Nat :=
  [0, 1, 2, 3, 4, 5, 6, 7, 8, 9, 10, 11, 12, 13, 14, 15, 16, 18, 20, 22, 24, 28, 32, 40, 48].getD c (2 ^ (c - 19))

/-- Extra bits and base of a match-length code. -/
def mlExtra (c : Nat) : Nat :=
  if c < 32 then 0 else if c < 36 then 1 else if c < 38 then 2 else if c < 40 then 3 else if c < 42 then 4
  else if c = 42 then 5 else c - 36
def mlBase (c : Nat) : Nat :=
  if c < 32 then c + 3
  else [35, 37, 39, 41, 43, 47, 51, 59, 67, 83, 99].getD (c - 32) (2 ^ (c - 36) + 3)

/-- The offset of a sequence, and the repeat offsets after it; none for an offset of zero. -/
def zstOffset (v ll : Nat) (r : Nat × Nat × Nat) : Option (Nat × (Nat × Nat × Nat)) :=
  if v > 3 then some (v - 3, (v - 3, r.1, r.2.1))
  else
    match v - 1 + (if ll = 0 then 1 else 0) with
    | 0 => some (r.1, r)
    | 1 => some (r.2.1, (r.2.1, r.1, r.2.2))
    | 2 => some (r.2.2, (r.2.2, r.1, r.2.1))
    | _ => if r.1 ≤ 1 then none else some (r.1 - 1, (r.1 - 1, r.1, r.2.1))

/-- The three tables and states of a sequence section. -/
structure SeqSt where
  tll : Fse
  toff : Fse
  tml : Fse
  a : Nat
  b : Nat
  c : Nat

/-- The sequences of a block, carried out one by one, up to `room` bytes: the state after the last good
one, the literals left, and whether all were good and used up the stream. -/
def zstSeqs (t : SeqSt) : Nat → Nat → List Byte → List Bool → Zst → Zst × List Byte × Bool
  | 0, _, lits, l, z => (z, lits, l.isEmpty)
  | k + 1, room, lits, l, z =>
    let zero : FseCell := { sym := 0, nb := 0, base := 0 }
    let cl := t.tll.cells.getD t.a zero
    let co := t.toff.cells.getD t.b zero
    let cm := t.tml.cells.getD t.c zero
    let read : Option ((Nat × Nat × Nat) × List Bool) :=
      (getBack co.sym l).bind fun (vo, l1) =>
        (getBack (mlExtra cm.sym) l1).bind fun (vm, l2) =>
          (getBack (llExtra cl.sym) l2).map fun (vl, l3) =>
            ((2 ^ co.sym + vo, mlBase cm.sym + vm, llBase cl.sym + vl), l3)
    match read with
    | none => (z, lits, false)
    | some ((ov, ml, ll), l3) =>
      match zstOffset ov ll z.reps with
      | none => (z, lits, false)
      | some (d, reps) =>
        let here := lits.take ll
        if here.length < ll ∨ room < ll + ml ∨ d > z.n + ll then (z, lits, false)
        else
          let z1 : Zst :=
            { z with rev := copyBack d ml (here.reverse ++ z.rev), n := z.n + ll + ml, reps := reps }
          if k = 0 then zstSeqs t k (room - ll - ml) (lits.drop ll) l3 z1
          else
            let next : Option (SeqSt × List Bool) :=
              (getBack cl.nb l3).bind fun (x, l4) =>
                (getBack cm.nb l4).bind fun (y, l5) =>
                  (getBack co.nb l5).map fun (w, l6) =>
                    ({ t with a := cl.base + x, b := co.base + w, c := cm.base + y }, l6)
            match next with
            | none => (z1, lits.drop ll, false)
            | some (t1, l6) => zstSeqs t1 k (room - ll - ml) (lits.drop ll) l6 z1

/-- Append literals. -/
def Zst.push (z : Zst) (bs : List Byte) : Zst := { z with rev := bs.reverse ++ z.rev, n := z.n + bs.length }

/-- The number of sequences and the bytes after it. -/
def zstCount (bs : List Byte) : Option (Nat × List Byte) :=
  let b0 := fieldLE bs 0 1
  let h := if b0 < 128 then 1 else if b0 < 255 then 2 else 3
  if bs.length < h then none
  else
    some (if b0 < 128 then b0 else if b0 < 255 then (b0 - 128) * 256 + fieldLE bs 1 1
      else fieldLE bs 1 2 + 0x7F00, bs.drop h)

/-- The tables of a sequence section with the bytes after them. -/
def zstTables (z : Zst) (bs : List Byte) : Option ((Fse × Fse × Fse) × List Byte) :=
  match bs with
  | [] => none
  | m :: r0 =>
    let m := m.toNat
    if m % 4 ≠ 0 then none
    else
      (zstTable (m / 64) 9 35 llDefault z.ll r0).bind fun (tl, r1) =>
        (zstTable (m / 16 % 4) 8 31 offDefault z.off r1).bind fun (tf, r2) =>
          (zstTable (m / 4 % 4) 9 52 mlDefault z.ml r2).map fun (tm, r3) => ((tl, tf, tm), r3)

/-- A compressed block of at most `room` bytes; false where it is invalid. -/
def zstBlock (z : Zst) (room : Nat) (bs : List Byte) : Zst × Bool :=
  match zstLiterals z.huf bs with
  | none => (z, false)
  | some (lits, huf, r0) =>
    let z1 := { z with huf := huf }
    match zstCount r0 with
    | none => (z, false)
    | some (0, r1) => if lits.length > room ∨ r1 ≠ [] then (z, false) else (z1.push lits, true)
    | some (k, r1) =>
      let start : Option (SeqSt × List Bool) :=
        (zstTables z r1).bind fun ((tl, tf, tm), r2) =>
          (backBits r2).bind fun l =>
            (getBack tl.al l).bind fun (a, l1) =>
              (getBack tf.al l1).bind fun (b, l2) =>
                (getBack tm.al l2).map fun (c, l3) =>
                  ({ tll := tl, toff := tf, tml := tm, a := a, b := b, c := c }, l3)
      match start with
      | none => (z, false)
      | some (t, l) =>
        let (z2, left, ok) := zstSeqs t k room lits l { z1 with ll := some t.tll, off := some t.toff, ml := some t.tml }
        if !ok ∨ left.length + z2.n > z.n + room then (z2, false) else (z2.push left, true)

/-- The blocks of a frame from offset `o` on, of at most `most` bytes each: the bytes decoded, last first,
and the offset after the last block, or the invalid stream. -/
def zstBlocks (s : List Byte) (most : Nat) : Nat → Nat → Zst → Except Decoded (Zst × Nat)
  | 0, o, z => .error (badAt z.rev.reverse o)
  | fuel + 1, o, z =>
    let h := fieldLE s o 3
    let size := h / 8
    let typ := h / 2 % 4
    let body := (s.drop (o + 3)).take size
    let cut : Except Decoded (Zst × Nat) := .error (badAt z.rev.reverse s.length)
    if s.length < o + 3 then cut
    else if typ = 3 ∨ size > most then .error (badIn z.rev.reverse o (o + 2))
    else
      let go (z1 : Zst) (o1 : Nat) : Except Decoded (Zst × Nat) :=
        if h % 2 = 1 then .ok (z1, o1) else zstBlocks s most fuel o1 z1
      match typ with
      | 0 =>
        if body.length < size then .error (badAt (z.push body).rev.reverse s.length)
        else go (z.push body) (o + 3 + size)
      | 1 => if s.length < o + 4 then cut else go (z.push (List.replicate size (s.getD (o + 3) 0))) (o + 4)
      | _ =>
        if body.length < size then cut
        else
          let (z1, ok) := zstBlock z most body
          if ok then go z1 (o + 3 + size)
          else .error (badIn z1.rev.reverse (o + 3) (o + 2 + size))

/-- A frame at offset `o`, after its magic number. (PRESUMED, assumption 62.) -/
def zstFrame (s : List Byte) (o : Nat) : Decoded :=
  let d := fieldLE s o 1
  let single := bit d 5
  let w0 := fieldLE s (o + 1) 1
  let o1 := o + 1 + (if single then 0 else 1)
  let idLen := [0, 1, 2, 4].getD (d % 4) 0
  let o2 := o1 + idLen
  let csLen := if d / 64 = 0 then (if single then 1 else 0) else 2 ^ (d / 64)
  let o3 := o2 + csLen
  let size := fieldLE s o2 csLen + (if csLen = 2 then 256 else 0)
  let window := if single then size else 2 ^ (10 + w0 / 8) + 2 ^ (10 + w0 / 8) / 8 * (w0 % 8)
  if s.length ≤ o then badAt [] s.length
  else if bit d 3 then badAt [] o
  else if !single ∧ o + 1 < s.length ∧ window > 2 ^ 23 then badAt [] (o + 1)
  else if o2 ≤ s.length ∧ fieldLE s o1 idLen ≠ 0 then badIn [] o1 (o2 - 1)
  else if s.length < o3 then badAt [] s.length
  else if window > 2 ^ 23 then badIn [] o2 (o3 - 1)
  else
    match zstBlocks s (min window 131072) (s.length + 1) o3
        { rev := [], n := 0, reps := (1, 4, 8), huf := none, ll := none, off := none, ml := none } with
    | .error e => e
    | .ok (z, o4) =>
      let out := z.rev.reverse
      let t := if bit d 2 then leBytes 4 (checkVal 3 (checkMore 3 (checkInit 3) out)) else []
      if csLen ≠ 0 ∧ z.n ≠ size then badIn out o2 (o4 - 1)
      else if (s.drop o4).take t.length = t then { out := out, used := o4 + t.length, ok := true }
      else badAt out (o4 + prefixLen t.length t (s.drop o4))

/-- R340: any number of skippable frames, and one frame. -/
def zstFrames (s : List Byte) : Nat → Nat → Decoded
  | 0, o => badAt [] o
  | fuel + 1, o =>
    let m := fieldLE s o 4
    if s.length < o + 4 then badAt [] s.length
    else if m / 16 = 0x184D2A5 then
      let o1 := o + 8 + fieldLE s (o + 4) 4
      if s.length < o1 then badAt [] s.length else zstFrames s fuel o1
    else if m = 0xFD2FB528 then zstFrame s (o + 4)
    else badIn [] o (o + 3)

/-- R340: Zstandard input. (PRESUMED, assumption 62.) -/
def unzstd (s : List Byte) : Decoded := zstFrames s (s.length + 1) 0

end Sys2Proof.Machine
end

