-- ==== Sys2Proof/Machine/Decompress.lean ====
section
/-!
DEFINITION. The streams that DECOMPRESS accepts (R340).
-/

namespace Sys2Proof.Machine

/-- A raw stream at offset `o`, followed by a trailer that `f` computes from the output. -/
def inflateThen (s : List Byte) (o : Nat) (f : List Byte → List Byte) : Decoded :=
  let d := inflate s o
  if !d.ok then d
  else
    let t := f d.out
    if (s.drop d.used).take t.length = t then { d with used := d.used + t.length }
    else badAt d.out (d.used + prefixLen t.length t (s.drop d.used))

/-- R340: zlib. -/
def decodeZlib (s : List Byte) : Decoded :=
  let cmf := (s.getD 0 0).toNat
  let flg := (s.getD 1 0).toNat
  if s.length < 2 then badAt [] s.length
  else if cmf % 16 ≠ 8 ∨ cmf / 16 > 7 then badAt [] 0
  else if (cmf * 256 + flg) % 31 ≠ 0 ∨ bit flg 5 then badAt [] 1
  else inflateThen s 2 fun out =>
    (leBytes 4 (checkVal 1 (checkMore 1 (checkInit 1) out))).reverse

/-- The offset after a string that ends in a zero byte, or none. -/
def skipString (s : List Byte) (o : Nat) : Option Nat :=
  let n := ((s.drop o).takeWhile (· != 0)).length
  if o + n < s.length then some (o + n + 1) else none

/-- R340: the optional fields of a gzip header: where the data begins, or the offset found invalid. -/
def gzipData (s : List Byte) (flg : Nat) : Except Nat Nat :=
  let o1 := if bit flg 2 then 12 + fieldLE s 10 2 else 10
  match (if bit flg 3 then skipString s o1 else some o1) with
  | none => .error s.length
  | some o2 =>
    match (if bit flg 4 then skipString s o2 else some o2) with
    | none => .error s.length
    | some o3 =>
      if s.length < o3 then .error s.length
      else if bit flg 1 then
        if s.length < o3 + 2 then .error s.length
        else if fieldLE s o3 2 = crc32 0 (s.take o3) % 2 ^ 16 then .ok (o3 + 2) else .error o3
      else .ok o3

/-- R340: gzip, one member. -/
def decodeGzip (s : List Byte) : Decoded :=
  let flg := (s.getD 3 0).toNat
  let p := prefixLen 3 [0x1F, 0x8B, 0x08] s
  if p < 3 then badAt [] p
  else if s.length < 10 then badAt [] s.length
  else if flg / 32 ≠ 0 then badAt [] 3
  else
    match gzipData s flg with
    | .error o => badAt [] o
    | .ok o => inflateThen s o fun out => leBytes 4 (crc32 0 out) ++ leBytes 4 out.length

/-- R340: one stream decoded. (PRESUMED, assumption 62.) -/
def decodeFmt (fmt : Nat) (s : List Byte) : Decoded :=
  match fmt with
  | 0 => inflateThen s 0 fun _ => []
  | 1 => decodeZlib s
  | 2 => decodeGzip s
  | _ => unzstd s

end Sys2Proof.Machine
end

