-- ==== Sys2Proof/Machine/Compression.lean ====
section
/-!
DEFINITION. The compression engine: its lanes, COMPRESS and DECOMPRESS (R328 to R343, R249, R250).
-/

namespace Sys2Proof.Machine

/-! ## Lanes (R328) -/

/-- The jobs of a partition that wait for a lane: queue, slot and index; none once it is being reset (R446). -/
def Chip.waitingJobs (c : Chip) (p : Nat) : List (Nat × Nat × Word) :=
  c.queues.flatMap fun kq => if partOf kq.1 ≠ p ∨ c.inReset p then [] else
    kq.2.entries.filterMap fun ke =>
      if isJobOp ke.2.desc.opcode.toNat ∧ ke.2.phase = .ready ∧ !c.lanes.any (fun l => l.2 == kq.1 * 64 + ke.1)
      then some (kq.1, ke.1, ke.2.index) else none

/-- The job that a queue began first. -/
def firstJob : List (Nat × Nat × Word) → Option (Nat × Nat × Word)
  | [] => none
  | x :: xs =>
    match firstJob xs with
    | none => some x
    | some y => if x.1 = y.1 ∧ (y.2.2 - x.2.2).toNat ≥ 2 ^ 31 then some y else some x

/-- R92: the next queue after the last one served, among those with jobs. -/
def nextQueue (last : Nat) (js : List (Nat × Nat × Word)) : Option Nat :=
  (((rangeFrom 1 64).map fun i => (last + i) % 64).find? fun i => js.any fun j => indexOf j.1 == i)

/-- R328: a free lane takes the next job: partitions in round robin, queues in round robin (R92).
(DEDUCED, assumption 69.) -/
def Chip.laneStart (c : Chip) : Chip :=
  let free := (List.range 4).find? fun i =>
    (KMap.find i c.lanes).isNone && !bit (c.fld Fld.CDE_LANE_STATUS_OUT) i
  let ps := (rangeFrom 1 16).map fun i => (c.lanePart + i) % 16
  match free, ps.find? fun p => !(c.waitingJobs p).isEmpty with
  | some lane, some p =>
    let js := c.waitingJobs p
    match nextQueue (KMap.getD c.laneQueue p 63) js with
    | none => c
    | some qi =>
      match firstJob (js.filter fun j => indexOf j.1 == qi) with
      | none => c
      | some (q, slot, _) =>
        { c with lanes := KMap.set lane (q * 64 + slot) c.lanes, lanePart := p
                 laneQueue := KMap.set p qi c.laneQueue }.setBit Fld.CDE_LANE_STATUS_BUSY 0 lane
  | _, _ => c

/-- R328: COMPRESSION_LANE_START. -/
def execCompressionLaneStart (s : State) : Host.Outcome State Fault Refusal := onChip Chip.laneStart s

/-- The lane that runs a job. -/
def Chip.laneOf (c : Chip) (q slot : Nat) : Option Nat :=
  (c.lanes.find? fun l => l.2 == q * 64 + slot).map Prod.fst

/-- A lane is free again. -/
def Chip.freeLane (c : Chip) (lane : Nat) : Chip :=
  let b := c.fld Fld.CDE_LANE_STATUS_BUSY
  { c with lanes := KMap.erase lane c.lanes }.setFld Fld.CDE_LANE_STATUS_BUSY 0
    (if bit b lane then b - 2 ^ lane else b)

/-- A job's lane is free once the job has ended, and the job is counted (R343). (DEDUCED, assumption 69.) -/
def Chip.settleLane (c : Chip) (q slot lane : Nat) : Chip :=
  match (c.entry q slot).map Entry.phase with
  | some (.done _ _ _) => (c.freeLane lane).count Fld.CDE_JOB_CNT_COUNT
  | some _ => c
  | none => c.freeLane lane

/-- Execute a job that holds a lane. -/
def Chip.runJob (c : Chip) (q slot op : Nat) (f : Chip → Entry → Nat → Chip) : Chip :=
  match c.laneOf q slot with
  | none => c
  | some lane => (c.run q slot op fun c e => f c e lane).settleLane q slot lane

/-! ## The job block (R331) -/

/-- R331: the fields of a job block. -/
structure Job where
  fmt : Nat
  ctx : Bool
  first : Bool
  last : Bool
  srcList : Bool
  dstList : Bool
  checksum : Bool
  lazy : Bool
  depth : Nat
  wlog : Nat
  slot : Nat
  src : Nat
  dst : Nat
  srcBytes : Nat
  dstBytes : Nat
  histIn : Nat
  histOut : Nat
  rsvOk : Bool

/-- R331: a job block read. -/
def Job.ofBytes (b : List Byte) : Job :=
  let w := fieldLE b 0 4
  let v := fieldLE b 4 4
  { fmt := bits w 1 0, ctx := bit w 2, first := bit w 3, last := bit w 4, srcList := bit w 5,
    dstList := bit w 6, checksum := bit w 7, lazy := bit w 8, depth := bits w 20 10, wlog := bits w 28 24,
    slot := bits v 11 0, src := fieldLE b 8 8, dst := fieldLE b 0x10 8, srcBytes := fieldLE b 0x18 4,
    dstBytes := fieldLE b 0x1C 4, histIn := fieldLE b 0x20 8, histOut := fieldLE b 0x28 8,
    rsvOk := !bit w 9 && bits w 23 21 == 0 && bits w 31 29 == 0 && bits v 31 12 == 0 }

/-- R331: the settings of the parse are in range. -/
def Job.parseOk (j : Job) (comp : Bool) : Bool :=
  if comp then
    decide (1 ≤ j.depth) && decide (j.depth ≤ 1024)
      && (if j.fmt = 3 then decide (10 ≤ j.wlog) && decide (j.wlog ≤ 23) else j.wlog == 0)
  else j.wlog == 0

/-- R331, R332: the fields of a job outside context mode. -/
def Job.ok (j : Job) (comp : Bool) : Bool :=
  j.rsvOk && j.slot == 0 && j.parseOk comp
    && (comp || (j.first && j.last))
    && (if j.srcList then j.src % 16 == 0 else comp || decide (1 ≤ j.srcBytes))
    && (if j.dstList then j.dst % 16 == 0 else decide (1 ≤ j.dstBytes))
    && (if comp && !j.first then j.histIn % 4096 == 0 else j.histIn == 0)
    && (if comp && !j.last then j.histOut % 4096 == 0 else j.histOut == 0)

/-- R341: the fields of a job in context mode. -/
def Job.ctxOk (j : Job) (comp : Bool) : Bool :=
  j.rsvOk && j.parseOk comp && (j.fmt == 0 || j.fmt == 3)
    && !(j.first || j.last || j.srcList || j.dstList) && j.histIn == 0 && j.histOut == 0
    && j.srcBytes == 0 && j.dstBytes == 0 && decide (j.src < 2 ^ 17)
    && (if comp then j.dst % 256 == 0 else j.dst == 0)

/-- What a buffer list came to (R332). -/
inductive BufList where
  | bufs (l : List (Nat × Nat))
  | bad
  | failed (e : AccErr × Nat)

/-- R332: the entries of a list, up to the one with END. -/
def Chip.readList (c : Chip) (w : Actor) : Nat → Nat → BufList
  | 0, _ => .bad
  | n + 1, va =>
    match c.readVA w va 16 with
    | .error e => .failed e
    | .ok b =>
      let len := fieldLE b 8 4
      let f := fieldLE b 12 4
      if len = 0 ∨ 2 ≤ f then .bad
      else if f = 1 then .bufs [(fieldLE b 0 8, len)]
      else
        match Chip.readList c w n (va + 16) with
        | .bufs l => .bufs ((fieldLE b 0 8, len) :: l)
        | r => r

/-- The buffers of a side of a job. -/
def Chip.jobBufs (c : Chip) (w : Actor) (list : Bool) (va n : Nat) : BufList :=
  if list then c.readList w 4096 va else .bufs [(va, n)]

/-- The bytes that buffers hold together. -/
def bufTotal (l : List (Nat × Nat)) : Nat := l.foldl (fun n b => n + b.2) 0

/-- Whether two VA ranges share a byte. -/
def meets (a b : Nat × Nat) : Bool :=
  decide (a.1 < b.1 + b.2) && decide (b.1 < a.1 + a.2) && decide (0 < a.2) && decide (0 < b.2)

/-- The history areas of a job (R335). -/
def Job.areas (j : Job) : List (Nat × Nat) :=
  let n := 0x1000 + (if j.fmt = 3 then 2 ^ j.wlog else 32768)
  (if j.first then [] else [(j.histIn, n)]) ++ (if j.last then [] else [(j.histOut, n)])

/-- R333: an output buffer overlaps what the job reads. -/
def Job.overlaps (j : Job) (blk : Nat) (src dst : List (Nat × Nat)) : Bool :=
  let lists := (if j.srcList then [(j.src, 16 * src.length)] else [])
    ++ (if j.dstList then [(j.dst, 16 * dst.length)] else [])
  let others := (blk, 64) :: (src ++ (j.areas ++ lists))
  dst.any fun d => others.any (meets d)

/-- R331 to R333: what is read and checked before anything else; the job's buffers, or how it ends. -/
def Chip.jobBuffers (c : Chip) (q slot blk : Nat) (j : Job) (comp : Bool) :
    Except Chip (List (Nat × Nat) × List (Nat × Nat)) :=
  let w := c.actor q slot
  if !j.ok comp then .error (c.finishMalformed q slot)
  else
    match c.jobBufs w j.srcList j.src j.srcBytes with
    | .failed e => .error (c.failAt q slot FaultUnit.compression e)
    | .bad => .error (c.finishMalformed q slot)
    | .bufs src =>
      match c.jobBufs w j.dstList j.dst j.dstBytes with
      | .failed e => .error (c.failAt q slot FaultUnit.compression e)
      | .bad => .error (c.finishMalformed q slot)
      | .bufs dst =>
        if bufTotal src ≥ 2 ^ 32 ∨ j.overlaps blk src dst then .error (c.finishMalformed q slot)
        else .ok (src, dst)

/-! ## Input and output -/

/-- Read pieces as far as they can be read. -/
def Chip.readFar (c : Chip) (w : Actor) : List (Nat × Nat) → List Byte × Option (AccErr × Nat)
  | [] => ([], none)
  | (va, n) :: t =>
    match c.readPiece w .read va n with
    | .error e => ([], some (e, va))
    | .ok bs => let r := Chip.readFar c w t; (bs ++ r.1, r.2)

/-- The pieces of buffers, in order. -/
def bufPieces (l : List (Nat × Nat)) : List (Nat × Nat) := l.flatMap fun b => pieces b.1 b.2

/-- Write data over pieces in order: the state, and the failure that stopped it. -/
def Chip.writeFar (w : Actor) (q : Nat) (who : Requester) :
    List (Nat × Nat) → List Byte → Chip → Chip × Option (AccErr × Nat)
  | [], _, c => (c, none)
  | (va, k) :: t, bs, c =>
    if bs.isEmpty then (c, none)
    else
      match c.writePiece w q who va (bs.take k) with
      | .error e => (c, some (e, va))
      | .ok c1 => Chip.writeFar w q who t (bs.drop k) c1

/-- R342, R447: a job of a partition whose transfers are stopping writes no output beyond the next 4 KiB boundary. -/
def Chip.stopBytes (c : Chip) (q : Nat) (out : List Byte) : Option (List Byte) :=
  if c.stopping q && decide (4096 < out.length) then some (out.take 4096) else none

/-- Write a job's output, or leave all as it was where a write must wait. Where the partition's transfers are stopping, the
job ends at its next 4 KiB output boundary (R447). -/
def Chip.putOutput (c : Chip) (q slot : Nat) (dst : List (Nat × Nat)) (out : List Byte) : Chip × Option (Chip → Chip) :=
  let cut := c.stopBytes q out
  let (c1, err) := Chip.writeFar (c.actor q slot) q (.entry q slot) (bufPieces dst) (cut.getD out) c
  match err with
  | none => (c1, if cut.isSome then some fun c => c.finish q slot St.abortedReset 0 else none)
  | some x => if x.1.waits then (c, some id) else (c1, some fun c => c.failAt q slot FaultUnit.compression x)

/-- R331: the store of the result words. -/
def resultWords (blk out used check : Nat) : Nat × List Byte := (blk + 0x30, leBytes 8 out ++ leBytes 4 used ++ leBytes 4 check)

/-- R338: a lane withdrawn after a mismatch. (DEDUCED, assumption 69.) -/
def Chip.withdrawLane (c : Chip) (p lane : Nat) : Chip :=
  (c.setBit Fld.CDE_LANE_STATUS_OUT 0 lane).unitFault .compressionLane lane [p] .withdrawn

/-- R338, R339, R340: a job ends, and is counted by how it ends. -/
def Chip.jobEnds (c : Chip) (q slot lane : Nat) : JobEnd → Chip
  | .ok n => c.finishOk q slot n
  | .overflow => (c.finish q slot St.outputOverflow 0).count Fld.CDE_OVF_CNT_COUNT
  | .mismatch => ((c.finish q slot St.verifyMismatch 0).count Fld.CDE_VERIFY_CNT_COUNT).withdrawLane (partOf q) lane
  | .corrupt n => (c.finish q slot St.streamCorrupt n).count Fld.CDE_CORRUPT_CNT_COUNT

/-- A job waits to go on ending. -/
def Chip.endLater (c : Chip) (q slot : Nat) (k : JobEnd) (l : List (Nat × List Byte)) : Chip :=
  match c.entry q slot with
  | some e => c.setEntry q slot { e with ending := some (k, l) }
  | none => c

/-- R336, R342: the end of a job: its last stores in order, each once every write before it is acknowledged, so that a
refused output leaves no result words and no history behind. -/
def Chip.endJob (q slot lane : Nat) (k : JobEnd) : List (Nat × List Byte) → Chip → Chip
  | [], c => if c.acknowledged q slot then c.jobEnds q slot lane k else c.endLater q slot k []
  | x :: t, c =>
    if !c.acknowledged q slot then c.endLater q slot k (x :: t)
    else
      match c.writeVA (c.actor q slot) q (.entry q slot) x.1 x.2 with
      | .error e => if e.1.waits then c.endLater q slot k (x :: t) else c.failAt q slot FaultUnit.compression e
      | .ok c1 => Chip.endJob q slot lane k t c1

/-- R342: an input fault ends a job with part of the output before it written.
(DESIGN CHOICE, assumption 67.) -/
def Chip.inputFault (c : Chip) (q slot : Nat) (dst : List (Nat × Nat)) (out : List Byte)
    (err : AccErr × Nat) : Chip :=
  if err.1.waits then c.failAt q slot FaultUnit.compression err
  else
    let n := Config.freeNat c.ctr slot % (min out.length (bufTotal dst) + 1)
    (c.putOutput q slot dst (out.take n)).1.failAt q slot FaultUnit.compression err

/-! ## Histories (R335, R336) -/

/-- R335: the word at 0x04 of a history header. -/
def histWord (j : Job) (delivered : Bool) : Nat :=
  b2n delivered + 2 * j.fmt + 8 * (if j.fmt = 3 then j.wlog else 0) + 256 * b2n j.checksum

/-- R335: the running check and the repeat offsets as bytes, before they are masked. (DESIGN CHOICE, assumption 65.) -/
def statePlain (check repeats : List Nat) : List Byte :=
  let c := leBytes 1 check.length ++ (check.take 5).flatMap (leBytes 8)
    ++ List.replicate (8 * (5 - check.length)) 0 ++ (check.drop 5).flatMap (leBytes 1)
  c ++ List.replicate (80 - c.length) 0 ++ repeats.flatMap (leBytes 4)

/-- The running check and the repeat offsets that such bytes hold. -/
def stateOf (b : List Byte) : List Nat × List Nat :=
  ((List.range (fieldLE b 0 1)).map fun i => if i < 5 then fieldLE b (1 + 8 * i) 8 else fieldLE b (36 + i) 1,
   (List.range 3).map fun i => fieldLE b (80 + 4 * i) 4)

/-- R335: STATE, device-private, of a history. (DESIGN CHOICE, assumption 65.) -/
def histState (settings bytes : Nat) (plain : List Byte) : List Byte :=
  (List.range 0xEC).map fun i => plain.getD i 0 + Config.histMask settings bytes i

/-- R335: what a STATE holds. (DESIGN CHOICE, assumption 65.) -/
def histPlain (settings bytes : Nat) (state : List Byte) : List Byte :=
  (List.range 0xEC).map fun i => state.getD i 0 - Config.histMask settings bytes i

/-- R335: the 256 bytes of a header. (DESIGN CHOICE, assumption 65.) -/
def histHeader (j : Job) (bytes : Nat) (check repeats : List Nat) : List Byte :=
  let b := leBytes 4 0x54534948 ++ leBytes 4 (histWord j true) ++ leBytes 8 bytes
    ++ histState (histWord j true) bytes (statePlain check repeats)
  b ++ leBytes 4 (Config.histCheck b).toNat

/-- R336: whether a header may be continued by the job. -/
def histGood (j : Job) (b : List Byte) : Bool :=
  fieldLE b 0 4 == 0x54534948 && fieldLE b 4 4 == histWord j true
    && fieldLE b 0xFC 4 == (Config.histCheck (b.take 0xFC)).toNat

/-- The stream that a job works on, with what it continues. -/
def Job.stream (j : Job) (h : HistRead) : StreamJob :=
  { fmt := j.fmt, first := j.first, last := j.last, checksum := j.checksum, lazy := j.lazy, depth := j.depth
    wlog := j.wlog, window := h.window, bytes := h.bytes, check := h.check, repeats := h.repeats }

/-- R336: the history that a job continues, or how the job ends. (DESIGN CHOICE, assumption 65.) -/
def Chip.readHistory (c : Chip) (q slot : Nat) (j : Job) : Except Chip HistRead :=
  let h : HistRead := { check := checkInit j.fmt }
  if j.first then .ok h
  else
    let w := c.actor q slot
    let size := (j.stream h).w
    let absent (err : AccErr × Nat) : Chip :=
      if err.1.waits then c.failAt q slot FaultUnit.compression err
      else (c.countUe err.1).finish q slot St.historyAbsent 0
    match c.readVA w j.histIn 256 with
    | .error e => .error (absent e)
    | .ok b =>
      match c.readVA w (j.histIn + 0x1000) size with
      | .error e => .error (absent e)
      | .ok win =>
        if !histGood j b then .error (c.finish q slot St.historyAbsent 0)
        else
          let n := fieldLE b 8 8
          let st := stateOf (histPlain (histWord j true) n ((b.drop 0x10).take 0xEC))
          .ok { window := win.take (min n size), bytes := n, check := st.1, repeats := st.2 }

/-- R336: clear DELIVERED in the area that the job will deliver. -/
def Chip.clearHistory (c : Chip) (q slot : Nat) (j : Job) : Except (AccErr × Nat) Chip :=
  if j.last then .ok c
  else c.writeVA (c.actor q slot) q (.entry q slot) j.histOut
    (leBytes 4 0x54534948 ++ leBytes 4 (histWord j false))

/-- R336: the history read and DELIVERED cleared, once: the chip and the history, or how the job ends or waits. -/
def Chip.jobHistory (c : Chip) (q slot : Nat) (e : Entry) (j : Job) : Except Chip (Chip × HistRead) :=
  match e.hist with
  | some h => .ok (c, h)
  | none =>
    match c.readHistory q slot j with
    | .error c1 => .error c1
    | .ok h =>
      match c.clearHistory q slot j with
      | .error x => .error (c.failAt q slot FaultUnit.compression x)
      | .ok c1 => .ok (c1.setEntry q slot { e with hist := some h }, h)

/-- R331, R336: a job's last stores: the history's window, STATE and CHECK, the result words, and last of all the store
that delivers the history. -/
def Job.finalStores (j : Job) (blk : Nat) (s : StreamJob) (input : List Byte) (outBytes : Nat) : List (Nat × List Byte) :=
  let check := checkMore s.fmt s.check input
  let res := resultWords blk outBytes input.length (checkVal s.fmt check)
  if j.last then [res]
  else
    let all := s.window ++ input
    let h := histHeader j (s.bytes + input.length) check (s.body input).2
    [(j.histOut + 0x1000, all.drop (all.length - s.w)), (j.histOut + 8, h.drop 8), res, (j.histOut, h.take 8)]

/-! ## COMPRESS (R333 to R339) -/

/-- R337 to R339: the output of a COMPRESS, and how it ends; `bad` is the verifier's verdict. -/
def Chip.compressOut (c : Chip) (q slot lane blk : Nat) (j : Job) (s : StreamJob) (input : List Byte)
    (dst : List (Nat × Nat)) (bad : Bool) : Chip :=
  let out := s.output input
  match c.putOutput q slot dst (out.take (bufTotal dst)) with
  | (c1, some f) => f c1
  | (c1, none) =>
    if out.length > bufTotal dst then Chip.endJob q slot lane .overflow [] c1
    else if bad then Chip.endJob q slot lane .mismatch [] c1
    else Chip.endJob q slot lane (.ok out.length) (j.finalStores blk s input out.length) c1

/-- R333 to R339: a COMPRESS outside context mode. -/
def Chip.compressPlain (c : Chip) (q slot : Nat) (e : Entry) (lane blk : Nat) (j : Job) (bad : Bool) :
    Chip :=
  match c.jobBuffers q slot blk j true with
  | .error c1 => c1
  | .ok (src, dst) =>
    match c.jobHistory q slot e j with
    | .error c1 => c1
    | .ok (c1, h) =>
      let s := j.stream h
      match c1.readFar (c1.actor q slot) (bufPieces src) with
      | (input, some x) => c1.inputFault q slot dst ({ s with last := false }.output input) x
      | (input, none) => c1.compressOut q slot lane blk j s input dst bad

/-! ## Context mode (R249, R250, R341) -/

/-- What a tiering job works on. -/
structure Tier where
  b : BSlot
  w : Actor
  entry : CtxEntry

/-- R248, R256, R341: the first checks of a tiering job: the slot, the header and the entry.
(DEDUCED, assumption 68.) -/
def Chip.tier (c : Chip) (q slot : Nat) (e : Entry) (j : Job) (comp : Bool) : Except Chip Tier :=
  let p := partOf q
  if !c.flag Fld.DEV_CAPS0_CTX_ENGINE then .error (c.finish q slot St.illegalOpcode 0)
  else if !j.ctxOk comp then .error (c.finishMalformed q slot)
  else
    if c.slotBusy p j.slot e.beginSeq isCtxOp then .error c else
    match c.deviceSlot p j.slot with
    | none => .error (c.finish q slot St.slotStateInvalid 0)
    | some dev =>
      let b := c.bslot dev
      if !b.tierable then .error (c.finish q slot St.slotStateInvalid 0)
      else
        let w := b.actor p (q * 64 + slot)
        match c.ctxHeader w b with
        | .error err => .error (c.failAs q slot FaultUnit.compression w.asid err)
        | .ok none => .error (c.finish q slot St.contextPageFault 0)
        | .ok (some (_, h)) =>
          if j.src ≥ h.capacity then .error (c.finish q slot St.contextPageFault 0)
          else
            match c.ctxEntry w b.table j.src with
            | .error err => .error (c.failAs q slot FaultUnit.compression w.asid err)
            | .ok en => .ok { b := b, w := w, entry := en }

/-- R249, R341: the page's stream. -/
def tierStream (j : Job) (page : List Byte) : List Byte :=
  { j.stream { check := checkInit j.fmt } with first := true, last := true }.output page

/-- Write bytes at a partition-physical address on behalf of a queue. -/
def Chip.putPP (c : Chip) (q a : Nat) (bs : List Byte) : Except AccErr Chip := c.putRow q (partOf q) a 0 bs

/-- R342, R447: a context job of a partition whose transfers are stopping ends at its next 4 KiB boundary. -/
def Chip.stopTier (c : Chip) (q slot a : Nat) (out : List Byte) : Chip :=
  match c.putPP q a out with
  | .error e => c.failAt q slot FaultUnit.compression (e, 0)
  | .ok c1 => c1.finish q slot St.abortedReset 0

/-- R249: a page becomes an object: the object written, the entry, the pool, the account. -/
def Chip.tierDown (c : Chip) (q slot lane blk : Nat) (j : Job) (t : Tier) (page : Nat) (bs out : List Byte) : Chip :=
  let p := partOf q
  let clen := ceilDiv out.length 256 - 1
  match c.putPP q j.dst (out ++ List.replicate (256 * (clen + 1) - out.length) 0) with
  | .error e => c.failAt q slot FaultUnit.compression (e, 0)
  | .ok c1 =>
    match c1.writeVA t.w q (.entry q slot) (entryVa t.b.table j.src)
        (leBytes 8 (compressedWord j.dst clen (b2n (j.fmt == 3)))) with
    | .error e => (if e.1.waits then c else c1).failAs q slot FaultUnit.compression t.w.asid e
    | .ok c2 =>
      Chip.endJob q slot lane (.ok (256 * (clen + 1)))
        [resultWords blk out.length 65536 (checkVal j.fmt (checkMore j.fmt (checkInit j.fmt) bs))]
        ((c2.returnPage p page).carafe p t.b (256 * (clen + 1) - 65536 : Int))

/-- R249, R338: the object of a page; one beyond 65,280 bytes leaves the page as it is. -/
def Chip.tierOut (c : Chip) (q slot lane blk : Nat) (j : Job) (t : Tier) (page : Nat) (bs : List Byte) (bad : Bool) : Chip :=
  let out := tierStream j bs
  match c.stopBytes q out with
  | some o => c.stopTier q slot j.dst o
  | none =>
    if !bad ∧ out.length ≤ 65280 then c.tierDown q slot lane blk j t page bs out
    else
      match c.putPP q j.dst (out.take 65280) with
      | .error err => c.failAt q slot FaultUnit.compression (err, 0)
      | .ok c1 => Chip.endJob q slot lane (if bad then .mismatch else .ok 0) [] c1

/-- R249, R341: a COMPRESS in context mode. -/
def Chip.compressCtx (c : Chip) (q slot : Nat) (e : Entry) (lane blk : Nat) (j : Job) (bad : Bool) : Chip :=
  match c.tier q slot e j true with
  | .error c1 => c1
  | .ok t =>
    let p := partOf q
    let x := c.part p
    match t.entry with
    | .resident page =>
      if j.dst < x.scratchBytes ∨ j.dst + 65280 > x.memBytes then c.finish q slot St.contextPageFault 0
      else
        match c.readPP p page 65536 with
        | .error err => c.failAt q slot FaultUnit.compression (err, 0)
        | .ok bs => c.tierOut q slot lane blk j t page bs bad
    | _ => c.finish q slot St.contextPageFault 0

/-- Execute a COMPRESS or DECOMPRESS on its lane: one whose output is written goes on ending; otherwise its block is read. -/
def Chip.jobBlock (c : Chip) (q slot op : Nat) (f : Chip → Entry → Nat → Nat → Job → Chip) : Chip :=
  c.runJob q slot op fun c e lane =>
    match e.ending with
    | some (k, l) => Chip.endJob q slot lane k l c
    | none =>
      match c.readVA (c.actor q slot) e.desc.p0.toNat 64 with
      | .error err => c.failAt q slot FaultUnit.compression err
      | .ok b => f c e lane e.desc.p0.toNat (Job.ofBytes b)

/-- COMPRESS. (DESIGN CHOICE, assumption 13.) -/
def Chip.compress (c : Chip) (q slot : Nat) (bad : Bool) : Chip :=
  c.jobBlock q slot Op.compress fun c e lane blk j =>
    if j.ctx then c.compressCtx q slot e lane blk j bad else c.compressPlain q slot e lane blk j bad

/-- R337: COMPRESS; `mismatch` is what the verifier finds (R338). -/
def execCompress (q : BitVec 10) (slot : BitVec 6) (mismatch : Bool) (s : State) :
    Host.Outcome State Fault Refusal :=
  onChip (fun c => c.compress q.toNat slot.toNat mismatch) s

/-! ## DECOMPRESS (R340) -/

/-- R340: the result words of a decoded stream. -/
def Decoded.result (d : Decoded) (j : Job) (blk out used : Nat) : Nat × List Byte :=
  resultWords blk out used (checkVal j.fmt (checkMore j.fmt (checkInit j.fmt) (d.out.take out)))

/-- R339, R340: a DECOMPRESS outside context mode. -/
def Chip.decompressPlain (c : Chip) (q slot lane blk : Nat) (j : Job) : Chip :=
  match c.jobBuffers q slot blk j false with
  | .error c1 => c1
  | .ok (src, dst) =>
    let (input, err) := c.readFar (c.actor q slot) (bufPieces src)
    let d := decodeFmt j.fmt input
    let n := d.out.length
    match (if d.ok then none else err) with
    | some x => c.inputFault q slot dst d.out x
    | none =>
      match c.putOutput q slot dst (d.out.take (bufTotal dst)) with
      | (c1, some f) => f c1
      | (c1, none) =>
        if n > bufTotal dst then Chip.endJob q slot lane .overflow [] c1
        else Chip.endJob q slot lane (if d.ok then .ok n else .corrupt n) [d.result j blk n d.used] c1

/-- R250, R340: which input byte an object that decodes, but not to 65,536 bytes, is found invalid at: the spec names none,
so any. (DESIGN CHOICE, assumption 183.) -/
def Chip.tierUsed (c : Chip) (d : Decoded) : Nat := if d.ok then Config.freeNat c.ctr (2 ^ 78) % 2 ^ 32 else d.used

/-- R250: an object becomes a page; `c0` is the chip before the page was taken from the pool. -/
def Chip.tierUp (c0 c : Chip) (q slot lane blk : Nat) (j : Job) (t : Tier) (page n : Nat) (d : Decoded) : Chip :=
  let p := partOf q
  let out := d.out.take 65536
  match c.putPP q page out with
  | .error e => c0.failAt q slot FaultUnit.compression (e, 0)
  | .ok c1 =>
    if !d.ok ∨ d.out.length ≠ 65536 then
      Chip.endJob q slot lane (.corrupt out.length) [d.result j blk out.length (c.tierUsed d)] (c1.returnPage p page)
    else
      match c1.writeVA t.w q (.entry q slot) (entryVa t.b.table j.src) (leBytes 8 (residentWord page)) with
      | .error e => (if e.1.waits then c0 else c1.returnPage p page).failAs q slot FaultUnit.compression t.w.asid e
      | .ok c2 => Chip.endJob q slot lane (.ok 65536) [d.result j blk 65536 d.used] (c2.carafe p t.b (65536 - n : Int))

/-- R250, R341: a DECOMPRESS in context mode. -/
def Chip.decompressCtx (c : Chip) (q slot : Nat) (e : Entry) (lane blk : Nat) (j : Job) : Chip :=
  match c.tier q slot e j false with
  | .error c1 => c1
  | .ok t =>
    let p := partOf q
    match t.entry with
    | .compressed obj n cfmt =>
      let count := c.poolCount p
      if count = 0 then c.finish q slot St.contextPageFault 0
      else
        match c.readPP p obj n with
        | .error err => c.failAt q slot FaultUnit.compression (err, 0)
        | .ok bs =>
          match c.peekPool p 1 (c.poolHead p) count with
          | (_, _, .failed err) => c.failAt q slot FaultUnit.compression (err, 0)
          | (page :: _, head, .enough) =>
            let d := decodeFmt (3 * cfmt) bs
            let c1 := c.setPool p head (count - 1)
            match c.stopBytes q d.out with
            | some o => c1.stopTier q slot page o
            | none => Chip.tierUp c c1 q slot lane blk j t page n d
          | _ => (c.breakPool p).finish q slot St.contextPageFault 0
    | _ => c.finish q slot St.contextPageFault 0

/-- DECOMPRESS. -/
def Chip.decompress (c : Chip) (q slot : Nat) : Chip :=
  c.jobBlock q slot Op.decompress fun c e lane blk j =>
    if j.ctx then c.decompressCtx q slot e lane blk j else c.decompressPlain q slot lane blk j

/-- R340: DECOMPRESS. -/
def execDecompress (q : BitVec 10) (slot : BitVec 6) (s : State) : Host.Outcome State Fault Refusal :=
  onChip (fun c => c.decompress q.toNat slot.toNat) s

/-- R338: COMPRESSION_LANE_RETURN: a lane that passed its test returns. -/
def execCompressionLaneReturn (lane : BitVec 2) (s : State) : Host.Outcome State Fault Refusal :=
  onChip (fun c =>
    let o := c.fld Fld.CDE_LANE_STATUS_OUT
    if bit o lane.toNat then c.setFld Fld.CDE_LANE_STATUS_OUT 0 (o - 2 ^ lane.toNat) else c) s

end Sys2Proof.Machine
end

