-- ==== Sys2Proof/Machine/RasterBin.lean ====
section
/-!
DEFINITION. The geometry phase: DRAW and its blocks, vertex batches, set-up and binning (R271 to R290).
-/

namespace Sys2Proof.Machine

/-! ## FP32 arithmetic, RNE -/

def fRound (v : FVal) : Nat := fp32.round .rne false v
def fVal (n : Nat) : FVal := fp32.decode n
def fAdd (a b : Nat) : Nat := fRound ((fVal a).add .rne (fVal b))
def fSub (a b : Nat) : Nat := fRound ((fVal a).add .rne (fVal b).neg)
def fMul (a b : Nat) : Nat := fRound ((fVal a).mul (fVal b))
def fDiv (a b : Nat) : Nat := fRound ((fVal a).div (fVal b))
def fOne : Nat := 0x3F800000

/-- The correctly rounded quotient of two integers. -/
def fRatio (a b : Int) : Nat := fRound ((FVal.ofInt a).div (FVal.ofInt b))

/-! ## Blocks (R274 to R281) -/

/-- How a component of a sample is coded (R276). -/
inductive Comp where
  | unorm | srgb | half | single | uint
  deriving DecidableEq, Repr

/-- R276: bytes per sample, compressibility, and the components (R 0, G 1, B 2, A 3) with their place. -/
def fmtInfo (code : Nat) : Option (Nat × Bool × List (Nat × Nat × Nat × Comp)) :=
  match code with
  | 0x01 => some (1, true, [(0, 0, 8, .unorm)])
  | 0x02 => some (1, true, [(0, 0, 8, .uint)])
  | 0x03 => some (2, true, [(0, 0, 8, .unorm), (1, 8, 8, .unorm)])
  | 0x04 => some (2, true, [(0, 0, 16, .uint)])
  | 0x05 => some (2, true, [(0, 0, 16, .half)])
  | 0x06 => some (4, true, [(0, 0, 8, .unorm), (1, 8, 8, .unorm), (2, 16, 8, .unorm), (3, 24, 8, .unorm)])
  | 0x07 => some (4, true, [(0, 0, 8, .srgb), (1, 8, 8, .srgb), (2, 16, 8, .srgb), (3, 24, 8, .unorm)])
  | 0x08 => some (4, true, [(2, 0, 8, .unorm), (1, 8, 8, .unorm), (0, 16, 8, .unorm), (3, 24, 8, .unorm)])
  | 0x09 => some (4, true, [(0, 0, 10, .unorm), (1, 10, 10, .unorm), (2, 20, 10, .unorm), (3, 30, 2, .unorm)])
  | 0x0A => some (4, true, [(0, 0, 16, .half), (1, 16, 16, .half)])
  | 0x0B => some (4, true, [(0, 0, 32, .single)])
  | 0x0C => some (4, true, [(0, 0, 32, .uint)])
  | 0x0D => some (8, false, [(0, 0, 16, .half), (1, 16, 16, .half), (2, 32, 16, .half), (3, 48, 16, .half)])
  | 0x0E => some (8, false, [(0, 0, 32, .single), (1, 32, 32, .single)])
  | 0x20 => some (2, true, [])
  | 0x21 => some (4, true, [])
  | 0x22 => some (4, true, [])
  | _ => none

def fmtBytes (code : Nat) : Nat := (fmtInfo code).elim 0 Prod.fst
def fmtPacks (code : Nat) : Bool := (fmtInfo code).elim false fun f => f.2.1
def fmtComps (code : Nat) : List (Nat × Nat × Nat × Comp) := (fmtInfo code).elim [] fun f => f.2.2
def isDepthFmt (code : Nat) : Bool := decide (0x20 ≤ code)
def isUintFmt (code : Nat) : Bool := (fmtComps code).any fun c => c.2.2.2 == .uint

/-- R275: an attachment descriptor at offset `o` of the render-pass block. -/
def Att.ofBytes (b : List Byte) (o : Nat) : Att :=
  let w := fieldLE b (o + 0x10) 4
  let p := fieldLE b (o + 0x14) 4
  { va := fieldLE b o 8, md := fieldLE b (o + 8) 8, fmt := bits w 5 0, load := bits w 9 8, store := bit w 12,
    pitch := bits p 12 0, clear := fieldLE b (o + 0x18) 8, rva := fieldLE b (o + 0x20) 8,
    rmd := fieldLE b (o + 0x28) 8
    rsvOk := bits w 7 6 == 0 && bits w 11 10 == 0 && bits w 31 13 == 0 && bits p 31 13 == 0 }

/-- R275, R281, R299: an attachment in range. -/
def Att.ok (a : Att) (depth : Bool) (width msaa : Nat) : Bool :=
  a.rsvOk && (fmtInfo a.fmt).isSome && isDepthFmt a.fmt == depth && a.load != 3
    && a.va % 256 == 0 && a.md % 64 == 0 && a.rva % 256 == 0 && a.rmd % 64 == 0
    && decide (ceilDiv width 8 ≤ a.pitch) && decide (a.pitch ≤ 4096)
    && (a.md == 0 || (msaa == 0 && fmtPacks a.fmt)) && (a.rmd == 0 || fmtPacks a.fmt)
    && (a.rva == 0 || (!depth && msaa != 0))

/-- R274: the bytes of a render-pass block, from its header. -/
def passBytes (h : List Byte) : Nat :=
  let w := fieldLE h 4 4
  0x40 + 48 * (bits w 7 4 + b2n (bit w 8))

/-- R274: a render-pass block. -/
def RPass.ofBytes (b : List Byte) : RPass :=
  let s := fieldLE b 0 4
  let w := fieldLE b 4 4
  let n := bits w 7 4
  { width := bits s 15 0, height := bits s 31 16, msaa := bits w 1 0
    colours := (List.range n).map fun i => Att.ofBytes b (0x40 + 48 * i)
    depth := if bit w 8 then some (Att.ofBytes b (0x40 + 48 * n)) else none
    vtxKib := bits (fieldLE b 8 4) 23 0, chunks := bits (fieldLE b 12 4) 23 0
    rsvOk := bits w 3 2 == 0 && bits w 31 9 == 0 && bits (fieldLE b 8 4) 31 24 == 0
      && bits (fieldLE b 12 4) 31 24 == 0 && ((b.take 0x40).drop 0x10).all (· == 0) }

/-- R274, R281: a render-pass block in range. -/
def RPass.ok (r : RPass) : Bool :=
  r.rsvOk && decide (1 ≤ r.width) && decide (r.width ≤ 32768) && decide (1 ≤ r.height)
    && decide (r.height ≤ 32768) && decide (r.colours.length ≤ 8)
    && r.colours.all (fun a => a.ok false r.width r.msaa)
    && (match r.depth with | some a => a.ok true r.width r.msaa | none => true)
    && decide (4 ≤ r.vtxKib) && r.vtxKib % 4 == 0 && decide (1 ≤ r.chunks)

/-- R291: the size of a tile, and the tile columns and rows. -/
def RPass.tw (r : RPass) : Nat := if r.msaa = 3 then 32 else 64
def RPass.th (r : RPass) : Nat := if r.msaa < 2 then 64 else 32
def RPass.tx (r : RPass) : Nat := ceilDiv r.width r.tw
def RPass.ty (r : RPass) : Nat := ceilDiv r.height r.th
def RPass.tiles (r : RPass) : Nat := r.tx * r.ty
def RPass.samples (r : RPass) : Nat := 2 ^ r.msaa

/-- R286: where the vertex area and the chunks lie. -/
def RPass.vOff (r : RPass) : Nat := ceilDiv (256 + 8 * r.tiles) 4096 * 4096
def RPass.cOff (r : RPass) : Nat := r.vOff + 1024 * r.vtxKib

/-- R292: the granules of a tile. -/
def RPass.granules (r : RPass) : Nat :=
  let bs := (r.colours ++ r.depth.toList).foldl (fun n a => n + fmtBytes a.fmt) 0
  ceilDiv (r.tw * r.th * r.samples * bs) 4096 + 4

/-- R278: a draw block: FIRST, and the progress of the DRAW that it begins. -/
structure DrawBlk where
  first : Bool
  last : Bool
  topology : Nat
  index : Nat
  restart : Bool
  indexVa : Nat
  baseVertex : Nat
  vargs : Nat
  fargs : Nat
  rsvOk : Bool

def DrawBlk.ofBytes (b : List Byte) : DrawBlk :=
  let w := fieldLE b 0 4
  { first := bit w 0, last := bit w 1, topology := bits w 3 2, index := bits w 5 4, restart := bit w 6,
    indexVa := fieldLE b 8 8, baseVertex := fieldLE b 0x10 4, vargs := fieldLE b 0x18 8,
    fargs := fieldLE b 0x20 8
    rsvOk := bits w 31 7 == 0 && fieldLE b 4 4 == 0 && fieldLE b 0x14 4 == 0 && (b.drop 0x28).all (· == 0) }

/-- R278: a draw block in range. -/
def DrawBlk.ok (d : DrawBlk) : Bool :=
  d.rsvOk && d.index != 3 && (!d.restart || (d.topology == 3 && d.index != 0))
    && (match d.index with | 0 => d.indexVa == 0 | 1 => d.indexVa % 2 == 0 | _ => d.indexVa % 4 == 0)

/-- R279: a pipeline state block. -/
def Pipe.ofBytes (b : List Byte) : Pipe :=
  let w := fieldLE b 0x10 4
  let m := fieldLE b 0x14 4
  let f := fieldLE b 0x18 4
  let o := fieldLE b 0x1C 4
  let bl := (List.range 8).map fun i => fieldLE b (0x20 + 4 * i) 4
  { vs := fieldLE b 0 8, fs := fieldLE b 8 8, nvar := bits w 3 0, cull := bits w 5 4, frontCw := bit w 6,
    dfunc := bits w 10 8, dwrite := bit w 11, dtest := bit w 12, stest := bit w 13, flat := bits w 31 16,
    rmask := bits m 7 0, wmask := bits m 15 8, ref := bits m 23 16, front := bits f 11 0,
    back := bits f 27 16, outBase := bits o 7 0, dout := bit o 8, earlyZ := bit o 9, blend := bl
    rsvOk := !bit w 7 && bits w 15 14 == 0 && bits m 31 24 == 0 && bits f 15 12 == 0 && bits f 31 28 == 0
      && bits o 31 10 == 0 && bl.all fun x => bits x 31 15 == 0 }

/-- R280: a BLEND word in range. -/
def blendOk (w : Nat) : Bool := decide (bits w 2 0 ≤ 5) && decide (bits w 6 3 ≤ 9) && decide (bits w 10 7 ≤ 9)

/-- R281: a pipeline state in range for a render pass. -/
def Pipe.ok (s : Pipe) (r : RPass) : Bool :=
  s.rsvOk && decide (s.nvar ≤ 15) && s.cull != 3 && s.vs % 256 == 0 && s.fs % 256 == 0
    && s.blend.all blendOk
    && ((s.blend.zip r.colours).all fun x => !isUintFmt x.2.fmt || [0, 4, 5].contains (bits x.1 2 0))
    && (!s.stest || (match r.depth with | some a => a.fmt == 0x21 | none => false))
    && (!s.dtest || r.depth.isSome)

/-- R281: the registers that a pipeline state's programs need. -/
def Pipe.vsRegs (s : Pipe) : Nat := 8 + 4 * s.nvar
def Pipe.fsRegs (s : Pipe) (r : RPass) : Nat := s.outBase + 4 * r.colours.length + b2n s.dout

/-- R123, R124, R281: a program header: its status where it fails, with the header. -/
def Chip.programOk (c : Chip) (h : Header) (regs : Nat) : Option Half :=
  if !h.ok ∨ h.tiles ≠ 0 ∨ h.vregs < regs then some St.malformed
  else if !c.capsOk h then some St.illegalOpcode
  else none

/-! ## DRAW (R271 to R273) -/

def Chip.chain (c : Chip) (q : Nat) : Option Chain := KMap.find q c.chains
/-- The chain of a DRAW: the queue's open one, or the one kept with a DRAW that has executed. -/
def Chip.chainOf (c : Chip) (q slot : Nat) : Option Chain :=
  match (c.grid q slot).bind Grid.chain with
  | some x => some x
  | none => c.chain q
def Chip.setChain (c : Chip) (q : Nat) (x : Chain) : Chip := { c with chains := KMap.set q x c.chains }

/-- R271: every earlier DRAW of the queue has completed. -/
def Chip.drawTurn (c : Chip) (q slot : Nat) (e : Entry) : Bool :=
  (c.queue q).entries.all fun ke =>
    ke.1 == slot || ke.2.desc.opcode.toNat != Op.draw || decide ((ke.2.index - e.index).toNat < 2 ^ 31)

/-- R272: a DRAW of the open chain ends in an error before its geometry starts. (DEDUCED, assumption 73.) -/
def Chip.drawError (c : Chip) (q slot : Nat) (s : Half) (last : Bool) : Chip :=
  (c.finish q slot s 0 (s == St.malformed)).failChain q s last

/-- R272, R303: an access of a chained DRAW failed. -/
def Chip.drawFault (c : Chip) (q slot unit : Nat) (err : AccErr × Nat) (last : Bool) : Chip :=
  if err.1.status = St.ok then c.failAt q slot unit err
  else (c.failAt q slot unit err).failChain q err.1.status last

/-- The programs of a pipeline state: what they came to. (DEDUCED, assumption 73.) -/
def Chip.drawPrograms (c : Chip) (q slot : Nat) (s : Pipe) (r : RPass) (last : Bool) :
    Except Chip (Chip × Header) :=
  let w := c.actor q slot
  match c.readVA w s.vs 256, (if s.fs = 0 then .ok [] else c.readVA w s.fs 256) with
  | .error e, _ => .error (c.drawFault q slot FaultUnit.frontEnd e last)
  | _, .error e => .error (c.drawFault q slot FaultUnit.frontEnd e last)
  | .ok vb, .ok fb =>
    let vh := Header.ofBytes vb
    let fh := Header.ofBytes fb
    let c1 := c.compareKey q slot vh
    let c2 := if s.fs = 0 then c1 else c1.compareKey q slot fh
    match c2.programOk vh s.vsRegs, (if s.fs = 0 then none else c2.programOk fh (s.fsRegs r)) with
    | some st, _ => .error (c2.drawError q slot st last)
    | none, some st => .error (c2.drawError q slot st last)
    | none, none => .ok (c2, vh)

/-- R286: the units of 16 bytes of a vertex record. -/
def DrawRun.recUnits (d : DrawRun) : Nat := 1 + d.pipe.nvar

/-- R286: the header of a bin stream buffer. -/
def Chain.header (x : Chain) : List Byte :=
  leBytes 4 x.chunksUsed ++ leBytes 4 x.vtxUsed ++ leBytes 4 x.binned ++ leBytes 4 x.culled

/-- R286: the empty buffer that a FIRST DRAW writes. -/
def emptyBins (tiles : Nat) : List Byte :=
  List.replicate 256 0 ++ (List.range tiles).flatMap fun _ => leBytes 4 0xFFFFFFFF ++ leBytes 4 0

/-- R286, R289: the geometry phase of a checked DRAW starts. -/
def Chip.startDraw (c : Chip) (q slot : Nat) (e : Entry) (h : Header) (d : DrawRun) (x : Chain) : Chip :=
  let need := d.instances * d.count * d.recUnits
  match (if d.no = 0 then
      c.writeVA (c.actor q slot) q (.entry q slot) x.bsVa (emptyBins x.pass.tiles) else .ok c) with
  | .error err => c.drawFault q slot FaultUnit.grinder err d.last
  | .ok c1 =>
    if x.vtxUsed + need > 64 * x.pass.vtxKib then
      (c1.finish q slot St.outputOverflow 2).failChain q St.outputOverflow d.last
    else
      let d1 := { d with vbase := x.vtxUsed, vregs := h.vregs, since := c.gtc.toNat }
      let g : Grid := { draw := true, index := e.index, tag := e.desc.tag.toNat, codeVa := h.codeVa, codeBytes := h.codeBytes, entryOff := h.entry
                        vregs := h.vregs, wpw := 1, gx := 1, gy := 1, total := d.batches, seq := e.beginSeq
                        run := some d1 }
      ((c1.setChain q { x with vtxUsed := x.vtxUsed + need, draws := x.draws + 1 }).setEntry q slot
        { e with phase := .running }).setGrid q slot g

/-- R278 to R281: the draw block and pipeline state of a DRAW of the chain `x`, and its start.
(DEDUCED, assumption 73.) -/
def Chip.chainedDraw (c : Chip) (q slot : Nat) (e : Entry) (b : DrawBlk) (x : Chain) : Chip :=
  if !b.ok ∨ e.desc.p0.toNat % 8 ≠ 0 then c.drawError q slot St.malformed b.last
  else
    match c.readVA (c.actor q slot) e.desc.p0.toNat 64 with
    | .error err => c.drawFault q slot FaultUnit.frontEnd err b.last
    | .ok pb =>
      let s := Pipe.ofBytes pb
      if !s.ok x.pass then c.drawError q slot St.malformed b.last
      else
        match c.drawPrograms q slot s x.pass b.last with
        | .error c1 => c1
        | .ok (c1, h) =>
          match c1.entry q slot with
          | none => c1
          | some e1 => c1.startDraw q slot e1 h
              { no := x.draws, last := b.last, psVa := e.desc.p0.toNat, fargs := b.fargs, vargs := b.vargs
                topology := b.topology, index := b.index, indexVa := b.indexVa, restart := b.restart
                baseVertex := b.baseVertex, count := dbits e.desc.p2 31 0, instances := dbits e.desc.p2 63 32
                pipe := s, vbase := 0 } x

/-- R271, R274: a FIRST DRAW opens the chain and checks the render-pass block. (DEDUCED, assumption 73.) -/
def Chip.openChain (c : Chip) (q slot : Nat) (e : Entry) (b : DrawBlk) : Chip :=
  let rp := e.desc.p3.toNat
  let bs := e.desc.p4.toNat
  let x0 : Chain := { rpVa := rp, bsVa := bs }
  let w := c.actor q slot
  if rp % 64 ≠ 0 ∨ bs % 4096 ≠ 0 then (c.setChain q x0).drawError q slot St.malformed b.last
  else
    match c.readVA w rp 64 with
    | .error err => if err.1.status = St.ok then c.failAt q slot FaultUnit.frontEnd err
        else (c.setChain q x0).drawFault q slot FaultUnit.frontEnd err b.last
    | .ok h =>
      match c.readVA w rp (passBytes h) with
      | .error err => if err.1.status = St.ok then c.failAt q slot FaultUnit.frontEnd err
          else (c.setChain q x0).drawFault q slot FaultUnit.frontEnd err b.last
      | .ok rb =>
        let r := RPass.ofBytes rb
        if !r.ok then (c.setChain q x0).drawError q slot St.malformed b.last
        else
          let c1 := (c.setChain q { x0 with pass := r }).chainedDraw q slot e b { x0 with pass := r }
          -- a wait for outside data leaves the chain unopened, for the DRAW to start again
          match (c1.entry q slot).map Entry.phase with
          | some .ready => { c1 with chains := c.chains }
          | _ => c1

/-- R271, R272: DRAW. -/
def Chip.draw (c : Chip) (q slot : Nat) : Chip :=
  c.run q slot Op.draw fun c e =>
    if !c.drawTurn q slot e then c
    else if e.desc.p1.toNat % 8 ≠ 0 then (c.finishMalformed q slot).failChain q St.malformed false
    else
      match c.readVA (c.actor q slot) e.desc.p1.toNat 64 with
      | .error err => c.drawFault q slot FaultUnit.frontEnd err false
      | .ok bb =>
        let b := DrawBlk.ofBytes bb
        match c.chain q with
        | none => if b.first then c.openChain q slot e b else c.finishMalformed q slot
        | some x =>
          if b.first ∨ x.rpVa ≠ e.desc.p3.toNat ∨ x.bsVa ≠ e.desc.p4.toNat ∨ x.draws ≥ 65536 then
            c.finishMalformed q slot
          else
            match x.failed with
            | some s =>
              let c1 := c.finish q slot s 0 (s == St.malformed)
              if b.last then { c1 with chains := KMap.erase q c1.chains } else c1
            | none => c.chainedDraw q slot e b x

/-- R271: DRAW. -/
def execDraw (q : BitVec 10) (slot : BitVec 6) (s : State) : Host.Outcome State Fault Refusal :=
  onChip (fun c => c.draw q.toNat slot.toNat) s

/-! ## Vertex batches (R282) -/

/-- R278, R282: the index value of a position, and whether it restarts a strip. -/
def Chip.indexAt (c : Chip) (w : Actor) (d : DrawRun) (k : Nat) : Except (AccErr × Nat) (Nat × Bool) :=
  match d.index with
  | 0 => .ok (k, false)
  | i =>
    let n := 2 * i
    match c.readVA w (d.indexVa + n * k) n with
    | .error e => .error e
    | .ok b =>
      let v := leNat b
      .ok (v, d.restart && v == 2 ^ (8 * n) - 1)

/-- R282: the positions of a batch's lanes below the count, with their indices. -/
def Chip.batchIndices (c : Chip) (w : Actor) (d : DrawRun) :
    List Nat → Except (AccErr × Nat) (List (Nat × Nat × Bool))
  | [] => .ok []
  | k :: ks =>
    match c.indexAt w d k with
    | .error e => .error e
    | .ok i =>
      match Chip.batchIndices c w d ks with
      | .error e => .error e
      | .ok r => .ok ((k, i) :: r)

/-- R282: the registers of a vertex wave at launch; a lane beyond the count has a position and, where vertices are
indexed, no index: its v1 is free, by `any`. (DESIGN CHOICE, assumption 172.) -/
def vertexWave (g : Grid) (d : DrawRun) (id batch first inst : Nat) (ix : List (Nat × Nat × Bool)) (any : Nat → Nat) :
    Wave :=
  let index (l : Nat) : Nat := match ix[l]? with
    | some x => x.2.1
    | none => if d.index = 0 then first + l else any l
  { wg := id, k := 0, pc := g.entryOff
    exec := BitVec.ofNat 32 (ix.zipIdx.foldl (fun m l => if l.1.2.2 then m else m + 2 ^ l.2) 0)
    sregs := ([d.vargs % 2 ^ 32, d.vargs / 2 ^ 32, batch % 2 ^ 32, batch / 2 ^ 32, inst].zipIdx).foldl
      (fun m x => KMap.put 0 x.2 (BitVec.ofNat 32 x.1) m) []
    vregs := (List.range 32).foldl (fun m l =>
      KMap.put 0 (32 + l) (BitVec.ofNat 32 (index l + d.baseVertex)) (KMap.put 0 l (BitVec.ofNat 32 (first + l)) m)) [] }

/-- R282: launch a vertex batch on a cluster. -/
def Chip.launchBatch (q slot cl : Nat) (d : DrawRun) (c : Chip) (g : Grid) (i : Nat) :
    Except Chip (Chip × Grid) :=
  let per := ceilDiv d.count 32
  let ks := (rangeFrom (i % per * 32) 32).filter fun k => decide (k < d.count)
  match c.batchIndices (c.actor q slot) d ks with
  | .error e => .error (if e.1.status = St.ok then c.failAt q slot FaultUnit.frontEnd e
      else (c.capture (partOf q) e.1 FaultUnit.cluster (c.asidOf q) e.2 0).itemFault q slot e.1.status 0)
  | .ok ix =>
    let id := (c.cluster cl).nextWg
    let c1 := c.launch q slot cl i (g.shape i)
    let w := (c.pickSlots cl 1).headD 0
    let cut := (ix.filter fun x => x.2.2).map fun x => i / per * d.count + x.1
    .ok (c1.setWave (waveKey cl w) (vertexWave g d id i (i % per * 32) (i / per) ix fun l => Config.freeNat c.ctr (2 ^ 76 + l)),
      { g with run := some { d with restarts := distinct (d.restarts ++ cut) } })

/-- R143: a completed DISPATCH or DRAW with items to run again takes a free slot to run them. -/
def Chip.revive (c : Chip) (q slot : Nat) : Chip :=
  match c.grid q slot, c.entry q slot, (KMap.getD c.hist q []).find? (fun g => !g.redo.isEmpty) with
  | none, none, some g =>
    { c.setGrid q slot g with hist := KMap.modify q [] (·.erase g) c.hist }
  | _, _, _ => c

/-- R126, R282: launch a workgroup of a DISPATCH, or a vertex batch of a DRAW. -/
def Chip.workgroupLaunch (c0 : Chip) (q slot cl : Nat) : Chip :=
  let c := c0.revive q slot
  match (c.grid q slot).bind Grid.run with
  | none => c.launchItem q slot cl (fun _ => true) fun c g i => .ok (c.launch q slot cl i g, g)
  | some d => c.launchItem q slot cl (fun i => decide (i < d.batches)) (Chip.launchBatch q slot cl d)

/-- R126: WORKGROUP_LAUNCH. -/
def execWorkgroupLaunch (q : BitVec 10) (slot : BitVec 6) (c : BitVec 7) (s : State) :
    Host.Outcome State Fault Refusal :=
  onChip (fun ch => ch.workgroupLaunch q.toNat slot.toNat c.toNat) s

/-- R282: one lane's vertex record: its position and varyings. -/
def vertexRecord (wv : Wave) (nvar lane : Nat) : List Byte :=
  (List.range (4 + 4 * nvar)).flatMap fun j => leBytes 4 (KMap.getD wv.vregs (32 * (4 + j) + lane) 0).toNat

/-- R286: the VA of the vertex record at `off` units of 16 bytes. -/
def Chain.vtxVa (x : Chain) (off : Nat) : Nat := x.bsVa + x.pass.vOff + 16 * off

/-- R282: the vertex records of a batch, written at the end of its wave. -/
def Chip.writeBatch (w : Actor) (q : Nat) (who : Requester) (x : Chain) (d : DrawRun) (i : Nat) (wv : Wave) :
    List Nat → Chip → Except (AccErr × Nat) Chip
  | [], c => .ok c
  | l :: ls, c =>
    let per := ceilDiv d.count 32
    let r := i / per * d.count + i % per * 32 + l
    if !wv.exec.getLsbD l ∨ i % per * 32 + l ≥ d.count then Chip.writeBatch w q who x d i wv ls c
    else
      match c.writeVA w q who (x.vtxVa (d.vbase + r * d.recUnits)) (vertexRecord wv d.pipe.nvar l) with
      | .error e => .error e
      | .ok c1 => Chip.writeBatch w q who x d i wv ls c1

/-- R282: the end of a vertex wave. -/
def Chip.endVertex (c : Chip) (x : WCtx) (d : DrawRun) : Chip :=
  let q := x.wg.q
  match c.chainOf q x.wg.slot with
  | none => c.endWave x.cl x.w
  | some ch =>
    match Chip.writeBatch x.act q (.entry q x.wg.slot) ch d x.wg.index x.wv (List.range 32) c with
    | .error e => if e.1.status = St.ok then c
        else c.waveFaultAs FaultUnit.grinder x.cl x.w x.wv e.1 e.2
    | .ok c1 =>
      match c1.grid q x.wg.slot with
      | none => c1.endWave x.cl x.w
      | some g =>
        (c1.setGrid q x.wg.slot { g with run := some { d with doneBatches := d.doneBatches ++ [x.wg.index] } }).endWave
          x.cl x.w

/-! ## Set-up (R283, R284) -/

/-- What assembly finds next (R283): no primitive is left; a position is passed over; the positions of a
primitive, provoking vertex first. -/
inductive Next where
  | done
  | skip (d : DrawRun)
  | prim (ks : List Nat) (d : DrawRun)

/-- R283: the next primitive of a DRAW. -/
def DrawRun.next (d : DrawRun) : Next :=
  let n := match d.topology with | 0 => 1 | 1 => 2 | _ => 3
  let cut (k : Nat) : Bool := d.restarts.contains (d.inst * d.count + k)
  if d.inst ≥ d.instances then .done
  else if d.pos + n > d.count then .skip { d with inst := d.inst + 1, pos := 0, stripStart := 0 }
  else if d.topology < 3 then .prim (rangeFrom d.pos n) { d with pos := d.pos + n }
  else
    match (rangeFrom d.pos 3).find? cut with
    | some k => .skip { d with pos := k + 1, stripStart := k + 1 }
    | none =>
      .prim (if (d.pos - d.stripStart) % 2 = 0 then [d.pos, d.pos + 1, d.pos + 2]
             else [d.pos, d.pos + 2, d.pos + 1]) { d with pos := d.pos + 1 }

/-- The batches that the next primitive needs have ended. -/
def DrawRun.ready (d : DrawRun) : Bool :=
  let per := ceilDiv d.count 32
  (List.range 3).all fun k => decide (d.pos + k ≥ d.count)
    || d.doneBatches.contains (d.inst * per + (d.pos + k) / 32)

/-- A vertex in clip space: position, varyings, and its record where it has one. -/
structure CVtx where
  pos : List Nat
  vars : List Nat
  off : Option Nat

/-- R286: a vertex record read. -/
def CVtx.ofBytes (b : List Byte) (nvar off : Nat) : CVtx :=
  { pos := (List.range 4).map fun i => fieldLE b (4 * i) 4
    vars := (List.range (4 * nvar)).map fun i => fieldLE b (16 + 4 * i) 4, off := some off }

/-- R284: the signed distance of a vertex to plane `i`: z ≥ 0, z ≤ w, x ≥ −w, x ≤ w, y ≥ −w, y ≤ w. -/
def CVtx.dist (v : CVtx) (i : Nat) : Nat :=
  let x := v.pos.getD 0 0
  let y := v.pos.getD 1 0
  let z := v.pos.getD 2 0
  let w := v.pos.getD 3 0
  match i with
  | 0 => z
  | 1 => fSub w z
  | 2 => fAdd x w
  | 3 => fSub w x
  | 4 => fAdd y w
  | _ => fSub w y

/-- Outside a plane. -/
def CVtx.out (v : CVtx) (i : Nat) : Bool := (fVal (v.dist i)).lt (fVal 0)

/-- R284: the new vertex on the edge from `a` to `b`. -/
def clipEdge (i : Nat) (a b : CVtx) : CVtx :=
  let t := fDiv (a.dist i) (fSub (a.dist i) (b.dist i))
  let mix (u v : List Nat) : List Nat := (u.zip v).map fun p => fAdd p.1 (fMul t (fSub p.2 p.1))
  { pos := mix a.pos b.pos, vars := mix a.vars b.vars, off := none }

/-- One edge of a polygon against a plane. -/
def clipStep (i : Nat) (a b : CVtx) : List CVtx :=
  (if a.out i then [] else [a]) ++ (if a.out i != b.out i then [clipEdge i a b] else [])

/-- A closed polygon against a plane. -/
def clipPoly (vs : List CVtx) (i : Nat) : List CVtx :=
  match vs with
  | [] => []
  | v :: _ => (vs.zip (vs.drop 1 ++ [v])).flatMap fun e => clipStep i e.1 e.2

/-- A line against a plane. -/
def clipLine (vs : List CVtx) (i : Nat) : List CVtx :=
  match vs with
  | [a, b] => clipStep i a b ++ (if b.out i then [] else [b])
  | l => l

/-- R284 steps 1 and 2: the polygon left of a primitive and whether it was clipped; none where culled. -/
def clipPrim (vs : List CVtx) : Option (List CVtx × Bool) :=
  if (List.range 6).any fun i => vs.all fun v => v.out i then none
  else if (List.range 6).any fun i => vs.any fun v => v.out i then
    some ((List.range 6).foldl (if vs.length = 2 then clipLine else clipPoly) vs, true)
  else some (vs, false)

/-- The fan of a polygon from its first vertex `a`. -/
def fanFrom (a : CVtx) : List CVtx → List (List CVtx)
  | b :: c :: t => [a, b, c] :: fanFrom a (c :: t)
  | _ => []

/-- The fan of a polygon from its first vertex. -/
def fanOf : List CVtx → List (List CVtx)
  | a :: t => fanFrom a t
  | [] => []

/-- R284 step 3: nearest multiple of 1/256 pixel; a coordinate that is no number lands where the device
leaves it. (DESIGN CHOICE, assumption 71.) -/
def snap (v : Nat) : Int :=
  match fVal v with
  | .fin neg m e =>
    signed 40 (toIntSat 40 true .rne ((FVal.fin neg m e).mul (FVal.ofInt 256)))
  | _ => (Config.freeNat 0 v % 2 ^ 24 : Nat)

/-- R284 step 3: window coordinates. (DESIGN CHOICE, assumption 71.) -/
def CVtx.window (v : CVtx) (r : RPass) : PVtx :=
  let w := v.pos.getD 3 0
  let at' (c n : Nat) : Int :=
    snap (fMul (fAdd (fDiv (v.pos.getD c 0) w) fOne) (fRatio n 2))
  { x := at' 0 r.width, y := at' 1 r.height, z := fDiv (v.pos.getD 2 0) w, w := w, vars := v.vars }

/-- R286: the edge function, in units of 1/256 pixel. -/
def edge (ax ay bx by_ px py : Int) : Int := (bx - ax) * (py - ay) - (by_ - ay) * (px - ax)

/-- The signed area of a triangle. -/
def areaOf (a b c : PVtx) : Int := edge a.x a.y b.x b.y c.x c.y

/-- R284 step 4: culled after snapping. -/
def Pipe.culls (s : Pipe) (vs : List PVtx) : Bool :=
  match vs with
  | [a, b, c] =>
    let ar := areaOf a b c
    let front := decide (ar > 0) != s.frontCw
    ar == 0 || (s.cull == 1 && front) || (s.cull == 2 && !front)
  | [a, b] => a.x == b.x && a.y == b.y
  | _ => false

/-- R288: the tiles whose pixel rectangles meet the bounding box of the vertices, ascending. -/
def RPass.binsOf (r : RPass) (vs : List PVtx) : List Nat :=
  let clampTo (hi : Nat) (v : Int) : Nat := min (v.toNat) (256 * hi)
  let span (f : PVtx → Int) (size step n : Nat) : Nat × Nat :=
    let l := vs.map fun v => clampTo size (f v)
    (min (l.foldl min (256 * size) / (256 * step)) (n - 1), min (l.foldl max 0 / (256 * step)) (n - 1))
  let xs := span PVtx.x r.width r.tw r.tx
  let ys := span PVtx.y r.height r.th r.ty
  (rangeFrom ys.1 (ys.2 + 1 - ys.1)).flatMap fun y =>
    (rangeFrom xs.1 (xs.2 + 1 - xs.1)).map fun x => y * r.tx + x

/-! ## Binning (R286 to R289) -/

/-- What stops the grinder. -/
inductive BinStop where
  | overflow (what : Nat)
  | failed (e : AccErr × Nat)

/-- R287: a record of four words. -/
def rec4 (w0 w1 w2 w3 : Nat) : List Byte := leBytes 4 w0 ++ leBytes 4 w1 ++ leBytes 4 w2 ++ leBytes 4 w3

/-- Write for the grinder. -/
def Chip.grind (c : Chip) (q slot va : Nat) (bs : List Byte) : Except BinStop Chip :=
  match c.writeVA (c.actor q slot) q (.entry q slot) va bs with
  | .ok c1 => .ok c1
  | .error e => .error (.failed e)

/-- R286: the VA of record `r` of chunk `k`. -/
def Chain.recVa (x : Chain) (k r : Nat) : Nat := x.bsVa + x.pass.cOff + 4096 * k + 16 * r

/-- R287, R288: append a record to a tile's stream, taking a chunk where one is needed. -/
def Chip.appendRec (c : Chip) (q slot t : Nat) (x : Chain) (bs : List Byte) : Except BinStop (Chip × Chain) :=
  let k := x.chunksUsed
  match KMap.find t x.heads with
  | none =>
    if k ≥ x.pass.chunks then .error (.overflow 1)
    else
      match c.grind q slot (x.recVa k 0) bs with
      | .error e => .error e
      | .ok c1 => .ok (c1, { x with chunksUsed := k + 1
                                    heads := KMap.set t { first := k, chunk := k, recNo := 1 } x.heads })
  | some h =>
    if h.recNo < 255 then
      match c.grind q slot (x.recVa h.chunk h.recNo) bs with
      | .error e => .error e
      | .ok c1 => .ok (c1, { x with heads := KMap.set t { h with recNo := h.recNo + 1 } x.heads })
    else if k ≥ x.pass.chunks then .error (.overflow 1)
    else
      match c.grind q slot (x.recVa h.chunk 255) (rec4 0xF k 0 0) with
      | .error e => .error e
      | .ok c1 =>
        match c1.grind q slot (x.recVa k 0) bs with
        | .error e => .error e
        | .ok c2 => .ok (c2, { x with chunksUsed := k + 1
                                      heads := KMap.set t { h with chunk := k, recNo := 1 } x.heads })

/-- Append records to a tile's stream in order. -/
def Chip.appendRecs (q slot t : Nat) : List (List Byte) → Chip → Chain → Except BinStop (Chip × Chain)
  | [], c, x => .ok (c, x)
  | b :: bs, c, x =>
    match c.appendRec q slot t x b with
    | .error e => .error e
    | .ok (c1, x1) => Chip.appendRecs q slot t bs c1 x1

/-- R286: a tile's head as it stands. -/
def Chip.putHead (c : Chip) (q slot t : Nat) (x : Chain) : Except BinStop Chip :=
  match KMap.find t x.heads with
  | none => .ok c
  | some h => c.grind q slot (x.bsVa + 0x100 + 8 * t) (leBytes 4 h.first ++ leBytes 4 h.prims)

/-- R287, R288: a primitive's records in one tile. -/
def Chip.binTile (c : Chip) (q slot t : Nat) (d : DrawRun) (offs : List Nat) (x : Chain) :
    Except BinStop (Chip × Chain) :=
  let known := (KMap.find t x.heads).elim false fun h => h.draw == d.no + 1
  let o (i : Nat) := offs.getD i 0
  let pre := if known then [] else
    [rec4 (2 + d.no * 2 ^ 16) 0 (d.psVa % 2 ^ 32) (d.psVa / 2 ^ 32), rec4 3 0 (d.fargs % 2 ^ 32) (d.fargs / 2 ^ 32)]
  match Chip.appendRecs q slot t (pre ++ [rec4 (1 + 16 * offs.length) (o 0) (o 1) (o 2)]) c x with
  | .error e => .error e
  | .ok (c1, x1) =>
    let x2 := match KMap.find t x1.heads with
      | some h => { x1 with heads := KMap.set t { h with prims := h.prims + 1, draw := d.no + 1 } x1.heads }
      | none => x1
    match c1.putHead q slot t x2 with
    | .error e => .error e
    | .ok c2 => .ok (c2, x2)

/-- R288: a primitive's records in its tiles, ascending. -/
def Chip.binTiles (q slot : Nat) (d : DrawRun) (offs : List Nat) :
    List Nat → Chip → Chain → Except BinStop (Chip × Chain)
  | [], c, x => .ok (c, x)
  | t :: ts, c, x =>
    match c.binTile q slot t d offs x with
    | .error e => .error e
    | .ok (c1, x1) => Chip.binTiles q slot d offs ts c1 x1

/-- R286: the clip vertices of a polygon get records after those in use. -/
def Chip.storeClip (q slot : Nat) (d : DrawRun) :
    List CVtx → Chip → Chain → Except BinStop (Chip × Chain × List CVtx)
  | [], c, x => .ok (c, x, [])
  | v :: vs, c, x =>
    match v.off with
    | some _ =>
      match Chip.storeClip q slot d vs c x with
      | .error e => .error e
      | .ok (c1, x1, r) => .ok (c1, x1, v :: r)
    | none =>
      if x.vtxUsed + d.recUnits > 64 * x.pass.vtxKib then .error (.overflow 2)
      else
        match c.grind q slot (x.vtxVa x.vtxUsed) ((v.pos ++ v.vars).flatMap fun n => leBytes 4 n) with
        | .error e => .error e
        | .ok c1 =>
          match Chip.storeClip q slot d vs c1 { x with vtxUsed := x.vtxUsed + d.recUnits } with
          | .error e => .error e
          | .ok (c2, x2, r) => .ok (c2, x2, { v with off := some x.vtxUsed } :: r)

/-- R284 step 4, R288: the triangles of a fan (or a line or point): culled or binned; how many of each. -/
def Chip.binPrims (q slot : Nat) (d : DrawRun) :
    List (List CVtx) → Chip → Chain → Except BinStop (Chip × Chain × Nat × Nat)
  | [], c, x => .ok (c, x, 0, 0)
  | vs :: ps, c, x =>
    let ws := vs.map fun v => v.window x.pass
    if d.pipe.culls ws then
      match Chip.binPrims q slot d ps c x with
      | .error e => .error e
      | .ok (c1, x1, b, n) => .ok (c1, x1, b, n + 1)
    else
      match Chip.binTiles q slot d (vs.map fun v => v.off.getD 0) (x.pass.binsOf ws) c x with
      | .error e => .error e
      | .ok (c1, x1) =>
        match Chip.binPrims q slot d ps c1 x1 with
        | .error e => .error e
        | .ok (c2, x2, b, n) => .ok (c2, x2, b + 1, n)

/-- The vertex records of a primitive. -/
def Chip.readVtxs (c : Chip) (w : Actor) (d : DrawRun) (x : Chain) : List Nat → Except (AccErr × Nat) (List CVtx)
  | [] => .ok []
  | k :: ks =>
    let off := d.vbase + (d.inst * d.count + k) * d.recUnits
    match c.readVA w (x.vtxVa off) (16 * d.recUnits) with
    | .error e => .error e
    | .ok b =>
      match Chip.readVtxs c w d x ks with
      | .error e => .error e
      | .ok r => .ok (CVtx.ofBytes b d.pipe.nvar off :: r)

/-- R284, R288: one primitive clipped, culled and binned. -/
def Chip.setupPrim (c : Chip) (q slot : Nat) (d : DrawRun) (x : Chain) (vs : List CVtx) :
    Except BinStop (Chip × Chain × Nat) :=
  let cull (c : Chip) (x : Chain) (n : Nat) : Chip × Chain :=
    (c.count Fld.RAS_PIPE_CULL_CNT_COUNT 0 n, { x with culled := x.culled + n })
  match clipPrim vs with
  | none => let r := cull c x 1; .ok (r.1, r.2, 0)
  | some (poly, clipped) =>
    match Chip.storeClip q slot d poly c x with
    | .error e => .error e
    | .ok (c1, x1, poly) =>
      let prims := if vs.length = 3 then fanOf poly else if poly.length = vs.length then [poly] else []
      match Chip.binPrims q slot d prims c1 x1 with
      | .error e => .error e
      | .ok (c2, x2, b, n) =>
        let c3 := if clipped then c2.count Fld.RAS_PIPE_CLIP_CNT_COUNT else c2
        let r := cull (c3.count Fld.RAS_PIPE_PRIM_CNT_COUNT 0 b) x2 (if prims.isEmpty then 1 else n)
        .ok (r.1, { r.2 with binned := x2.binned + b }, b)

/-- R287: the END records of a finished chain's tiles, ascending. -/
def Chip.endTiles (q slot : Nat) : List Nat → Chip → Chain → Except BinStop (Chip × Chain)
  | [], c, x => .ok (c, x)
  | t :: ts, c, x =>
    match c.appendRec q slot t x (rec4 0 0 0 0) with
    | .error e => .error e
    | .ok (c1, x1) => Chip.endTiles q slot ts c1 x1

/-- R272, R289, R303: the grinder stopped. -/
def Chip.binStopped (c : Chip) (q slot : Nat) (s : BinStop) : Chip :=
  match s with
  | .overflow n => c.itemFault q slot St.outputOverflow n
  | .failed e =>
    if e.1.status = St.ok then c
    else
      let tag := match c.entry q slot with | some x => x.desc.tag.toNat | none => 0
      (c.capture (partOf q) e.1 FaultUnit.grinder (c.asidOf q) e.2 tag).itemFault q slot e.1.status 0

/-- R273, R286: the geometry phase ends, with the header as it then stands: the DRAW completes, or its chain's tile phase
begins. -/
def Chip.endGeometry (c : Chip) (q slot : Nat) (g : Grid) (d : DrawRun) (x : Chain) : Chip :=
  match (if d.last then Chip.endTiles q slot (x.heads.map Prod.fst) c x else .ok (c, x)) with
  | .error e => c.binStopped q slot e
  | .ok (c1, x1) =>
    match c1.grind q slot x.bsVa x1.header with
    | .error e => c.binStopped q slot e
    | .ok c2 =>
      if !d.last then (c2.setChain q x1).drawDone q slot g d
      else
        (c2.setChain q x1).setGrid q slot
          { g with base := d.batches, next := d.batches, total := d.batches + x.pass.tiles, perCluster := []
                   cremaKib := 4 * x.pass.granules, vregs := 0, run := some { d with tiles := true } }

/-- R283, R304: set-up can do its next piece of work on a DRAW: what it needs has run, and at the end every batch has. -/
def Chip.setupReady (c : Chip) (q slot : Nat) (g : Grid) (d : DrawRun) : Bool :=
  !d.tiles && g.chain.isNone && g.fault.isNone &&
  match d.next with
  | .done => !g.pending && !c.resident q slot
  | .skip _ => decide (d.pos + 1 ≥ d.count) || d.ready
  | .prim _ _ => d.ready

/-- R285: within a partition the grinder serves DRAWs in the order they became ready, the lower queue number first. -/
def Chip.setupTurn (c : Chip) (q slot : Nat) (d : DrawRun) : Bool :=
  c.grids.all fun kg =>
    match kg.2.run with
    | none => true
    | some o => kg.1 == q * 64 + slot || partOf (kg.1 / 64) != partOf q || !c.setupReady (kg.1 / 64) (kg.1 % 64) kg.2 o
        || decide (d.since < o.since) || (d.since == o.since && decide (q ≤ kg.1 / 64))

/-- R283 to R288: PRIMITIVE_SETUP: the next primitive of a DRAW in submission order. -/
def Chip.primitiveSetup (c : Chip) (q slot : Nat) : Chip :=
  match c.grid q slot, c.chain q with
  | some g, some x =>
    match g.run with
    | none => c
    | some d =>
      if !c.setupReady q slot g d ∨ x.failed.isSome ∨ !c.setupTurn q slot d then c
      else
        match d.next with
        | .done => c.endGeometry q slot g d x
        | .skip d1 => c.setGrid q slot { g with run := some d1 }
        | .prim ks d1 =>
          match c.readVtxs (c.actor q slot) d x ks with
          | .error e => if e.1.status = St.ok then c.failAt q slot FaultUnit.grinder e
              else c.binStopped q slot (.failed e)
          | .ok vs =>
            match c.setupPrim q slot d x vs with
            | .error e => c.binStopped q slot e
            | .ok (c1, x1, b) =>
              match c1.grind q slot x.bsVa x1.header with
              | .error e => c.binStopped q slot e
              | .ok c2 => (c2.setChain q x1).setGrid q slot { g with run := some { d1 with prims := d.prims + b } }
  | _, _ => c

/-- R284: PRIMITIVE_SETUP. -/
def execPrimitiveSetup (q : BitVec 10) (slot : BitVec 6) (s : State) : Host.Outcome State Fault Refusal :=
  onChip (fun c => c.primitiveSetup q.toNat slot.toNat) s

end Sys2Proof.Machine
end

