-- ==== Sys2Proof/Machine/SfuMath.lean ====
section
/-!
DEFINITION. The special functions of R139, computed in fixed point far below the last place of FP32: the exact values
between which an SFU result within its bound lies.
-/

namespace Sys2Proof.Machine

/-! Fixed point: a number over 2^512. -/

def fxOne : Nat := 2 ^ 512
def fxMul (a b : Nat) : Nat := (a * b) >>> 512
/-- π. -/
def fxPi : Nat :=
  0x3243f6a8885a308d313198a2e03707344a4093822299f31d0082efa98ec4e6c89452821e638d01377be5466cf34e90c6cc0ac29b7c97c50dd3f84d5b5b5470917
/-- The natural logarithm of 2. -/
def fxLn2 : Nat :=
  0xb17217f7d1cf79abc9e3b39803f2f6af40f343267298b62d8a0d175b8baafa2be7b876206debac98559552fb4afa1b10ed2eae35c138214427573b291169b825
/-- 2 / √π. -/
def fxErf : Nat :=
  0x120dd750429b6d11ae3a914fed7fd8688281341d7587cea2e7342b06199cc416180eb39f0b24e1e2281806c12d98f35d77a3e9ddc91c394f0e9eedf0efffd84a2

/-- e^x for x in [0, 1): the first `n` terms of the series, from the innermost. -/
def fxExp (x : Nat) : Nat → Nat → Nat
  | 0, acc => acc
  | n + 1, acc => fxExp x n (fxOne + fxMul x acc / (n + 1))

/-- sin y / y for y in [0, π/2], from y²: the first `n` terms of the series, from the innermost. -/
def fxSinc (y2 : Nat) : Nat → Nat → Nat
  | 0, acc => acc
  | n + 1, acc => fxSinc y2 n (fxOne - fxMul y2 acc / ((2 * n + 2) * (2 * n + 3)))

/-- The terms of erf x √π / 2 from x², from term `n` on, over x: those added and those taken away. -/
def fxErfTerms (x2 : Nat) : Nat → Nat → Nat → Nat × Nat → Nat × Nat
  | 0, _, _, acc => acc
  | fuel + 1, n, t, acc =>
    let d := t / (2 * n + 1)
    fxErfTerms x2 fuel (n + 1) (fxMul t x2 / (n + 1)) (if n % 2 = 0 then (acc.1 + d, acc.2) else (acc.1, acc.2 + d))

/-- The binary digits of log2 m for m in [1, 2), by repeated squaring. -/
def fxLog2 : Nat → Nat → Nat → Nat
  | 0, _, acc => acc
  | n + 1, m, acc =>
    let s := fxMul m m
    if s ≥ 2 * fxOne then fxLog2 n (s / 2) (2 * acc + 1) else fxLog2 n s (2 * acc)

/-- A fixed-point magnitude of `k` fraction bits as a value that is not exact: a sticky bit stands for the rest. -/
def fxVal (neg : Bool) (m k : Nat) : FVal := .fin neg (2 * m + 1) (-(k : Int) - 1)

/-- The fixed-point number of `m × 2^e` below 2^512; digits beyond the point's last are dropped. -/
def fxOf (m : Nat) (e : Int) : Nat := if e ≥ -512 then m <<< (e + 512).toNat else m >>> (-e - 512).toNat

/-- 2^x of ± m × 2^e, not an integer, within the exponents of FP32. -/
def exp2Val (neg : Bool) (m : Nat) (e : Int) : FVal :=
  let x := fxOf m e
  let i := x / fxOne
  let f := x % fxOne
  -- A negative x lies below the integer -i: 2^x = 2^(-i - 1) × 2^(1 - f).
  let (k, r) : Int × Nat := if neg then (-(i : Int) - 1, fxOne - f) else ((i : Int), f)
  .fin false (2 * fxExp (fxMul r fxLn2) 120 fxOne + 1) (k - 513)

/-- log2 of m × 2^e, no power of two. -/
def log2Val (m : Nat) (e : Int) : FVal :=
  let b := Nat.log2 m
  let i : Int := (b : Int) + e
  let f := fxLog2 200 (fxOf m (-(b : Int))) 0
  if i ≥ 0 then fxVal false (i.toNat * 2 ^ 200 + f) 200
  else fxVal true ((-i).toNat * 2 ^ 200 - f - 1) 200

/-- sin (π x) of ± x / 2^512. -/
def sinPiVal (neg : Bool) (x : Nat) : FVal :=
  let r := x % (2 * fxOne)
  let (n, r) := if r ≥ fxOne then (!neg, r - fxOne) else (neg, r)
  let r := if 2 * r > fxOne then fxOne - r else r
  let y := fxMul r fxPi
  fxVal n (fxMul y (fxSinc (fxMul y y) 120 fxOne)) 512

/-- tanh and erf far out: the greatest value below 1 by less than a place of FP32. -/
def nearOne (neg : Bool) : FVal := fxVal neg (2 ^ 64 - 1) 64

/-- tanh of ± m × 2^e. -/
def tanhVal (neg : Bool) (m : Nat) (e : Int) : FVal :=
  if (Nat.log2 m : Int) + e ≥ 4 then nearOne neg
  else
    let t := (List.range 5).foldl (fun t _ => fxMul t t) (fxExp (fxOf m e / 16) 120 fxOne)
    fxVal neg (((t - fxOne) <<< 512) / (t + fxOne)) 512

/-- erf of ± m × 2^e. -/
def erfVal (neg : Bool) (m : Nat) (e : Int) : FVal :=
  if (Nat.log2 m : Int) + e ≥ 3 then nearOne neg
  else
    let x := fxOf m e
    let s := fxErfTerms (fxMul x x) 400 0 fxOne (0, 0)
    fxVal neg (fxMul fxErf (fxMul x (s.1 - s.2))) 512

/-- R139: an encoding of FP32 within `k` units in the last place of a value, by a free number; an exact value has one more
of them below it. -/
def withinUlp (k t : Nat) (v : FVal) : Nat :=
  match v with
  | .fin neg m _ =>
    let exact := m % 2 == 0 || m == 1
    let a := fp32.round .rz false v % 2 ^ 31
    let n := a + t % (if exact then 2 * k + 1 else 2 * k)
    let lo := if exact then k else k - 1
    if n ≥ lo then fp32.withSign neg (n - lo) else fp32.withSign (!neg) (lo - n)
  | v => fp32.round .rne false v

end Sys2Proof.Machine
end

