-- ==== Sys2Proof/Machine/WaveMem.lean ====
section
/-!
DEFINITION. The MEM, SYNC, CTRL and SALU classes (R130, R132, R134, R135, R194).
-/

namespace Sys2Proof.Machine

/-- Errors of lane accesses name the lowest-numbered lane's VA; a crema access has none (R55). -/
abbrev LaneM (α : Type) := Except (AccErr × Nat) α

/-- The VA that a lane accesses: SRC0 with the signed offset, modulo 2^64. -/
def laneVa (x : WCtx) (a : Args) (lane : Nat) : Nat :=
  wrapN 64 ((x.wv.srcN (Operand.of a.src0) a.ext lane 2 : Int) + argOffset a)

/-- The actor of one lane's access. -/
def laneActor (x : WCtx) (lane : Nat) : Actor := { x.act with salt := lane }

/-- R132: read every active lane's data. (DESIGN CHOICE, assumption 14.) -/
def Chip.laneReads (c : Chip) (x : WCtx) (a : Args) (n : Nat) : List Nat → LaneM (List (Nat × Nat))
  | [] => .ok []
  | l :: ls =>
    match c.readVA (laneActor x l) (laneVa x a l) n with
    | .error e => .error e
    | .ok bs =>
      match Chip.laneReads c x a n ls with
      | .error e => .error e
      | .ok r => .ok ((l, leNat bs) :: r)

/-- R132: LD. -/
def execLd (c : BitVec 7) (w : BitVec 6) (size atop : BitVec 3) (a : Args) (s : State) :
    Host.Outcome State Fault Refusal :=
  onChip (fun ch => ch.issue c.toNat w.toNat Cls.mem (memOp 0 size atop) a (fun x => memLegal 0 size atop a x.wg.vregs) fun ch x =>
    let n := (sizeBytes size.toNat).getD 0
    match ch.laneReads x a n x.wv.lanes with
    | .error e => .error e
    | .ok r => .ok (ch, x.wv.writeLanes (Operand.of a.dst) (wordsOf n) r)) s

/-- R132: store every active lane's data, in lane order. (DESIGN CHOICE, assumption 14.) -/
def laneWrites (x : WCtx) (a : Args) (n : Nat) : List Nat → Chip → LaneM Chip
  | [], c => .ok c
  | l :: ls, c =>
    let v := x.wv.srcN (Operand.of a.src1) a.ext l (wordsOf n)
    match c.writeVA (laneActor x l) x.wg.q (.wave (waveKey x.cl x.w) none) (laneVa x a l) (leBytes n v) with
    | .error e => .error e
    | .ok c1 => laneWrites x a n ls c1

/-- R360: a release at system scope waits for the acknowledgements of the wave's remote writes. -/
def Chip.releaseWaits (c : Chip) (x : WCtx) (a : Args) : Bool :=
  decide (argOrder a ≥ 2) && argScope a == 4 && c.waveOutstanding (waveKey x.cl x.w)

/-- R134, R135, R360: a fence of any order at system scope, that of a barrier too, waits for them likewise. -/
def Chip.fenceWaits (c : Chip) (x : WCtx) (a : Args) : Bool :=
  argOrder a != 0 && argScope a == 4 && c.waveOutstanding (waveKey x.cl x.w)

/-- R132: ST. -/
def execSt (c : BitVec 7) (w : BitVec 6) (size atop : BitVec 3) (a : Args) (s : State) :
    Host.Outcome State Fault Refusal :=
  onChip (fun ch => ch.issue c.toNat w.toNat Cls.mem (memOp 1 size atop) a (fun x => memLegal 1 size atop a x.wg.vregs) fun ch x =>
    if ch.releaseWaits x a then .error (.stall, 0)
    else
      match laneWrites x a ((sizeBytes size.toNat).getD 0) x.wv.lanes ch with
      | .error e => .error e
      | .ok c1 => .ok (c1, x.wv)) s

/-- Where a lane's atomic goes; a misaligned one is refused (R132). -/
def Chip.atomicDest (c : Chip) (x : WCtx) (a : Args) (n lane : Nat) : LaneM Dest :=
  let va := laneVa x a lane
  if va % n ≠ 0 then .error (.perm, va)
  else
    match c.translate (laneActor x lane) .atomic va with
    | .ok (.here p) => if c.inWindow x.act.p p n then .error (.stall, va) else .ok (.here p)
    | .ok d => .ok d
    | .error e => .error (e, va)

/-- The key under which a lane's remote atomic result is delivered. -/
def atomicKey (lane : Nat) : Nat := 2 ^ 70 + 16 * lane

/-- A lane's delivered remote atomic result. -/
def Chip.atomicResult (c : Chip) (x : WCtx) (lane n : Nat) : Option Nat :=
  let buf := KMap.getD c.inbuf x.act.rid []
  let bs := (rangeFrom (atomicKey lane) n).filterMap fun k => KMap.find k buf
  if bs.length = n then some (leNat bs) else none

/-- The operand and compare value of a lane's atomic. -/
def atomicOps (x : WCtx) (a : Args) (n lane : Nat) : Nat × Nat :=
  (x.wv.srcN (Operand.of a.src1) a.ext lane (wordsOf n), x.wv.srcN (Operand.of a.src2) a.ext lane (wordsOf n))

/-- Send the remote atomics of the lanes that name other devices. -/
def sendAtomics (x : WCtx) (a : Args) (op n : Nat) : List Nat → Chip → LaneM Chip
  | [], c => .ok c
  | l :: ls, c =>
    match c.atomicDest x a n l with
    | .ok (.remote d ra) =>
      let (v, cmp) := atomicOps x a n l
      match c.requestRemote d ra (.atomic op n (BitVec.ofNat 64 v) (BitVec.ofNat 64 cmp)) x.act.p x.wg.q
          (.wave (waveKey x.cl x.w) (some l)) (laneVa x a l) with
      | .ok c1 => sendAtomics x a op n ls c1
      | .error e => .error (e, laneVa x a l)
    | .ok _ => sendAtomics x a op n ls c
    | .error e => .error e

/-- Perform the atomics of every lane in lane order, taking remote results as delivered.
(DESIGN CHOICE, assumption 14.) -/
def doAtomics (x : WCtx) (a : Args) (op n : Nat) : List Nat → Chip → LaneM (Chip × List (Nat × Nat))
  | [], c => .ok (c, [])
  | l :: ls, c =>
    let (v, cmp) := atomicOps x a n l
    let here : LaneM (Chip × Nat) :=
      match c.atomicDest x a n l with
      | .error e => .error e
      | .ok (.here p) =>
        match c.atomicPP x.act.p p n op v cmp with
        | .ok r => .ok (r.1.signLeft x.wg.q x.act.p p n, r.2)
        | .error e => .error (e, laneVa x a l)
      | .ok _ => .ok (c, (c.atomicResult x l n).getD 0)
    match here with
    | .error e => .error e
    | .ok (c1, old) =>
      match doAtomics x a op n ls c1 with
      | .error e => .error e
      | .ok (c2, r) => .ok (c2, (l, old) :: r)

/-- The lanes whose atomics go to other devices and are not yet answered. -/
def Chip.unanswered (c : Chip) (x : WCtx) (a : Args) (n : Nat) : List Nat :=
  x.wv.lanes.filter fun l =>
    match c.atomicDest x a n l with
    | .ok (.remote _ _) => (c.atomicResult x l n).isNone
    | _ => false

/-- R132, R136: ATOM. No lane's atomic is performed where a lane faults or a release has to wait; then the atomics for
other devices leave together, and the wave stands at the instruction until all are answered.
(DESIGN CHOICE, assumption 166.) -/
def Chip.atom (ch : Chip) (c w : Nat) (size atop : BitVec 3) (a : Args) : Chip :=
  let n := (sizeBytes size.toNat).getD 0
  ch.issueAs c w Cls.mem (memOp 2 size atop) a
    (fun x => atomLegal (ch.flag Fld.DEV_CAPS0_FP64) 2 size atop a x.wg.vregs) fun ch x =>
    match doAtomics x a atop.toNat n x.wv.lanes ch with
    | .error e => .failed e
    | .ok (c1, r) =>
      if ch.waveAsking (waveKey x.cl x.w) || ch.releaseWaits x a then .stays ch
      else if (ch.unanswered x a n).isEmpty then .done c1 (x.wv.writeLanes (Operand.of a.dst) (wordsOf n) r)
      else
        match sendAtomics x a atop.toNat n (ch.unanswered x a n) ch with
        | .ok c2 => .stays c2
        | .error e => .failed e

def execAtom (c : BitVec 7) (w : BitVec 6) (size atop : BitVec 3) (a : Args) (s : State) :
    Host.Outcome State Fault Refusal :=
  onChip (fun ch => ch.atom c.toNat w.toNat size atop a) s

/-- R132: LDS, uniform over the wave. -/
def execLds (c : BitVec 7) (w : BitVec 6) (size atop : BitVec 3) (a : Args) (s : State) :
    Host.Outcome State Fault Refusal :=
  onChip (fun ch => ch.issue c.toNat w.toNat Cls.mem (memOp 6 size atop) a (fun x => memLegal 6 size atop a x.wg.vregs) fun ch x =>
    let n := (sizeBytes size.toNat).getD 0
    match ch.readVA x.act (laneVa x a 0) n with
    | .error e => .error e
    | .ok bs => .ok (ch, x.wv.dstN (Operand.of a.dst) 0 (leNat bs) (wordsOf n))) s

/-! ## Crema accesses (R132, R192 to R194) -/

/-- R193: the crema byte of an offset in an allocation. -/
def cremaAddr (granules : List Nat) (o : Nat) : Nat := granules.getD (o / 4096) 0 * 4096 + o % 4096

/-- R132: bytes of a workgroup's crema at an offset, or the failure. (DESIGN CHOICE, assumption 146.) -/
def Cluster.cremaRead (k : Cluster) (gs : List Nat) (o n : Nat) : Except AccErr (List Byte) :=
  if o + n > gs.length * 4096 then .error .perm
  else
    let as := (rangeFrom o n).map (cremaAddr gs)
    if as.any fun x => k.cremaPoison.contains (x / 8) then .error (.poison none)
    else .ok (as.map fun x => KMap.getD k.crema x 0)

/-- Store bytes in a workgroup's crema; a whole 8-byte piece written is no longer poisoned. -/
def Cluster.cremaPut (k : Cluster) (gs : List Nat) (o : Nat) (bs : List Byte) : Cluster :=
  let as := (rangeFrom o bs.length).map (cremaAddr gs)
  { k with
    crema := (as.zip bs).foldl (fun m x => KMap.put 0 x.1 x.2 m) k.crema
    cremaPoison := k.cremaPoison.filter fun p => !(List.range 8).all fun i => as.contains (8 * p + i) }

/-- R132: a write beyond the allocation is refused. -/
def Cluster.cremaWrite (k : Cluster) (gs : List Nat) (o : Nat) (bs : List Byte) : Except AccErr Cluster :=
  if o + bs.length > gs.length * 4096 then .error .perm else .ok (k.cremaPut gs o bs)

/-- A lane's crema offset; a negative one lies beyond the allocation. -/
def laneOff (x : WCtx) (a : Args) (lane : Nat) : Nat :=
  let i := ((x.wv.src (Operand.of a.src0) a.ext lane).toNat : Int) + argOffset a
  if i < 0 then 2 ^ 40 else i.toNat

/-- R194: the 32-byte bank words that a lane's `n` bytes touch. -/
def bankWords (o n : Nat) : List Nat := distinct ((rangeFrom o n).map (· / 32))

/-- R194: the greatest number of accesses in any one bank: distinct words for loads and stores, lanes for
atomics. (DESIGN CHOICE, assumption 149.) -/
def portCycles (ws : List Nat) : Nat :=
  max 1 ((List.range 32).foldl (fun m b => max m (ws.filter fun w => w % 32 == b).length) 0)

/-- R195: whether port S touches one of the bank words in a cycle of its use. -/
def PortUse.touches (u : PortUse) (ws : List Nat) (cycle : Nat) : Bool :=
  u.areas.any fun a => ws.any fun w =>
    let b := a.base + a.step * cycle
    decide (b / 32 ≤ w) && decide (32 * w < min (b + a.len) a.top)

/-- R195: the cycles in which port S touches a bank word of the instruction, where one of the two writes. -/
def Cluster.collisions (k : Cluster) (wg : Nat) (ws : List Nat) (write : Bool) : Nat :=
  ((k.tensor.portS.filter fun u => u.wg == wg && (u.write || write)).map fun u =>
    ((List.range u.cycles).filter fun i => decide (k.tensor.now ≤ u.first + i) && u.touches ws i).length).sum

/-- R195: the cycles that an instruction on port V is delayed. (DESIGN CHOICE, assumption 173.) -/
def Chip.portDelay (c : Chip) (x : WCtx) (ws : List Nat) (write : Bool) : Nat :=
  let n := (c.cluster x.cl).collisions x.wv.wg ws write
  if n = 0 then 0 else Config.freeNat c.ctr (2 ^ 77) % (n + 1)

/-- R194, R195, R215: the cycles beyond the first and those of delay are counted in CREMA_CONFLICT. -/
def Chip.countConflict (c : Chip) (x : WCtx) (ws : List Nat) (write : Bool) : Chip :=
  c.count Fld.CREMA_CONFLICT_CYCLES (steer x.cl) (portCycles ws - 1 + c.portDelay x ws write)

/-- R192, R432: what the crema's SECDED finds as an access reads: each corrected error is counted, and each 8-byte
piece that it cannot correct is poisoned. -/
def Chip.cremaErrors (c : Chip) (cl : Nat) (e : CremaEcc) : Chip :=
  let k := c.cluster cl
  let c1 := if e.uncorrected.isEmpty then c else c.setCluster cl { k with
    cremaPoison := k.cremaPoison ++ (distinct (e.uncorrected.map (·.toNat))).filter fun p => !k.cremaPoison.contains p }
  if e.corrected = 0 then c1 else c1.count Fld.CREMA_ECC_CE (steer cl) e.corrected.toNat

/-- The bank words of the active lanes of a load or store. -/
def laneWords (x : WCtx) (a : Args) (n : Nat) : List Nat :=
  distinct (x.wv.lanes.flatMap fun l => bankWords (laneOff x a l) n)

/-- R132: LDC. -/
def execLdc (c : BitVec 7) (w : BitVec 6) (size atop : BitVec 3) (i : CremaArgs) (s : State) :
    Host.Outcome State Fault Refusal :=
  let a := i.toArgs
  onChip (fun ch => (ch.cremaErrors c.toNat i.ecc).issue c.toNat w.toNat Cls.mem (memOp 3 size atop) a
      (fun x => memLegal 3 size atop a x.wg.vregs) fun ch x =>
    let n := (sizeBytes size.toNat).getD 0
    let k := ch.cluster x.cl
    let read (acc : LaneM (List (Nat × Nat))) (l : Nat) : LaneM (List (Nat × Nat)) :=
      match acc, k.cremaRead x.wg.granules (laneOff x a l) n with
      | .error e, _ => .error e
      | .ok _, .error e => .error (e, 0)
      | .ok r, .ok bs => .ok (r ++ [(l, leNat bs)])
    match x.wv.lanes.foldl read (.ok []) with
    | .error e => .error e
    | .ok r => .ok (ch.countConflict x (laneWords x a n) false, x.wv.writeLanes (Operand.of a.dst) (wordsOf n) r)) s

/-- R132: STC. -/
def execStc (c : BitVec 7) (w : BitVec 6) (size atop : BitVec 3) (a : Args) (s : State) :
    Host.Outcome State Fault Refusal :=
  onChip (fun ch => ch.issue c.toNat w.toNat Cls.mem (memOp 4 size atop) a (fun x => memLegal 4 size atop a x.wg.vregs) fun ch x =>
    let n := (sizeBytes size.toNat).getD 0
    let store (acc : LaneM Cluster) (l : Nat) : LaneM Cluster :=
      match acc with
      | .error e => .error e
      | .ok k =>
        match k.cremaWrite x.wg.granules (laneOff x a l)
            (leBytes n (x.wv.srcN (Operand.of a.src1) a.ext l (wordsOf n))) with
        | .error e => .error (e, 0)
        | .ok k1 => .ok k1
    match x.wv.lanes.foldl store (.ok (ch.cluster x.cl)) with
    | .error e => .error e
    | .ok k => .ok ((ch.setCluster x.cl k).countConflict x (laneWords x a n) true, x.wv)) s

/-- R132, R194: ATOMC, lanes in ascending order. -/
def execAtomc (c : BitVec 7) (w : BitVec 6) (size atop : BitVec 3) (i : CremaArgs) (s : State) :
    Host.Outcome State Fault Refusal :=
  let a := i.toArgs
  onChip (fun ch => (ch.cremaErrors c.toNat i.ecc).issue c.toNat w.toNat Cls.mem (memOp 5 size atop) a
      (fun x => atomLegal (ch.flag Fld.DEV_CAPS0_FP64) 5 size atop a x.wg.vregs) fun ch x =>
    let n := (sizeBytes size.toNat).getD 0
    let gs := x.wg.granules
    let go (acc : LaneM (Cluster × List (Nat × Nat))) (l : Nat) : LaneM (Cluster × List (Nat × Nat)) :=
      match acc with
      | .error e => .error e
      | .ok (k, r) =>
        let o := laneOff x a l
        if o % n ≠ 0 then .error (.perm, 0)
        else
          match k.cremaRead gs o n with
          | .error e => .error (e, 0)
          | .ok bs =>
            let (v, cmp) := atomicOps x a n l
            .ok (k.cremaPut gs o (leBytes n (atomicVal atop.toNat n (leNat bs) v cmp)), r ++ [(l, leNat bs)])
    match x.wv.lanes.foldl go (.ok (ch.cluster x.cl, [])) with
    | .error e => .error e
    | .ok (k, r) =>
      .ok ((ch.setCluster x.cl k).countConflict x (x.wv.lanes.map fun l => laneOff x a l / 32) true,
        x.wv.writeLanes (Operand.of a.dst) (wordsOf n) r)) s

/-! ## SYNC (R134, R135) -/

/-- R134, R360: FENCE. Every access takes effect in its own step, so a fence only waits for the
acknowledgements of remote writes at system scope. -/
def execFence (c : BitVec 7) (w : BitVec 6) (a : Args) (s : State) : Host.Outcome State Fault Refusal :=
  onChip (fun ch => ch.issue c.toNat w.toNat Cls.sync (some 0) a (fun _ => syncLegal 0 a) fun ch x =>
    if ch.fenceWaits x a then .error (.stall, 0) else .ok (ch, x.wv)) s

/-- R135: BAR_SYNC: the wave arrives at its workgroup's barrier and waits there. -/
def execBarSync (c : BitVec 7) (w : BitVec 6) (a : Args) (s : State) : Host.Outcome State Fault Refusal :=
  onChip (fun ch => ch.issue c.toNat w.toNat Cls.sync (some 1) a (fun _ => syncLegal 1 a) fun ch x =>
    if ch.fenceWaits x a then .error (.stall, 0)
    else
      let k := ch.cluster x.cl
      .ok (ch.setCluster x.cl
            { k with wgs := KMap.set x.wv.wg { x.wg with arrived := x.wg.arrived ++ [x.w] } k.wgs },
           { x.wv with atBarrier := true })) s

/-- R135: once every live wave has arrived, all pass together. -/
def Chip.barrierPass (c : Chip) (cl id : Nat) : Chip :=
  let k := c.cluster cl
  match KMap.find id k.wgs with
  | none => c
  | some wg =>
    if wg.arrived.isEmpty || !wg.live.all (fun w => wg.arrived.contains w) then c
    else
      { c.setCluster cl { k with wgs := KMap.set id { wg with arrived := [] } k.wgs } with
        waves := c.waves.map fun kw =>
          if kw.1 / 64 = cl ∧ kw.2.wg = id then (kw.1, { kw.2 with atBarrier := false }) else kw }

def execBarrierPass (c : BitVec 7) (wg : Word) (s : State) : Host.Outcome State Fault Refusal :=
  onChip (fun ch => ch.barrierPass c.toNat wg.toNat) s

/-- R134: WAIT_MEM waits until every access of the wave has completed. -/
def execWaitMem (c : BitVec 7) (w : BitVec 6) (a : Args) (s : State) : Host.Outcome State Fault Refusal :=
  onChip (fun ch => ch.issue c.toNat w.toNat Cls.sync (some 2) a (fun _ => syncLegal 2 a) fun ch x =>
    if ch.waveOutstanding (waveKey x.cl x.w) then .error (.stall, 0) else .ok (ch, x.wv)) s

/-- R134: GTC_READ writes the global time counter to the scalar pair in DST. -/
def execGtcRead (c : BitVec 7) (w : BitVec 6) (a : Args) (s : State) : Host.Outcome State Fault Refusal :=
  onChip (fun ch => ch.issue c.toNat w.toNat Cls.sync (some 3) a (fun _ => syncLegal 3 a) fun ch x =>
    .ok (ch, x.wv.dstN (Operand.of a.dst) 0 ch.gtc.toNat 2)) s

/-! ## CTRL and SALU (R130) -/

/-- R133 for the classes whose catalogue is not in the manual: legal operand codes and register bounds. -/
def plainLegal (a : Args) (vregs : Nat) : Bool :=
  argOk a && [a.src0, a.src1, a.src2, a.dst].all fun o => (Operand.of o).srcOk vregs (a.len == 1)

/-- Operand values of a uniform instruction, as one number each. -/
def uniformSrc (x : WCtx) (a : Args) : Nat × Nat × Nat :=
  ((x.wv.src (Operand.of a.src0) a.ext 0).toNat, (x.wv.src (Operand.of a.src1) a.ext 0).toNat,
   (x.wv.src (Operand.of a.src2) a.ext 0).toNat)

/-- R130: a branch or call: where it leads and what its DST takes are the operation's, which the compiler's catalogue
defines. (DESIGN CHOICE, assumption 16.) -/
def execCtrlBranch (c : BitVec 7) (w : BitVec 6) (op : BitVec 10) (a : Args) (s : State) :
    Host.Outcome State Fault Refusal :=
  onChip (fun ch => ch.issue c.toNat w.toNat Cls.ctrl (some op.toNat) a (fun x => plainLegal a x.wg.vregs) fun ch x =>
    let (p, q, r) := uniformSrc x a
    let v := Config.catalogue 6 op.toNat (p + 2 ^ 32 * x.wv.pc) (q + 2 ^ 32 * x.wv.exec.toNat) (r + 2 ^ 32 * b2n x.wv.scc)
    .ok (ch, { x.wv.waveResult (Operand.of a.dst) (v / 2 ^ 32) with pc := v % 2 ^ 32 })) s

/-- R130: a scalar operation: its result and SCC are the operation's, which the catalogue defines.
(DESIGN CHOICE, assumption 16.) -/
def execSaluOp (c : BitVec 7) (w : BitVec 6) (op : BitVec 10) (a : Args) (s : State) :
    Host.Outcome State Fault Refusal :=
  onChip (fun ch => ch.issue c.toNat w.toNat Cls.salu (some op.toNat) a
    (fun x => plainLegal a x.wg.vregs) fun ch x =>
    let (p, q, r) := uniformSrc x a
    let v := Config.catalogue 0 op.toNat p q (r + 2 ^ 32 * b2n x.wv.scc)
    .ok (ch, { x.wv.waveResult (Operand.of a.dst) v with scc := bit v 32 })) s

end Sys2Proof.Machine
end

