-- ==== Sys2Proof/Machine/WaveAlu.lean ====
section
/-!
DEFINITION. The VALU and SFU classes (R130, R139, R171 to R191).
-/

namespace Sys2Proof

/-- Bits of a number format. -/
def NumFmt.width : NumFmt → Nat
  | .fp64 => 64
  | .fp32 => 32
  | .fp16 => 16
  | .bf16 => 16
  | .e4m3 => 8
  | .e5m2 => 8
  | .int w _ => w.toNat

/-- 32-bit registers that a value of the format occupies. -/
def NumFmt.words (f : NumFmt) : Nat := if f.width > 32 then 2 else 1

/-- The OP field of a VALU instruction, where the manual codes it: of an operation that it names no code for, none. -/
def ValuOp.field : ValuOp → Option Nat
  | .other o => some o.toNat
  | _ => none

end Sys2Proof

namespace Sys2Proof.Machine

/-- The floating-point format of a number format. -/
def floatOf : NumFmt → Option FFmt
  | .fp64 => some fp64
  | .fp32 => some fp32
  | .fp16 => some fp16
  | .bf16 => some bf16
  | .e4m3 => some e4m3
  | .e5m2 => some e5m2
  | .int _ _ => none

/-- R179: the formats that VALU arithmetic computes on. -/
def arithFloat : NumFmt → Option FFmt
  | .fp64 => some fp64
  | .fp32 => some fp32
  | .fp16 => some fp16
  | .bf16 => some bf16
  | _ => none

/-- R171: the integer that an encoding of a width and signedness stands for. -/
def intVal (w : Nat) (sg : Bool) (n : Nat) : Int := if sg then signed w n else ((n % 2 ^ w : Nat) : Int)

/-- The value of an encoding in any number format. -/
def numVal (f : NumFmt) (n : Nat) : FVal :=
  match f with
  | .int w sg => .ofInt (intVal w.toNat sg n)
  | f =>
    match floatOf f with
    | some x => x.decode (n % 2 ^ f.width)
    | none => .nan

/-- R178: the rounding mode in MOD[3:1]; 4 to 7 are illegal. -/
def valuRound (m : BitVec 5) : Option Round :=
  match m.toNat / 2 % 8 with
  | 0 => some .rne
  | 1 => some .rz
  | 2 => some .ru
  | 3 => some .rd
  | _ => none

/-- R185: an integer width of the conversions. -/
def intWidthOk (w : Nat) : Bool := w == 4 || w == 8 || w == 32 || w == 64

/-- R185: a conversion. (DEDUCED, assumption 19.) -/
def convert (dst src : NumFmt) (mode : Round) (satf : Bool) (n : Nat) : Nat :=
  match dst with
  | .int w sg =>
    match src with
    | .int sw ss => wrapN w.toNat (intVal sw.toNat ss n)
    | _ => toIntSat w.toNat sg mode (numVal src n)
  | d =>
    match floatOf d with
    | some f => f.round mode satf (numVal src n)
    | none => 0

/-- R185: the saturating form between integer widths. (DEDUCED, assumption 19.) -/
def clampInt (dst src : NumFmt) (n : Nat) : Nat :=
  match dst with
  | .int w sg => toIntSat w.toNat sg .rz (numVal src n)
  | _ => 0

/-- R179, R182: addition of two encodings. -/
def floatAdd (f : FFmt) (mode : Round) (a b : Nat) : Nat :=
  f.round mode false ((f.decode a).add mode (f.decode b))

/-- R171, R179 to R184: the result of a two- or three-operand VALU operation on one lane. A value narrower than its
register stands in the low bits, and the bits above are 0. (DESIGN CHOICE, assumptions 16, 17, 18, 170.) -/
def valuResult (op : ValuOp) (mode : Round) (satf : Bool) (a b d : Nat) : Nat :=
  let intOp (f : NumFmt) (i : Nat) : Nat := i % 2 ^ f.width
  match op with
  | .add f => match arithFloat f with
    | some x => floatAdd x mode a b
    | none => intOp f (a + b)
  | .sub f => match arithFloat f with
    | some x => x.round mode false ((x.decode a).add mode (x.decode b).neg)
    | none => wrapN f.width ((a : Int) - b)
  | .mul f => match arithFloat f with
    | some x => x.round mode false ((x.decode a).mul (x.decode b))
    | none => intOp f (a * b)
  | .div f => match arithFloat f with
    | some x => x.round mode false ((x.decode a).div (x.decode b))
    | none => Config.catalogue 1 (2 ^ 10) a b f.width
  | .fma f => match arithFloat f with
    | some x => x.round mode false (((x.decode a).mul (x.decode b)).add mode (x.decode d))
    | none => intOp f (a * b + d)
  | .cmp f p =>
    let q : FCmp := match p with
      | .eq => .eq | .ne => .ne | .lt => .lt | .le => .le | .gt => .gt | .ge => .ge
      | .ord => .ord | .unord => .unord
    Config.catalogue 1 (2 ^ 12) (b2n (q.eval (numVal f a) (numVal f b))) 0 0
  | .cvt t s => convert t s mode satf a
  | .clampInt t s => clampInt t s a
  | .mov _ => a
  | .select _ => if Config.catalogue 1 (2 ^ 13) d 0 0 % 2 = 1 then b else a
  | .neg f => match floatOf f with
    | some x => a % 2 ^ x.width ^^^ 2 ^ (x.width - 1)
    | none => wrapN f.width (-(a : Int))
  | .abs f => match f with
    | .int w sg =>
      let i := intVal w.toNat sg a
      if sg && i == -((2 ^ (f.width - 1) : Nat) : Int) then Config.catalogue 1 (2 ^ 11) a f.width 0 else i.natAbs
    | _ => a % 2 ^ (f.width - 1)
  | .copysign f => match floatOf f with
    | some x => a % 2 ^ (x.width - 1) + (if bit b (x.width - 1) then 2 ^ (x.width - 1) else 0)
    | none => a % 2 ^ f.width
  | .and _ => a &&& b
  | .or _ => a ||| b
  | .xor _ => a ^^^ b
  | .not wide => a ^^^ (if wide then 0xFFFFFFFFFFFFFFFF else 0xFFFFFFFF)
  | .other o => Config.catalogue 1 o.toNat a b d

/-- Words of the destination and of the sources of an operation (R190: moves and bit operations have 64-bit forms). -/
def valuWords : ValuOp → Nat × Nat
  | .mov w | .select w | .and w | .or w | .xor w | .not w => if w then (2, 2) else (1, 1)
  | .cvt t s => (t.words, s.words)
  | .clampInt t s => (t.words, s.words)
  | .cmp f _ => (1, f.words)
  | .add f | .sub f | .mul f | .div f | .fma f | .neg f | .abs f | .copysign f => (f.words, f.words)
  | _ => (1, 1)

/-- R185: a floating-point format holds every value of another. -/
def holdsAll (dst src : NumFmt) : Bool :=
  match floatOf dst, floatOf src with
  | some d, some s => d == s || (decide (s.mbits ≤ d.mbits) && decide (s.ebits < d.ebits))
      || (decide (s.mbits < d.mbits) && decide (s.ebits ≤ d.ebits))
  | _, _ => false

/-- Whether an operation rounds, and so uses RMODE (R178): a conversion into a format that holds every value of the
source is exact (R185). -/
def valuRounds : ValuOp → Bool
  | .add f | .sub f | .mul f | .div f | .fma f => (arithFloat f).isSome
  | .cvt (.int _ _) (.int _ _) => false
  | .cvt t s => !holdsAll t s
  | _ => false

/-- R190: FP64 arithmetic and conversions need the FP64 unit. -/
def valuNeedsFp64 : ValuOp → Bool
  | .add f | .sub f | .mul f | .div f | .fma f | .cmp f _ => f == .fp64
  | .cvt t s => t == .fp64 || s == .fp64
  | _ => false

/-- R171, R179, R190: the formats that an operation may name: arithmetic is on FP64, FP32, FP16, BF16 and the integers. -/
def valuFormatOk : ValuOp → Bool
  | .add f | .sub f | .mul f | .div f | .fma f =>
    (arithFloat f).isSome || (match f with | .int w _ => intWidthOk w.toNat | _ => false)
  | .cvt t s =>
    (match t with | .int w _ => intWidthOk w.toNat | _ => true)
      && (match s with | .int w _ => intWidthOk w.toNat | _ => true)
  | .clampInt (.int w _) (.int v _) => intWidthOk w.toNat && intWidthOk v.toNat
  | .clampInt _ _ => false
  | _ => true

/-- R178: MOD bits that the operation does not use are RsvdZ; RMODE 4 to 7 and SATF without an E4M3
destination are illegal. `other` operations use MOD as their own catalogue says. -/
def valuModOk (op : ValuOp) (m : BitVec 5) : Bool :=
  match op with
  | .other _ => true
  | _ =>
    let n := m.toNat
    n % 2 == 0 && (if valuRounds op then (valuRound m).isSome else n / 2 % 8 == 0)
      && (n / 16 == 0 || (match op with | .cvt .e4m3 _ => true | _ => false))

/-- R131, R133: a source of the VALU of `words` registers: no rule makes another legal code illegal. -/
def valuSrcOk (o : Operand) (vregs words : Nat) (long : Bool) : Bool :=
  o.srcOk vregs long && (!(o.isV || o.isS) || o.regOk vregs words)

/-- Legality of a VALU instruction. -/
def valuLegal (fp64 : Bool) (op : ValuOp) (a : Args) (vregs : Nat) : Bool :=
  let (dw, sw) := valuWords op
  let long := a.len == 1
  argOk a && valuFormatOk op && valuModOk op a.mod && (fp64 || !valuNeedsFp64 op)
    && valuSrcOk (Operand.of a.dst) vregs dw long
    && valuSrcOk (Operand.of a.src0) vregs sw long && valuSrcOk (Operand.of a.src1) vregs sw long
    && valuSrcOk (Operand.of a.src2) vregs sw long

/-- Lane by lane: the results of `f` on the three sources, written to DST in the active lanes. -/
def Wave.mapLanes (w : Wave) (a : Args) (dw sw : Nat) (f : Nat → Nat → Nat → Nat) : Wave :=
  let r := w.lanes.map fun l =>
    (l, f (w.srcN (Operand.of a.src0) a.ext l sw) (w.srcN (Operand.of a.src1) a.ext l sw)
          (w.srcN (Operand.of a.src2) a.ext l sw))
  w.laneResults (Operand.of a.dst) dw r

/-- R179: VALU_OP. -/
def execValuOp (c : BitVec 7) (w : BitVec 6) (op : ValuOp) (a : Args) (s : State) :
    Host.Outcome State Fault Refusal :=
  onChip (fun ch => ch.issue c.toNat w.toNat Cls.valu op.field a
    (fun x => valuLegal (ch.flag Fld.DEV_CAPS0_FP64) op a x.wg.vregs) fun ch x =>
      let (dw, sw) := valuWords op
      .ok (ch, x.wv.mapLanes a dw sw
        (valuResult op ((valuRound a.mod).getD .rne) (bit a.mod.toNat 4)))) s

/-- R178, R184: legality of MIN and MAX: only NUMBER is used. -/
def minMaxLegal (fp64 : Bool) (f : NumFmt) (a : Args) (vregs : Nat) : Bool :=
  let long := a.len == 1
  argOk a && (arithFloat f).isSome && a.mod.toNat < 2 && (fp64 || f != .fp64)
    && valuSrcOk (Operand.of a.dst) vregs f.words long && valuSrcOk (Operand.of a.src0) vregs f.words long
    && valuSrcOk (Operand.of a.src1) vregs f.words long && Operand.of a.src2 == .none

/-- R184: MIN and MAX, `mx` for the greater. -/
def Chip.minMaxOp (ch : Chip) (mx : Bool) (c w : Nat) (f : NumFmt) (a : Args) : Chip :=
  ch.issue c w Cls.valu none a (fun x => minMaxLegal (ch.flag Fld.DEV_CAPS0_FP64) f a x.wg.vregs) fun ch x =>
    .ok (ch, x.wv.mapLanes a f.words f.words fun p q _ =>
      match arithFloat f with
      | some t => minMax t mx (bit a.mod.toNat 0) p q
      | none => 0)

def execMin (c : BitVec 7) (w : BitVec 6) (f : NumFmt) (a : Args) (s : State) :
    Host.Outcome State Fault Refusal :=
  onChip (fun ch => ch.minMaxOp false c.toNat w.toNat f a) s

def execMax (c : BitVec 7) (w : BitVec 6) (f : NumFmt) (a : Args) (s : State) :
    Host.Outcome State Fault Refusal :=
  onChip (fun ch => ch.minMaxOp true c.toNat w.toNat f a) s

/-! ## MX quantisation (R186 to R189) -/

/-- R186: legality of QMX and DQMX. -/
def mxLegal (a : Args) (vregs : Nat) : Bool :=
  let f := a.mod.toNat % 16
  argOk a && 4 ≤ f && f ≤ 9 && (Operand.of a.dst).isV && (Operand.of a.dst).regOk vregs 1
    && (Operand.of a.src0).isV && (Operand.of a.src0).regOk vregs 1
    && Operand.of a.src1 == .none && Operand.of a.src2 == .none

/-- R187, R188: QMX; the lanes that lost their value are counted in CLU_QLOSS. -/
def execQmx (c : BitVec 7) (w : BitVec 6) (a : Args) (s : State) : Host.Outcome State Fault Refusal :=
  onChip (fun ch => ch.issue c.toNat w.toNat Cls.valu none a (fun x => mxLegal a x.wg.vregs) fun ch x =>
    let vals := x.wv.lanes.map fun l => fp32.decode (x.wv.src (Operand.of a.src0) 0 l).toNat
    let word (l : Nat) := qmxWord (a.mod.toNat % 16) (bit a.mod.toNat 4) vals
      (fp32.decode (x.wv.src (Operand.of a.src0) 0 l).toNat)
    let lost := (x.wv.lanes.filter fun l => (word l).2).length
    .ok (ch.count Fld.CLU_QLOSS_COUNT (steer x.cl) lost,
      x.wv.writeLanes (Operand.of a.dst) 1 (x.wv.lanes.map fun l => (l, (word l).1)))) s

/-- R189: DQMX. -/
def execDqmx (c : BitVec 7) (w : BitVec 6) (a : Args) (s : State) : Host.Outcome State Fault Refusal :=
  onChip (fun ch => ch.issue c.toNat w.toNat Cls.valu none a (fun x => mxLegal a x.wg.vregs) fun ch x =>
    .ok (ch, x.wv.mapLanes a 1 1 fun p _ _ => dqmxWord (a.mod.toNat % 16) (bit a.mod.toNat 4) p)) s

/-! ## Special functions (R139, R140) -/

/-- The SFU's functions. -/
inductive SFn where
  | rcp | sqrt | rsqrt | exp2 | log2 | sinpi | cospi | tanh | erf
  deriving DecidableEq, Repr

def SFn.code : SFn → Nat
  | .rcp => 0 | .sqrt => 1 | .rsqrt => 2 | .exp2 => 3 | .log2 => 4 | .sinpi => 5 | .cospi => 6
  | .tanh => 7 | .erf => 8

/-- A value of one. -/
def fone (neg : Bool) : FVal := .fin neg 1 0

/-- Whether a finite value is zero. -/
def FVal.isZero : FVal → Bool
  | .fin _ m _ => m == 0
  | _ => false

/-- Whether a finite value times `k` is an integer. -/
def isMultiple (k m : Nat) (e : Int) : Bool := decide (e ≥ 0) || m * k % 2 ^ (-e).toNat == 0

/-- R139: the results that IEEE 754-2019 or the table's own words fix: special inputs, zeros, the zeros of SINPI and
COSPI, and their exact values beyond 2^23 (every such FP32 is an integer). (DESIGN CHOICE, assumption 20.) -/
def SFn.exact (f : SFn) (v : FVal) : Option FVal :=
  match f, v with
  | _, .nan => some .nan
  | .rcp, v => some ((fone false).div v)
  | .sqrt, v => some v.sqrt
  | .rsqrt, .inf neg => some (if neg then .nan else .fin false 0 0)
  | .rsqrt, .fin neg m _ => if m = 0 then some (.inf neg) else if neg then some .nan else none
  | .exp2, .inf neg => some (if neg then .fin false 0 0 else .inf false)
  | .exp2, .fin _ m _ => if m = 0 then some (fone false) else none
  | .log2, .inf neg => some (if neg then .nan else .inf false)
  | .log2, .fin neg m _ => if m = 0 then some (.inf true) else if neg then some .nan else none
  | .sinpi, .inf _ => some .nan
  | .sinpi, .fin neg m e => if isMultiple 1 m e then some (.fin neg 0 0) else none
  | .cospi, .inf _ => some .nan
  | .cospi, .fin _ m e =>
    if m = 0 then some (fone false)
    else if (Nat.log2 m : Int) + e ≥ 23 then
      let i := if e ≥ 0 then m <<< e.toNat else m >>> (-e).toNat
      some (fone (i % 2 == 1))
    else if isMultiple 2 m e && !isMultiple 1 m e then some (.fin false 0 0)
    else none
  | .tanh, .inf neg => some (fone neg)
  | .tanh, .fin neg m _ => if m = 0 then some (.fin neg 0 0) else none
  | .erf, .inf neg => some (fone neg)
  | .erf, .fin neg m _ => if m = 0 then some (.fin neg 0 0) else none

/-- R139: the bound of a function in units in the last place, and its exact value on a finite operand other than those
of `SFn.exact`. -/
def SFn.bound (f : SFn) (neg : Bool) (m : Nat) (e : Int) : Nat × FVal :=
  match f with
  | .rcp => (0, .nan)
  | .sqrt => (0, .nan)
  | .rsqrt => (1, (fone false).div (FVal.fin neg m e).sqrt)
  | .exp2 =>
    (1, if (Nat.log2 m : Int) + e ≥ 8 then (if neg then fxVal false 0 512 else .inf false)
        else if isMultiple 1 m e then .fin false 1 (if neg then -(fxOf m e / fxOne : Nat) else (fxOf m e / fxOne : Nat))
        else exp2Val neg m e)
  | .log2 => (1, if m = 2 ^ Nat.log2 m then .ofInt ((Nat.log2 m : Int) + e) else log2Val m e)
  | .sinpi => (2, if isMultiple 2 m e then fone (neg != (fxOf m e / fxOne % 2 == 1)) else sinPiVal neg (fxOf m e))
  | .cospi => (2, if isMultiple 1 m e then fone (fxOf m e / fxOne % 2 == 1)
      else sinPiVal false (fxOf m e + fxOne / 2))
  | .tanh => (2, tanhVal neg m e)
  | .erf => (2, erfVal neg m e)

/-- R139: an SFU result as an FP32 encoding: exact where the rule fixes it, else within the function's bound; which of
those values it is, is the table set's. -/
def SFn.fp32 (f : SFn) (table n : Nat) : Nat :=
  let v := Machine.fp32.decode n
  match f.exact v, v with
  | some r, _ => Machine.fp32.round .rne false r
  | none, .fin neg m e =>
    let (k, y) := f.bound neg m e
    withinUlp k (Config.sfu table f.code n).toNat y
  | none, _ => Machine.fp32.nan

/-- R139: FP16 and BF16 operands are widened exactly and results rounded to nearest even.
(DESIGN CHOICE, assumption 20.) -/
def SFn.apply (f : SFn) (table : Nat) (fmt : NumFmt) (n : Nat) : Nat :=
  match floatOf fmt with
  | some x =>
    if x = Machine.fp32 then f.fp32 table n
    else x.round .rne false
      (Machine.fp32.decode (f.fp32 table (Machine.fp32.round .rne false (x.decode (n % 2 ^ x.width)))))
  | none => 0

/-- Legality of an SFU instruction: FP32, FP16 or BF16, and MOD not used. -/
def sfuLegal (f : NumFmt) (a : Args) (vregs : Nat) : Bool :=
  argOk a && a.mod == 0 && (f == .fp32 || f == .fp16 || f == .bf16)
    && valuSrcOk (Operand.of a.dst) vregs 1 (a.len == 1) && (Operand.of a.src0).srcOk vregs (a.len == 1)
    && Operand.of a.src1 == .none && Operand.of a.src2 == .none

/-- R139, R140: an SFU instruction, with the cluster's loaded table set. -/
def Chip.sfuOp (ch : Chip) (fn : SFn) (c w : Nat) (f : NumFmt) (a : Args) : Chip :=
  ch.issue c w Cls.sfu none a (fun x => sfuLegal f a x.wg.vregs) fun ch x =>
    .ok (ch, x.wv.mapLanes a 1 1 fun p _ _ => fn.apply (ch.cluster x.cl).tableVer.toNat f p)

def execRcp (c : BitVec 7) (w : BitVec 6) (f : NumFmt) (a : Args) (s : State) :
    Host.Outcome State Fault Refusal := onChip (fun ch => ch.sfuOp .rcp c.toNat w.toNat f a) s
def execSqrt (c : BitVec 7) (w : BitVec 6) (f : NumFmt) (a : Args) (s : State) :
    Host.Outcome State Fault Refusal := onChip (fun ch => ch.sfuOp .sqrt c.toNat w.toNat f a) s
def execRsqrt (c : BitVec 7) (w : BitVec 6) (f : NumFmt) (a : Args) (s : State) :
    Host.Outcome State Fault Refusal := onChip (fun ch => ch.sfuOp .rsqrt c.toNat w.toNat f a) s
def execExp2 (c : BitVec 7) (w : BitVec 6) (f : NumFmt) (a : Args) (s : State) :
    Host.Outcome State Fault Refusal := onChip (fun ch => ch.sfuOp .exp2 c.toNat w.toNat f a) s
def execLog2 (c : BitVec 7) (w : BitVec 6) (f : NumFmt) (a : Args) (s : State) :
    Host.Outcome State Fault Refusal := onChip (fun ch => ch.sfuOp .log2 c.toNat w.toNat f a) s
def execSinpi (c : BitVec 7) (w : BitVec 6) (f : NumFmt) (a : Args) (s : State) :
    Host.Outcome State Fault Refusal := onChip (fun ch => ch.sfuOp .sinpi c.toNat w.toNat f a) s
def execCospi (c : BitVec 7) (w : BitVec 6) (f : NumFmt) (a : Args) (s : State) :
    Host.Outcome State Fault Refusal := onChip (fun ch => ch.sfuOp .cospi c.toNat w.toNat f a) s
def execTanh (c : BitVec 7) (w : BitVec 6) (f : NumFmt) (a : Args) (s : State) :
    Host.Outcome State Fault Refusal := onChip (fun ch => ch.sfuOp .tanh c.toNat w.toNat f a) s
def execErf (c : BitVec 7) (w : BitVec 6) (f : NumFmt) (a : Args) (s : State) :
    Host.Outcome State Fault Refusal := onChip (fun ch => ch.sfuOp .erf c.toNat w.toNat f a) s

end Sys2Proof.Machine
end

