-- ==== Sys2Proof/Machine/RasterTile.lean ====
section
/-!
DEFINITION. The tile phase: conversions, frame-buffer compression, coverage and shading, TILE_ASSIGN,
TILE_WRITE_OUT and the end of waves (R291 to R304).
-/

namespace Sys2Proof.Machine

/-! ## Conversions (R297) -/

/-- UNORMn to FP32. -/
def unormToF (n code : Nat) : Nat := fRatio code (2 ^ n - 1 : Nat)

/-- FP32 to UNORMn. -/
def fToUnorm (n v : Nat) : Nat := toIntSat n false .rne ((fVal v).mul (FVal.ofInt (2 ^ n - 1 : Nat)))

/-- The greatest FP32 encoding below 2^k bits whose fifth power is at most `a / b`. -/
def fifthRoot (a b : Nat) : Nat → Nat → Nat
  | 0, acc => acc
  | k + 1, acc =>
    let t := acc + 2 ^ k
    let ok := match fVal t with
      | .fin _ m e => decide (m ^ 5 * b * 2 ^ (5 * e).toNat ≤ a * 2 ^ (5 * -e).toNat)
      | _ => false
    fifthRoot a b k (if ok then t else acc)

/-- R297: the IEC 61966-2-1 decoding of c / 255, correctly rounded: c / (255 × 12.92) up to 0.04045, else
((c / 255 + 0.055) / 1.055)^2.4, the fifth root of an exact twelfth power. -/
def srgbToF (c : Nat) : Nat :=
  if 100000 * c ≤ 4045 * 255 then fRatio (100 * c : Nat) (255 * 1292 : Nat)
  else
    let a := (1000 * c + 14025) ^ 12
    let b := 269025 ^ 12
    let r := fifthRoot a b 30 0
    -- the neighbour above is nearer where the midpoint's fifth power is at most a / b
    match fVal r, fVal (r + 1) with
    | .fin _ m e, .fin _ m' e' =>
      let u := min e e' - 1
      let mid := m * 2 ^ (e - u - 1).toNat + m' * 2 ^ (e' - u - 1).toNat
      let lhs := mid ^ 5 * b * 2 ^ (5 * u).toNat
      let rhs := a * 2 ^ (5 * -u).toNat
      if lhs < rhs ∨ (lhs = rhs ∧ r % 2 = 1) then r + 1 else r
    | _, _ => r

/-- R297: FP32 to an sRGB code: the nearest decoded value, ties to the even code; NaN gives 0. -/
def fToSrgb (v : Nat) : Nat :=
  let x := fVal v
  let far (c : Nat) : FVal :=
    match x.add .rne (fVal (srgbToF c)).neg with
    | .fin _ m e => .fin false m e
    | .inf _ => .inf false
    | .nan => .nan
  if x.isNan then 0
  else
    match x with
    | .inf neg => if neg then 0 else 255
    | _ => (List.range 256).foldl (fun best c =>
        if (far c).lt (far best) ∨ (!(far best).lt (far c) ∧ best % 2 = 1 ∧ c % 2 = 0) then c else best) 0

/-- A component's code as FP32 (or as the integer itself). -/
def Comp.toF (k : Comp) (n code : Nat) : Nat :=
  match k with
  | .unorm => unormToF n code
  | .srgb => srgbToF code
  | .half => fRound (fp16.decode code)
  | .single => code
  | .uint => code

/-- FP32 (or an integer) as a component's code. -/
def Comp.ofF (k : Comp) (n v : Nat) : Nat :=
  match k with
  | .unorm => fToUnorm n v
  | .srgb => fToSrgb v
  | .half => fp16.round .rne false (fVal v)
  | .single => v
  | .uint => min v (2 ^ n - 1)

/-! ## Blending (R280) -/

/-- R280: the factor `code` for component `c`. -/
def blendFactor (code c : Nat) (s d : Nat → Nat) : Nat :=
  match code with
  | 0 => 0
  | 1 => fOne
  | 2 => s c
  | 3 => fSub fOne (s c)
  | 4 => s 3
  | 5 => fSub fOne (s 3)
  | 6 => d 3
  | 7 => fSub fOne (d 3)
  | 8 => d c
  | _ => fSub fOne (d c)

/-- R280: one blended component. -/
def blendOne (w c : Nat) (uint : Bool) (s d : Nat → Nat) : Nat :=
  let fs := blendFactor (bits w 6 3) c s d
  let fd := blendFactor (bits w 10 7) c s d
  match bits w 2 0 with
  | 1 => fAdd (fMul (s c) fs) (fMul (d c) fd)
  | 2 => fSub (fMul (s c) fs) (fMul (d c) fd)
  | 3 => fSub (fMul (d c) fd) (fMul (s c) fs)
  | 4 => if uint then min (s c) (d c) else minMax fp32 false true (s c) (d c)
  | 5 => if uint then max (s c) (d c) else minMax fp32 true true (s c) (d c)
  | _ => s c

/-- The stored components of a sample as FP32; an absent alpha is one, another absent one zero. -/
def sampleComps (fmt old : Nat) (c : Nat) : Nat :=
  match (fmtComps fmt).find? fun x => x.1 == c with
  | some x => x.2.2.2.toF x.2.2.1 (old / 2 ^ x.2.1 % 2 ^ x.2.2.1)
  | none => if c = 3 then fOne else 0

/-- R280, R297: a sample after the export of `s` under a BLEND word. -/
def blendSample (fmt w old : Nat) (s : Nat → Nat) : Nat :=
  let d := sampleComps fmt old
  (fmtComps fmt).foldl (fun v x =>
    if bit w (11 + x.1) then
      let code := x.2.2.2.ofF x.2.2.1 (blendOne w x.1 (x.2.2.2 == .uint) s d)
      v - (v / 2 ^ x.2.1 % 2 ^ x.2.2.1) * 2 ^ x.2.1 + code * 2 ^ x.2.1
    else v) old

/-! ## Depth and stencil (R279, R296) -/

/-- R279: a comparison of DEPTH_FUNC's coding, from whether the values are less, equal or greater. -/
def compareBy (f : Nat) (lt eq gt : Bool) : Bool :=
  match f with
  | 0 => false
  | 1 => lt
  | 2 => eq
  | 3 => lt || eq
  | 4 => gt
  | 5 => !eq
  | 6 => gt || eq
  | _ => true

/-- R276, R296: a depth comparison in an attachment's coding: D32F by value, the others as integers. -/
def compareDepth (f fmt a b : Nat) : Bool :=
  if fmt = 0x22 then
    let lt := (fVal a).lt (fVal b)
    let gt := (fVal b).lt (fVal a)
    compareBy f lt (!lt && !gt && !(fVal a).isNan && !(fVal b).isNan) gt
  else compareBy f (decide (a < b)) (a == b) (decide (b < a))

/-- R296: a fragment depth in the attachment's coding: clamped to [0, 1], NaN as 0. -/
def depthCode (fmt v : Nat) : Nat :=
  match fmt with
  | 0x20 => fToUnorm 16 v
  | 0x21 => fToUnorm 24 v
  | _ =>
    let x := fVal v
    if x.isNan ∨ x.lt (fVal 0) ∨ x.isZero then 0 else if (fVal fOne).lt x then fOne else v

/-- R279: a stencil operation on an 8-bit value. -/
def stencilOp (op v ref : Nat) : Nat :=
  match op with
  | 1 => 0
  | 2 => ref
  | 3 => min (v + 1) 255
  | 4 => v - 1
  | 5 => 255 - v
  | 6 => (v + 1) % 256
  | 7 => (v + 255) % 256
  | _ => v

/-- R296: the stencil and depth tests of one sample: whether it passes, and the stored value after. -/
def Pipe.test (s : Pipe) (fmt old : Nat) (front : Bool) (z : Nat) : Bool × Nat :=
  let code := depthCode fmt z
  let od := if fmt = 0x21 then old % 2 ^ 24 else old
  let os := if fmt = 0x21 then old / 2 ^ 24 else 0
  let face := if front then s.front else s.back
  let sr := s.ref &&& s.rmask
  let sv := os &&& s.rmask
  let spass := !s.stest || compareBy (bits face 2 0) (decide (sr < sv)) (sr == sv) (decide (sv < sr))
  let dpass := !s.dtest || compareDepth s.dfunc fmt code od
  let op := if !spass then bits face 5 3 else if !dpass then bits face 8 6 else bits face 11 9
  let ns := if s.stest then
      let v := stencilOp op os s.ref
      (os &&& (255 - s.wmask)) ||| (v &&& s.wmask)
    else os
  let nd := if spass && dpass && s.dtest && s.dwrite then code else od
  (spass && dpass, if fmt = 0x21 then nd + ns * 2 ^ 24 else nd)

/-! ## Frame-buffer compression (R299 to R301) -/

/-- Byte `l` of a pixel. -/
def byteOf (v l : Nat) : Nat := v / 256 ^ l % 256

/-- R300: the pixel that predicts pixel `k`. -/
def predOf (k : Nat) : Nat := if k % 8 ≠ 0 then k - 1 else k - 8

/-- R300: the deltas of lane `l`, as numbers modulo 256. -/
def deltas (px : List Nat) (l : Nat) : List Nat :=
  (rangeFrom 1 63).map fun k => (byteOf (px.getD k 0) l + 256 - byteOf (px.getD (predOf k) 0) l) % 256

/-- R300: whether a delta fits in `w` bits as a signed number. -/
def fitsIn (w d : Nat) : Bool := decide (d < 2 ^ (w - 1)) || decide (256 - 2 ^ (w - 1) ≤ d)

/-- R300: the width of a lane. -/
def laneWidth (ds : List Nat) : Nat :=
  if ds.all (· == 0) then 0 else ((rangeFrom 1 8).find? fun w => ds.all (fitsIn w)).getD 8

/-- R300: header bytes for L lanes. -/
def packHead (n : Nat) : Nat := n + ceilDiv n 2

/-- R300: a block's encoding: the sectors needed and their bytes. -/
def encodeBlock (n : Nat) (px : List Nat) : Nat × List Byte :=
  let ds := (List.range n).map (deltas px)
  let ws := ds.map laneWidth
  let h := packHead n
  let sectors := ceilDiv (8 * h + 63 * ws.foldl (· + ·) 0) 256
  let head := (List.range n).map (fun l => BitVec.ofNat 8 (byteOf (px.getD 0 0) l))
    ++ (List.range (ceilDiv n 2)).map fun i => BitVec.ofNat 8 (ws.getD (2 * i) 0 + 16 * ws.getD (2 * i + 1) 0)
  let stream := (ds.zip ws).foldl (fun (a : Nat × Nat) x =>
    x.1.foldl (fun a d => (a.1 + d % 2 ^ x.2 * 2 ^ a.2, a.2 + x.2)) a) (0, 0)
  (sectors, head ++ leBytes (32 * sectors - h) stream.1)

/-- R300, R301: the pixels of an encoded block; none where a width nibble is above 8. -/
def decodeBlock (n : Nat) (bs : List Byte) : Option (List Nat) :=
  let ws := (List.range n).map fun l =>
    let v := (bs.getD (n + l / 2) 0).toNat
    if l % 2 = 0 then v % 16 else v / 16
  let body := leNat (bs.drop (packHead n))
  if ws.any fun w => decide (w > 8) then none
  else
    let start (l : Nat) : Nat := 63 * (ws.take l).foldl (· + ·) 0
    let delta (l k : Nat) : Nat :=
      let w := ws.getD l 0
      wrapN 8 (if w = 0 then 0 else signed w (body / 2 ^ (start l + (k - 1) * w) % 2 ^ w))
    some ((rangeFrom 1 63).foldl (fun px k =>
      let p := px.getD (predOf k) 0
      px ++ [(List.range n).foldl (fun v l => v + (byteOf p l + delta l k) % 256 * 256 ^ l) 0])
      [leNat (bs.take n)])

/-! ## Surfaces (R277, R299) -/

/-- A surface: its address, metadata, pitch, bytes per sample, samples and clear value. -/
structure Surf where
  va : Nat
  md : Nat
  pitch : Nat
  bytes : Nat
  n : Nat
  clear : Nat

/-- The clear value as one sample. -/
def Att.surf (a : Att) (n : Nat) : Surf :=
  { va := a.va, md := a.md, pitch := a.pitch, bytes := fmtBytes a.fmt, n := n
    clear := a.clear % 256 ^ fmtBytes a.fmt }

/-- R275: the resolve surface of an attachment. -/
def Att.resolve (a : Att) : Surf := { a.surf 1 with va := a.rva, md := a.rmd }

/-- R277: the slot of a block, and the VA of a pixel's first sample. -/
def Surf.slot (s : Surf) (bx by_ : Nat) : Nat := s.va + (by_ * s.pitch + bx) * 64 * s.n * s.bytes
def Surf.pixel (s : Surf) (x y : Nat) : Nat :=
  s.slot (x / 8) (y / 8) + (8 * (y % 8) + x % 8) * s.n * s.bytes

/-- R299: where the metadata nibble of a block stands: byte and whether it is the high one. -/
def Surf.nibble (s : Surf) (bx by_ : Nat) : Nat × Bool :=
  let k := by_ * s.pitch + bx
  (s.md + k / 2, k % 2 == 1)

/-- R299, R301: the 64 pixels of a compressed block, read through `rd`. -/
def loadBlockBy (rd : Nat → Nat → Except (AccErr × Nat) (List Byte)) (s : Surf) (bx by_ : Nat) :
    Except (AccErr × Nat) (List Nat) :=
  let nb := s.nibble bx by_
  match rd nb.1 1 with
  | .error e => .error e
  | .ok m =>
    let code := if nb.2 then leNat m / 16 else leNat m % 16
    if code = 0 then .ok (List.replicate 64 s.clear)
    else if code > 2 * s.bytes then .error (.poison none, nb.1)
    else
      match rd (s.slot bx by_) (32 * code) with
      | .error e => .error e
      | .ok bs =>
        if code = 2 * s.bytes then .ok ((List.range 64).map fun i => fieldLE bs (i * s.bytes) s.bytes)
        else
          match decodeBlock s.bytes bs with
          | some px => .ok px
          | none => .error (.poison none, s.slot bx by_)

/-- A compressed block read by virtual address. -/
def Chip.loadBlock (c : Chip) (w : Actor) (s : Surf) (bx by_ : Nat) : Except (AccErr × Nat) (List Nat) :=
  loadBlockBy (c.readVA w) s bx by_

/-- R299, R301: write a block of a compressed surface. -/
def Chip.storeBlock (c : Chip) (w : Actor) (q : Nat) (who : Requester) (s : Surf) (bx by_ : Nat)
    (px : List Nat) : Except (AccErr × Nat) Chip :=
  let enc := encodeBlock s.bytes px
  let (code, bs) :=
    if px.all (· == s.clear) then (0, [])
    else if enc.1 < 2 * s.bytes then enc
    else (2 * s.bytes, px.flatMap fun v => leBytes s.bytes v)
  let nb := s.nibble bx by_
  match c.writeVA w q who (s.slot bx by_) bs with
  | .error e => .error e
  | .ok c1 =>
    match c1.readVA w nb.1 1 with
    | .error e => .error e
    | .ok m =>
      let v := leNat m
      c1.writeVA w q who nb.1 [BitVec.ofNat 8 (if nb.2 then v % 16 + 16 * code else v / 16 * 16 + code)]

/-! ## A tile (R291) -/

/-- A tile's rectangle within the render area: its first pixel, and its columns and rows. -/
structure Rect where
  x : Nat
  y : Nat
  w : Nat
  h : Nat

def RPass.rect (r : RPass) (t : Nat) : Rect :=
  let x := t % r.tx * r.tw
  let y := t / r.tx * r.th
  { x := x, y := y, w := min r.tw (r.width - x), h := min r.th (r.height - y) }

/-- The pixels of a rectangle, row by row, and its 8 × 8 blocks. -/
def Rect.pixels (r : Rect) : List (Nat × Nat) :=
  (rangeFrom r.y r.h).flatMap fun y => (rangeFrom r.x r.w).map fun x => (x, y)
def Rect.blocks (r : Rect) : List (Nat × Nat) :=
  (rangeFrom (r.y / 8) (ceilDiv r.h 8)).flatMap fun y =>
    (rangeFrom (r.x / 8) (ceilDiv r.w 8)).map fun x => (x, y)
def Rect.has (r : Rect) (x y : Nat) : Bool :=
  decide (r.x ≤ x) && decide (x < r.x + r.w) && decide (r.y ≤ y) && decide (y < r.y + r.h)

/-- The key of a sample of a tile. -/
def sampleKey (n x y s : Nat) : Nat := (y * 2 ^ 16 + x) * n + s

/-- R294: load an uncompressed surface pixel by pixel. -/
def Chip.loadPixels (c : Chip) (w : Actor) (s : Surf) :
    List (Nat × Nat) → KMap Nat → Except (AccErr × Nat) (KMap Nat)
  | [], m => .ok m
  | (x, y) :: t, m =>
    match c.readVA w (s.pixel x y) (s.n * s.bytes) with
    | .error e => .error e
    | .ok bs => Chip.loadPixels c w s t ((List.range s.n).foldl (fun m i =>
        KMap.set (sampleKey s.n x y i) (fieldLE bs (i * s.bytes) s.bytes) m) m)

/-- R294: load a compressed surface block by block. -/
def Chip.loadBlocks (c : Chip) (w : Actor) (s : Surf) (r : Rect) :
    List (Nat × Nat) → KMap Nat → Except (AccErr × Nat) (KMap Nat)
  | [], m => .ok m
  | (bx, by_) :: t, m =>
    match c.loadBlock w s bx by_ with
    | .error e => .error e
    | .ok px => Chip.loadBlocks c w s r t ((List.range 64).foldl (fun m i =>
        let x := 8 * bx + i % 8
        let y := 8 * by_ + i / 8
        if r.has x y then KMap.set (sampleKey 1 x y 0) (px.getD i 0) m else m) m)

/-- R294: one attachment loaded under its LOAD_OP; DONTCARE leaves values of the device's.
(DESIGN CHOICE, assumption 72.) -/
def Chip.loadAtt (c : Chip) (w : Actor) (a : Att) (n : Nat) (r : Rect) : Except (AccErr × Nat) (KMap Nat) :=
  let s := a.surf n
  let all (f : Nat → Nat) : KMap Nat :=
    (r.pixels.flatMap fun p => (List.range n).map fun i => sampleKey n p.1 p.2 i).foldl
      (fun m k => KMap.set k (f k) m) []
  match a.load with
  | 0 => if a.md = 0 then c.loadPixels w s r.pixels [] else c.loadBlocks w s r r.blocks []
  | 1 => .ok (all fun _ => s.clear)
  | _ => .ok (all fun k => Config.freeNat c.ctr k % 256 ^ s.bytes)

/-- Every attachment, colour first. -/
def RPass.atts (r : RPass) : List Att := r.colours ++ r.depth.toList

/-- R294: the attachments loaded in order. -/
def Chip.loadAtts (c : Chip) (w : Actor) (n : Nat) (r : Rect) :
    List Att → Except (AccErr × Nat) (List (KMap Nat))
  | [] => .ok []
  | a :: as =>
    match c.loadAtt w a n r with
    | .error e => .error e
    | .ok m =>
      match Chip.loadAtts c w n r as with
      | .error e => .error e
      | .ok ms => .ok (m :: ms)

/-! ## Coverage and interpolation (R295) -/

/-- R291: the standard sample locations, in 1/256 pixel. -/
def samplePos (msaa : Nat) : List (Nat × Nat) :=
  match msaa with
  | 0 => [(128, 128)]
  | 1 => [(192, 192), (64, 64)]
  | 2 => [(96, 32), (224, 96), (32, 160), (160, 224)]
  | _ => [(144, 80), (112, 176), (208, 144), (80, 48), (48, 208), (16, 112), (176, 240), (240, 16)]

/-- R295: an edge includes samples on it: a top or a left edge of a triangle of positive area. -/
def topLeft (dx dy : Int) : Bool := (dy == 0 && decide (dx > 0)) || decide (dy < 0)

/-- R295: the weights of the vertices at a point, their sum, and whether the point is covered. -/
def primAt (vs : List PVtx) (px py : Int) : List Int × Int × Bool :=
  match vs with
  | [a, b, c] =>
    let ar := areaOf a b c
    let sg : Int := if ar < 0 then -1 else 1
    let side (u v : PVtx) : Int × Bool :=
      let e := edge u.x u.y v.x v.y px py
      (e, decide (e * sg > 0) || (e == 0 && topLeft ((v.x - u.x) * sg) ((v.y - u.y) * sg)))
    let e0 := side b c
    let e1 := side c a
    let e2 := side a b
    ([e0.1, e1.1, e2.1], ar, e0.2 && e1.2 && e2.2)
  | [a, b] =>
    let dx := b.x - a.x
    let dy := b.y - a.y
    let len := dx * dx + dy * dy
    let t := (px - a.x) * dx + (py - a.y) * dy
    let s := dx * (py - a.y) - dy * (px - a.x)
    ([len - t, t], len, decide (0 ≤ t) && decide (t < len)
      && (decide (s * s < 16384 * len) || (decide (s < 0) && s * s == 16384 * len)))
  | [a] =>
    ([1], 1, decide (a.x - 128 ≤ px) && decide (px < a.x + 128) && decide (a.y - 128 ≤ py)
      && decide (py < a.y + 128))
  | _ => ([], 1, false)

/-- R295: a sum of weighted terms, ascending. -/
def weighted (ls vs : List Nat) : Nat :=
  match (ls.zip vs).map fun x => fMul x.1 x.2 with
  | [] => 0
  | t :: ts => ts.foldl fAdd t

/-- The weights as FP32. -/
def weightsAt (vs : List PVtx) (px py : Int) : List Nat :=
  let r := primAt vs px py
  r.1.map fun e => fRatio e r.2.1

/-- R295: the depth at a point. -/
def depthAt (vs : List PVtx) (px py : Int) : Nat := weighted (weightsAt vs px py) (vs.map PVtx.z)

/-- R295: component `k` of the varyings at a point; flat ones and points take the provoking vertex's. -/
def varyingAt (vs : List PVtx) (flat : Nat) (k : Nat) (px py : Int) : Nat :=
  match vs with
  | [] => 0
  | v :: t =>
    if bit flat (k / 4) ∨ t.isEmpty then v.vars.getD k 0
    else
      let ls := weightsAt vs px py
      let terms := (ls.zip vs).map fun x => fDiv (fMul x.1 (x.2.vars.getD k 0)) x.2.w
      let dens := (ls.zip vs).map fun x => fDiv x.1 x.2.w
      let sum (l : List Nat) : Nat := match l with | [] => 0 | a :: b => b.foldl fAdd a
      fDiv (sum terms) (sum dens)

/-- R295: the coverage mask of a pixel. -/
def coverage (vs : List PVtx) (msaa : Nat) (r : Rect) (x y : Nat) : Nat :=
  if !r.has x y then 0
  else (samplePos msaa).zipIdx.foldl (fun m s =>
    if (primAt vs (256 * x + s.1.1 : Nat) (256 * y + s.1.2 : Nat)).2.2 then m + 2 ^ s.2 else m) 0

/-- The pixel of a lane of a job. -/
def FragJob.pixel (j : FragJob) (lane : Nat) : Option (Nat × Nat) :=
  (j.quads[lane / 4]?).map fun q => (q.1 + lane % 4 % 2, q.2 + lane % 4 / 2)

/-- The coverage of a lane. -/
def FragJob.mask (j : FragJob) (msaa : Nat) (r : Rect) (lane : Nat) : Nat :=
  match j.pixel lane with
  | some (x, y) => coverage j.prim msaa r x y
  | none => 0

/-- R279: a primitive's face. -/
def FragJob.front (j : FragJob) : Bool :=
  match j.prim with
  | [a, b, c] => decide (areaOf a b c > 0) != j.pipe.frontCw
  | _ => true

/-- Lists cut into eights. -/
def eights : Nat → List (Nat × Nat) → List (List (Nat × Nat))
  | 0, _ => []
  | n + 1, l => if l.isEmpty then [] else l.take 8 :: eights n (l.drop 8)

/-- R291: the quads of a primitive in a tile, in groups of eight. -/
def quadsOf (vs : List PVtx) (p : RPass) (r : Rect) : List (List (Nat × Nat)) :=
  let qs := ((List.range (ceilDiv r.h 2)).flatMap fun j => (List.range (ceilDiv r.w 2)).map fun i =>
    (r.x + 2 * i, r.y + 2 * j)).filter fun q =>
      [(0, 0), (1, 0), (0, 1), (1, 1)].any fun d => coverage vs p.msaa r (q.1 + d.1) (q.2 + d.2) != 0
  eights qs.length qs

/-! ## The tile's stream (R290) -/

/-- Why a tile's work stops. -/
inductive TileStop where
  | malformed
  | illegal
  | failed (e : AccErr × Nat)

/-- What the walk of a stream knows of the current draw. -/
structure Cursor where
  draw : Nat := 0
  pipe : Option (Pipe × Header) := none
  fargs : Nat := 0

/-- R281: the pipeline state and fragment program of a draw, read again. -/
def Chip.tilePipe (c : Chip) (w : Actor) (r : RPass) (va : Nat) : Except TileStop (Pipe × Header) :=
  match c.readVA w va 64 with
  | .error e => .error (.failed e)
  | .ok b =>
    let s := Pipe.ofBytes b
    if !s.ok r ∨ va % 8 ≠ 0 then .error .malformed
    else
      match (if s.fs = 0 then .ok [] else c.readVA w s.fs 256) with
      | .error e => .error (.failed e)
      | .ok hb =>
        let h := Header.ofBytes hb
        match (if s.fs = 0 then none else c.programOk h (s.fsRegs r)) with
        | none => .ok (s, h)
        | some st => .error (if st = St.malformed then .malformed else .illegal)

/-- The vertices that a PRIM record names. -/
def Chip.tileVtxs (c : Chip) (w : Actor) (x : Chain) (nvar : Nat) :
    List Nat → Except TileStop (List PVtx)
  | [] => .ok []
  | o :: os =>
    if o + 1 + nvar > 64 * x.pass.vtxKib then .error .malformed
    else
      match c.readVA w (x.vtxVa o) (16 * (1 + nvar)) with
      | .error e => .error (.failed e)
      | .ok b =>
        match Chip.tileVtxs c w x nvar os with
        | .error e => .error e
        | .ok r => .ok ((CVtx.ofBytes b nvar o).window x.pass :: r)

/-- R287, R290: the fragment work of a tile's stream from a record on. -/
def Chip.walkBins (c : Chip) (w : Actor) (x : Chain) (r : Rect) :
    Nat → Nat → Nat → Cursor → Except TileStop (List FragJob)
  | 0, _, _, _ => .error .malformed
  | n + 1, chunk, i, cur =>
    match c.readVA w (x.recVa chunk i) 16 with
    | .error e => .error (.failed e)
    | .ok b =>
      let w0 := fieldLE b 0 4
      match w0 % 16 with
      | 0 => .ok []
      | 0xF => Chip.walkBins c w x r n (fieldLE b 4 4) 0 cur
      | 2 =>
        match c.tilePipe w x.pass (fieldLE b 8 8) with
        | .error e => .error e
        | .ok p => Chip.walkBins c w x r n chunk (i + 1) { cur with draw := bits w0 31 16, pipe := some p }
      | 3 => Chip.walkBins c w x r n chunk (i + 1) { cur with fargs := fieldLE b 8 8 }
      | 1 =>
        let k := bits w0 5 4
        match cur.pipe with
        | none => .error .malformed
        | some (s, h) =>
          if k = 0 then .error .malformed
          else
            match c.tileVtxs w x s.nvar ((List.range k).map fun j => fieldLE b (4 + 4 * j) 4) with
            | .error e => .error e
            | .ok vs =>
              match Chip.walkBins c w x r n chunk (i + 1) cur with
              | .error e => .error e
              | .ok rest => .ok ((quadsOf vs x.pass r).map (fun qs =>
                  { pipe := s, code := (h.codeVa, h.codeBytes), entry := h.entry, vregs := h.vregs,
                    fargs := cur.fargs, draw := cur.draw, prim := vs, quads := qs }) ++ rest)
      | _ => .error .malformed

/-- R286: all fragment work of a tile. -/
def Chip.tileJobs (c : Chip) (w : Actor) (x : Chain) (t : Nat) : Except TileStop (List FragJob) :=
  match c.readVA w (x.bsVa + 0x100 + 8 * t) 4 with
  | .error e => .error (.failed e)
  | .ok b =>
    let k := leNat b
    if k = 0xFFFFFFFF then .ok []
    else c.walkBins w x (x.pass.rect t) (256 * x.pass.chunks + 1) k 0 {}

/-! ## Fragment work (R291, R296) -/

/-- The depth attachment of a tile run: its index and format. -/
def RPass.depthAt (r : RPass) : Option (Nat × Nat) := r.depth.map fun a => (r.colours.length, a.fmt)

/-- R296: the tests of one sample of a tile, and their updates. -/
def TileRun.test (x : TileRun) (p : RPass) (j : FragJob) (px py s z : Nat) : Bool × TileRun :=
  match p.depthAt with
  | none => (true, x)
  | some (i, fmt) =>
    let key := sampleKey p.samples px py s
    let m := x.atts.getD i []
    let r := j.pipe.test fmt (KMap.getD m key 0) j.front z
    (r.1, { x with atts := x.atts.set i (KMap.set key r.2 m) })

/-- R295: the depth at a sample of a pixel. -/
def FragJob.depth (j : FragJob) (msaa x y s : Nat) : Nat :=
  let o := (samplePos msaa).getD s (128, 128)
  depthAt j.prim (256 * x + o.1 : Nat) (256 * y + o.2 : Nat)

/-- The covered samples of a lane, as numbers. -/
def maskBits (m : Nat) : List Nat := (List.range 8).filter fun i => bit m i

/-- R296: the tests of a lane's covered samples ahead of shading: those that pass. -/
def TileRun.testLane (x : TileRun) (p : RPass) (j : FragJob) (lane : Nat) : Nat × TileRun :=
  match j.pixel lane with
  | none => (0, x)
  | some (px, py) =>
    (maskBits (j.mask p.msaa (p.rect x.tile) lane)).foldl (fun r s =>
      let t := r.2.test p j px py s (j.depth p.msaa px py s)
      (if t.1 then r.1 + 2 ^ s else r.1, t.2)) (0, x)

/-- R296: the early tests of a whole job. -/
def TileRun.testAll (x : TileRun) (p : RPass) (j : FragJob) : TileRun :=
  (List.range 32).foldl (fun x l =>
    let r := x.testLane p j l
    { r.2 with passed := KMap.set l r.1 r.2.passed }) { x with passed := [] }

/-- R291: the registers of a fragment wave at launch. -/
def fragWave (id : Nat) (p : RPass) (t : Nat) (j : FragJob) : Wave :=
  let r := p.rect t
  let lane (m : KMap Word) (l : Nat) : KMap Word :=
    match j.pixel l with
    | none => m
    | some (x, y) =>
      let cx : Int := (256 * x + 128 : Nat)
      let cy : Int := (256 * y + 128 : Nat)
      let put (m : KMap Word) (n v : Nat) : KMap Word := KMap.put 0 (32 * n + l) (BitVec.ofNat 32 v) m
      let m1 := put (put (put (put m 0 (x + 2 ^ 16 * y)) 1 (j.mask p.msaa r l)) 2 (depthAt j.prim cx cy)) 3
        (b2n j.front)
      (List.range (4 * j.pipe.nvar)).foldl (fun m k => put m (4 + k) (varyingAt j.prim j.pipe.flat k cx cy)) m1
  { wg := id, k := 0, pc := j.entry
    sregs := ([j.fargs % 2 ^ 32, j.fargs / 2 ^ 32, t, 0, j.draw].zipIdx).foldl
      (fun m x => KMap.put 0 x.2 (BitVec.ofNat 32 x.1) m) []
    vregs := (List.range 32).foldl lane [] }

/-- R291, R296: the work up to the next one that needs a wave: work without a fragment program only tests
and updates depth and stencil. (DEDUCED, assumption 70.) -/
def TileRun.advance (p : RPass) : List FragJob → TileRun → TileRun
  | [], x => { x with jobs := [], cur := none }
  | j :: js, x =>
    if j.pipe.fs = 0 then TileRun.advance p js (x.testAll p j)
    else
      let x1 := if j.pipe.earlyZ then x.testAll p j else x
      { x1 with jobs := js, cur := some j }

/-- The key of a tile on a cluster. -/
def tileKey (cl id : Nat) : Nat := cl * 2 ^ 32 + id

/-- Put a tile's next fragment wave into wave slot `w`, or leave it shaded. (DEDUCED, assumption 70.) -/
def Chip.nextFrag (c : Chip) (cl id w : Nat) (p : RPass) (x : TileRun) : Chip :=
  let x1 := TileRun.advance p x.jobs x
  let c1 := { c with tileRuns := KMap.set (tileKey cl id) x1 c.tileRuns }
  let k := c1.cluster cl
  match KMap.find id k.wgs with
  | none => c1
  | some wg =>
    match x1.cur with
    | none => c1.setCluster cl { k with wgs := KMap.set id { wg with live := [], slots := [], vregs := 0 } k.wgs }
    | some j =>
      let wg1 := { wg with live := [w], slots := [w], vregs := j.vregs, code := some j.code }
      (c1.setCluster cl { k with wgs := KMap.set id wg1 k.wgs }).setWave (waveKey cl w) (fragWave id p x1.tile j)

/-- R291: what a lane exports for colour target `i`. -/
def exported (wv : Wave) (base i lane c : Nat) : Nat :=
  (KMap.getD wv.vregs (32 * (base + 4 * i + c) + lane) 0).toNat

/-- R291, R296: the export of one sample of a lane. -/
def TileRun.exportSample (x : TileRun) (p : RPass) (j : FragJob) (wv : Wave) (lane px py s : Nat) : TileRun :=
  let z := if j.pipe.dout then
      (KMap.getD wv.vregs (32 * (j.pipe.outBase + 4 * p.colours.length) + lane) 0).toNat
    else j.depth p.msaa px py s
  let r := if j.pipe.earlyZ then (bit (KMap.getD x.passed lane 0) s, x) else x.test p j px py s z
  if !r.1 then r.2
  else
    let key := sampleKey p.samples px py s
    { r.2 with atts := p.colours.zipIdx.foldl (fun as a =>
        let m := as.getD a.2 []
        as.set a.2 (KMap.set key (blendSample a.1.fmt (j.pipe.blend.getD a.2 0) (KMap.getD m key 0)
          (exported wv j.pipe.outBase a.2 lane)) m)) r.2.atts }

/-- R291: the export of a job's lanes: those with EXEC 1 and coverage that is not 0. -/
def TileRun.exportJob (x : TileRun) (p : RPass) (j : FragJob) (wv : Wave) : TileRun :=
  (List.range 32).foldl (fun x l =>
    match j.pixel l with
    | none => x
    | some (px, py) =>
      if !wv.exec.getLsbD l then x
      else (maskBits (j.mask p.msaa (p.rect x.tile) l)).foldl
        (fun x s => x.exportSample p j wv l px py s) x) x

/-- R291, R296: the end of a fragment wave: its exports are applied and the tile's next one follows.
(DEDUCED, assumption 70.) -/
def Chip.endFrag (c : Chip) (x : WCtx) (t : TileRun) : Chip :=
  match c.chainOf x.wg.q x.wg.slot, t.cur with
  | some ch, some j =>
    let t1 := t.exportJob ch.pass j x.wv
    { c with waves := KMap.erase (waveKey x.cl x.w) c.waves }.nextFrag x.cl x.wv.wg x.w ch.pass t1
  | _, _ => c.endWave x.cl x.w

/-- R128, R282, R291: what the end of a wave does besides ending it. -/
def Chip.endAny (c : Chip) (x : WCtx) : Chip :=
  match KMap.find (tileKey x.cl x.wv.wg) c.tileRuns, x.g.run with
  | some t, _ => c.endFrag x t
  | none, some d => c.endVertex x d
  | none, none => c.endWave x.cl x.w

/-- R128: END. -/
def execEndWave (c : BitVec 7) (w : BitVec 6) (a : Args) (s : State) : Host.Outcome State Fault Refusal :=
  onChip (fun ch =>
    match ch.wctx c.toNat w.toNat with
    | none => ch
    | some x =>
      if ch.waveOutstanding (waveKey x.cl x.w) then ch
      else
        let c1 := ch.issue c.toNat w.toNat Cls.ctrl none a (fun x => plainLegal a x.wg.vregs) fun ch x => .ok (ch, x.wv)
        match c1.wave (waveKey x.cl x.w) with
        | some wv => if wv.pc = x.wv.pc then c1 else c1.endAny x
        | none => c1) s

/-! ## TILE_ASSIGN (R292 to R294) -/

/-- R303: the tile phase of a DRAW stops. -/
def Chip.tileStopped (c : Chip) (q slot : Nat) (s : TileStop) : Chip :=
  match s with
  | .malformed => c.itemFault q slot St.malformed 0
  | .illegal => c.itemFault q slot St.illegalOpcode 0
  | .failed e =>
    if e.1.status = St.ok then c.failAt q slot FaultUnit.cluster e
    else
      let tag := match c.entry q slot with | some x => x.desc.tag.toNat | none => 0
      (c.capture (partOf q) e.1 FaultUnit.cluster (c.asidOf q) e.2 tag).itemFault q slot e.1.status 0

/-- R292, R294: a tile takes its granules and its place on a cluster, is loaded, and its shading begins. -/
def Chip.placeTile (q slot cl : Nat) (x : Chain) (d : DrawRun) (c : Chip) (g : Grid) (i : Nat) :
    Except Chip (Chip × Grid) :=
  let t := i - d.batches
  let w := c.actor q slot
  match c.loadAtts w x.pass.samples (x.pass.rect t) x.pass.atts, c.tileJobs w x t with
  | .error e, _ => .error (c.tileStopped q slot (.failed e))
  | _, .error e => .error (c.tileStopped q slot e)
  | .ok as, .ok js =>
    let k := c.cluster cl
    let id := k.nextWg
    let gs := k.freeGranules.take g.granules
    let slot1 := (c.pickSlots cl 1).headD 0
    let wg : WGroup := { tag := g.tag, q := q, slot := slot, index := i, granules := [], tileBase := [], vregs := 0
                         tileGranules := gs.length, waves := 1, live := [], code := some (0, 0), scratch := c.scratchFor (partOf q) id }
    let c1 := (c.setCluster cl { k with
      nextWg := id + 1, wgs := KMap.set id wg k.wgs
      granules := gs.foldl (fun m y => KMap.set y (Granule.tile id) m) k.granules }).onchip
        (partOf q) g.tag wg.onchip
    .ok (c1.nextFrag cl id slot1 x.pass { q := q, slot := slot, tile := t, atts := as, jobs := js }, g)

/-- R293: TILE_ASSIGN: the next tile of a DRAW on a cluster. -/
def Chip.tileAssign (c0 : Chip) (q slot cl : Nat) : Chip :=
  let c := c0.revive q slot
  match (c.grid q slot).bind Grid.run, c.chainOf q slot with
  | some d, some x =>
    if d.tiles then c.launchItem q slot cl (fun i => decide (d.batches ≤ i)) (Chip.placeTile q slot cl x d) else c
  | _, _ => c

def execTileAssign (q : BitVec 10) (slot : BitVec 6) (c : BitVec 7) (s : State) :
    Host.Outcome State Fault Refusal :=
  onChip (fun ch => ch.tileAssign q.toNat slot.toNat c.toNat) s

/-! ## TILE_WRITE_OUT (R294, R298, R301) -/

/-- R277: write an uncompressed surface pixel by pixel; `f` gives a sample. -/
def Chip.storePixels (c0 : Chip) (w : Actor) (q : Nat) (who : Requester) (s : Surf) (f : Nat → Nat → Nat → Nat) :
    List (Nat × Nat) → Except (AccErr × Nat) Chip
  | [] => .ok c0
  | (x, y) :: t =>
    match c0.writeVA w q who (s.pixel x y) ((List.range s.n).flatMap fun i => leBytes s.bytes (f x y i)) with
    | .error e => .error e
    | .ok c1 => Chip.storePixels c1 w q who s f t

/-- R301: write a compressed surface block by block; a pixel outside the render area holds what the
device leaves. (DESIGN CHOICE, assumption 72.) -/
def Chip.storeBlocks (c0 : Chip) (w : Actor) (q : Nat) (who : Requester) (s : Surf) (r : Rect)
    (f : Nat → Nat → Nat → Nat) : List (Nat × Nat) → Except (AccErr × Nat) Chip
  | [] => .ok c0
  | (bx, by_) :: t =>
    let px := (List.range 64).map fun i =>
      let x := 8 * bx + i % 8
      let y := 8 * by_ + i / 8
      if r.has x y then f x y 0 else Config.freeNat c0.ctr (y * 2 ^ 16 + x) % 256 ^ s.bytes
    match c0.storeBlock w q who s bx by_ px with
    | .error e => .error e
    | .ok c1 => Chip.storeBlocks c1 w q who s r f t

/-- A surface written from samples. -/
def Chip.storeSurf (c : Chip) (w : Actor) (q : Nat) (who : Requester) (s : Surf) (r : Rect)
    (f : Nat → Nat → Nat → Nat) : Except (AccErr × Nat) Chip :=
  if s.md = 0 then c.storePixels w q who s f r.pixels else c.storeBlocks w q who s r f r.blocks

/-- R298: a pixel's samples resolved. -/
def resolved (fmt n : Nat) (f : Nat → Nat) : Nat :=
  (fmtComps fmt).foldl (fun v x =>
    let part (i : Nat) : Nat := x.2.2.2.toF x.2.2.1 (f i / 2 ^ x.2.1 % 2 ^ x.2.2.1)
    let code := if x.2.2.2 = .uint then part 0
      else x.2.2.2.ofF x.2.2.1 (fMul ((rangeFrom 1 (n - 1)).foldl (fun a i => fAdd a (part i)) (part 0)) (fRatio 1 n))
    v + code * 2 ^ x.2.1) 0

/-- What a write-out stores, in its order (R294): the surface and the sample of each pixel. -/
def writes (p : RPass) (as : List (KMap Nat)) : List (Surf × (Nat → Nat → Nat → Nat)) :=
  let n := p.samples
  let get (i x y s : Nat) : Nat := KMap.getD (as.getD i []) (sampleKey n x y s) 0
  let stores := p.atts.zipIdx.filter fun a => a.1.store
  let res := p.colours.zipIdx.filter fun a => a.1.rva != 0
  stores.map (fun a => (a.1.surf n, get a.2))
    ++ res.map fun a => (a.1.resolve, fun x y _ => resolved a.1.fmt n (get a.2 x y))

/-- R294: the surfaces of a tile in order. -/
def Chip.writeSurfs (w : Actor) (q : Nat) (who : Requester) (r : Rect) :
    List (Surf × (Nat → Nat → Nat → Nat)) → Chip → Except (AccErr × Nat) Chip
  | [], c => .ok c
  | s :: ss, c =>
    match c.storeSurf w q who s.1 r s.2 with
    | .error e => .error e
    | .ok c1 => Chip.writeSurfs w q who r ss c1

/-- R273: a tile of a DRAW is written out. -/
def Chip.tileOut (c : Chip) (q slot : Nat) : Chip :=
  match c.grid q slot with
  | none => c
  | some g => c.setGrid q slot { g with run := g.run.map fun d => { d with tilesDone := d.tilesDone + 1 } }

/-- R294: TILE_WRITE_OUT of a shaded tile that took `cycles`. -/
def Chip.tileWriteOut (c : Chip) (cl id cycles : Nat) : Chip :=
  match KMap.find (tileKey cl id) c.tileRuns, KMap.find id (c.cluster cl).wgs with
  | some t, some wg =>
    if t.cur.isSome ∨ !t.jobs.isEmpty then c
    else
      match c.chainOf t.q t.slot with
      | none => c.releaseGroup cl id { wg with faulted := true }
      | some x =>
        let w := c.actor t.q t.slot
        let p := partOf t.q
        match Chip.writeSurfs w t.q (.entry t.q t.slot) (x.pass.rect t.tile) (writes x.pass t.atts) c with
        | .error e =>
          if e.1.status = St.ok then c.failAt t.q t.slot FaultUnit.cluster e
          else (c.tileStopped t.q t.slot (.failed e)).releaseGroup cl id { wg with faulted := true }
        | .ok c1 =>
          let o := pg p
          let c2 := (c1.count Fld.RAS_PIPE_TILE_CNT_COUNT o).setFld Fld.RAS_PIPE_TILE_MAXCYC_COUNT o
            (max (c1.fld Fld.RAS_PIPE_TILE_MAXCYC_COUNT o) cycles)
          ((c2.signItem c t.q t.slot wg.index).tileOut t.q t.slot).releaseGroup cl id wg
  | _, _ => c

def execTileWriteOut (c : BitVec 7) (wg cycles : Word) (s : State) : Host.Outcome State Fault Refusal :=
  onChip (fun ch => ch.tileWriteOut c.toNat wg.toNat cycles.toNat) s

end Sys2Proof.Machine
end

