-- ==== Sys2Proof/Machine/Sync.lean ====
section
/-!
DEFINITION. The synchronisation opcodes, the copy engine's local opcodes, invalidation and accounting
(R42, R51, R76, R101 to R115).
-/

namespace Sys2Proof.Machine

/-! ## Fences (R101 to R105) -/

/-- R101: FENCE_SIGNAL; a remote signal completes with its response. -/
def Chip.fenceSignal (c : Chip) (q slot : Nat) : Chip :=
  c.run q slot Op.fenceSignal fun c e =>
    let w := c.actor q slot
    match c.signalFence w q e.desc.p0.toNat e.desc.p1.toNat (.entry q slot) with
    | .done c1 => c1.finishOk q slot
    | .remote c1 => c1.setEntry q slot { e with phase := .running }
    | .failed err => c.failAt q slot FaultUnit.frontEnd (err, e.desc.p0.toNat)

def execFenceSignal (q : BitVec 10) (slot : BitVec 6) (s : State) : Host.Outcome State Fault Refusal :=
  onChip (fun c => c.fenceSignal q.toNat slot.toNat) s

/-- R105: the entry begins to wait, and holds its queue; waits are numbered in order. In a queue that is stopping the
wait ends with QUEUE_FAULTED. -/
def Chip.startWait (c : Chip) (q slot : Nat) (e : Entry) (w : Watch) : Chip :=
  if (c.queue q).stopping then c.finish q slot St.queueFaulted 0
  else
    { c.setEntry q slot { e with phase := .waiting, watch := w, waitSeq := c.waitCtr } with
      waitCtr := c.waitCtr + 1 }.holdQueue q

/-- A synchronisation word in the partition's own memory: its partition-physical address, or the failure
(R102, R106: no TARGET 0x1 or 0x2). During a refresh window the access waits (R220). -/
def Chip.syncWord (c : Chip) (w : Actor) (k : Access) (va : Nat) : Except AccErr Nat :=
  match c.translate w k va with
  | .ok (.here a) => if c.inWindow w.p a 8 then .error .stall else .ok a
  | .ok _ => .error .perm
  | .error e => .error e

/-- R104: FENCE_WAIT. -/
def Chip.fenceWait (c : Chip) (q slot : Nat) : Chip :=
  c.run q slot Op.fenceWait fun c e =>
    let w := c.actor q slot
    let va := e.desc.p0.toNat
    match c.syncWord w .read va with
    | .error err => c.failAt q slot FaultUnit.frontEnd (err, va)
    | .ok a =>
      match c.readPP w.p a 8, (c.part w.p).loc a with
      | .ok bs, some l =>
        if e.desc.p1.toNat ≤ leNat bs then c.finishOk q slot
        else c.startWait q slot e (.fence l e.desc.p1 false)
      | .error err, _ => c.failAt q slot FaultUnit.frontEnd (err, va)
      | .ok _, none => c.failAt q slot FaultUnit.frontEnd (.bound, va)

def execFenceWait (q : BitVec 10) (slot : BitVec 6) (s : State) : Host.Outcome State Fault Refusal :=
  onChip (fun c => c.fenceWait q.toNat slot.toNat) s

/-- R104, R105: a FENCE_WAIT that a write has satisfied completes; a poisoned word ends it.
(DEDUCED, assumption 147.) -/
def Chip.fenceWake (c : Chip) (q slot : Nat) : Chip :=
  match c.entry q slot with
  | some e =>
    match e.phase, e.watch with
    | .waiting, .fence l _ met =>
      if met then c.finishOk q slot
      else if c.badLoc l then
        c.failAt q slot FaultUnit.frontEnd (poisonAt l, e.desc.p0.toNat)
      else c
    | _, _ => c
  | none => c

def execFenceWake (q : BitVec 10) (slot : BitVec 6) (s : State) : Host.Outcome State Fault Refusal :=
  onChip (fun c => c.fenceWake q.toNat slot.toNat) s

/-! ## Semaphores (R106 to R108) -/

/-- R108: the queues that a waiter on a word owned by `t` donates to now, given those it donates to. -/
def Chip.donees (c : Chip) (p t : Nat) (had : List Nat) : List Nat :=
  if t = 0 then []
  else (c.queues.filter fun kq => partOf kq.1 == p && !kq.2.blocked &&
      ((c.holdsTag kq.1 t).2 || (had.contains kq.1 && (c.holdsTag kq.1 t).1))).map Prod.fst

/-- R108: bring the donation of one waiting acquire up to date with its word's owner: each new receiver counts, and
claims clusters for a DISPLAY_PRIORITY waiter or goes to the head of the run list for a NORMAL one. -/
def Chip.donateFor (c : Chip) (q slot : Nat) (e : Entry) (loc : Nat) : Chip :=
  let p := partOf q
  if (c.part p).det then c
  else
    let t := semOwner (c.dwordLoc loc).toNat
    let had := c.liveDonees e
    let now := c.donees p t had
    let fresh := now.filter fun o => !had.contains o
    let c1 := (c.setEntry q slot { e with donees := now, doneeTag := t }).count Fld.DONATE_CNT_COUNT (pg p) fresh.length
    if (c.queue q).cls then now.foldl (fun c o => c.claim o (donationKey o)) c1
    else
      let x := c1.part p
      c1.setPart p { x with runList := fresh ++ x.runList.filter fun o => !fresh.contains o }

/-- Every waiting acquire of the device, in the order their waits began: queue, slot, word, count.
(DESIGN CHOICE, assumption 43.) -/
def Chip.semWaiters (c : Chip) : List (Nat × Nat × Nat) :=
  c.queues.flatMap fun kq => kq.2.entries.filterMap fun ke =>
    match ke.2.phase, ke.2.watch with
    | .waiting, .sem _ _ => some (ke.2.waitSeq, kq.1, ke.1)
    | _, _ => none

/-- Insert by the first component. (DESIGN CHOICE, assumption 43.) -/
def insertBySeq (x : Nat × Nat × Nat) : List (Nat × Nat × Nat) → List (Nat × Nat × Nat)
  | [] => [x]
  | y :: ys => if x.1 ≤ y.1 then x :: y :: ys else y :: insertBySeq x ys

/-- Waiters in wait order. (DESIGN CHOICE, assumption 43.) -/
def bySeq (l : List (Nat × Nat × Nat)) : List (Nat × Nat × Nat) := l.foldl (fun a x => insertBySeq x a) []

/-- R97: descriptors that have lost their last cluster write their records, in every partition. -/
def Chip.settleAll (c : Chip) : Chip := c.parts.foldl (fun c kp => if kp.2.det then c else c.settlePart kp.1) c

/-- R108: bring every donation up to date. (DESIGN CHOICE, assumption 43.) -/
def Chip.donateAll (c : Chip) : Chip :=
  ((bySeq c.semWaiters).foldl (fun c w =>
    match c.entry w.2.1 w.2.2 with
    | some e =>
      match e.watch with
      | .sem l _ => c.donateFor w.2.1 w.2.2 e l
      | _ => c
    | none => c) c).settleAll

/-- R106: one acquire atomic on the word at `a`: done, or the word as it stands. -/
def Chip.acquire (c : Chip) (q p a n tag : Nat) : Except AccErr (Option Chip) :=
  match c.readPP p a 8 with
  | .error e => .error e
  | .ok bs =>
    let w := leNat bs
    if n ≤ semCount w then
      match c.writePP p a (leBytes 8 (tag * 2 ^ 48 + (semCount w - n))) with
      | .error e => .error e
      | .ok c1 => .ok (some (c1.signLeft q p a 8))
    else .ok none

/-- R106: SEM_ACQUIRE. -/
def Chip.semAcquire (c : Chip) (q slot : Nat) : Chip :=
  c.run q slot Op.semAcquire fun c e =>
    let w := c.actor q slot
    let va := e.desc.p0.toNat
    match c.syncWord w .atomic va with
    | .error err => c.failAt q slot FaultUnit.frontEnd (err, va)
    | .ok a =>
      match c.acquire q w.p a (dbits e.desc.p1 47 0) e.desc.tag.toNat, (c.part w.p).loc a with
      | .ok (some c1), _ => (c1.finishOk q slot).donateAll
      | .ok none, some l => (c.startWait q slot e (.sem l (dbits e.desc.p1 47 0))).donateAll
      | .ok none, none => c
      | .error err, _ => c.failAt q slot FaultUnit.frontEnd (err, va)

def execSemAcquire (q : BitVec 10) (slot : BitVec 6) (s : State) : Host.Outcome State Fault Refusal :=
  onChip (fun c => c.semAcquire q.toNat slot.toNat) s

/-- R107: one retry of a waiting acquire whose word stands at location `l`. -/
def Chip.retryOne (c : Chip) (l : Nat) (w : Nat × Nat × Nat) : Chip :=
  match c.entry w.2.1 w.2.2 with
  | none => c
  | some e =>
    match e.watch with
    | .sem l' n =>
      if l' ≠ l then c
      else
        match c.syncWord (c.actor w.2.1 w.2.2) .atomic e.desc.p0.toNat with
        | .error .stall => c
        | word =>
          if c.badLoc l then c.failAt w.2.1 w.2.2 FaultUnit.frontEnd (poisonAt l, e.desc.p0.toNat)
          else
            let v := (c.dwordLoc l).toNat
            if n ≤ semCount v then
              let c1 := c.writeLocs (rangeFrom l 8) (leBytes 8 (e.desc.tag.toNat * 2 ^ 48 + (semCount v - n)))
              (match word with
                | .ok a => c1.signLeft w.2.1 (partOf w.2.1) a 8
                | .error _ => c1).finishOk w.2.1 w.2.2
            else c
    | _ => c

/-- R107: the acquires blocked on the word that this one waits on are retried, one atomic each, in the
order in which they began to wait. (DEDUCED, assumption 147.) -/
def Chip.semRetry (c : Chip) (q slot : Nat) : Chip :=
  match c.entry q slot with
  | none => c
  | some e =>
    match e.phase, e.watch with
    | .waiting, .sem l _ => ((bySeq c.semWaiters).foldl (fun c w => c.retryOne l w) c).donateAll
    | _, _ => c

def execSemRetry (q : BitVec 10) (slot : BitVec 6) (s : State) : Host.Outcome State Fault Refusal :=
  onChip (fun c => c.semRetry q.toNat slot.toNat) s

/-- R106: the word that a release leaves. -/
def releasedWord (w n tag : Nat) : Nat :=
  (if semOwner w = tag then 0 else semOwner w) * 2 ^ 48 + min (semCount w + n) (2 ^ 48 - 1)

/-- R106: SEM_RELEASE. -/
def Chip.semRelease (c : Chip) (q slot : Nat) : Chip :=
  c.run q slot Op.semRelease fun c e =>
    let w := c.actor q slot
    let va := e.desc.p0.toNat
    let n := dbits e.desc.p1 47 0
    match c.syncWord w .atomic va with
    | .error err => c.failAt q slot FaultUnit.frontEnd (err, va)
    | .ok a =>
      match c.readPP w.p a 8 with
      | .error err => c.failAt q slot FaultUnit.frontEnd (err, va)
      | .ok bs =>
        let old := leNat bs
        match c.writePP w.p a (leBytes 8 (releasedWord old n e.desc.tag.toNat)) with
        | .error err => c.failAt q slot FaultUnit.frontEnd (err, va)
        | .ok c1 =>
          let c0 := c1.signLeft q w.p a 8
          let c2 := if semCount old + n > 2 ^ 48 - 1
            then c0.postEvent w.p 0x0013 q (va % 2 ^ 32) else c0
          (c2.finishOk q slot).donateAll

def execSemRelease (q : BitVec 10) (slot : BitVec 6) (s : State) : Host.Outcome State Fault Refusal :=
  onChip (fun c => c.semRelease q.toNat slot.toNat) s

/-! ## Hardware events (R109 to R112) -/

/-- R109: an event operation on an event of another partition has no effect. -/
def Chip.eventOp (c : Chip) (q slot op : Nat) (f : Chip → Entry → Nat → Chip) : Chip :=
  c.run q slot op fun c e =>
    let n := dbits e.desc.p0 7 0
    if c.fld Fld.EVT_CFG_OWNER (4 * n) ≠ partOf q then c.finish q slot St.permissionFault 0
    else f c e n

/-- R110: EVENT_SET. -/
def Chip.eventSet (c : Chip) (q slot : Nat) : Chip :=
  c.eventOp q slot Op.eventSet fun c _ n => (c.signalEvent n).finishOk q slot

def execEventSet (q : BitVec 10) (slot : BitVec 6) (s : State) : Host.Outcome State Fault Refusal :=
  onChip (fun c => c.eventSet q.toNat slot.toNat) s

/-- R110: EVENT_RESET. -/
def Chip.eventReset (c : Chip) (q slot : Nat) : Chip :=
  c.eventOp q slot Op.eventReset fun c _ n => (c.setFld Fld.EVT_CFG_STATE (4 * n) 0).finishOk q slot

def execEventReset (q : BitVec 10) (slot : BitVec 6) (s : State) : Host.Outcome State Fault Refusal :=
  onChip (fun c => c.eventReset q.toNat slot.toNat) s

/-- R110: EVENT_WAIT. -/
def Chip.eventWait (c : Chip) (q slot : Nat) : Chip :=
  c.eventOp q slot Op.eventWait fun c e n =>
    if c.flag Fld.EVT_CFG_STATE (4 * n) then
      (if c.flag Fld.EVT_CFG_MODE (4 * n) then c else c.setFld Fld.EVT_CFG_STATE (4 * n) 0).finishOk q slot
    else c.startWait q slot e (.event n)

def execEventWait (q : BitVec 10) (slot : BitVec 6) (s : State) : Host.Outcome State Fault Refusal :=
  onChip (fun c => c.eventWait q.toNat slot.toNat) s

/-! ## The copy engine (R76, R361) -/

/-- The part of a destination range that lies in its next 4 KiB block, from progress `done`. -/
def nextBlock (dst n done : Nat) : Nat := min (n - done) (4096 - (dst + done) % 4096)

/-- Blocks written in full when `done` bytes of the destination have been written. -/
def blocksDone (dst done : Nat) : Nat :=
  if done = 0 then 0 else (dst + done - 1) / 4096 - dst / 4096 + 1

/-- R361: writes of a descriptor to another device are not yet acknowledged. -/
def Chip.writesOut (c : Chip) (q slot : Nat) : Bool :=
  c.reqs.any fun r => r.who == .entry q slot && match r.kind with | .write _ => true | _ => false

/-- R42: the depth of a partition's buckets in bytes. -/
def Part.depth (x : Part) : Nat := (if x.burst = 0 then 4 else x.burst) * 1024

/-- R42: a bucket filled for `ns` at a rate in GB/s (bytes per ns), up to its depth. -/
def Bucket.fill (b : Bucket) (rate depth ns : Nat) : Bucket :=
  { tokens := if rate = 0 then depth else min depth (b.tokens + rate * ns) }

/-- R42: whether a request of `n` bytes passes now: unregulated, enough tokens, or a full bucket. -/
def Bucket.passes (b : Bucket) (rate depth n : Nat) : Bool :=
  rate == 0 || decide (n ≤ b.tokens) || (decide (depth < n) && decide (b.tokens ≥ depth))

/-- R42: the bucket after a request of `n` bytes has passed; what it lacked is no debt. -/
def Bucket.take (b : Bucket) (rate n : Nat) : Bucket :=
  if rate = 0 then b else { tokens := b.tokens - n }

/-- R42, R92: the buckets at which a request of an engine waits: mesh and memory, and the link for REMOTE_COPY.
(DEDUCED, assumption 165.) -/
def Part.engineMay (x : Part) (link : Bool) (n : Nat) : Bool :=
  x.det || (x.meshBucket.passes x.meshRate x.depth n && x.memBucket.passes x.memRate x.depth n
    && (!link || x.linkBucket.passes x.linkRate x.depth n))

/-- R42, R92: a request of an engine takes its tokens. (DEDUCED, assumption 165.) -/
def Chip.engineTake (c : Chip) (p : Nat) (link : Bool) (n : Nat) : Chip :=
  let x := c.part p
  if x.det then c
  else c.setPart p { x with
    meshBucket := x.meshBucket.take x.meshRate n, memBucket := x.memBucket.take x.memRate n
    linkBucket := if link then x.linkBucket.take x.linkRate n else x.linkBucket }

/-- R76, R361: the bytes of the next block of a copy or fill. -/
def Entry.nextBytes (e : Entry) : Nat :=
  if e.desc.opcode.toNat = Op.fill then nextBlock e.desc.p0.toNat (dbits e.desc.p1 47 0) e.progress
  else nextBlock e.desc.p1.toNat (dbits e.desc.p2 47 0) e.progress

/-- R92: the engine of a copy or fill: 0 the copy engine, 1 the link engine. -/
def engineOf (op : Nat) : Option Nat :=
  if op = Op.copy ∨ op = Op.fill then some 0 else if op = Op.remoteCopy then some 1 else none

/-- R92: a queue has a request for an engine that can be served now. (DEDUCED, assumption 165.) -/
def Chip.engineReady (c : Chip) (eng q : Nat) : Bool :=
  (c.queue q).entries.any fun ke => ke.2.phase == .ready && engineOf ke.2.desc.opcode.toNat == some eng
    && !(c.reqs.any fun r => r.who == .entry q ke.1) && (c.part (partOf q)).engineMay (eng == 1) ke.2.nextBytes

/-- R92: whose request an engine serves next: round robin across all queues. -/
def Chip.engineTurn (c : Chip) (eng : Nat) : Option Nat :=
  nextAfter (KMap.getD c.engineLast eng 1023) ((c.queues.map Prod.fst).filter (c.engineReady eng))

/-- R76, R361: an engine moves one block of a range: one request of its queue. A block in another device is acknowledged
before the next. Where the partition's transfers are stopping, the copy ends with this block (R447). `src` gives the
bytes of a block, or its failure. A failure stops the copy at its block; data that is outside is asked for and the
copy goes on later. (DESIGN CHOICE, assumption 13; DEDUCED, assumption 165.) -/
def Chip.moveBlock (c : Chip) (eng q slot dst n : Nat) (e : Entry)
    (src : Chip → Nat → Nat → Except (AccErr × Nat) (List Byte)) : Chip :=
  let done := e.progress
  if c.engineTurn eng ≠ some q then c
  else if done ≥ n then c.finishOk q slot (blocksDone dst done)
  else
    let k := nextBlock dst n done
    let stop (f : AccErr × Nat) : Chip := c.failAt q slot FaultUnit.copy f (blocksDone dst done)
    match src c done k with
    | .error f => stop f
    | .ok bs =>
      match c.writeVA (c.actor q slot) q (.entry q slot) (dst + done) bs with
      | .error f => stop f
      | .ok c1 =>
        let c2 := { c1.engineTake (partOf q) (eng == 1) k with engineLast := KMap.set eng q c1.engineLast }
        if c2.writesOut q slot then c2.setEntry q slot { e with progress := done + k }
        else if done + k ≥ n then c2.finishOk q slot (blocksDone dst n)
        else if c2.stopping q then c2.finish q slot St.abortedReset (blocksDone dst (done + k))
        else c2.setEntry q slot { e with progress := done + k }

/-- R76: overlapping ranges. -/
def overlaps (a b n : Nat) : Bool := decide (a < b + n) && decide (b < a + n)

/-- R76, R92, R361: COPY and REMOTE_COPY: the next block of the range, in the engine's turn.
(DESIGN CHOICE, assumption 13.) -/
def Chip.copyRange (c : Chip) (q slot op : Nat) : Chip :=
  c.run q slot op fun c e =>
    let s := e.desc.p0.toNat
    let d := e.desc.p1.toNat
    let n := dbits e.desc.p2 47 0
    if n = 0 then c.finishOk q slot
    else if overlaps s d n then c.finishMalformed q slot
    else c.moveBlock (if op = Op.copy then 0 else 1) q slot d n e fun c o k => c.readVA (c.actor q slot) (s + o) k

/-- R76: COPY. -/
def execCopy (q : BitVec 10) (slot : BitVec 6) (s : State) : Host.Outcome State Fault Refusal :=
  onChip (fun c => c.copyRange q.toNat slot.toNat Op.copy) s

/-- R361: REMOTE_COPY. -/
def execRemoteCopy (q : BitVec 10) (slot : BitVec 6) (s : State) : Host.Outcome State Fault Refusal :=
  onChip (fun c => c.copyRange q.toNat slot.toNat Op.remoteCopy) s

/-- R76: the pattern bytes of a FILL from offset `o`. -/
def patternBytes (pat : Dword) (o k : Nat) : List Byte :=
  (rangeFrom o k).map fun i => BitVec.ofNat 8 (pat.toNat >>> (8 * (i % 8)))

/-- R76, R92: FILL: the next block of the range, in the engine's turn. -/
def Chip.fillRange (c : Chip) (q slot : Nat) : Chip :=
  c.run q slot Op.fill fun c e =>
    let d := e.desc.p0.toNat
    let n := dbits e.desc.p1 47 0
    if n = 0 then c.finishOk q slot
    else c.moveBlock 0 q slot d n e fun _ o k => .ok (patternBytes e.desc.p2 o k)

def execFill (q : BitVec 10) (slot : BitVec 6) (s : State) : Host.Outcome State Fault Refusal :=
  onChip (fun c => c.fillRange q.toNat slot.toNat) s

/-- R76: TIMESTAMP writes the global time counter with one aligned store, which no signature covers
(R400). -/
def Chip.timestamp (c : Chip) (q slot : Nat) : Chip :=
  c.run q slot Op.timestamp fun c e =>
    match c.writeVA (c.actor q slot) q (.entry q slot) e.desc.p0.toNat (leBytes 8 c.gtc.toNat) with
    | .error err => c.failAt q slot FaultUnit.copy err
    | .ok c1 => { c1 with sigs := c.sigs }.finishOk q slot

def execTimestamp (q : BitVec 10) (slot : BitVec 6) (s : State) : Host.Outcome State Fault Refusal :=
  onChip (fun c => c.timestamp q.toNat slot.toNat) s

/-! ## Invalidation and regulators (R42, R51, R54) -/

/-- R51: the scope of a PT_INVALIDATE; scopes 1 and 2 take in the ASID-table entries. -/
def invalScope (d : Desc) (seq : Nat) : InvRec :=
  match dbits d.p0 1 0 with
  | 0 => { asid := some (dbits d.p0 27 16), lo := d.p1.toNat,
           hi := d.p1.toNat + 4096 * dbits d.p2 35 0, table := false, seq := seq }
  | 1 => { asid := some (dbits d.p0 27 16), lo := 0, hi := 2 ^ 48, table := true, seq := seq }
  | _ => { asid := none, lo := 0, hi := 2 ^ 48, table := true, seq := seq }

/-- R51, R315: a layer's translations in scope are dropped and taken again from the tables. -/
def Chip.refreshLayer (c : Chip) (r : InvRec) (x : Layer) : Layer :=
  let hit (page : Nat) : Bool := (r.asid == none || r.asid == some x.asid)
    && decide (r.lo < page * 4096 + 4096) && decide (page * 4096 < r.hi)
  let w : Actor := { p := x.part, asid := x.asid, kernel := x.kernel }
  { x with pages := x.pages.filterMap fun kv =>
      if hit kv.1 then
        match c.translate w .read (kv.1 * 4096) with
        | .ok (.here a) => some (kv.1, a / 4096)
        | _ => none
      else some kv }

/-- R51, R315: the layer composition engine's translations in a scope of partition `p`. -/
def Chip.refreshLayers (c : Chip) (p : Nat) (r : InvRec) : Chip :=
  let one (x : Layer) : Layer := if x.part = p then c.refreshLayer r x else x
  let all (m : KMap Layer) : KMap Layer := m.map fun kl => (kl.1, one kl.2)
  { c with pipes := c.pipes.map fun kd => (kd.1, { kd.2 with
      layers := all kd.2.layers
      committed := kd.2.committed.map fun f => { f with layers := all f.layers } }) }

/-- R51, R54: PT_INVALIDATE. Accesses complete within their own step, so none that used an old
translation is left but those outside the device, whose requests it waits for. (DEDUCED, assumption 145.) -/
def Chip.ptInvalidate (c : Chip) (q slot : Nat) : Chip :=
  c.run q slot Op.ptInvalidate fun c e =>
    let p := partOf q
    let x := c.part p
    if x.sealed then c.finish q slot St.permissionFault 0
    else if dbits e.desc.p0 1 0 ≠ 2 && !c.asidOk p (dbits e.desc.p0 27 16) then
      c.finish q slot St.permissionFault 0
    else if c.reqs.any fun r => r.part == p then c
    else
      let r := invalScope e.desc c.wseq
      (((c.setPart p { x with invals := r :: x.invals }).refreshLayers p r).setRg
        (Reg.PART_INVAL_CNT + pg p) (c.rg (Reg.PART_INVAL_CNT + pg p) + 1)).finishOk q slot

def execPtInvalidate (q : BitVec 10) (slot : BitVec 6) (s : State) : Host.Outcome State Fault Refusal :=
  onChip (fun c => c.ptInvalidate q.toNat slot.toNat) s

/-- R42: REGULATOR_SET. -/
def Chip.regulatorSet (c : Chip) (slot : Nat) : Chip :=
  c.run 0 slot Op.regulatorSet fun c e =>
    let p := dbits e.desc.p0 3 0
    let x := c.part p
    if x.det ∨ !(x.state = .ready ∨ x.state = .resetting) then c.finishMalformed 0 slot
    else
      (c.setPart p { x with meshRate := dbits e.desc.p1 15 0, memRate := dbits e.desc.p1 31 16,
                            linkRate := dbits e.desc.p2 15 0, burst := dbits e.desc.p2 31 16 }).finishOk 0 slot

def execRegulatorSet (slot : BitVec 6) (s : State) : Host.Outcome State Fault Refusal :=
  onChip (fun c => c.regulatorSet slot.toNat) s

/-- R42: the buckets of an elastic partition fill for `ns`. (DEDUCED, assumption 147.) -/
def Chip.fillBuckets (c : Chip) (p ns : Nat) : Chip :=
  let x := c.part p
  if x.det ∨ x.state = .absent then c
  else c.setPart p { x with
    meshBucket := x.meshBucket.fill x.meshRate x.depth ns
    memBucket := x.memBucket.fill x.memRate x.depth ns
    linkBucket := x.linkBucket.fill x.linkRate x.depth ns }

/-- R42: a request of `n` bytes waits at one bucket and passes once it may, taking its tokens.
(DEDUCED, assumption 147.) -/
def Chip.passBucket (c : Chip) (p which n : Nat) : Chip :=
  let x := c.part p
  match which with
  | 0 => if x.meshBucket.passes x.meshRate x.depth n
         then c.setPart p { x with meshBucket := x.meshBucket.take x.meshRate n } else c
  | 1 => if x.memBucket.passes x.memRate x.depth n
         then c.setPart p { x with memBucket := x.memBucket.take x.memRate n } else c
  | _ => if x.linkBucket.passes x.linkRate x.depth n
         then c.setPart p { x with linkBucket := x.linkBucket.take x.linkRate n } else c

/-- R42: TOKEN_BUCKET_FILL: the partition's buckets gain `ns` worth of tokens, and the request of `n`
bytes that waits at bucket `which` (0 mesh, 1 memory, 2 link) passes if it now may. -/
def execTokenBucketFill (p : BitVec 4) (ns : Word) (which : BitVec 2) (n : Word) (s : State) :
    Host.Outcome State Fault Refusal :=
  onChip (fun c => (c.fillBuckets p.toNat ns.toNat).passBucket p.toNat which.toNat n.toNat) s

/-! ## Accounting (R113 to R115) -/

/-- R115: ACCOUNTED with a delta added and clamped. -/
def accounted (old : Nat) (delta : Int) : Nat :=
  let v : Int := (bits old 62 0 : Int) + delta
  let clamped := decide (v < 0) || decide (v > (2 ^ 63 - 1 : Nat))
  (max 0 (min ((2 ^ 63 - 1 : Nat) : Int) v)).toNat + 2 ^ 63 * b2n (bit old 63 || clamped)

/-- R115: MEM_ACCOUNT. -/
def Chip.memAccount (c : Chip) (q slot : Nat) : Chip :=
  c.run q slot Op.memAccount fun c e =>
    let p := partOf q
    if !c.flag Fld.ACCT_BASE_LO_ACCT_EN (pg p) then c.finishOk q slot 1
    else
      let a := c.acctAddr p (dbits e.desc.p0 15 0) + 0x38
      match c.readPP p a 8 with
      | .error _ => (c.count Fld.ACCT_LOST_COUNT (pg p)).finishOk q slot
      | .ok bs =>
        match c.writePP p a (leBytes 8 (accounted (leNat bs) (signed 64 e.desc.p1.toNat))) with
        | .error _ => (c.count Fld.ACCT_LOST_COUNT (pg p)).finishOk q slot
        | .ok c1 => c1.finishOk q slot

def execMemAccount (q : BitVec 10) (slot : BitVec 6) (s : State) : Host.Outcome State Fault Refusal :=
  onChip (fun c => c.memAccount q.toNat slot.toNat) s

/-- R114: the stored entry with the contribution of descriptors still in progress. -/
def snapshot (b : List Byte) (u : Usage) : List Byte :=
  let add (o : Nat) (d : Dword) : List Byte := leBytes 8 (dwordAt b o + d).toNat
  add 0x00 0 ++ add 0x08 u.clusterCycles ++ add 0x10 u.tensorCycles ++ add 0x18 u.engineNs
    ++ add 0x20 u.linkBytes ++ add 0x28 0 ++ add 0x30 0 ++ add 0x38 0

/-- R114: CTX_QUERY; `u` is what descriptors of the tag in progress have used so far. -/
def Chip.ctxQuery (c : Chip) (q slot : Nat) (u : Usage) : Chip :=
  c.run q slot Op.ctxQuery fun c e =>
    let p := partOf q
    let en := c.flag Fld.ACCT_BASE_LO_ACCT_EN (pg p)
    let a := c.acctAddr p (dbits e.desc.p0 15 0)
    match (if en then c.readPP p a 64 else .ok (leBytes 64 0)) with
    | .error err => c.failAt q slot FaultUnit.frontEnd (err, 0)
    | .ok b =>
      let snap := if en then snapshot b u else b
      match c.writeVA (c.actor q slot) q (.entry q slot) e.desc.p1.toNat snap with
      | .error err => c.failAt q slot FaultUnit.frontEnd err
      | .ok c1 => c1.finishOk q slot (b2n (!en))

def execCtxQuery (q : BitVec 10) (slot : BitVec 6) (u : Usage) (s : State) :
    Host.Outcome State Fault Refusal :=
  onChip (fun c => c.ctxQuery q.toNat slot.toNat u) s

end Sys2Proof.Machine
end

