-- ==== Sys2Proof/Machine/Responses.lean ====
section
/-!
DEFINITION. What a response from the host or from another device does for the one who waits for it (R358,
R360 to R362, R509).
-/

namespace Sys2Proof.Machine

/-- Data that has arrived for a requester, at consecutive keys. (DESIGN CHOICE, assumption 28.) -/
def Chip.fillBuf (c : Chip) (rid key : Nat) (bs : List Byte) : Chip :=
  { c with inbuf := KMap.modify rid [] (fun m =>
      (rangeFrom key bs.length).zip bs |>.foldl (fun m x => KMap.set x.1 x.2 m) m) c.inbuf }

/-- R101, R103, R400: a fence signal performed at another device: a regression is counted, a saturation
posted, and the value left added to the signature. -/
def Chip.fenceAnswered (c : Chip) (q va : Nat) (r : Req) (v old : Nat) : Chip :=
  if v < old then c.regression q va
  else
    let c1 := c.sign q (partOf q) r.addr (leBytes 8 v)
    if v = 2 ^ 64 - 1 ∧ old ≠ v then c1.postEvent (partOf q) 0x0003 q (va % 2 ^ 32) else c1

/-- R76, R361: the DETAIL of a copy stopped by a failed request: whole blocks written before. -/
def Entry.stoppedDetail (e : Entry) (write : Bool) : Nat :=
  let op := e.desc.opcode.toNat
  let dst := if op = Op.fill then e.desc.p0.toNat else e.desc.p1.toNat
  if op = Op.copy ∨ op = Op.remoteCopy ∨ op = Op.fill then blocksDone dst e.progress - b2n write else 0

/-! ## The block of a collective (R366) -/

/-! Operations of R366. -/
namespace CollOp
def allReduce := 0
def reduceScatter := 1
def allGather := 2
def broadcast := 3
def barrier := 4
end CollOp

/-- R366: bytes of a canonical element. -/
def dtypeSize (d : Nat) : Nat :=
  match d with
  | 1 => 2
  | 2 => 2
  | 5 => 8
  | _ => 4

/-- R366: bytes of an input element. -/
def Coll.inSize (x : Coll) : Nat := if x.exact then 96 else dtypeSize x.dtype

/-- R366: bytes of an output element. -/
def Coll.outSize (x : Coll) : Nat :=
  if !x.exact then dtypeSize x.dtype else if x.outFmt = 0xF then 96 else drainSize x.outFmt

/-- R366: a collective read from its block, its ranks and digest still to be filled in. -/
def Coll.ofBlock (q slot : Nat) (b : List Byte) (began : Nat) : Coll :=
  let w := fieldLE b 0 4
  let r := fieldLE b 4 4
  { q := q, slot := slot, op := bits w 2 0, exact := bit w 4, dtype := bits w 10 8, redop := bits w 13 12,
    outFmt := bits w 19 16, rmode := bits w 22 20, satf := bit w 23, nrank := bits r 6 0, myRank := bits r 14 8,
    root := bits r 22 16, ranks := [], src := fieldLE b 0x10 8, dst := fieldLE b 0x18 8
    count := fieldLE b 0x20 4, group := fieldLE b 0x24 4, seq := fieldLE b 0x28 4
    timeout := fieldLE b 0x2C 2, began := began, digest := 0 }

/-- R370: the element of a COLLECTIVE that a request reads or writes. -/
def Chip.collElement (c : Chip) (q slot : Nat) (e : Entry) (r : Req) : Option Nat :=
  if e.desc.opcode.toNat ≠ Op.collective then none
  else
    match c.readVA (c.actor q slot) e.desc.p0.toNat 64 with
    | .error _ => none
    | .ok b =>
      let x := Coll.ofBlock q slot b 0
      match r.kind with
      | .read _ => if x.src ≤ r.va then some ((r.va - x.src) / x.inSize) else none
      | _ => if x.dst ≤ r.va then some ((r.va - x.dst) / x.outSize) else none

/-- R370: the DETAIL of a descriptor stopped by a failed request. -/
def Chip.refusedDetail (c : Chip) (q slot : Nat) (e : Entry) (r : Req) (write : Bool) : Nat :=
  (c.collElement q slot e r).getD (e.stoppedDetail write)

/-- A failed request of a descriptor that awaits its acknowledgements: its status is kept, or becomes the request's; of a
COLLECTIVE the lowest element affected counts (R370). -/
def Chip.lateRefusal (c : Chip) (q slot : Nat) (e : Entry) (r : Req) (s s0 : Half) (d : Word) (h : Bool) : Chip :=
  match c.collElement q slot e r with
  | none => if isError s0 then c else c.setEntry q slot { e with phase := .done s d h }
  | some i =>
    if isError s0 ∧ d.toNat ≤ i then c
    else c.setEntry q slot { e with phase := .done s (BitVec.ofNat 32 i) h }

/-- R55: the unit whose access a descriptor's request is. (DEDUCED, assumption 29.) -/
def faultUnitOf (op : Nat) : Nat :=
  if op = Op.copy ∨ op = Op.fill ∨ op = Op.remoteCopy ∨ op = Op.timestamp then FaultUnit.copy
  else if op = Op.compress ∨ op = Op.decompress then FaultUnit.compression
  else if op = Op.draw then FaultUnit.grinder
  else if op = Op.displayFlip ∨ op = Op.protectedFlip then FaultUnit.layer
  else FaultUnit.frontEnd

/-- R336: a request that reads the history which a COMPRESS continues. -/
def Chip.readsHistory (c : Chip) (q slot : Nat) (e : Entry) (r : Req) : Bool :=
  e.desc.opcode.toNat == Op.compress && (match r.kind with | .read _ => true | _ => false)
    && match c.readVA (c.actor q slot) e.desc.p0.toNat 64 with
      | .ok b =>
        let j := Job.ofBytes b
        !j.ctx && !j.first && e.hist.isNone
          && decide (j.histIn ≤ r.va) && decide (r.va < j.histIn + 0x1000 + (if j.fmt = 3 then 2 ^ j.wlog else 32768))
      | .error _ => false

/-- A request of a descriptor failed: it is captured (R55), the descriptor completes with the request's status, and what
it held of a lane or of a chain ends. R68: parameters that cannot be read end it with INDIRECT_FAULT. R336: a history that
cannot be read ends it with HISTORY_ABSENT. -/
def Chip.entryRefused (c0 : Chip) (q slot : Nat) (e : Entry) (r : Req) (s : Half) (write : Bool) : Chip :=
  let c := if e.loaded then c0.capture (partOf q) (.remote s) (faultUnitOf e.desc.opcode.toNat) (c0.asidOf q) r.va
      e.desc.tag.toNat else c0
  match e.phase with
  | .done s0 d h => c.lateRefusal q slot e r s s0 d h
  | _ =>
    let c1 := if !e.loaded then c.finish q slot St.indirectFault 0
      else if c0.readsHistory q slot e r then c0.finish q slot St.historyAbsent 0
      else c.finish q slot s (c0.refusedDetail q slot e r write)
    let c2 := match c1.laneOf q slot with | some lane => c1.settleLane q slot lane | none => c1
    if e.desc.opcode.toNat = Op.draw then c2.failChain q s false else c2

/-- The response to a descriptor's request. -/
def Chip.entryAnswered (c : Chip) (q slot : Nat) (r : Req) (s : Half) (bs : List Byte) : Chip :=
  match c.entry q slot with
  | none => c
  | some e =>
    if s ≠ St.ok then c.entryRefused q slot e r s (match r.kind with | .write _ => true | _ => false)
    else
      match r.kind with
      | .read _ => c.fillBuf (q * 64 + slot) (outsideKey r.host r.dev r.addr) bs
      | .write _ => c
      | .atomic _ _ x _ => (c.fenceAnswered q e.desc.p0.toNat r x.toNat (leNat bs)).finishOk q slot

/-- R69, R80: the response to a SIGNAL_AFTER; its fault is captured in every case. -/
def Chip.signalAnswered (c : Chip) (q slot : Nat) (r : Req) (s : Half) (bs : List Byte) : Chip :=
  match c.entry q slot with
  | none => c
  | some e =>
    if s ≠ St.ok then
      (c.captureAny (partOf q) (.remote s) FaultUnit.frontEnd (c.asidOf q) e.desc.sigAddr.toNat e.desc.tag.toNat).setEntry
        q slot { e with sig := .faulted s }
    else
      (c.fenceAnswered q e.desc.sigAddr.toNat r e.desc.sigVal.toNat (leNat bs)).setEntry q slot
        { e with sig := .performed }

/-- R128, R132: the response to a wave's request. -/
def Chip.waveAnswered (c : Chip) (key : Nat) (lane : Option Nat) (r : Req) (s : Half) (bs : List Byte) : Chip :=
  match c.wave key with
  | none => c
  | some wv =>
    if s ≠ St.ok then c.waveFault (key / 64) (key % 64) wv (.remote s) r.va
    else
      let rid := 2 ^ 20 + key
      match r.kind, lane with
      | .atomic op size x y, some l =>
        let v := atomicVal op size (leNat bs) x.toNat y.toNat
        let c1 := (c.fillBuf rid (atomicKey l) bs).sign r.queue r.part r.addr (leBytes size v)
        match KMap.find wv.wg (c.cluster (key / 64)).wgs with
        | some wg => c1.signItem c wg.q wg.slot wg.index
        | none => c1
      | .read _, _ => c.fillBuf rid (outsideKey r.host r.dev r.addr) bs
      | _, _ => c

/-- R509: a request to the host has completed: invalidations that waited for it alone are completed.
(DEDUCED, assumption 145.) -/
def Chip.settleInvals (c : Chip) (tag : Nat) : Chip :=
  let left := c.pcie.invals.map fun i => (i.1, i.2.filter (· != tag))
  let c1 := { c with pcie := { c.pcie with invals := left.filter fun i => !i.2.isEmpty } }
  (left.filter fun i => i.2.isEmpty).foldl (fun c i => (c.emit (.atsDone i.1)).count Fld.PCI_ATS_INV_CNT_COUNT) c1

/-- The outstanding requests without one. -/
def Chip.unhold (c : Chip) (r : Req) : Chip :=
  { c with reqs := c.reqs.filter fun o => !(o.sent && o.tag == r.tag && o.host == r.host) }

/-- R509: the page of a granted translation: bits 63 to 12 of its eight bytes. (PRESUMED, assumption 188.) -/
def grantedPage (bs : List Byte) : Nat := leNat (bs.take 8) / 4096

/-- R509: a translation is granted: the cache learns it, and the request that asked for it is sent. -/
def Chip.granted (c : Chip) (r : Req) (page : Nat) : Chip :=
  let c1 := { c.unhold r with pcie := c.pcie.learn r.part (r.addr / 4096) page }
  c1.sendHost { r with asks := false, xlat := some (4096 * page + r.addr % 4096) }

/-- R358: a request is answered: its tag returns, requests that waited for one may go, and whoever waits goes on. -/
def Chip.respond (c : Chip) (r : Req) (s : Half) (bs : List Byte) : Chip :=
  let c0 := c.unhold r
  let c1 := (if r.host then c0.settleInvals r.tag else c0).pump
  match r.who with
  | .none => c1
  | .entry q slot => c1.entryAnswered q slot r s bs
  | .signal q slot => c1.signalAnswered q slot r s bs
  | .wave key lane => c1.waveAnswered key lane r s bs

end Sys2Proof.Machine
end

