-- ==== Sys2Proof/Machine/Ports.lean ====
section
/-!
DEFINITION. The Axmond ports: their states, lanes and training (R344 to R350), the flit layer (R351 to
R355) and the messages of remote access (R356 to R362).
-/

namespace Sys2Proof.Machine

/-! The states of AXL_PORT_STATUS.STATE (R375). -/
namespace PortSt
def off := 0
def training := 1
def up := 2
def down := 3
def refused := 4
def failed := 5
end PortSt

/-- Offset of a port's registers (R375). -/
def po (n : Nat) : Nat := n * 0x40

/-- Whether the variant has the port (R344). -/
def Chip.hasPort (c : Chip) (n : Nat) : Bool := decide (n < c.fld Fld.DEV_CAPS0_LINK_PORTS)

/-- AXL_PORT_STATUS.STATE. -/
def Chip.portState (c : Chip) (n : Nat) : Nat := c.fld Fld.AXL_PORT_STATUS_STATE (po n)

/-- R373: an event of the link, with its vector. -/
def Chip.postLink (c : Chip) (p code queue detail : Nat) : Chip := (c.postBoth p code queue detail).raiseOwner 6

/-- R346: enter a state; a change is posted. (DEDUCED, assumption 56.) -/
def Chip.setPortState (c : Chip) (n st : Nat) : Chip :=
  if c.portState n = st then c
  else (c.setFld Fld.AXL_PORT_STATUS_STATE (po n) st).postLink 0 0x0030 0 (st + 2 ^ 8 * n)

/-- R363: the deterministic partitions that own slots of a port. -/
def Chip.slotOwners (c : Chip) (n : Nat) : List Nat :=
  c.detParts.filter fun p => (c.part p).slotCount n != 0

/-- Whether a partition has DET traffic on a port: requests outstanding, messages to be sent or being sent, or flits not
acknowledged. -/
def Chip.detTraffic (c : Chip) (n p : Nat) : Bool :=
  let x := c.lport n
  c.reqs.any (fun r => !r.host && r.port == n && r.part == p)
    || (KMap.getD x.txq Vc.det []).any (fun m => m.srcPart == p)
    || (!x.cur.isEmpty && x.curDet == some p)
    || x.retry.any fun f => f.det.contains p

/-- R350, R397: link recovery delays the DET traffic of the port. -/
def Chip.perturbLink (c : Chip) (n : Nat) : Chip :=
  (c.slotOwners n).foldl (fun c p => if c.detTraffic n p then c.perturb p 8 else c) c

/-- R362: every request outstanding on a port completes with LINK_UNREACHABLE. -/
def Chip.failRequests (c : Chip) (n : Nat) : Chip :=
  (c.reqs.filter fun r => !r.host && r.port == n).foldl (fun c r => c.respond r St.linkUnreachable []) c

/-- Finish a collective with a status and a detail. -/
def Chip.endColl (c : Chip) (x : Coll) (s : Half) (detail : Nat) (halts : Bool := false) : Chip :=
  { c with colls := c.colls.filter fun y => !(y.q == x.q && y.slot == x.slot) }.finish x.q x.slot s detail halts

/-- The ranks of a collective that satisfy `f`, ascending. -/
def Coll.ranksWith (x : Coll) (f : Nat → Nat × Nat → Bool) : List Nat :=
  (x.ranks.zipIdx.filter fun r => f r.2 r.1).map Prod.snd

/-- R401: the waiting CHECKPOINTs whose partner no route reaches, and whose message has not come, complete with
LINK_UNREACHABLE. (DEDUCED, assumption 34.) -/
def Chip.dropPartners (c : Chip) : Chip :=
  c.queues.foldl (fun c kq =>
    let x := c.part (partOf kq.1)
    if !x.pairEn ∨ x.pairDev = c.fld Fld.AXL_DEVICE_DEVNUM ∨ (KMap.find kq.1 c.sigIn).isSome
        ∨ !(c.ownRoutes (partOf kq.1) x.pairDev).isEmpty then c
    else
      kq.2.entries.foldl (fun c ke =>
        match ke.2.phase, ke.2.watch with
        | .waiting, .partner _ => c.finish kq.1 ke.1 St.linkUnreachable 0
        | _, _ => c) c) c

/-- R370, R401: collectives with a rank that no route reaches complete with LINK_UNREACHABLE, and so do waiting
CHECKPOINTs. -/
def Chip.dropUnreachable (c0 : Chip) : Chip :=
  let c := c0.dropPartners
  let own := c.fld Fld.AXL_DEVICE_DEVNUM
  c.colls.foldl (fun c x =>
    match x.ranksWith (fun _ r => r.1 != own && (c.ownRoutes (partOf x.q) r.1).isEmpty) with
    | k :: _ => c.endColl x St.linkUnreachable k
    | [] => c) c

/-- R346, R350, R362, R387: a port leaves its state; one that was UP loses its traffic, which a retrain delays. -/
def Chip.leaveUp (c : Chip) (n st : Nat) : Chip :=
  if !c.portUp n then c.setPortState n st
  else
    let c0 := if st = PortSt.down then c.perturbLink n else c
    let c1 := (c0.setPortState n st).setLport n {}
    let c2 := ((c1.timeSourceLost n).failRequests n).dropUnreachable
    if st = PortSt.down ∨ st = PortSt.failed then c2.unitFault .port n (c.slotOwners n) .bypassed else c2

/-! ## States and training -/

/-- R346: a write of MODE. (DEDUCED, assumption 56.) -/
def Chip.portMode (c : Chip) (n mode : Nat) : Chip :=
  if !c.hasPort n then c
  else if mode = 3 then c.regError (Reg.AXL_PORT_CTL + po n)
  else
    let c1 := c.setFld Fld.AXL_PORT_CTL_MODE (po n) mode
    let st := c.portState n
    let same := decide (c.fld Fld.AXL_PORT_CTL_MODE (po n) = mode)
    if mode = 0 then c1.leaveUp n PortSt.off
    else if st = PortSt.failed then c1
    else if !c.mgt.axlPhy then c1.leaveUp n PortSt.failed
    else if same && (st == PortSt.up || st == PortSt.training || st == PortSt.down) then c1
    else c1.leaveUp n PortSt.training

/-- R11, R375: a write of AXL_PORT_CTL, whatever it changes, meets its locked fields while MODE is not OFF. -/
def Chip.portLocked (c : Chip) (n : Nat) : Chip :=
  if c.hasPort n ∧ c.fld Fld.AXL_PORT_CTL_MODE (po n) ≠ 0 then c.regError (Reg.AXL_PORT_CTL + po n) else c

/-- R344: PORT_MODE_WRITE; a write with the reserved mode is discarded whole. -/
def execPortModeWrite (port : BitVec 3) (mode : BitVec 2) (s : State) : Host.Outcome State Fault Refusal :=
  onHost (fun c => (if mode = 3 then c else c.portLocked port.toNat).portMode port.toNat mode.toNat) s

/-- R345, R473: why a trained port is refused. -/
def Chip.trainRefused (c : Chip) (n : Nat) (w : PeerArgs) : Bool :=
  let mode := c.fld Fld.AXL_PORT_CTL_MODE (po n)
  mode != w.mode.toNat
    || (mode == 2 && w.dev.toNat == c.fld Fld.AXL_DEVICE_DEVNUM)
    || (mode == 1 && w.numberTaken)
    || c.flag Fld.AXL_PORT_CTL_CRYPT (po n) != w.crypt

/-- R364: a port that retrains asks for the slots of a partition again. -/
def Chip.askAgain (c : Chip) (n p : Nat) : Chip :=
  let x := c.part p
  c.emit (.slotAsk n (bits x.linkSlots (8 * n + 3) (8 * n)) (x.slotCount n) x.linkJob)

/-- R364, R378: the slots of a partition on a port after its partner has answered. -/
def Chip.slotAnswer (c : Chip) (n : Nat) (w : PeerArgs) (p : Nat) : Chip :=
  let x := c.part p
  if w.slotsRefused.getLsbD p then
    (c.setPart p { x with lostPorts := x.lostPorts ||| 2 ^ n }).postLink p 0x0033 (p * 64) (2 ^ 8 * n)
  else c.setPart p { x with lostPorts := if bit x.lostPorts n then x.lostPorts - 2 ^ n else x.lostPorts }

/-- The spare begins to stand in for a lane. (DEDUCED, assumption 56.) -/
def Chip.spareIn (c : Chip) (n lane : Nat) : Chip :=
  let x := c.lport n
  ((c.setLport n { x with switching := true }).setFld Fld.AXL_PORT_STATUS_SPARE_USED (po n) 1).setFld
    Fld.AXL_PORT_STATUS_SPARED_LANE (po n) lane

/-- R349: the spare stands in for a lane out for test. -/
def Chip.lendLane (c : Chip) (n lane : Nat) : Chip := (c.spareIn n lane).setFld Fld.AXL_PORT_STATUS_LOANED (po n) 1

/-- R346, R347, R349: a port goes UP: its link layer starts afresh, the slots it holds are asked for again, and a lane that
LOAN names is lent. -/
def Chip.portGoesUp (c : Chip) (n : Nat) (w : PeerArgs) : Chip :=
  let direct := c.fld Fld.AXL_PORT_CTL_MODE (po n) == 2
  let c1 := (((c.setFld Fld.AXL_PORT_STATUS_PEER_DEV (po n) (if direct then w.dev.toNat else 0)).setFld
    Fld.AXL_PORT_STATUS_PEER_SWITCH (po n) (b2n (!direct))).setFld
    Fld.AXL_PORT_STATUS_SPARE_USED (po n) 0).setFld Fld.AXL_PORT_STATUS_LOANED (po n) 0
  let c2 := (c1.setLport n { key := c.ctr, peerSerial := w.serial.toNat }).setPortState n PortSt.up
  let c3 := (c.slotOwners n).foldl (fun c p => (c.askAgain n p).slotAnswer n w p) c2
  let c4 := c3.dropUnreachable
  if c.flag Fld.AXL_PORT_CTL_LOAN (po n) then c4.lendLane n (c.fld Fld.AXL_PORT_CTL_LOAN_LANE (po n)) else c4

/-- R345: this end sends its mode, device number, serial and CRYPT setting. -/
def Chip.introduce (c : Chip) (n : Nat) : Chip :=
  c.emit (.training n (c.fld Fld.AXL_PORT_CTL_MODE (po n)) (c.fld Fld.AXL_DEVICE_DEVNUM)
    (c.rg64 Reg.AXL_SERIAL_LO Reg.AXL_SERIAL_HI) (c.flag Fld.AXL_PORT_CTL_CRYPT (po n)))

/-- R473 step 1: this end's ephemeral key, alias certificate chain and signature, as values of Config.
(DESIGN CHOICE, assumption 192.) -/
def Chip.shakeHands (c : Chip) (uds n : Nat) : Chip :=
  c.emit (.handshake n (Config.crypto 0x73 (c.ctr :: uds :: c.rg64 Reg.AXL_SERIAL_LO Reg.AXL_SERIAL_HI :: c.sec.measured)))

/-- R345, R346, R473: training completes; each end has sent what R345 lists, and where CRYPT is set, its part of the
handshake. -/
def Chip.trained (c0 : Chip) (uds n : Nat) (w : PeerArgs) : Chip :=
  let c1 := c0.introduce n
  let c := if w.crypt then c1.shakeHands uds n else c1
  if c0.portState n ≠ PortSt.training ∨ !c0.firmwareRuns then c0
  else if c1.trainRefused n w then c1.setPortState n PortSt.refused
  else if w.crypt ∧ !w.authentic then
    (((c.count Fld.SEC_LINK_AUTH_FAIL_COUNT).postEvent 0 0x0071 0 (2 ^ 8 * n)).raiseOwner 4).setPortState n
      PortSt.refused
  else c.portGoesUp n w

def execPortTrainingDone (port : BitVec 3) (w : PeerArgs) (s : State) : Host.Outcome State Fault Refusal :=
  onBoth (fun nv c => (nv, c.trained nv.uds port.toNat w)) s

/-- R346: a move from one state to another. -/
def Chip.portMove (c : Chip) (n fromSt toSt : Nat) : Chip :=
  if c.portState n = fromSt then c.setPortState n toSt else c

/-- R346: PORT_TRAINING_TIMEOUT. -/
def execPortTrainingTimeout (port : BitVec 3) (s : State) : Host.Outcome State Fault Refusal :=
  onChip (fun c => c.portMove port.toNat PortSt.training PortSt.down) s

/-- R346: PORT_RETRAIN_TIMER. -/
def execPortRetrainTimer (port : BitVec 3) (s : State) : Host.Outcome State Fault Refusal :=
  onChip (fun c => c.portMove port.toNat PortSt.down PortSt.training) s

/-- R346: FAR_END_CHANGE. -/
def execFarEndChange (port : BitVec 3) (s : State) : Host.Outcome State Fault Refusal :=
  onChip (fun c => c.portMove port.toNat PortSt.refused PortSt.training) s

/-- R346, R362: PORT_DOWN: an UP port loses lock. -/
def execPortDown (port : BitVec 3) (s : State) : Host.Outcome State Fault Refusal :=
  onChip (fun c => if c.portUp port.toNat then c.leaveUp port.toNat PortSt.down else c) s

/-! ## Lanes (R348, R349) -/

/-- R348: whether a lane is faulted: it has lost lock, or corrected more than SPARE_THRESH × 1,024 errors in 1 ms. -/
def Chip.laneBad (c : Chip) (n : Nat) (errors : Option Word) : Bool :=
  match errors with
  | none => true
  | some k => decide (c.fld Fld.AXL_PORT_CTL_SPARE_THRESH (po n) * 1024 < k.toNat)

/-- R348, R437: a lane of a port in UP whose spare stands in for none: the spare stands in, unless it is the spare itself
that has faulted, which the next fault then does not find. (DEDUCED, assumption 56.) -/
def Chip.firstFault (c : Chip) (n lane : Nat) : Chip :=
  if lane = 8 then
    (c.setFld Fld.AXL_PORT_STATUS_SPARE_USED (po n) 1).setFld Fld.AXL_PORT_STATUS_SPARED_LANE (po n) 8
  else
    let c1 := ((c.spareIn n lane).count Fld.AXL_SPARE_CNT_COUNT (po n)).unitFault .lane lane (c.slotOwners n) .replaced
    c1.postLink 0 0x0031 0 (lane + 2 ^ 8 * n)

/-- R349: a lent lane has failed its test: it stays replaced. -/
def Chip.lentLaneFails (c : Chip) (n lane : Nat) : Chip :=
  (c.setFld Fld.AXL_PORT_STATUS_LOANED (po n) 0).unitFault .lane lane [] .replaced

/-- R348, R349, R437: a lane of a port in UP faults. The lane that the spare stands in for carries nothing: where it is out
for test it fails the test, and otherwise it has faulted already. (DEDUCED, assumption 56.) -/
def Chip.laneFault (c : Chip) (n lane : Nat) : Chip :=
  if !c.portUp n ∨ lane > 8 then c
  else if !c.flag Fld.AXL_PORT_STATUS_SPARE_USED (po n) then c.firstFault n lane
  else if c.fld Fld.AXL_PORT_STATUS_SPARED_LANE (po n) = lane then
    if c.flag Fld.AXL_PORT_STATUS_LOANED (po n) then c.lentLaneFails n lane else c
  else c.leaveUp n PortSt.failed

/-- R348: LANE_FAULT: a lane loses lock, or corrected this many errors in one millisecond. -/
def execLaneFault (port : BitVec 3) (r : LaneReport) (s : State) : Host.Outcome State Fault Refusal :=
  onChip (fun c => if c.laneBad port.toNat r.errors then c.laneFault port.toNat r.lane.toNat else c) s

/-- R349: a write of LOAN with LOAN_LANE; `failed` says that a lane that returns has failed its test. -/
def Chip.laneLoan (c : Chip) (n : Nat) (on : Bool) (lane : Nat) (failed : Bool) : Chip :=
  if !c.hasPort n then c
  else if on then
    if c.flag Fld.AXL_PORT_STATUS_SPARE_USED (po n) ∨ lane > 7 then c.regError (Reg.AXL_PORT_CTL + po n)
    else
      let c1 := (c.setFld Fld.AXL_PORT_CTL_LOAN (po n) 1).setFld Fld.AXL_PORT_CTL_LOAN_LANE (po n) lane
      if c.portUp n then c1.lendLane n lane else c1
  else
    let c1 := c.setFld Fld.AXL_PORT_CTL_LOAN (po n) 0
    if !c.flag Fld.AXL_PORT_STATUS_LOANED (po n) then c1
    else
      if failed then c1.lentLaneFails n (c.fld Fld.AXL_PORT_STATUS_SPARED_LANE (po n))
      else
        let c2 := c1.setFld Fld.AXL_PORT_STATUS_LOANED (po n) 0
        (c2.setLport n { c2.lport n with switching := true }).setFld Fld.AXL_PORT_STATUS_SPARE_USED (po n) 0

def execLaneLoan (port : BitVec 3) (on : Bool) (lane : BitVec 4) (failed : Bool) (s : State) :
    Host.Outcome State Fault Refusal :=
  onHost (fun c => (c.portLocked port.toNat).laneLoan port.toNat on lane.toNat failed) s

/-! ## Retry (R352) -/

/-- R352: resend every flit not acknowledged; one resent ten times already sends the port DOWN. -/
def Chip.resend (c : Chip) (n : Nat) : Chip :=
  let x := c.lport n
  if x.retry.isEmpty then c
  else if x.retry.any fun f => decide (f.resends ≥ 10) then c.leaveUp n PortSt.down
  else
    ((c.setLport n { x with again := x.retry.map fun f => f.hdr.seq }).count Fld.AXL_RETRY_CNT_COUNT (po n)).perturbLink n

/-- R348: LANE_SWITCHOVER_DONE: flits resume, those not acknowledged first. -/
def execLaneSwitchoverDone (port : BitVec 3) (s : State) : Host.Outcome State Fault Refusal :=
  onChip (fun c =>
    let n := port.toNat
    if !(c.lport n).switching then c
    else ((c.setLport n { c.lport n with switching := false }).perturbLink n).resend n) s

/-- R352: RETRY_TIMEOUT. -/
def execRetryTimeout (port : BitVec 3) (s : State) : Host.Outcome State Fault Refusal :=
  onChip (fun c => if c.portUp port.toNat then c.resend port.toNat else c) s

/-! ## Receiving (R351 to R353) -/

/-- R350, R352: a flit is dropped; the first of a run of drops asks for a retry, which delays what is to come. -/
def Chip.dropFlit (c : Chip) (n : Nat) : Chip :=
  let x := c.lport n
  let c1 := (c.setLport n { x with resync := true, oweRetry := x.oweRetry || !x.resync }).count Fld.AXL_CRC_ERR_COUNT (po n)
  if x.resync then c1 else c1.perturbLink n

/-- Receive slots of a virtual channel are free again. -/
def LPort.free (x : LPort) (vc k : Nat) : LPort := { x with freed := KMap.modify vc 0 (· + k) x.freed }

/-- R353, R357: a whole message: kept for its command, or dropped where it is for another device. -/
def LPort.accept (x : LPort) (dev : Nat) (m : Msg) : LPort × Nat :=
  if m.dstDev = dev then ({ x with rxq := pushTo m.vc m x.rxq }, 0)
  else (x.free m.vc (1 + m.data.length), 1)

/-- R353: the slots of a flit taken in order, with the number of messages dropped. Zero slots between
messages are padding. -/
def absorb (dev count : Nat) : List Nat → LPort × Nat → LPort × Nat
  | [], r => r
  | s :: t, (x, d) =>
    if x.skip > 0 then absorb dev count t ({ x with skip := x.skip - 1 }, d)
    else
      match x.part with
      | [] =>
        if s = 0 then absorb dev count t (x, d)
        else if !headerValid s then
          absorb dev count t ({ x with skip := headerSlots s }.free (bits s 1 0) (1 + headerSlots s), d + 1)
        else if headerSlots s = 0 then
          let r := x.accept dev (Msg.ofSlots s [] count)
          absorb dev count t (r.1, d + r.2)
        else absorb dev count t ({ x with part := [s], partAt := count }, d)
      | h :: ds =>
        let ds1 := ds ++ [s]
        if ds1.length = headerSlots h then
          let r := { x with part := [] }.accept dev (Msg.ofSlots h ds1 x.partAt)
          absorb dev count t (r.1, d + r.2)
        else absorb dev count t ({ x with part := h :: ds1 }, d)

/-- R352: a NORMAL flit in order. -/
def Chip.normalFlit (c : Chip) (n : Nat) (h : FlitHdr) (slots : List Nat) (count : Nat) : Chip :=
  let x := (c.lport n).heard h
  let x1 := { x with rxNext := (x.rxNext + 1) % 4096, resync := false }
  let from_ := if x1.part.isEmpty && x1.skip == 0 then (if h.first = 15 then [] else slots.drop h.first) else slots
  let r := absorb (c.fld Fld.AXL_DEVICE_DEVNUM) count from_ (x1, 0)
  (c.setLport n r.1).count Fld.AXL_CRC_ERR_COUNT (po n) r.2

/-- R474: a flit whose tag fails is dropped and counted; sixteen within 1 ms send the port DOWN. -/
def Chip.tagFailed (c : Chip) (n : Nat) : Chip :=
  let now := c.gtc.toNat
  let recent := now :: ((c.lport n).tagFails.filter fun t => decide (now - t ≤ 1000000))
  let c1 := (c.dropFlit n).count Fld.SEC_GCM_FAIL_CNT_COUNT
  if recent.length ≥ 16 then c1.leaveUp n PortSt.down
  else c1.setLport n { c1.lport n with tagFails := recent }

/-- R351, R474: a received flit opened: its header and its message slots. -/
inductive Opened where
  | bad
  | tagFail
  | ok (h : FlitHdr) (slots : List Nat)

/-- R351, R474: open a flit; `lost` says that its FEC codeword was uncorrectable. -/
def Chip.openFlit (c : Chip) (n : Nat) (flit : List Byte) (lost : Bool) : Opened :=
  let x := c.lport n
  match (if lost then none else flitParse flit) with
  | none => .bad
  | some (h, slots) =>
    if c.flag Fld.AXL_PORT_CTL_CRYPT (po n) then
      match gcmOpen (linkGcm x.key 1 x.rxCount) h slots with
      | some s => .ok (FlitHdr.ofNum h) s
      | none => .tagFail
    else .ok (FlitHdr.ofNum h) slots

/-- R352: a NORMAL or IDLE flit arrives. -/
def Chip.flitReceive (c : Chip) (n : Nat) (flit : List Byte) (lost : Bool) (ce count : Nat) : Chip :=
  if !c.portUp n then c
  else
    let o := c.openFlit n flit lost
    let c1 := (c.count Fld.AXL_FEC_CE_COUNT (po n) ce).countRx n
    match o with
    | .bad => c1.dropFlit n
    | .tagFail => c1.tagFailed n
    | .ok h slots =>
      if h.kind = 1 then c1.setLport n ((c1.lport n).heard h)
      else if h.kind ≠ 0 then c1
      else if h.seq = (c1.lport n).rxNext then c1.normalFlit n h slots count
      else if ((c1.lport n).rxNext + 4096 - h.seq) % 4096 ≤ 2048 then
        -- Received already: only dropped and counted.
        c1.count Fld.AXL_CRC_ERR_COUNT (po n)
      else c1.dropFlit n

def execFlitReceive (port : BitVec 3) (flit : List Byte) (lost : Bool) (ce : Half) (count : Dword) (s : State) :
    Host.Outcome State Fault Refusal :=
  onChip (fun c => c.flitReceive port.toNat flit lost ce.toNat count.toNat) s

/-- R352: RETRY_FLIT_RECEIVE: resend from the flit after ACK. -/
def execRetryFlitReceive (port : BitVec 3) (flit : List Byte) (lost : Bool) (s : State) :
    Host.Outcome State Fault Refusal :=
  onChip (fun c =>
    let n := port.toNat
    if !c.portUp n then c
    else
      let c1 := c.countRx n
      match c.openFlit n flit lost with
      | .bad => c1.dropFlit n
      | .tagFail => c1.tagFailed n
      | .ok h _ => if h.kind = 2 then (c1.setLport n ((c1.lport n).heard h)).resend n else c1) s

/-! ## Sending (R355, R363 to R365) -/

/-- R363: the partition that owns the slot of a port at a count. -/
def Chip.slotOwner (c : Chip) (n t : Nat) : Option Nat :=
  let k := t % 2048 / 128
  (c.slotOwners n).find? fun p =>
    let x := c.part p
    let first := bits x.linkSlots (8 * n + 3) (8 * n)
    decide (first ≤ k) && decide (k < first + x.slotCount n) && !bit x.lostPorts n

/-- R355: credits for all of a message's slots. -/
def LPort.hasCredit (x : LPort) (m : Msg) : Bool :=
  decide (KMap.getD x.debt m.vc 0 + 1 + m.data.length ≤ vcBuffer m.vc)

/-- R365: the owner's next message. -/
def LPort.detReady (x : LPort) (p : Nat) : Option Msg :=
  match (KMap.getD x.txq Vc.det []).find? fun m => m.srcPart == p with
  | some m => if x.hasCredit m then some m else none
  | none => none

/-- R355: RSP, COL and REQ in the order of their turn. -/
def turnOrder (last : Nat) : List Nat :=
  match last with
  | 1 => [2, 0, 1]
  | 2 => [0, 1, 2]
  | _ => [1, 2, 0]

/-- R355: the next message of the other virtual channels that satisfies `f`. -/
def LPort.otherReady (x : LPort) (f : Msg → Bool) : Option Msg :=
  (turnOrder x.lastVc).findSome? fun vc =>
    match KMap.getD x.txq vc [] with
    | m :: _ => if x.hasCredit m && f m then some m else none
    | [] => none

/-- What a flit time knows: the owner with something ready, the owner of the next flit time, and the slots
that carry messages. -/
structure FlitPlan where
  ready : Option Nat
  nextOwner : Option Nat
  limit : Nat

/-- R355, R365: the message to start at slot `used` of the flit. -/
def LPort.choose (x : LPort) (g : FlitPlan) (used : Nat) : Option Msg :=
  let fits (m : Msg) : Bool := decide (used + 1 + m.data.length ≤ g.limit)
  match g.ready with
  | some p =>
    match x.detReady p with
    | some m => if fits m || g.nextOwner == some p then some m else none
    | none => none
  | none => x.otherReady fun m => fits m || g.nextOwner.isNone

/-- R355: a message starts: it leaves its list and its credits are taken. (DEDUCED, assumption 53.) -/
def LPort.begin (x : LPort) (m : Msg) : LPort :=
  let q := KMap.getD x.txq m.vc []
  { x with
    txq := KMap.set m.vc (match takeFirst (· == m) q with | some r => r.2 | none => q) x.txq
    debt := KMap.modify m.vc 0 (· + (1 + m.data.length)) x.debt
    cur := m.slots, curDet := if m.vc = Vc.det then some m.srcPart else none
    lastVc := if m.vc = Vc.det then x.lastVc else m.vc }

/-- A flit being filled: the port, the slots so far, where the first message starts, and whose DET messages it carries. -/
structure Filling where
  x : LPort
  slots : List Nat := []
  first : Nat := 15
  det : List Nat := []

/-- One slot of the message being sent. -/
def Filling.slot (f : Filling) : Filling :=
  { f with x := { f.x with cur := f.x.cur.tail }, slots := f.slots ++ f.x.cur.take 1, det := f.det ++ f.x.curDet.toList }

/-- R355: fill the slots of a flit. (DEDUCED, assumption 53.) -/
def fillFlit (g : FlitPlan) : Nat → Filling → Filling
  | 0, f => f
  | fuel + 1, f =>
    match f.x.cur with
    | _ :: _ => fillFlit g fuel f.slot
    | [] =>
      match f.x.choose g f.slots.length with
      | none => f
      | some m =>
        fillFlit g fuel { f with x := f.x.begin m, first := if f.first = 15 then f.slots.length else f.first }.slot

/-- R355: the credits that a flit returns: the lowest virtual channel with slots free.
(DEDUCED, assumption 53.) -/
def LPort.giveCredits (x : LPort) : LPort × Nat × Nat :=
  match [0, 1, 2, 3].find? fun vc => decide (KMap.getD x.freed vc 0 > 0) with
  | none => (x, 0, 0)
  | some vc =>
    let k := min 4095 (KMap.getD x.freed vc 0)
    ({ x with freed := KMap.modify vc 0 (· - k) x.freed }, vc, k)

/-- R352, R355: a new flit: NORMAL where it carries slots or credits, IDLE otherwise.
(DEDUCED, assumption 53.) -/
def Chip.newFlit (c : Chip) (n : Nat) : Chip :=
  let x := c.lport n
  let now := c.slotOwner n c.gtc.toNat
  let ready := match now with
    | some p => if (x.detReady p).isSome then some p else none
    | none => none
  let g : FlitPlan := { ready := ready, nextOwner := c.slotOwner n (c.gtc.toNat + 2)
                        limit := if c.flag Fld.AXL_PORT_CTL_CRYPT (po n) then 14 else 15 }
  let f := fillFlit g g.limit { x := x }
  let (x2, vc, k) := f.x.giveCredits
  let ack := x.rxNext + 4095
  if f.slots.isEmpty ∧ k = 0 then c.sendFlit n { ack := ack, kind := 1 } []
  else
    let h : FlitHdr := { seq := x.seq, ack := ack, kind := 0, cvc := vc, credits := k, first := f.first }
    (c.setLport n { x2 with seq := (x.seq + 1) % 4096
                            retry := x2.retry ++ [{ hdr := h, slots := f.slots, det := distinct f.det }] }).sendFlit n h
      f.slots

/-- R352: a flit resent under its own sequence number. -/
def Chip.resendFlit (c : Chip) (n seq : Nat) (rest : List Nat) : Chip :=
  let x := c.lport n
  match x.retry.find? fun f => f.hdr.seq == seq with
  | none => c.setLport n { x with again := rest }
  | some f =>
    (c.setLport n { x with again := rest
                           retry := x.retry.map fun o =>
                             if o.hdr.seq = seq then { o with resends := o.resends + 1 } else o }).sendFlit n
      { f.hdr with ack := x.rxNext + 4095 } f.slots

/-- R351, R352, R355: one flit time of a port. -/
def Chip.flitTime (c : Chip) (n : Nat) : Chip :=
  let x := c.lport n
  if !c.portUp n ∨ x.switching then c
  else if x.oweRetry then
    (c.setLport n { x with oweRetry := false }).sendFlit n { ack := x.rxNext + 4095, kind := 2 } []
  else
    match x.again with
    | seq :: rest => c.resendFlit n seq rest
    | [] => if x.retry.length ≥ 1024 then c.sendFlit n { ack := x.rxNext + 4095, kind := 1 } [] else c.newFlit n

def execFlitTime (port : BitVec 3) (s : State) : Host.Outcome State Fault Refusal :=
  onChip (fun c => c.flitTime port.toNat) s

/-! ## Remote access at the target (R359) and its responses (R358) -/

/-- R353: the bytes of data slots. -/
def slotBytes (data : List Nat) : List Byte := data.flatMap fun d => leBytes 16 d

/-- R353: the runs of bytes that a WRITE_PARTIAL's mask selects: offset and bytes. -/
def maskRuns (mask : Nat) (bs : List Byte) : Nat → List (Nat × List Byte)
  | 0 => []
  | n + 1 =>
    let i := bs.length - (n + 1)
    if !bit mask i then maskRuns mask bs n
    else
      match maskRuns mask bs n with
      | (o, r) :: t => if o = i + 1 then (i, bs.getD i 0 :: r) :: t else (i, [bs.getD i 0]) :: (o, r) :: t
      | [] => [(i, [bs.getD i 0])]

/-- R353, R359: the runs of a partial write, in order; a refusal is the same for each. -/
def Chip.inboundRuns (c : Chip) (m : Msg) : List (Nat × List Byte) → Chip × Half
  | [] => (c, St.ok)
  | (o, bs) :: t =>
    match c.inbound m.srcDev m.srcPart m.dstPart (m.addr + o) (.write bs) with
    | (c1, s, _) => if s = St.ok then Chip.inboundRuns c1 m t else (c1, s)

/-- R359: a request served: the state, the status and the data of its response. -/
def Chip.serve (c : Chip) (m : Msg) : Chip × Half × List Byte :=
  let go (k : ReqKind) := c.inbound m.srcDev m.srcPart m.dstPart m.addr k
  match m.op with
  | 0 => go (.read 128)
  | 1 => go (.write (slotBytes m.data))
  | 2 =>
    match m.data with
    | mask :: ds =>
      match maskRuns mask (slotBytes ds) 128 with
      | [] => go (.write [])
      | runs => let r := c.inboundRuns m runs; (r.1, r.2, [])
    | [] => (c, St.ok, [])
  | _ =>
    let d := m.data.headD 0
    go (.atomic (bits m.atom 2 0) (if bits m.atom 4 3 = 3 then 8 else 4) (BitVec.ofNat 64 d)
      (BitVec.ofNat 64 (d / 2 ^ 64)))

/-- R358, R359: the response to a request. (DEDUCED, assumption 54.) -/
def Chip.responseMsg (c : Chip) (m : Msg) (s : Half) (bs : List Byte) : Msg :=
  { vc := c.vcFor m.dstPart Vc.rsp
    op := if m.op = MOp.read then MOp.readData else if m.op = MOp.atomic then MOp.atomicResult else MOp.writeAck
    srcDev := m.dstDev, srcPart := m.dstPart, dstDev := m.srcDev, dstPart := m.srcPart, tag := m.tag
    status := s.toNat, data := slotsOf bs (ceilDiv bs.length 16) }

/-- R396: a received DET message is released. -/
def Chip.released (c : Chip) (port : Nat) (m : Msg) : Bool :=
  m.vc != Vc.det || decide (m.at_ + c.hopDelay port ≤ c.gtc.toNat)

/-- R359: the oldest request received on a virtual channel is served and answered on its port. -/
def Chip.inboundRequest (c : Chip) (n : Nat) (det : Bool) : Chip :=
  match c.takeMsg n (if det then Vc.det else Vc.req) fun m => decide (m.op ≤ 3) with
  | none => c
  | some (m, c1) =>
    if !c.released n m then c
    else
      let (c2, s, bs) := c1.serve m
      c2.sendMsg n (c2.responseMsg m s bs)

def execInboundRequest (port : BitVec 3) (det : Bool) (s : State) : Host.Outcome State Fault Refusal :=
  onChip (fun c => c.inboundRequest port.toNat det) s

/-- R358, R362: the oldest response received completes its request; one that no request waits for is
dropped. -/
def Chip.remoteResponse (c : Chip) (n : Nat) (det : Bool) : Chip :=
  match c.takeMsg n (if det then Vc.det else Vc.rsp) fun m => decide (8 ≤ m.op) with
  | none => c
  | some (m, c1) =>
    if !c.released n m then c
    else
      match c1.reqs.find? fun r => !r.host && r.tag == m.tag && r.port == n && r.dev == m.srcDev with
      | none => c1
      | some r =>
        let size := match r.kind with | .read _ => 128 | .write _ => 0 | .atomic _ k _ _ => k
        c1.respond r (BitVec.ofNat 16 m.status) ((slotBytes m.data).take size)

/-- R356, R358: waiting requests that may go now are sent, and the oldest request to the device itself is answered.
(DEDUCED, assumption 137; DESIGN CHOICE, assumption 158.) -/
def Chip.ownResponse (c0 : Chip) : Chip :=
  let c := c0.pump
  match c.reqs.find? fun r => r.answer.isSome with
  | none => c
  | some r =>
    match r.answer with
    | some (s, bs) => c.respond r s bs
    | none => c

/-- R358: REMOTE_RESPONSE: from a port, or from the device's own inbound path. -/
def execRemoteResponse (port : Option (BitVec 3)) (det : Bool) (s : State) : Host.Outcome State Fault Refusal :=
  onChip (fun c =>
    match port with
    | some n => c.remoteResponse n.toNat det
    | none => c.ownResponse) s

end Sys2Proof.Machine
end

