-- ==== Sys2Proof/Machine/Collective.lean ====
section
/-!
DEFINITION. Collectives (R366 to R370, R445).
-/

namespace Sys2Proof.Machine

/-! ## The image on the link (R369) -/

/-- R369: segment `i` of an image's accumulator. -/
def segment (acc i : Nat) : Nat := bits acc (64 * i + 63) (64 * i)

/-- R369: LO and N: the lowest segment that is not zero, and the fewest segments whose rebuilding is exact. -/
def imageSpan (acc : Nat) : Nat × Nat :=
  let fill := if bit acc 639 then 2 ^ 64 - 1 else 0
  let lo := ((List.range 10).find? fun i => segment acc i != 0).getD 0
  let top := ((List.range 10).filter fun i => segment acc i != fill).foldl max 0
  let any := (List.range 10).any fun i => segment acc i != fill
  (lo, if any ∧ top ≥ lo then top + 1 - lo else 0)

/-- R369: an image as sent: its header and its segments. -/
def LPos.toLink (p : LPos) : Nat × List Nat :=
  let acc := p.acc.toNat
  let (lo, n) := imageSpan acc
  (lo + 2 ^ 4 * n + 2 ^ 8 * b2n (bit acc 639) + 2 ^ 9 * p.terms + 2 ^ 34 * b2n p.ovf + 2 ^ 35 * b2n p.pinf
      + 2 ^ 36 * b2n p.ninf + 2 ^ 37 * b2n p.nan + 2 ^ 38 * b2n p.negz,
   (rangeFrom lo n).map (segment acc))

/-- R369: an image rebuilt from its header and segments. -/
def LPos.ofLink (h : Nat) (segs : List Nat) : LPos :=
  let lo := bits h 3 0
  let n := bits h 7 4
  let seg (i : Nat) : Nat :=
    if i < lo then 0 else if i < lo + n then segs.getD (i - lo) 0
    else if bit h 8 then 2 ^ 64 - 1 else 0
  { acc := BitVec.ofNat 640 ((List.range 10).foldl (fun a i => a + seg i * 2 ^ (64 * i)) 0)
    terms := bits h 33 9, ovf := bit h 34, pinf := bit h 35, ninf := bit h 36, nan := bit h 37
    negz := bit h 38 }

/-- The image in the 96 bytes of a number. -/
def imageOf (n : Nat) : LPos := LPos.ofImage (fun o => bits n (8 * o + 7) (8 * o)) 0

/-! ## The block (R366, R367) -/

/-- R366: RsvdZ bits of the block. -/
def collRsvOk (b : List Byte) : Bool :=
  let w := fieldLE b 0 4
  let r := fieldLE b 4 4
  bit w 3 == false && bits w 7 5 == 0 && bit w 11 == false && bits w 15 14 == 0 && bits w 31 24 == 0
    && bit r 7 == false && bit r 15 == false && bits r 31 23 == 0
    && fieldLE b 0x2E 2 == 0 && (b.drop 0x30).all (· == 0)

/-- R366, R367: the block's own ranges and alignments. -/
def Coll.fieldsOk (x : Coll) : Bool :=
  decide (x.op ≤ 4) && decide (1 ≤ x.nrank) && decide (x.nrank ≤ 64) && decide (x.myRank < x.nrank)
    && (x.op != CollOp.broadcast || decide (x.root < x.nrank))
    && (!(x.op == CollOp.allGather || x.op == CollOp.broadcast) || !x.exact)
    && (if x.exact then (decide (x.outFmt ≤ 5) || x.outFmt == 0xF) && decide (x.rmode ≤ 3)
        else decide (x.dtype ≤ 5) && decide (x.redop ≤ 2))
    && x.src % (if x.exact then 16 else x.inSize) == 0
    && x.dst % (if x.outSize = 96 then 16 else x.outSize) == 0

/-- R366: the rank list of its bytes, or none where a RsvdZ bit is set. -/
def rankList (b : List Byte) (n : Nat) : Option (List (Nat × Nat)) :=
  let ws := (List.range n).map fun i => fieldLE b (4 * i) 4
  if ws.all fun w => bits w 7 6 == 0 && bits w 31 12 == 0 then
    some (ws.map fun w => (bits w 5 0, bits w 11 8))
  else none

/-- R367: no entry repeats. -/
def noRepeat : List (Nat × Nat) → Bool
  | [] => true
  | r :: t => !t.contains r && noRepeat t

/-- R367: the fields that a digest covers. -/
def Coll.digestFields (x : Coll) : List Nat :=
  [x.op, b2n x.exact, x.dtype, x.redop, x.nrank, x.count, x.root]
    ++ x.ranks.map fun r => r.1 + 2 ^ 8 * r.2

/-! ## Who needs what (R366) -/

/-- Elements that a rank reads. -/
def Coll.inputs (x : Coll) (rank : Nat) : Nat :=
  match x.op with
  | 0 => x.count
  | 1 => x.count * x.nrank
  | 2 => x.count
  | 3 => if rank = x.root then x.count else 0
  | _ => 0

/-- The range of a rank's elements that rank `dest` needs: first index and number. -/
def Coll.needed (x : Coll) (rank dest : Nat) : Nat × Nat :=
  match x.op with
  | 1 => (dest * x.count, x.count)
  | _ => (0, x.inputs rank)

/-- The key of an element of a rank. -/
def elemKey (rank i : Nat) : Nat := rank * 2 ^ 40 + i

/-- Whether all that a rank contributes here has been received. -/
def Coll.heard (x : Coll) (rank : Nat) : Bool :=
  let r := x.needed rank x.myRank
  (KMap.find rank x.digests).isSome
    && (rangeFrom r.1 r.2).all fun i => (KMap.find (elemKey rank i) x.got).isSome

/-! ## Results (R366, R368, R369) -/

/-- R368: one canonical combination. -/
def canonical (dtype redop a b : Nat) : Nat :=
  let f := match dtype with
    | 0 => some fp32
    | 1 => some bf16
    | 2 => some fp16
    | 5 => some fp64
    | _ => none
  match f with
  | some f =>
    match redop with
    | 0 => floatAdd f .rne a b
    | 1 => minMax f false true a b
    | _ => minMax f true true a b
  | none =>
    let less := if dtype = 3 then decide (signed 32 a < signed 32 b) else decide (a % 2 ^ 32 < b % 2 ^ 32)
    match redop with
    | 0 => (a + b) % 2 ^ 32
    | 1 => if less then a else b
    | _ => if less then b else a

/-- The element `i` of a rank. -/
def Coll.elem (x : Coll) (rank i : Nat) : Nat := KMap.getD x.got (elemKey rank i) 0

/-- R368: element `i` reduced over the ranks in ascending order. -/
def Coll.reduce (x : Coll) (i : Nat) : Nat :=
  (rangeFrom 1 (x.nrank - 1)).foldl (fun r k => canonical x.dtype x.redop r (x.elem k i)) (x.elem 0 i)

/-- R369: element `i` merged over the ranks. -/
def Coll.merged (x : Coll) (i : Nat) : LPos :=
  (List.range x.nrank).foldl (fun p k => p.merge (imageOf (x.elem k i))) LPos.zero

/-- R369: the bytes that a merged image writes. -/
def Coll.drained (x : Coll) (p : LPos) : List Byte :=
  if x.outFmt = 0xF then p.image
  else leBytes x.outSize (drainVal x.outFmt ((Round.ofCode x.rmode 0).getD .rne) x.satf p.value).1

/-- R366: elements written. -/
def Coll.outputs (x : Coll) : Nat :=
  match x.op with
  | 2 => x.count * x.nrank
  | 4 => 0
  | _ => x.count

/-- R366, R368, R369: the bytes of output element `i`. -/
def Coll.output (x : Coll) (i : Nat) : List Byte :=
  match x.op with
  | 2 => leBytes x.outSize (x.elem (i / x.count) (i % x.count))
  | 3 => leBytes x.outSize (x.elem x.root i)
  | _ =>
    let j := if x.op = CollOp.reduceScatter then x.myRank * x.count + i else i
    if x.exact then x.drained (x.merged j) else leBytes x.outSize (x.reduce j)

/-! ## Exchange (R367) -/

def Chip.coll (c : Chip) (q slot : Nat) : Option Coll := c.colls.find? fun x => x.q == q && x.slot == slot

def Chip.setColl (c : Chip) (x : Coll) : Chip :=
  { c with colls := c.colls.map fun y => if y.q = x.q ∧ y.slot = x.slot then x else y }

/-- R367: send a message of a collective to a rank: on a port, or to a partition of this device. -/
def Chip.collSend (c : Chip) (x : Coll) (rank : Nat) (body : CollBody) (bytes : List Byte) : Chip :=
  let own := c.fld Fld.AXL_DEVICE_DEVNUM
  let p := partOf x.q
  let r := x.ranks.getD rank (0, 0)
  if r.1 = own then
    { c with collHeld := c.collHeld ++ [{ part := r.2, srcDev := own, srcPart := p, group := x.group,
                                          seq := x.seq, body := body }] }
  else
    match c.ownRoutes p r.1 with
    | [] => c
    | port :: _ => c.sendMsg port
        { vc := c.vcFor p Vc.col, op := MOp.coll, srcDev := own, srcPart := p, dstDev := r.1, dstPart := r.2,
          tag := Config.collTag x.group x.seq % 2 ^ 13, data := slotsOf bytes (ceilDiv bytes.length 16) }

/-- The ranks but this one. -/
def Coll.others (x : Coll) : List Nat := (List.range x.nrank).filter (· != x.myRank)

/-- R367: the digest goes to every other rank. -/
def Chip.sendDigests (c : Chip) (x : Coll) : Chip :=
  x.others.foldl (fun c k => c.collSend x k (.digest x.digest) (leBytes 8 x.digest)) c

/-- R369: the bytes of an element on the link. -/
def Coll.linkBytes (x : Coll) (v : Nat) : List Byte :=
  if x.exact then
    let (h, segs) := (imageOf v).toLink
    leBytes 8 h ++ segs.flatMap fun s => leBytes 8 s
  else leBytes x.inSize v

/-- Elements of one message: at most ten data slots (R353). -/
def Coll.perMessage (x : Coll) : Nat := if x.exact then 1 else 160 / x.inSize

/-- The elements from `lo`, `n` of them, sent to a rank in messages. -/
def Chip.sendElems (c : Chip) (x : Coll) (rank : Nat) : Nat → Nat → Nat → Chip
  | 0, _, _ => c
  | fuel + 1, lo, n =>
    if n = 0 then c
    else
      let k := min n x.perMessage
      let vals := (rangeFrom lo k).map (x.elem x.myRank)
      Chip.sendElems (c.collSend x rank (.elems lo vals) (vals.flatMap x.linkBytes)) x rank fuel (lo + k) (n - k)

/-- Every other rank gets the elements that it needs. -/
def Chip.sendInputs (c : Chip) (x : Coll) : Chip :=
  x.others.foldl (fun c k => let r := x.needed x.myRank k; c.sendElems x k (r.2 + 1) r.1 r.2) c

/-- R370: write the outputs in ascending order; a failure ends the collective at its element. -/
def Chip.writeOutputs (x : Coll) : Nat → Chip → Chip
  | 0, c => c.endColl x St.ok x.outputs
  | n + 1, c =>
    let i := x.outputs - (n + 1)
    match c.writeVA (c.actor x.q x.slot) x.q (.entry x.q x.slot) (x.dst + i * x.outSize) (x.output i) with
    | .ok c1 => Chip.writeOutputs x n c1
    | .error (.stall, _) => c
    | .error (e, va) =>
      let tag := match c.entry x.q x.slot with | some y => y.desc.tag.toNat | none => 0
      (c.capture (partOf x.q) e FaultUnit.frontEnd (c.asidOf x.q) va tag).endColl x e.status i

/-- R367, R370: what a running collective does now: a differing digest ends it; once every rank's digest has
agreed the inputs are sent; once all is received it completes. -/
def Chip.settleColl (c : Chip) (q slot : Nat) : Chip :=
  match c.coll q slot with
  | none => c
  | some x =>
    match (List.range x.nrank).find? fun k => KMap.getD x.digests k x.digest != x.digest with
    | some k => c.endColl x St.malformed k true
    | none =>
      if (List.range x.nrank).any fun k => (KMap.find k x.digests).isNone then c
      else
        let c1 := if x.exchanged then c else (c.setColl { x with exchanged := true }).sendInputs x
        if (List.range x.nrank).all x.heard then Chip.writeOutputs x x.outputs c1 else c1

/-- R367: a message taken by the collective that it names. -/
def Coll.take (x : Coll) (rank : Nat) (b : CollBody) : Coll :=
  match b with
  | .digest d => { x with digests := KMap.set rank d x.digests }
  | .elems start vals =>
    { x with got := vals.zipIdx.foldl (fun m v => KMap.set (elemKey rank (start + v.2)) v.1 m) x.got }

/-- The collective that a message names. (DEDUCED, assumption 55.) -/
def Chip.collFor (c : Chip) (m : CollMsg) : Option Coll :=
  c.colls.find? fun x => partOf x.q == m.part && x.group == m.group && x.seq == m.seq

/-- R367: deliver one message: taken, dropped where its sender is no rank, or held until its collective
begins. (DEDUCED, assumption 55.) -/
def Chip.deliverColl (c : Chip) (m : CollMsg) : Chip :=
  match c.collFor m with
  | none => { c with collHeld := c.collHeld ++ [m] }
  | some x =>
    match x.ranksWith fun _ r => r == (m.srcDev, m.srcPart) with
    | k :: _ => (c.setColl (x.take k m.body)).settleColl x.q x.slot
    | [] => c

/-- Deliver every held message once. (DEDUCED, assumption 55.) -/
def Chip.deliverHeld (c : Chip) : Chip :=
  c.collHeld.foldl Chip.deliverColl { c with collHeld := [] }

/-- Every running collective goes on where it can: one whose outputs waited for data of the host or of a device. -/
def Chip.settleColls (c : Chip) : Chip := c.colls.foldl (fun c x => c.settleColl x.q x.slot) c

/-- A message's content as the collective keeps it. -/
def collBody (a : CollArgs) : CollBody :=
  match a.digest with
  | some d => .digest d.toNat
  | none => .elems a.start.toNat
      (a.vals.map BitVec.toNat ++ a.images.map fun i => leNat (LPos.ofLink i.1.toNat (i.2.map BitVec.toNat)).image)

/-- R367: COLL_MESSAGE: a message arrives; with none, messages within the device reach their collectives, and those that
waited go on. -/
def execCollMessage (m : Option CollArgs) (s : State) : Host.Outcome State Fault Refusal :=
  onChip (fun c =>
    match m with
    | none => c.deliverHeld.settleColls
    | some a =>
      let p := a.part.toNat
      let c1 := c.dropMsg a.port.toNat (c.vcFor p Vc.col) (·.op == MOp.coll)
      let m : CollMsg := { part := p, srcDev := a.srcDev.toNat, srcPart := a.srcPart.toNat,
                           group := a.group.toNat, seq := a.seq.toNat, body := collBody a }
      Chip.deliverHeld { c1 with collHeld := c1.collHeld ++ [m] }) s

/-! ## COLLECTIVE (R366, R367) -/

/-- R367: the engine runs 64 collectives at once, 16 of a partition. -/
def Chip.collRoom (c : Chip) (p : Nat) : Bool :=
  decide (c.colls.length < 64) && decide ((c.colls.filter fun x => partOf x.q == p).length < 16)

/-- R370: an input access failed: the lowest element affected. -/
def Chip.collInputFailed (c : Chip) (x : Coll) (e : AccErr × Nat) : Chip :=
  c.failAt x.q x.slot FaultUnit.frontEnd e ((e.2 - x.src) / x.inSize)

/-- R367: a checked collective begins. -/
def Chip.startColl (c : Chip) (q slot : Nat) (e : Entry) (x : Coll) : Chip :=
  let n := x.inputs x.myRank
  match c.readVA (c.actor q slot) x.src (n * x.inSize) with
  | .error err => c.collInputFailed x err
  | .ok bs =>
    let got := (List.range n).foldl (fun m i =>
      KMap.set (elemKey x.myRank i) (fieldLE bs (i * x.inSize) x.inSize) m) []
    let d := Config.collDigest x.digestFields % 2 ^ 64
    let x1 := { x with digest := d, digests := [(x.myRank, d)], got := got }
    let c1 := c.setEntry q slot { e with phase := .running }
    let c2 := { c1 with colls := c1.colls ++ [x1] }
    ((c2.sendDigests x1).dropUnreachable.settleColl q slot).deliverHeld

/-- R366, R367: COLLECTIVE. -/
def Chip.collective (c : Chip) (q slot : Nat) : Chip :=
  c.run q slot Op.collective fun c e =>
    match c.readVA (c.actor q slot) e.desc.p0.toNat 64 with
    | .error err => c.failAt q slot FaultUnit.frontEnd err
    | .ok b =>
      let x := Coll.ofBlock q slot b c.gtc.toNat
      if e.desc.p0.toNat % 8 ≠ 0 ∨ !collRsvOk b ∨ !x.fieldsOk then c.finishMalformed q slot
      else
        match c.readVA (c.actor q slot) (fieldLE b 8 8) (4 * x.nrank) with
        | .error err => c.failAt q slot FaultUnit.frontEnd err
        | .ok rb =>
          match rankList rb x.nrank with
          | none => c.finishMalformed q slot
          | some rs =>
            if !noRepeat rs ∨ rs.getD x.myRank (64, 0) ≠ (c.fld Fld.AXL_DEVICE_DEVNUM, partOf q) then
              c.finishMalformed q slot
            else if !x.exact ∧ x.dtype = 5 ∧ !c.flag Fld.DEV_CAPS0_FP64 then c.finish q slot St.illegalOpcode 0
            else if !c.collRoom (partOf q) then c
            else c.startColl q slot e { x with ranks := rs }

def execCollective (q : BitVec 10) (slot : BitVec 6) (s : State) : Host.Outcome State Fault Refusal :=
  onChip (fun c => c.collective q.toNat slot.toNat) s

/-- R370: COLLECTIVE_TIMEOUT: a rank was not heard in time. -/
def Chip.collTimeout (c : Chip) (q slot : Nat) : Chip :=
  match c.coll q slot with
  | none => c
  | some x =>
    if x.timeout = 0 ∨ c.gtc.toNat < x.began + 1000 * x.timeout then c
    else
      match (List.range x.nrank).find? fun k => !x.heard k with
      | some k => c.endColl x St.linkUnreachable k
      | none => c

def execCollectiveTimeout (q : BitVec 10) (slot : BitVec 6) (s : State) : Host.Outcome State Fault Refusal :=
  onChip (fun c => c.collTimeout q.toNat slot.toNat) s

/-- R370: a rank's partition resets during collectives. -/
def Chip.rankLost (c : Chip) (dev part : Nat) : Chip :=
  c.colls.foldl (fun c x =>
    match x.ranksWith fun k r => k != x.myRank && r == (dev, part) with
    | k :: _ => c.endColl x St.remotePoisoned k
    | [] => c) c

/-- R370, R445: PARTNER_RESETTING. -/
def execPartnerResetting (dev : BitVec 6) (part : BitVec 4) (s : State) : Host.Outcome State Fault Refusal :=
  onChip (fun c => (c.partnerLost dev.toNat part.toNat).rankLost dev.toNat part.toNat) s

end Sys2Proof.Machine
end

