-- ==== Sys2Proof/Machine/Display.lean ====
section
/-!
DEFINITION. The layer composition engine: flips, latches, composition, the protected layer and its CRC
(R307 to R327).
-/

namespace Sys2Proof.Machine

/-- The offset of a pipe's registers (R326). -/
def pipeOff (n : Nat) : Nat := n * 0x100

def Chip.pipe (c : Chip) (n : Nat) : DPipe := KMap.getD c.pipes n {}
def Chip.setPipe (c : Chip) (n : Nat) (d : DPipe) : Chip := { c with pipes := KMap.set n d c.pipes }

/-- R307: the part has the pipe. -/
def Chip.pipeExists (c : Chip) (n : Nat) : Bool := decide (n < c.fld Fld.DEV_CAPS0_DISP_OUT)

/-- Whether the pipe runs. -/
def Chip.pipeOn (c : Chip) (n : Nat) : Bool := c.pipeExists n && c.flag Fld.LCE_PIPE_CTL_ENABLE (pipeOff n)

/-- The partition that is the safety owner (R43). -/
def Chip.safetyOwner (c : Chip) : Option Nat :=
  (c.parts.find? fun kp => kp.2.safety && kp.2.state != .absent).map Prod.fst

/-! ## Flip blocks (R314) -/

/-- R314: a layer descriptor. -/
def Layer.ofBytes (b : List Byte) : Layer :=
  let w := fieldLE b 0 4
  let p := fieldLE b 0x14 4
  let lo (o : Nat) := fieldLE b o 2
  { enable := bit w 0, fmt := bits w 2 1, alpha := bits w 4 3, blocked := bit w 5, galpha := bits w 15 8,
    sx := lo 4, sy := lo 6, sw := lo 8, sh := lo 10, dx := lo 12, dy := lo 14, dw := lo 0x10, dh := lo 0x12,
    pitch := bits p 15 0, va := fieldLE b 0x18 8, md := fieldLE b 0x20 8, chroma := fieldLE b 0x28 8,
    clear := fieldLE b 0x30 4
    rsvOk := bits w 7 6 == 0 && bits w 31 16 == 0 && bits p 31 16 == 0 && (b.drop 0x34).all (· == 0) }

/-- R315 check 1 for a layer: RsvdZ bits, alignments and ranges. -/
def Layer.formOk (x : Layer) : Bool :=
  !x.enable || (x.rsvOk && x.alpha != 3 && x.va % 256 == 0 && x.md % 64 == 0
    && (x.fmt != 3 || x.chroma % 256 == 0) && (x.blocked || x.pitch % 64 == 0)
    && decide (1 ≤ x.sw) && decide (1 ≤ x.sh) && decide (1 ≤ x.dw) && decide (1 ≤ x.dh))

/-- R311: the ratio of an axis lies from 1/4 to 8. -/
def ratioOk (s d : Nat) : Bool := decide (s ≤ 4 * d) && decide (d ≤ 8 * s)

/-- R315 check 4 for layer `n`. -/
def Layer.fits (x : Layer) (n w h : Nat) : Bool :=
  !x.enable ||
    ((n != 7 || (x.fmt < 2 && x.alpha == 0 && x.galpha == 255))
      && ratioOk x.sw x.dw && ratioOk x.sh x.dh
      && (x.fmt != 3 || (!x.blocked && x.alpha == 0 && x.sx % 2 == 0 && x.sy % 2 == 0 && x.sw % 2 == 0
          && x.sh % 2 == 0))
      && (x.md == 0 || (x.blocked && x.fmt < 2))
      && decide (x.dx + x.dw ≤ w) && decide (x.dy + x.dh ≤ h))

/-- Bytes of a texel, or of a luma sample. -/
def Layer.texel (x : Layer) : Nat := match x.fmt with | 2 => 8 | 3 => 1 | _ => 4

/-- The surface of a blocked layer (R309). -/
def Layer.surf (x : Layer) : Surf :=
  { va := x.va, md := x.md, pitch := x.pitch, bytes := x.texel, n := 1, clear := x.clear }

/-- The byte ranges that a source rectangle reads. -/
def Layer.ranges (x : Layer) : List (Nat × Nat) :=
  if x.blocked then
    let bx := x.sx / 8
    let n := (x.sx + x.sw - 1) / 8 + 1 - bx
    let rows := rangeFrom (x.sy / 8) ((x.sy + x.sh - 1) / 8 + 1 - x.sy / 8)
    let s := x.surf
    rows.map (fun r => (s.slot bx r, n * 64 * s.bytes))
      ++ (if x.md = 0 then [] else rows.map fun r =>
        let a := (s.nibble bx r).1
        (a, (s.nibble (bx + n - 1) r).1 + 1 - a))
  else
    let row (base y k lo n : Nat) : Nat × Nat := (base + y * x.pitch + lo * k, n * k)
    (rangeFrom x.sy x.sh).map (fun y => row x.va y x.texel x.sx x.sw)
      ++ (if x.fmt = 3 then (rangeFrom (x.sy / 2) (x.sh / 2)).map fun y => row x.chroma y 2 (x.sx / 2) (x.sw / 2)
          else [])

/-- The pages of a layer, in order. -/
def Layer.pageList (x : Layer) : List Nat :=
  distinct (x.ranges.flatMap fun r => rangeFrom (r.1 / 4096) ((r.1 + r.2 - 1) / 4096 + 1 - r.1 / 4096))

/-- What translating a layer's pages came to. -/
inductive Pages where
  | ok (m : KMap Nat)
  | fault (e : AccErr) (va : Nat)
  | elsewhere

/-- R315 checks 5 and 6: translate pages in order; a fault ranks before a page elsewhere. -/
def Chip.layerPages (c : Chip) (w : Actor) (low : Nat) : List Nat → Pages
  | [] => .ok []
  | p :: ps =>
    match c.translate w .read (p * 4096), Chip.layerPages c w low ps with
    | .error e, _ => .fault e (p * 4096)
    | _, .fault e va => .fault e va
    | .ok (.here a), .ok m => if a < low then .elsewhere else .ok (KMap.set p (a / 4096) m)
    | _, _ => .elsewhere

/-- R315: every enabled layer translated. (DEDUCED, assumption 74.) -/
def Chip.translateLayers (c : Chip) (w : Actor) (scratch : Nat) :
    List (Nat × Layer) → Except (Option (AccErr × Nat)) (KMap Layer)
  | [] => .ok []
  | (n, x) :: t =>
    match (if x.enable then c.layerPages w (if n = 7 then scratch else 0) x.pageList else .ok []),
          Chip.translateLayers c w scratch t with
    | .fault e va, _ => .error (some (e, va))
    | _, .error (some e) => .error (some e)
    | .elsewhere, _ => .error none
    | .ok _, .error none => .error none
    | .ok m, .ok r => .ok (KMap.set n { x with part := w.p, asid := w.asid, kernel := w.kernel, pages := m } r)

/-- R315 check 7: bytes that a layer reads per frame. -/
def Layer.frameBytes (x : Layer) : Nat :=
  if !x.enable then 0 else x.sw * x.sh * x.texel + (if x.fmt = 3 then x.sw * x.sh / 2 else 0)

/-- R315 check 7: all layers of the pipe within 40 GB/s. -/
def Chip.rateOk (c : Chip) (n : Nat) (new : KMap Layer) : Bool :=
  let d := c.pipe n
  let sum (m : KMap Layer) : Nat := m.foldl (fun a l => a + l.2.frameBytes) 0
  let bytes := sum d.layers + sum new + d.committed.foldl (fun a f => a + sum f.layers) 0
  decide (bytes * c.fld Fld.LCE_PCLK_KHZ (pipeOff n) * 1000
    ≤ 40000000000 * (c.fld Fld.LCE_H_HTOTAL (pipeOff n) * c.fld Fld.LCE_V_VTOTAL (pipeOff n)))

/-- The layer numbers that a mask names, ascending. -/
def layerNums (mask : Nat) : List Nat := (List.range 8).filter fun i => bit mask i

/-- R314, R315 check 1 for a header. -/
def flipHeadOk (b : List Byte) (prot : Bool) (va : Nat) : Bool :=
  let w := fieldLE b 0 4
  va % 64 == 0 && bits w 7 1 == 0 && bits w 31 17 == 0 && fieldLE b 4 4 == 0 && fieldLE b 8 8 % 8 == 0
    && fieldLE b 0x1C 4 / 2 ^ 30 == 0 && ((b.take 0x40).drop 0x20).all (· == 0)
    && (prot || (!bit w 16 && fieldLE b 0x18 8 == 0))

/-- R315: the checks of a flip after its block is read, and its commit. -/
def Chip.commitFlip (c : Chip) (q slot : Nat) (e : Entry) (prot : Bool) (b : List Byte) : Chip :=
  let p := partOf q
  let w := fieldLE b 0 4
  let n := bits w 0 0
  let mask := bits w 15 8
  let nums := layerNums mask
  let ls := nums.zipIdx.map fun x => (x.1, Layer.ofBytes ((b.drop (64 + 64 * x.2)).take 64))
  let reject := c.finish q slot St.flipRejected 0
  if !(flipHeadOk b prot e.desc.p0.toNat && ls.all fun l => l.2.formOk) then c.finishMalformed q slot
  else if !c.pipeOn n then reject
  else if (if prot then mask != 0x80 else mask == 0 || bit mask 7 || c.fld Fld.LCE_PIPE_CTL_OWNER (pipeOff n) != p)
  then reject
  else if !ls.all fun l => l.2.fits l.1 (c.fld Fld.LCE_H_HACTIVE (pipeOff n)) (c.fld Fld.LCE_V_VACTIVE (pipeOff n))
  then reject
  else
    match c.translateLayers (c.actor q slot) (c.part p).scratchBytes ls with
    | .error (some err) => c.failAt q slot FaultUnit.layer err
    | .error none => reject
    | .ok m =>
      if !c.rateOk n m then reject
      else
        let f : Flip := { q := q, slot := slot, asid := c.asidOf q, prot := prot, layers := m
                          relVa := fieldLE b 8 8, relVal := fieldLE b 0x10 8, crcEn := bit w 16
                          expect := fieldLE b 0x18 4, fallback := fieldLE b 0x1C 4 }
        let d := c.pipe n
        (c.setPipe n { d with committed := d.committed ++ [f] }).setEntry q slot { e with phase := .running }

/-- R314, R315: DISPLAY_FLIP and PROTECTED_FLIP. -/
def Chip.flip (c : Chip) (q slot op : Nat) (prot : Bool) : Chip :=
  c.run q slot op fun c e =>
    let w := c.actor q slot
    let va := e.desc.p0.toNat
    match c.readVA w va 64 with
    | .error err => c.failAt q slot FaultUnit.layer err
    | .ok h =>
      match c.readVA w va (64 + 64 * (layerNums (bits (fieldLE h 0 4) 15 8)).length) with
      | .error err => c.failAt q slot FaultUnit.layer err
      | .ok b => c.commitFlip q slot e prot b

/-- R315: DISPLAY_FLIP. -/
def execDisplayFlip (q : BitVec 10) (slot : BitVec 6) (s : State) : Host.Outcome State Fault Refusal :=
  onChip (fun c => c.flip q.toNat slot.toNat Op.displayFlip false) s

/-- R315: PROTECTED_FLIP. -/
def execProtectedFlip (q : BitVec 10) (slot : BitVec 6) (s : State) : Host.Outcome State Fault Refusal :=
  onChip (fun c => c.flip q.toNat slot.toNat Op.protectedFlip true) s

/-! ## Latch and release (R316, R317) -/

/-- R317: signal a flip's release fence; none where the signal cannot be made yet. -/
def Chip.releaseFlip (c : Chip) (f : Flip) : Option Chip :=
  if f.relVa = 0 then some c
  else
    let w : Actor := { p := partOf f.q, asid := f.asid, kernel := indexOf f.q == 0, rid := f.q * 64 + f.slot }
    match c.signalFence w f.q f.relVa f.relVal .none with
    | .done c1 => some c1
    | .remote c1 => some c1
    | .failed .stall => none
    | .failed e => some (c.captureAny w.p e FaultUnit.layer w.asid f.relVa 0)

/-- R316: whether later flips of the same latch replace every layer of a flip. -/
def Flip.replaced (f : Flip) (later : List Flip) : Bool :=
  f.layers.all fun l => later.any fun g => g.layers.any fun m => m.1 == l.1

/-- R316, R317: a flip that a latch never shows; a release that cannot be made yet is still to be made. -/
def Chip.supersede (c : Chip) (n : Nat) (f : Flip) : Chip :=
  let c1 := c.finish f.q f.slot St.ok 0xFFFFFFFF
  (c1.releaseFlip f).getD (c1.setPipe n { c1.pipe n with toRelease := (c1.pipe n).toRelease ++ [f] })

/-- R316: one flip latched: it takes its layers. -/
def DPipe.take (d : DPipe) (f : Flip) : DPipe :=
  let id := d.nextFlip
  let d1 := { d with
    nextFlip := id + 1, live := KMap.set id f d.live
    layers := f.layers.foldl (fun m l => KMap.set l.1 l.2 m) d.layers
    shows := f.layers.foldl (fun m l => KMap.set l.1 id m) d.shows }
  if f.prot then { d1 with protHold := false, crcEn := f.crcEn, expect := f.expect, fallback := f.fallback }
  else d1

/-- R316: the flips of a latch, in commit order. (DEDUCED, assumption 74.) -/
def Chip.latchFlips (n frame : Nat) : List Flip → Chip → Chip
  | [], c => c
  | f :: fs, c =>
    if f.replaced fs then Chip.latchFlips n frame fs (c.supersede n f)
    else Chip.latchFlips n frame fs ((c.setPipe n ((c.pipe n).take f)).finish f.q f.slot St.ok frame)

/-- R317: latched flips of which nothing is shown any more wait for their release. -/
def DPipe.retire (d : DPipe) : DPipe :=
  let gone := d.live.filter fun kf => !d.shows.any fun s => s.2 == kf.1
  { d with toRelease := d.toRelease ++ gone.map Prod.snd
           live := d.live.filter fun kf => d.shows.any fun s => s.2 == kf.1 }

/-- Turn layers off. -/
def DPipe.off (d : DPipe) (f : Nat → Bool) : DPipe :=
  { d with layers := d.layers.map fun l => (l.1, if f l.1 then { l.2 with enable := false } else l.2)
           shows := KMap.drop f d.shows }

/-- R321, R323: whether the protected layer's CRC is checked. -/
def DPipe.checking (d : DPipe) : Bool :=
  d.crcEn && !d.protHold && (KMap.find 7 d.layers).elim false Layer.enable

/-- R316, R318, R323: a pipe latches at the start of a vertical blank. -/
def Chip.vblank (c : Chip) (n : Nat) : Chip :=
  if !c.pipeOn n then c
  else
    let frame := (c.fld Fld.LCE_FRAME_COUNT (pipeOff n) + 1) % 2 ^ 32
    let d0 := c.pipe n
    let d1 := if d0.ownerOff then d0.off (fun l => decide (l < 7)) else d0
    let d2 := if d0.protOff then { d1.off (fun l => l == 7) with crcEn := false, protHold := false } else d1
    let c1 := c.setPipe n { d2 with committed := [], ownerOff := false, protOff := false
                                    bg := c.fld Fld.LCE_BG_BG (pipeOff n), line := 0, crc := 0 }
    let c2 := (d0.committed.filter Flip.stale).foldl (fun c f => c.supersede n f) c1
    let c3 := Chip.latchFlips n frame (d0.committed.filter fun f => !f.stale) c2
    let c4 := c3.setPipe n (c3.pipe n).retire
    let c5 := (c4.setFld Fld.LCE_FRAME_COUNT (pipeOff n) frame).setFld Fld.LCE_PCRC_STATUS_CHECKING (pipeOff n)
      (b2n (c4.pipe n).checking)
    c5.sourceSignal (1 + n) 0

/-- R316: VBLANK_LATCH. -/
def execVblankLatch (n : BitVec 1) (s : State) : Host.Outcome State Fault Refusal :=
  onChip (fun c => c.vblank n.toNat) s

/-- R317: release the oldest flip that no frame shows any more, or leave it where its signal cannot be made yet. -/
def Chip.releaseOldest (c : Chip) (n : Nat) : Chip :=
  let d := c.pipe n
  match d.toRelease with
  | [] => c
  | f :: fs => ((c.setPipe n { d with toRelease := fs }).releaseFlip f).getD c

/-- R317: FLIP_RELEASE. -/
def execFlipRelease (n : BitVec 1) (s : State) : Host.Outcome State Fault Refusal :=
  onChip (fun c => c.releaseOldest n.toNat) s

/-! ## Texels (R309, R310) -/

/-- Read through a layer's translations. -/
def Chip.readLayer (c : Chip) (x : Layer) (va n : Nat) : Except (AccErr × Nat) (List Byte) :=
  let one (a : Nat × Nat) : Except AccErr (List Byte) :=
    match KMap.find (a.1 / 4096) x.pages with
    | none => .error .xlate
    | some p => c.readPP x.part (p * 4096 + a.1 % 4096) a.2
  (pieces va n).foldl (fun r a =>
    match r, one a with
    | .ok bs, .ok b => .ok (bs ++ b)
    | .error e, _ => .error e
    | .ok _, .error e => .error (e, a.1)) (.ok [])

/-- The colour format of a layer in R276's coding. -/
def Layer.code (x : Layer) : Nat := match x.fmt with | 0 => 0x08 | 1 => 0x09 | _ => 0x0D

/-- The stored sample of a texel of an RGB layer. -/
def Chip.texelWord (c : Chip) (x : Layer) (i j : Nat) : Except (AccErr × Nat) Nat :=
  if x.md ≠ 0 then
    match loadBlockBy (c.readLayer x) x.surf (i / 8) (j / 8) with
    | .ok px => .ok (px.getD (8 * (j % 8) + i % 8) 0)
    | .error e => .error e
  else
    match c.readLayer x (if x.blocked then x.surf.pixel i j else x.va + j * x.pitch + i * x.texel) x.texel with
    | .ok bs => .ok (leNat bs)
    | .error e => .error e

/-- R310: a texel as FP32 R, G, B, A, premultiplied where the layer's alpha is straight. -/
def Chip.texelRgba (c : Chip) (x : Layer) (i j : Nat) : Except (AccErr × Nat) (List Nat) :=
  match c.texelWord x i j with
  | .error e => .error e
  | .ok v =>
    let k (n : Nat) : Nat := sampleComps x.code v n
    .ok (if x.alpha = 2 then [fMul (k 0) (k 3), fMul (k 1) (k 3), fMul (k 2) (k 3), k 3]
         else [k 0, k 1, k 2, k 3])

/-- A luma sample, and a chroma pair, as FP32. -/
def Chip.texelY (c : Chip) (x : Layer) (i j : Nat) : Except (AccErr × Nat) (List Nat) :=
  match c.readLayer x (x.va + j * x.pitch + i) 1 with
  | .ok b => .ok [fRatio (leNat b) 1]
  | .error e => .error e

def Chip.texelC (c : Chip) (x : Layer) (i j : Nat) : Except (AccErr × Nat) (List Nat) :=
  match c.readLayer x (x.chroma + j * x.pitch + 2 * i) 2 with
  | .ok b => .ok [fRatio (leNat (b.take 1)) 1, fRatio (leNat (b.drop 1)) 1]
  | .error e => .error e

/-! ## Scaling (R311) -/

/-- R311: the source coordinate of an output pixel. -/
def srcCoord (s0 sn dn d : Nat) : Int :=
  let step : Int := (sn * 65536 / dn : Nat)
  let u := (s0 * 65536 : Nat) + (d : Int) * step + step / 2 - 32768
  max ((s0 * 65536 : Nat) : Int) (min (((s0 + sn - 1) * 65536 : Nat) : Int) u)

/-- R311: the texel, its neighbour and the fraction of a coordinate within `s0` to `s0 + sn − 1`. -/
def tap (s0 sn : Nat) (u : Int) : Nat × Nat × Nat :=
  let i := (u / 65536).toNat
  (i, min (i + 1) (s0 + sn - 1), fRatio (u % 65536) 65536)

/-- R311: lerp. -/
def lerp (a b f : Nat) : Nat := fAdd a (fMul f (fSub b a))

/-- Component-wise interpolation. -/
def lerpAll (a b : List Nat) (f : Nat) : List Nat := (a.zip b).map fun x => lerp x.1 x.2 f

/-- R311: bilinear filtering, horizontally on both rows and then vertically. -/
def bilinear (get : Nat → Nat → Except (AccErr × Nat) (List Nat)) (h v : Nat × Nat × Nat) :
    Except (AccErr × Nat) (List Nat) :=
  match get h.1 v.1, get h.2.1 v.1, get h.1 v.2.1, get h.2.1 v.2.1 with
  | .ok a, .ok b, .ok c, .ok d => .ok (lerpAll (lerpAll a b h.2.2) (lerpAll c d h.2.2) v.2.2)
  | .error e, _, _, _ => .error e
  | _, .error e, _, _ => .error e
  | _, _, .error e, _ => .error e
  | _, _, _, .error e => .error e

/-- A coordinate clamped to a rectangle's extent. -/
def clampTo (s0 sn : Nat) (u : Int) : Int :=
  max ((s0 * 65536 : Nat) : Int) (min (((s0 + sn - 1) * 65536 : Nat) : Int) u)

/-- R310: BT.709, limited range. -/
def yuvToRgba (y cb cr : Nat) : List Nat :=
  let y1 := fDiv (fSub y (fRatio 16 1)) (fRatio 219 1)
  let b1 := fDiv (fSub cb (fRatio 128 1)) (fRatio 224 1)
  let r1 := fDiv (fSub cr (fRatio 128 1)) (fRatio 224 1)
  [fAdd y1 (fMul (fRatio 15748 10000) r1),
   fSub (fSub y1 (fMul (fRatio 187324 1000000) b1)) (fMul (fRatio 468124 1000000) r1),
   fAdd y1 (fMul (fRatio 18556 10000) b1), fOne]

/-- R310, R311: a layer's filtered R, G, B and A at an output pixel. -/
def Chip.layerAt (c : Chip) (x : Layer) (px py : Nat) : Except (AccErr × Nat) (List Nat) :=
  let u := srcCoord x.sx x.sw x.dw (px - x.dx)
  let v := srcCoord x.sy x.sh x.dh (py - x.dy)
  let h := tap x.sx x.sw u
  let w := tap x.sy x.sh v
  if x.fmt ≠ 3 then bilinear (c.texelRgba x) h w
  else
    let uc := clampTo (x.sx / 2) (x.sw / 2) (u / 2)
    let vc := clampTo (x.sy / 2) (x.sh / 2) ((v - 32768) / 2)
    match bilinear (c.texelY x) h w,
          bilinear (c.texelC x) (tap (x.sx / 2) (x.sw / 2) uc) (tap (x.sy / 2) (x.sh / 2) vc) with
    | .ok [y], .ok [cb, cr] => .ok (yuvToRgba y cb cr)
    | .error e, _ => .error e
    | _, .error e => .error e
    | _, _ => .ok [0, 0, 0, fOne]

/-! ## Composition (R312, R313) -/

/-- Whether a layer's destination rectangle contains a pixel. -/
def Layer.covers (x : Layer) (px py : Nat) : Bool :=
  x.enable && decide (x.dx ≤ px) && decide (px < x.dx + x.dw) && decide (x.dy ≤ py) && decide (py < x.dy + x.dh)

/-- A packed 10-bit colour as FP32 components. (DEDUCED, assumption 74.) -/
def colour10 (v : Nat) : List Nat := (List.range 3).map fun i => fRatio (v / 2 ^ (10 * i) % 1024 : Nat) 1023

/-- R312: layer `n` over what is below it; layer 7 is its filtered texel alone. -/
def composeOver (n : Nat) (x : Layer) (t below : List Nat) : List Nat :=
  if n = 7 then t.take 3 else
  let g := fRatio x.galpha 255
  let a := fMul (if x.alpha = 0 then fOne else t.getD 3 0) g
  (below.zip t).map fun p => fAdd (fMul p.2 g) (fMul p.1 (fSub fOne a))

/-- The ordered-dither matrix of R313. -/
def bayer (y x : Nat) : Nat :=
  ([0, 8, 2, 10, 12, 4, 14, 6, 3, 11, 1, 9, 15, 7, 13, 5] : List Nat).getD (4 * (y % 4) + x % 4) 0

/-- R313: the code of a component. -/
def ditherCode (depth : Nat) (dither : Bool) (b c : Nat) : Nat :=
  let x := fVal c
  let v := if x.isNan ∨ x.lt (fVal 0) then 0 else if (fVal fOne).lt x then fOne else c
  let t := if dither then fRatio (2 * b + 1 : Nat) 32 else fRatio 1 2
  let m := 2 ^ depth - 1
  min m (toIntSat 16 false .rz (fVal (fAdd (fMul v (fRatio m 1)) t)))

/-- R313: the temporal offsets of a frame. -/
def ditherShift (frame : Nat) : Nat × Nat :=
  match frame % 4 with
  | 0 => (0, 0)
  | 1 => (2, 2)
  | 2 => (2, 0)
  | _ => (0, 2)

/-- Layers that have failed on a line so far: transparent, or FALLBACK, for the rest of it (R320). -/
abbrev Failed := List Nat

/-- R312, R320: the layers of one pixel, ascending; `late` says from which pixel a layer's data is late. -/
def Chip.composePixel (c : Chip) (d : DPipe) (late : List (Nat × Nat)) (px py : Nat) :
    List (Nat × Layer) → Failed → List Nat → Failed × List Nat
  | [], f, acc => (f, acc)
  | (n, x) :: t, f, acc =>
    if !x.covers px py then Chip.composePixel c d late px py t f acc
    else
      let isLate := f.contains n || late.any fun l => l.1 == n && decide (l.2 ≤ px)
      let hold := n == 7 && d.protHold
      let back := if n = 7 then colour10 d.fallback else acc
      if hold then Chip.composePixel c d late px py t f back
      else if isLate then Chip.composePixel c d late px py t (if f.contains n then f else n :: f) back
      else
        match c.layerAt x px py with
        | .ok v => Chip.composePixel c d late px py t f (composeOver n x v acc)
        | .error _ => Chip.composePixel c d late px py t (n :: f) back

/-- The depth in bits of a pipe's output. -/
def Chip.depthBits (c : Chip) (n : Nat) : Nat :=
  match c.fld Fld.LCE_PIPE_CTL_BPC (pipeOff n) with | 0 => 6 | 1 => 8 | _ => 10

/-- R313, R321: a pixel's word R | G << 10 | B << 20. -/
def Chip.pixelWord (c : Chip) (n : Nat) (d : DPipe) (px py : Nat) (v : List Nat) : Nat :=
  let inProt := (KMap.find 7 d.layers).elim false fun x => x.covers px py
  let o := if c.flag Fld.LCE_PIPE_CTL_TEMPORAL (pipeOff n) && !inProt then
    ditherShift (c.fld Fld.LCE_FRAME_COUNT (pipeOff n)) else (0, 0)
  let code (i : Nat) : Nat := ditherCode (c.depthBits n) (c.flag Fld.LCE_PIPE_CTL_DITHER (pipeOff n))
    (bayer (py + o.2) (px + o.1)) (v.getD i 0)
  code 0 + 2 ^ 10 * code 1 + 2 ^ 20 * code 2

/-- A line's pixels from `px` on: the failed layers and the words. (DEDUCED, assumption 74.) -/
def Chip.composeLine (c : Chip) (n : Nat) (d : DPipe) (late : List (Nat × Nat)) (py : Nat) :
    List Nat → Failed → Failed × List Nat
  | [], f => (f, [])
  | px :: t, f =>
    let r := c.composePixel d late px py d.layers f (colour10 d.bg)
    let rest := Chip.composeLine c n d late py t r.1
    (rest.1, c.pixelWord n d px py r.2 :: rest.2)

/-! ## The CRC (R321, R322) -/

/-- R322: the end of a frame's check. -/
def Chip.checkCrc (c : Chip) (n crc : Nat) (d : DPipe) : Chip :=
  let o := pipeOff n
  let c1 := c.setFld Fld.LCE_PCRC_LAST_COUNT o crc
  if crc = d.expect then c1.setFld Fld.LCE_PCRC_STATUS_CONSEC o 0
  else
    let c2 := ((c1.setFld Fld.LCE_PCRC_STATUS_MISMATCH o 1).count Fld.LCE_PCRC_CNT_COUNT o).count
      Fld.LCE_PCRC_STATUS_CONSEC o
    let p := (c.safetyOwner).getD 0
    let c3 := (c2.raiseOwner 7).postBoth p 0x0020 (p * 64) crc
    let lim := c.fld Fld.LCE_PCRC_LIMIT_LIMIT
    if lim ≠ 0 ∧ c3.fld Fld.LCE_PCRC_STATUS_CONSEC o ≥ lim then c3.latchCause Cause.crcLimit else c3

/-- R321: the CRC over the protected rectangle's part of a line; it is compared after the last one.
(DESIGN CHOICE, assumption 75.) -/
def Chip.crcLine (c : Chip) (n y : Nat) (d : DPipe) (ws : List Nat) : Chip :=
  match KMap.find 7 d.layers with
  | none => c
  | some x =>
    if !d.checking ∨ y < x.dy ∨ y ≥ x.dy + x.dh then c
    else
      let bytes := ((ws.drop x.dx).take x.dw).flatMap fun w => leBytes 4 w
      let crc := crc32 (if y = x.dy then 0 else d.crc) bytes
      if y + 1 = x.dy + x.dh then c.checkCrc n crc d else c.setPipe n { c.pipe n with crc := crc }

/-- R312 to R323: SCANOUT_LINE: the pipe composes and sends its next line. (DESIGN CHOICE, assumption 75.) -/
def Chip.scanout (c : Chip) (n : Nat) (late : List (Nat × Nat)) : Chip :=
  let d := c.pipe n
  let y := d.line
  if !c.pipeOn n ∨ y ≥ c.fld Fld.LCE_V_VACTIVE (pipeOff n) then c
  else
    let (f, ws) := c.composeLine n d late y (List.range (c.fld Fld.LCE_H_HACTIVE (pipeOff n))) []
    let lost := (List.range 7).filter fun i => f.contains i
    let owner := c.fld Fld.LCE_PIPE_CTL_OWNER (pipeOff n)
    let c1 := c.setPipe n { d with line := y + 1 }
    let c2 := if lost.isEmpty then c1 else c1.count Fld.LCE_UNDERRUN_CNT_COUNT (pipeOff n)
    let c3 := lost.foldl (fun c i => c.postEvent owner 0x0021 (owner * 64) (n + 2 ^ 8 * i)) c2
    let c4 := c3.crcLine n y d ws
    if c.fld Fld.LCE_PIPE_STATUS_STATE (pipeOff n) = 2 then c4.emit (.video n y ws) else c4

/-- R320: SCANOUT_LINE; `late` lists layers whose data is late, each from a pixel on. -/
def execScanoutLine (n : BitVec 1) (late : List (BitVec 3 × Half)) (s : State) :
    Host.Outcome State Fault Refusal :=
  onChip (fun c => c.scanout n.toNat (late.map fun l => (l.1.toNat, l.2.toNat))) s

/-! ## Pipe control and links (R308, R318, R326, R327) -/

/-- R308, R324: training starts, or waits for firmware with the link down. -/
def Chip.trainDisplay (c : Chip) (n : Nat) : Chip :=
  (c.setPipe n { c.pipe n with trainWait := !c.firmwareRuns }).setFld Fld.LCE_PIPE_STATUS_STATE (pipeOff n)
    (if c.firmwareRuns then 1 else 3)

/-- R324: firmware runs again, and the training that waited for it starts. -/
def Chip.resumeTraining (c : Chip) : Chip :=
  [0, 1].foldl (fun c n => if c.pipeOn n && (c.pipe n).trainWait then c.trainDisplay n else c) c

/-- R307, R326, R327: whether the programmed values allow the pipe to be enabled. -/
def Chip.timingOk (c : Chip) (n : Nat) : Bool :=
  let o := pipeOff n
  let f (x : Fld) : Nat := c.fld x o
  let ha := f Fld.LCE_H_HACTIVE
  let va := f Fld.LCE_V_VACTIVE
  f Fld.LCE_PIPE_CTL_BPC != 3 && (n != 0 || f Fld.LCE_PIPE_CTL_OUT_EDP == 0)
    && decide (64 ≤ ha) && decide (ha ≤ 3840) && ha % 8 == 0 && decide (1 ≤ va) && decide (va ≤ 2160)
    && decide (25000 ≤ f Fld.LCE_PCLK_KHZ) && decide (f Fld.LCE_PCLK_KHZ ≤ 600000)
    && decide (ha < f Fld.LCE_H_HTOTAL) && decide (va < f Fld.LCE_V_VTOTAL)
    && decide (f Fld.LCE_HS_HS_START + f Fld.LCE_HS_HS_WIDTH < f Fld.LCE_H_HTOTAL)
    && decide (f Fld.LCE_VS_VS_START + f Fld.LCE_VS_VS_WIDTH < f Fld.LCE_V_VTOTAL)

/-- R318: a write of ENABLE. -/
def Chip.pipeEnable (c : Chip) (n : Nat) (on : Bool) : Chip :=
  let o := pipeOff n
  let was := c.flag Fld.LCE_PIPE_CTL_ENABLE o
  if on then
    if was then c
    else if !c.timingOk n ∨ !c.mgt.dispPhy then c.regError (Reg.LCE_PIPE_CTL + o)
    else (c.setFld Fld.LCE_PIPE_CTL_ENABLE o 1).trainDisplay n
  else if !was then c
  else
    let d := c.pipe n
    let c1 := (c.setFld Fld.LCE_PIPE_CTL_ENABLE o 0).setFld Fld.LCE_PIPE_STATUS_STATE o 0
    d.committed.foldl (fun c f => c.finish f.q f.slot St.flipRejected 0)
      (c1.setPipe n { d with committed := [], line := 0, trainWait := false })

/-- R318: a write of OWNER: layers 0 to 6 are off at the next latch, and what the previous owner has committed is not
shown. A write of the owner that OWNER already names makes it no previous one. (DEDUCED, assumption 181.) -/
def Chip.pipeOwner (c : Chip) (n owner : Nat) : Chip :=
  let d := c.pipe n
  (c.setFld Fld.LCE_PIPE_CTL_OWNER (pipeOff n) owner).setPipe n { d with
    ownerOff := true
    committed := d.committed.map fun f => { f with stale := f.stale || (!f.prot && partOf f.q != owner) } }

/-- R11, R326: a write of LCE_PIPE_CTL, whatever it changes, meets its locked fields while ENABLE is 1. -/
def Chip.pipeLocked (c : Chip) (n : Nat) : Chip :=
  if c.flag Fld.LCE_PIPE_CTL_ENABLE (pipeOff n) then c.regError (Reg.LCE_PIPE_CTL + pipeOff n) else c

/-- R318: PIPE_ENABLE_WRITE. -/
def execPipeEnableWrite (n : BitVec 1) (on : Bool) (s : State) : Host.Outcome State Fault Refusal :=
  onHost (fun c => if c.pipeExists n.toNat then (c.pipeLocked n.toNat).pipeEnable n.toNat on else c) s

/-- R318: PIPE_OWNER_WRITE. -/
def execPipeOwnerWrite (n : BitVec 1) (owner : BitVec 4) (s : State) : Host.Outcome State Fault Refusal :=
  onHost (fun c => if c.pipeExists n.toNat then (c.pipeLocked n.toNat).pipeOwner n.toNat owner.toNat else c) s

/-- R308: DISPLAY_HOTPLUG: HPD follows the pin; a running pipe's link is trained again, or is down. -/
def execDisplayHotplug (n : BitVec 1) (hpd : Bool) (s : State) : Host.Outcome State Fault Refusal :=
  onChip (fun c =>
    let n := n.toNat
    if !c.pipeExists n then c
    else
      let c1 := c.setFld Fld.LCE_PIPE_STATUS_HPD (pipeOff n) (b2n hpd)
      if !c.pipeOn n then c1
      else if hpd then c1.trainDisplay n
      else (c1.setPipe n { c1.pipe n with trainWait := false }).setFld Fld.LCE_PIPE_STATUS_STATE (pipeOff n) 3) s

/-- R307: the lanes and rates that an output supports, fewest lanes first and for each the lowest rate first.
(DEDUCED, assumption 182.) -/
def linkModes (edp : Bool) : List (Nat × Nat) :=
  [1, 2, 4].flatMap fun l => (List.range (if edp then 4 else 5)).map fun r => (l, r)

/-- R307: what a lane carries in kbit/s, times 33: 8b/10b up to HBR3, 128b/132b on UHBR10. (PRESUMED, assumption 182.) -/
def laneRate (rate : Nat) : Nat := ([42768000, 71280000, 142560000, 213840000, 320000000] : List Nat).getD rate 0

/-- R308: the fewest lanes at the lowest rate that carry the programmed timing at the programmed depth. -/
def Chip.linkMode (c : Chip) (n : Nat) : Option (Nat × Nat) :=
  (linkModes (c.flag Fld.LCE_PIPE_CTL_OUT_EDP (pipeOff n))).find? fun m =>
    decide (33 * c.fld Fld.LCE_PCLK_KHZ (pipeOff n) * (3 * c.depthBits n) ≤ m.1 * laneRate m.2)

/-- R308: the pipe goes from training to sending with these lanes at this rate. -/
def Chip.linkSends (c : Chip) (n : Nat) (m : Nat × Nat) : Chip :=
  let o := pipeOff n
  ((c.setFld Fld.LCE_PIPE_STATUS_STATE o 2).setFld Fld.LCE_PIPE_STATUS_LANES o m.1).setFld Fld.LCE_PIPE_STATUS_RATE o m.2

/-- R308: firmware ends the training of a pipe's link with the lanes and rate of the rule; training that came to another
result has not ended. (PRESUMED, assumption 182.) -/
def Chip.linkTrained (c : Chip) (n : Nat) (m : Nat × Nat) : Chip :=
  if c.linkMode n = some m ∧ c.fld Fld.LCE_PIPE_STATUS_STATE (pipeOff n) = 1 ∧ c.firmwareRuns then c.linkSends n m else c

/-- R308: DISPLAY_LINK_TRAINED. -/
def execDisplayLinkTrained (n : BitVec 1) (lanes rate : BitVec 3) (s : State) : Host.Outcome State Fault Refusal :=
  onChip (fun c => c.linkTrained n.toNat (lanes.toNat, rate.toNat)) s

/-! ## Resets of owners (R323) -/

/-- R323: a partition enters RESETTING: its unlatched flips complete with ABORTED_RESET, its layers are off,
and the protected layer shows FALLBACK. -/
def Chip.displayReset (c : Chip) (p : Nat) : Chip :=
  let prot := (c.part p).safety
  (List.range 2).foldl (fun c n =>
    let d := c.pipe n
    let mine := d.committed.filter fun f => partOf f.q == p
    let drop (l : List Flip) : List Flip := l.filter fun f => partOf f.q != p
    let d1 := { d with committed := drop d.committed, toRelease := drop d.toRelease
                       live := d.live.filter fun kf => partOf kf.2.q != p }
    let d2 := if c.fld Fld.LCE_PIPE_CTL_OWNER (pipeOff n) = p then d1.off (fun l => decide (l < 7)) else d1
    let d3 := if prot then { d2 with protHold := true } else d2
    let c1 := (c.setPipe n d3).setFld Fld.LCE_PCRC_STATUS_CHECKING (pipeOff n) (b2n d3.checking)
    mine.foldl (fun c f => c.finish f.q f.slot St.abortedReset 0) c1) c

/-- R323: the safety owner is gone: layer 7 is off at the next latch. -/
def Chip.displayDestroy (c : Chip) (p : Nat) : Chip :=
  if (c.part p).safety then
    (List.range 2).foldl (fun c n => c.setPipe n { c.pipe n with protOff := true }) c
  else c

end Sys2Proof.Machine
end

