-- ==== Sys2Proof/Machine/Power.lean ====
section
/-!
DEFINITION. The power loop, droop and thermal responses, shifts between devices and power states (R405 to
R430), and the interference estimate (R116). Powers are in mW: the energy of a 1 µs period in nJ.
-/

namespace Sys2Proof.Machine

/-- An event of the power block to partition 0, with its vector (R428). -/
def Chip.postPower (c : Chip) (code detail : Nat) : Chip := (c.postEvent 0 code 0 detail).raiseOwner 2

/-! ## The cap (R406, R21) -/

/-- R21: the ceilings of compute, memory and link, in mW. -/
def Chip.ceilings (c : Chip) : List Nat :=
  match c.fld Fld.DEV_ID_PART with
  | 0x0720 => [225000, 120000, 48000]
  | 0x0480 => [150000, 60000, 32000]
  | _ => [300000, 180000, 80000]

/-- R21: the variant's total, in W. -/
def Chip.totalW (c : Chip) : Nat := c.ceilings.foldl (· + ·) 0 / 1000 + 40

/-- R421: the shift in force, signed, in W. -/
def Chip.shiftW (c : Chip) : Int := signed 11 (c.fld Fld.PWR_SHIFT_STATUS_SHIFT)

/-- R406: the effective cap in W. -/
def Chip.effectiveCap (c : Chip) : Nat :=
  let own := ((c.fld Fld.PWR_CAP_CAP_W : Int) + c.shiftW).toNat
  let a := min own c.totalW
  let b := if c.pwr.ext then min a (c.fld Fld.PWR_EXT_CAP_CAP_W) else a
  if c.flag Fld.RAS_SEQ_STATUS_CAP then min b 250 else b

/-- PWR_EFFECTIVE shows the effective cap. -/
def Chip.refreshCap (c : Chip) : Chip := c.setFld Fld.PWR_EFFECTIVE_EFF_CAP 0 c.effectiveCap

/-- R419: a reason that a cap brings into force is in force in the present period, whenever in it the cap ends. -/
def Chip.inForce (c : Chip) (n : Nat) : Chip := { c with pwr := { c.pwr with seen := n :: c.pwr.seen } }

/-- R417: THROTTLE_N_ASSERT. -/
def execThrottleNAssert (s : State) : Host.Outcome State Fault Refusal :=
  onChip (fun c => { c with pwr := { c.pwr with ext := true } }.refreshCap.inForce 8) s

/-- R417: THROTTLE_N_RELEASE. -/
def execThrottleNRelease (s : State) : Host.Outcome State Fault Refusal :=
  onChip (fun c => { c with pwr := { c.pwr with ext := false } }.refreshCap) s

/-! ## The split (R407) -/

/-- The priority order of PWR_PRIO. -/
def Chip.powerOrder (c : Chip) : List Nat :=
  [c.fld Fld.PWR_PRIO_FIRST, c.fld Fld.PWR_PRIO_SECOND, c.fld Fld.PWR_PRIO_THIRD]

/-- The floors, in mW. -/
def Chip.powerFloors (c : Chip) : List Nat :=
  [c.fld Fld.PWR_FLOOR_COMPUTE * 1000, c.fld Fld.PWR_FLOOR_MEMORY * 1000, c.fld Fld.PWR_FLOOR_LINK * 1000]

/-- R407: one pass in priority order: each consumer takes what it lacks of its target, as far as any is
left. -/
def giveInOrder (target : List Nat) : List Nat → List Nat × Nat → List Nat × Nat
  | [], r => r
  | i :: t, (alloc, avail) =>
    let give := min (target.getD i 0 - alloc.getD i 0) avail
    giveInOrder target t (alloc.set i (alloc.getD i 0 + give), avail - give)

/-- R407: the shares of an effective cap, from the ceilings, the floors, the order, the measured powers and
which consumers were throttled. -/
def splitCap (cap : Nat) (ceil floors order measured : List Nat) (throttled : List Bool) : List Nat :=
  let alloc := (floors.zip ceil).map fun x => min x.1 x.2
  let avail := cap - 40000 - alloc.foldl (· + ·) 0
  let target := (ceil.zip (measured.zip throttled)).map fun x =>
    min x.1 (x.2.1 + if x.2.2 then x.1 / 8 else 0)
  (giveInOrder ceil order (giveInOrder target order (alloc, avail))).1

/-- R411: the drip for the next period, from the measured power, its elastic part and the share. -/
def nextDrip (d pc pe alloc : Nat) : Nat :=
  let r := 64 - d
  if pc > alloc ∧ pe > 0 then min 63 (d + min 16 (ceilDiv (r * (pc - alloc)) pe))
  else if pc + alloc / 64 < alloc then d - min 16 (r * (alloc - pc) / max pe 1000)
  else d

/-! ## Sensors (R416) -/

/-- R416: Tj,max of a sensor in quarters of a degree. -/
def Chip.tjMax (c : Chip) (sensor : Nat) : Int :=
  if c.fld Fld.DEV_ID_GRADE = 0xD ∨ (12 ≤ sensor ∧ sensor ≤ 17) then 105 * 4 else 115 * 4

/-- R416: the level of a sensor after a sample. (DEDUCED, assumption 78.) -/
def nextLevel (old : Nat) (t tj margin : Int) : Nat :=
  if t ≥ tj ∨ (old = 2 ∧ t ≥ tj - 8) then 2
  else if t ≥ tj - 4 * margin ∨ (old ≥ 1 ∧ t ≥ tj - 4 * margin - 8) then 1
  else 0

/-- Whether the variant has a sensor: groups, populated stacks, the I/O die. -/
def Chip.hasSensor (c : Chip) (s : Nat) : Bool :=
  decide (s ≤ 18) && (decide (s < 12) || decide (s - 12 < c.fld Fld.DEV_CAPS0_STACKS) || s == 18)

/-- The level of a sensor. (DEDUCED, assumption 78.) -/
def Chip.thermLevel (c : Chip) (s : Nat) : Nat := c.fld Fld.PWR_THERM_LEVEL (steer s)

/-- R416: a sample of a sensor: its level, the event of a crossing, and at the critical level the stop of
every clock and THERMAL. -/
def Chip.sampleSensor (c : Chip) (s : Nat) (raw : Nat) : Chip :=
  if !c.hasSensor s then c
  else
    let t := signed 10 raw
    let tj := c.tjMax s
    let old := c.thermLevel s
    let new := nextLevel old t tj (c.fld Fld.PWR_THERM_CFG_WARN_MARGIN)
    let c1 := (c.setFld Fld.PWR_THERM_TEMP (steer s) raw).setFld Fld.PWR_THERM_LEVEL (steer s) new
    let c2 := if new = old then c1 else c1.postPower 0x0051 (s + 2 ^ 8 * new)
    if t ≥ tj + 40 then { c2.latchCause Cause.thermal with stopped := true } else c2

/-- The consumer of a sensor. -/
def sensorConsumer (s : Nat) : Nat := if s < 12 then 0 else if s < 18 then 1 else 2

/-- Sensors at a level or above. -/
def Chip.hotSensors (c : Chip) (level : Nat) : List Nat :=
  (List.range 19).filter fun s => decide (c.thermLevel s ≥ level)

/-! ## Partitions that a domain serves -/

/-- A mask with one bit for each partition of a list. -/
def maskOf (ps : List Nat) : Nat := (distinct ps).foldl (fun m p => m + 2 ^ p) 0

/-- The partitions that exist. -/
def Chip.existing (c : Chip) : List Nat := (List.range 16).filter c.exists?

/-- Those of them that are elastic. -/
def Chip.elastics (c : Chip) : List Nat := c.existing.filter fun p => !(c.part p).det

/-- The partitions with clusters in a physical group. (DEDUCED, assumption 77.) -/
def Chip.groupParts (c : Chip) (g : Nat) : List Nat :=
  c.existing.filter fun p => c.clusters.any fun kc => kc.2.part == p && kc.2.phys / 8 == g

/-- R416: the partitions that use a sensor's domain. (DEDUCED, assumption 77.) -/
def Chip.sensorParts (c : Chip) (s : Nat) : List Nat :=
  if s < 12 then c.groupParts s
  else if s < 18 then
    c.existing.filter fun p => !(c.part p).det || (c.part p).pcgs.any fun g => g / 16 == s - 12
  else c.existing.filter fun p => !(c.part p).det || (c.part p).linkSlots != 0

/-! ## The stacks (R234) -/

/-- R237, R419: the partitions of which a scan was held in the period, one bit each. -/
def Chip.scanHeld (c : Chip) : Nat := c.stackPow.foldl (fun m y => m ||| y.2.held) 0

/-- R234, R405: the context stacks' power in a period, in mW: external traffic at 10 pJ a byte, the scans, and the measured
base power. -/
def Chip.memoryPower (c : Chip) (w : PowerSample) : Nat :=
  ((w.ext.foldl (fun n b => n + 120 * b.toNat) 0) + c.stackPow.foldl (fun n y => n + y.2.scan) 0) / 12000
    + w.memBase.toNat

/-- R234, R251: a stack's period ends: its powers are shown in units of 0.25 W, rounding down, and a new period starts.
(DEDUCED, assumption 76.) -/
def Chip.endStack (c : Chip) (stack ext : Nat) : Chip :=
  let y := KMap.getD c.stackPow stack {}
  let c1 := (c.setFld Fld.CTX_STK_POWER_EXT (steer stack) (min 255 (ext / 25000))).setFld Fld.CTX_STK_POWER_SCAN
    (steer stack) (min 255 (y.scan / 3000000))
  { c1 with stackPow := KMap.put {} stack { ext := ext } c1.stackPow }

/-- R234: the period of every populated stack ends. -/
def Chip.endStacks (c : Chip) (w : PowerSample) : Chip :=
  (List.range (c.fld Fld.DEV_CAPS0_STACKS)).foldl (fun c k => c.endStack k ((w.ext.map (·.toNat)).getD k 0)) c

/-! ## Reasons (R418, R419) -/

/-- R419: the partitions, one bit each, on which each reason acted in a period; what is not in force is
none. (DEDUCED, assumption 77.) -/
def Chip.reasonParts (c : Chip) (w : PowerSample) : List (Option Nat) :=
  let on (b : Bool) (m : Nat) : Option Nat := if b then some m else none
  let drip := on (c.fld Fld.PWR_DRIP_LEVEL != 0)
    (maskOf (c.elastics.filter fun p => !(c.clustersOf p).isEmpty))
  let mem := on (w.waitMem != 0) w.waitMem.toNat
  let link := on (w.waitLink != 0) w.waitLink.toNat
  let shared := drip.getD 0 ||| mem.getD 0 ||| link.getD 0
  let warm := c.hotSensors 1
  let hot := c.hotSensors 2
  let seen (n : Nat) : Bool := c.pwr.seen.contains n
  [drip, mem, link, on (c.scanHeld != 0) c.scanHeld, on (c.pwr.slope != 0) c.pwr.slope,
   on (!warm.isEmpty) (maskOf ((warm.flatMap c.sensorParts).filter fun p => !(c.part p).det)),
   on (!hot.isEmpty) (maskOf (hot.flatMap c.sensorParts)),
   on c.pwr.droopHit c.pwr.droop, on (c.pwr.ext || seen 8) shared,
   on (c.flag Fld.RAS_SEQ_STATUS_CAP || seen 9) shared, on (!c.pwr.exceeded.isEmpty) 0,
   on (decide (c.shiftW < 0) || seen 11) shared]

/-- R407: which consumers a period's reasons throttled. -/
def Chip.throttledBy (c : Chip) (rs : List (Option Nat)) : List Bool :=
  let r (n : Nat) : Bool := (rs.getD n none).isSome
  let all := r 8 || r 9 || r 11
  let warm (k : Nat) : Bool := (c.hotSensors 1).any fun s => sensorConsumer s == k
  [r 0 || r 4 || r 7 || all || warm 0, r 1 || r 3 || all || warm 1, r 2 || all || warm 2]

/-- R418, R419: one reason's duration, its part in THR_SEEN and the partitions', and THROTTLE_BEGIN after at
least 1 ms out of force. (DEDUCED, assumption 77.) -/
def Chip.recordReason (c : Chip) (n : Nat) (m : Option Nat) : Chip :=
  match m with
  | none => c
  | some mask =>
    let now := c.gtc.toNat
    let fresh := match KMap.find n c.pwr.lastForce with
      | some t => decide (now ≥ t + 1000000)
      | none => true
    let c1 := { c with pwr := { c.pwr with lastForce := KMap.set n now c.pwr.lastForce } }
    let c2 := (c1.count Fld.PWR_THR_DUR_PERIODS (4 * n)).setBit Fld.PWR_THR_SEEN_REASONS 0 n
    let c3 := c.existing.foldl (fun c p => if bit mask p then c.setBit Fld.PWR_PTHR_REASONS (pg p) n else c) c2
    if fresh then c3.postPower 0x0050 n else c3

/-- PWR_THR_ACTIVE of a period's reasons. -/
def activeMask (rs : List (Option Nat)) : Nat :=
  (rs.zipIdx.filter fun r => r.1.isSome).foldl (fun m r => m + 2 ^ r.2) 0

/-! ## Energy (R420) -/

/-- Add to a 64-bit counter that wraps. -/
def Chip.addWide (c : Chip) (lo hi n : Nat) : Chip := c.setRg64 lo hi ((c.rg64 lo hi + n) % 2 ^ 64)

/-- R420: the energies of a period: to queues and their partitions, and unattributed.
(DEDUCED, assumption 76.) -/
def Chip.attribute (c : Chip) (w : PowerSample) : Chip :=
  let c1 := w.energy.foldl (fun c x =>
    let q := x.1.toNat
    let p := partOf q
    if !c.exists? p then c
    else
      let o := pg p + 8 * indexOf q
      (c.addWide (Reg.PWR_PENERGY_LO + pg p) (Reg.PWR_PENERGY_HI + pg p) x.2.toNat).addWide
        (Reg.PWR_QENERGY_LO + o) (Reg.PWR_QENERGY_HI + o) x.2.toNat) c
  c1.addWide Reg.PWR_UNATTR_LO Reg.PWR_UNATTR_HI w.unattributed.toNat

/-! ## The period (R405) -/

/-- R409: DET_OVER of the consumers whose deterministic power exceeds their share; posted as each begins. -/
def Chip.detOver (c : Chip) (w : PowerSample) (alloc : List Nat) : Chip :=
  let det := [w.detCompute.toNat, w.detMemory.toNat, w.detLink.toNat]
  let now := (List.range 3).filter fun k => decide (det.getD k 0 > alloc.getD k 0)
  let c1 := now.foldl (fun c k => if c.pwr.exceeded.contains k then c else c.postPower 0x0052 k) c
  { c1 with pwr := { c1.pwr with exceeded := now } }

/-- R407, R411: the decisions at the end of a period; R453: the fixed fallback while the barista is down. -/
def Chip.powerDecide (c : Chip) (w : PowerSample) (throttled : List Bool) : Chip :=
  let measured := [w.compute.toNat, c.memoryPower w, w.link.toNat]
  let split := splitCap (c.effectiveCap * 1000) c.ceilings c.powerFloors c.powerOrder measured throttled
  let fallback := c.flag Fld.RAS_SEQ_STATUS_CAP && c.fld Fld.RAS_SEQ_STATUS_BARISTA_STATE != 0
  let alloc := if fallback then [split.getD 0 0, c.powerFloors.getD 1 0, c.powerFloors.getD 2 0] else split
  let c1 := c.detOver w alloc
  let d := if c1.pwr.exceeded.contains 0 ∨ fallback then 63
    else nextDrip (c.fld Fld.PWR_DRIP_LEVEL) w.compute.toNat w.elastic.toNat (alloc.getD 0 0)
  let warm := c.hotSensors 1
  let extra := (List.range 12).filterMap fun g =>
    if warm.contains g then some (g, min 63 (KMap.getD c.pwr.extra g 0 + 1)) else none
  let c2 := { c1 with pwr := { c1.pwr with alloc := alloc, extra := extra } }.setFld Fld.PWR_DRIP_LEVEL 0 d
  ((c2.setFld Fld.PWR_ALLOC_COMPUTE 0 (alloc.getD 0 0 / 1000)).setFld Fld.PWR_ALLOC_MEMORY 0
    (alloc.getD 1 0 / 1000)).setFld Fld.PWR_ALLOC_LINK 0 (alloc.getD 2 0 / 1000)

/-- The measured figures of a period in PWR_MEAS and PWR_EFFECTIVE. (DEDUCED, assumption 76.) -/
def Chip.showMeasured (c : Chip) (w : PowerSample) : Chip :=
  (((c.setFld Fld.PWR_MEAS_COMPUTE 0 (w.compute.toNat / 1000)).setFld Fld.PWR_MEAS_MEMORY 0
    (c.memoryPower w / 1000)).setFld Fld.PWR_MEAS_LINK 0 (w.link.toNat / 1000)).setFld Fld.PWR_EFFECTIVE_PKG 0
    (w.pkg.toNat / 1000)

/-- R418: periods in which the drip acted on each elastic partition. -/
def Chip.countDrip (c : Chip) : Chip :=
  if c.fld Fld.PWR_DRIP_LEVEL = 0 then c
  else (c.elastics.filter fun p => !(c.clustersOf p).isEmpty).foldl
    (fun c p => c.count Fld.PWR_PDRIP_US_PERIODS (pg p)) c

/-- R415, R419: a new period begins; a droop whose groups are still stretched acts in it too. -/
def Chip.newPeriod (c : Chip) : Chip :=
  { c with pwr := { c.pwr with slope := 0, seen := [], droopHit := !c.pwr.stretched.isEmpty,
                               droop := maskOf (c.pwr.stretched.flatMap c.groupParts) } }

/-- R405 to R420: a period ends. (DEDUCED, assumption 76.) -/
def Chip.powerPeriod (c : Chip) (w : PowerSample) : Chip :=
  let c1 := (w.temps.zipIdx).foldl (fun c x => c.sampleSensor x.2 x.1.toNat) c
  if c1.stopped then c1
  else
    let c2 := (c1.hotSensors 2).foldl (fun c s =>
      (c.sensorParts s).foldl (fun c p => c.perturb p 2) c) c1
    let rs := c2.reasonParts w
    let c3 := ((rs.zipIdx.foldl (fun c r => c.recordReason r.2 r.1) c2).setFld Fld.PWR_THR_ACTIVE_REASONS 0
      (activeMask rs)).countDrip
    let c4 := ((c3.showMeasured w).attribute w).refreshCap
    let c5 := if w.late then c4.count Fld.PWR_STATUS_LATE else c4.powerDecide w (c4.throttledBy rs)
    (c5.endStacks w).newPeriod

def execPowerPeriod (w : PowerSample) (s : State) : Host.Outcome State Fault Refusal :=
  onChip (fun c => c.powerPeriod w) s

/-! ## Slope (R413, R414) and droop (R415) -/

/-- R413, R414: a 256 ns window of a cluster ends; `want` is the activity of its own issue. -/
def Chip.slopeWindow (c : Chip) (cl want : Nat) : Chip :=
  let last := KMap.getD c.pwr.activity cl 0
  let p := (c.cluster cl).part
  let held := max (last - 4) (min (last + 4) want)
  let set (v : Nat) (c : Chip) : Chip := { c with pwr := { c.pwr with activity := KMap.set cl v c.pwr.activity } }
  if (c.part p).det then
    (if held = want then set want c else (set want c).count Fld.PWR_SLOPE_VIOL_COUNT)
  else if held = want then set want c
  else
    let c1 := set held c
    { c1 with pwr := { c1.pwr with slope := c1.pwr.slope ||| 2 ^ p } }

def execSlopeWindow (cl : BitVec 7) (want : BitVec 7) (s : State) : Host.Outcome State Fault Refusal :=
  onChip (fun c => c.slopeWindow cl.toNat want.toNat) s

/-- R415: DROOP_DETECT. -/
def Chip.droopDetect (c : Chip) (g : Nat) : Chip :=
  let ps := c.groupParts g
  let w := c.pwr
  let c1 := { c with pwr := { w with droopHit := true, droop := w.droop ||| maskOf ps,
                                     stretched := if w.stretched.contains g then w.stretched else g :: w.stretched } }
  ps.foldl (fun c p => c.perturb p 1) (c1.count Fld.PWR_DROOP_CNT_COUNT)

def execDroopDetect (g : BitVec 4) (s : State) : Host.Outcome State Fault Refusal :=
  onChip (fun c => c.droopDetect g.toNat) s

/-- R415: DROOP_RECOVER. -/
def execDroopRecover (g : BitVec 4) (s : State) : Host.Outcome State Fault Refusal :=
  onChip (fun c => { c with pwr := { c.pwr with stretched := c.pwr.stretched.filter (· != g.toNat) } }) s

/-! ## Shifts between devices (R421, R422) -/

/-- The members of the power group, ascending. -/
def Chip.shiftMembers (c : Chip) : List Nat :=
  let m := c.rg64 Reg.PWR_SHIFT_MEMBERS_LO Reg.PWR_SHIFT_MEMBERS_HI
  (List.range 64).filter (bit m)

/-- R421: the data slot of a report of window `w`. -/
def Chip.shiftReport (c : Chip) (wait w : Nat) (revert : Bool) : Nat :=
  let cap := ((c.fld Fld.PWR_CAP_CAP_W : Int) + c.shiftW)
  wait + 2 ^ 10 * (((c.fld Fld.PWR_CAP_CAP_MAX_W : Int) - cap).toNat % 1024)
    + 2 ^ 20 * ((cap - 250).toNat % 1024) + 2 ^ 30 * c.fld Fld.PWR_SHIFT_CTL_STEP_W + 2 ^ 38 * b2n revert
    + 2 ^ 48 * (w % 2 ^ 16)

/-- R421: send a report to every other member and keep it as this device's own. -/
def Chip.sendReport (c : Chip) (r : Nat) : Chip :=
  let own := c.fld Fld.AXL_DEVICE_DEVNUM
  let c1 := { c with pwr := { c.pwr with reports := KMap.set own r c.pwr.reports } }
  (c.shiftMembers.filter (· != own)).foldl (fun c d =>
    match c.routeOf d 0 with
    | none => c
    | some port => c.sendMsg port { vc := Vc.col, op := MOp.coll, srcDev := own, srcPart := 0, dstDev := d,
                                    dstPart := 0, tag := Config.collTag 0xFFFFFFFE 0 % 2 ^ 13, data := [r] }) c1

/-- R421: SHIFT_REPORT_SEND: `t` is the time that the partition's collectives took in the window just
ended. -/
def Chip.shiftSend (c : Chip) (t : Nat) : Chip :=
  if !c.flag Fld.PWR_SHIFT_CTL_EN then c
  else
    let wait := min 1023 (1024 * t / 1000000)
    let w := c.gtc.toNat / 1000000 - 1
    let c1 := (c.setFld Fld.PWR_SHIFT_STATUS_WAIT 0 wait).sendReport (c.shiftReport wait w c.pwr.revertNext)
    { c1 with pwr := { c1.pwr with revertNext := false } }

def execShiftReportSend (t : Word) (s : State) : Host.Outcome State Fault Refusal :=
  onChip (fun c => c.shiftSend t.toNat) s

/-- R421: SHIFT_REPORT_RECEIVE. -/
def execShiftReportReceive (port : BitVec 3) (dev : BitVec 6) (slot : BitVec 128) (s : State) :
    Host.Outcome State Fault Refusal :=
  onChip (fun c =>
    let c1 := c.dropMsg port.toNat Vc.col (·.op == MOp.coll)
    { c1 with pwr := { c1.pwr with reports := KMap.set dev.toNat slot.toNat c1.pwr.reports } }) s

/-- Set the shift. -/
def Chip.setShift (c : Chip) (v : Int) : Chip :=
  let c1 := (c.setFld Fld.PWR_SHIFT_STATUS_SHIFT 0 (wrapN 11 v)).refreshCap
  if v < 0 then c1.inForce 11 else c1

/-- R422: a report that makes a member revert: missing, of another window, with REVERT or another step. -/
def Chip.badReport (c : Chip) (w d : Nat) : Bool :=
  match KMap.find d c.pwr.reports with
  | none => true
  | some r => bits r 63 48 != w || bit r 38 || bits r 37 30 != c.fld Fld.PWR_SHIFT_CTL_STEP_W

/-- R422: the member with the lowest wait, the lower device number first. -/
def criticalOf (wait : Nat → Nat) : List Nat → Nat
  | [] => 0
  | [d] => d
  | d :: t => let m := criticalOf wait t; if wait d ≤ wait m then d else m

/-- R422: SHIFT_EVALUATE. -/
def Chip.shiftEvaluate (c : Chip) : Chip :=
  if !c.flag Fld.PWR_SHIFT_CTL_EN then c
  else
    let own := c.fld Fld.AXL_DEVICE_DEVNUM
    let rep (d : Nat) : Nat := KMap.getD c.pwr.reports d 0
    let w := bits (rep own) 63 48
    let ms := c.shiftMembers
    if ms.any (c.badReport w) then
      let c1 := { c.setShift 0 with pwr := { c.pwr with revertNext := true } }
      (c1.setFld Fld.PWR_SHIFT_STATUS_REVERTED 0 1).postPower 0x0053 w
    else
      let wait (d : Nat) : Nat := bits (rep d) 9 0
      let step := c.fld Fld.PWR_SHIFT_CTL_STEP_W
      let crit := criticalOf wait ms
      let able := ms.filter fun d => d != crit && decide (wait d ≥ wait crit + 64) && decide (bits (rep d) 29 20 ≥ step)
      let givers := able.take (bits (rep crit) 19 10 / step)
      if own = crit then c.setShift (c.shiftW + givers.length * step)
      else if givers.contains own then c.setShift (c.shiftW - step)
      else c

def execShiftEvaluate (s : State) : Host.Outcome State Fault Refusal := onChip (fun c => c.shiftEvaluate) s

/-- R422: SHIFT_EN_CLEAR. -/
def Chip.shiftEnClear (c : Chip) : Chip :=
  if !c.flag Fld.PWR_SHIFT_CTL_EN then c
  else
    let c1 := (c.setFld Fld.PWR_SHIFT_CTL_EN 0 0).setShift 0
    c1.sendReport (c1.shiftReport 0 (c.gtc.toNat / 1000000) true)

def execShiftEnClear (s : State) : Host.Outcome State Fault Refusal := onHost (fun c => c.shiftEnClear) s

/-! ## Power states (R423 to R427, R440) -/

/-- R424: a group may enter decaf on its own. (DESIGN CHOICE, assumption 80.) -/
def Chip.mayDecaf (c : Chip) (g : Nat) : Bool :=
  c.flag Fld.PWR_AUTO_AUTO_DECAF && decide (g < 12) && c.groupState g == 0 && !c.pwr.entering.contains g
    && (c.groupClusters g).all fun cl => !(c.part (c.cluster cl).part).det && (c.cluster cl).wgs.isEmpty

/-- The clusters of a group stop being in service. -/
def Chip.setGroupCState (c : Chip) (g : Nat) (from_ dest : CState) : Chip :=
  (c.groupClusters g).foldl (fun c cl =>
    let k := c.cluster cl
    if k.st = from_ then c.setCluster cl { k with st := dest } else c) c

/-- R424: GROUP_DECAF_ENTRY. (DEDUCED, assumption 79.) -/
def Chip.groupDecaf (c : Chip) (g : Nat) : Chip :=
  if !c.mayDecaf g then c
  else { c.setGroupCState g .inService .decaf with pwr := { c.pwr with entering := g :: c.pwr.entering } }

def execGroupDecafEntry (g : BitVec 4) (s : State) : Host.Outcome State Fault Refusal :=
  onChip (fun c => c.groupDecaf g.toNat) s

/-- R426: GROUP_WAKE. -/
def execGroupWake (g : BitVec 4) (s : State) : Host.Outcome State Fault Refusal :=
  onChip (fun c => c.groupWake g.toNat) s

/-- R141, R440: a cluster's epoch advances at the entry to decaf, and that epoch is the state epoch. -/
def Cluster.retain (k : Cluster) : Cluster :=
  { k with epoch := k.epoch + 1, retained := some (k.epoch + 1, k.phys) }

/-- R424, R427, R440: a group has entered decaf; a latched wake is replayed. (DEDUCED, assumption 79.) -/
def Chip.groupEntered (c : Chip) (g : Nat) : Chip :=
  if !c.pwr.entering.contains g then c
  else
    let c1 := (c.groupClusters g).foldl (fun c cl => c.setCluster cl (c.cluster cl).retain) c
    let c2 := { c1 with pwr := { c1.pwr with entering := c1.pwr.entering.filter (· != g),
                                             latched := c1.pwr.latched.filter (· != g) } }.setGroupState g 2
    if c.pwr.latched.contains g then c2.groupWake g else c2

/-- R424, R427: the device has entered decaf, every begun descriptor drained; a latched wake is replayed. -/
def Chip.deviceEntered (c : Chip) : Chip :=
  if c.fld Fld.PWR_DEVSTATE_STATE ≠ 1 ∨ c.queues.any (fun kq => !kq.2.entries.isEmpty) then c
  else
    let enter (k : Cluster) : Cluster := if k.st = .inService then { k.retain with st := .decaf } else k
    let c1 : Chip := { c with clusters := c.clusters.map fun kc => (kc.1, enter kc.2) }
    let c2 := ((List.range 12).foldl (fun c g => c.setGroupState g 2) c1).setFld Fld.PWR_DEVSTATE_STATE 0 2
    if c.pwr.devLatched then { c2 with pwr := { c2.pwr with devLatched := false } }.wakeDevice else c2

/-- R424, R427: DECAF_ENTRY_DONE of a group, or of the device. -/
def execDecafEntryDone (g : Option (BitVec 4)) (s : State) : Host.Outcome State Fault Refusal :=
  onChip (fun c => match g with | some g => c.groupEntered g.toNat | none => c.deviceEntered) s

/-- R440: a cluster returns from decaf: what it kept is reused where its epoch and its physical cluster are
those recorded; otherwise its crema is scrubbed. -/
def Cluster.restore (k : Cluster) : Cluster :=
  let k1 := { k with st := .inService, retained := none }
  if k.retained = some (k.epoch, k.phys) then k1
  else k1.scrub

/-- R425, R426: clusters leave decaf. -/
def Chip.restoreClusters (c : Chip) (f : Nat → Bool) : Chip :=
  { c with clusters := c.clusters.map fun kc =>
      (kc.1, if kc.2.st = .decaf ∧ f kc.1 then kc.2.restore else kc.2) }

/-- R426: a group is ACTIVE again after a stall. -/
def Chip.groupAwake (c : Chip) (g stall : Nat) : Chip :=
  if c.groupState g ≠ 3 then c
  else
    let cs := c.groupClusters g
    let c1 := (c.restoreClusters cs.contains).setGroupState g 0
    c1.setRg Reg.PWR_WAKE_MAX (BitVec.ofNat 32 (max stall (c.rg Reg.PWR_WAKE_MAX).toNat))

/-- R425, R508: the device is ACTIVE again; accesses that waited are served. -/
def Chip.deviceAwake (c : Chip) : Chip :=
  if c.fld Fld.PWR_DEVSTATE_STATE ≠ 3 then c
  else
    let c1 := (List.range 12).foldl (fun c g => c.setGroupState g 0) (c.restoreClusters fun _ => true)
    ((c1.setFld Fld.PWR_DEVSTATE_STATE 0 0).setFld Fld.PWR_DEVSTATE_REQ 0 0).serveHeld

/-- R425, R426: DECAF_WAKE_DONE of a group, with the stall it caused in ns, or of the device. -/
def execDecafWakeDone (g : Option (BitVec 4)) (stall : Word) (s : State) : Host.Outcome State Fault Refusal :=
  onChip (fun c => match g with | some g => c.groupAwake g.toNat stall.toNat | none => c.deviceAwake) s

/-- R425: DEVICE_WAKE. -/
def execDeviceWake (s : State) : Host.Outcome State Fault Refusal := onChip (fun c => c.wakeDevice) s

/-- R424, R427: a write of PWR_DEVSTATE. -/
def Chip.devStateWrite (c : Chip) (req : Bool) : Chip :=
  if !req then (c.setFld Fld.PWR_DEVSTATE_REQ 0 0).wakeDevice
  else if !c.detParts.isEmpty ∨ c.fld Fld.PWR_DEVSTATE_STATE = 3 ∨ c.flag Fld.MGT_STATUS_BUSY
      ∨ (List.range 2).any fun n => c.flag Fld.LCE_PIPE_CTL_ENABLE (n * 0x100) then
    c.regError Reg.PWR_DEVSTATE
  else if c.fld Fld.PWR_DEVSTATE_STATE = 0 then
    (c.setFld Fld.PWR_DEVSTATE_REQ 0 1).setFld Fld.PWR_DEVSTATE_STATE 0 1
  else c

def execPwrDevstateWrite (req : Bool) (s : State) : Host.Outcome State Fault Refusal :=
  onHost (fun c => c.devStateWrite req) s

/-! ## Interference (R116) -/

/-- R116: the index of a window. -/
def interference (a w : Nat) : Nat :=
  if a = 0 then 0 else if w ≥ a then 0xFFFF else min 0xFFFF (1024 * w / (a - w))

/-- R116: a window of an elastic partition ends. -/
def Chip.interferenceWindow (c : Chip) (p a w win : Nat) : Chip :=
  if !c.exists? p ∨ (c.part p).det then c
  else
    let i := interference a w
    let c1 := ((c.setFld Fld.INTF_IDX_INDEX (pg p) i).setFld Fld.INTF_IDX_IDLE (pg p) (b2n (a == 0))).setFld
      Fld.INTF_IDX_WINDOW (pg p) win
    let t := c.fld Fld.INTF_THRESH_THRESHOLD (pg p)
    if t ≠ 0 ∧ i > t then c1.postBoth p 0x0012 (p * 64) (i + 2 ^ 16 * (win % 2 ^ 16)) else c1

def execInterferenceWindow (p : BitVec 4) (a w : Dword) (win : Half) (s : State) :
    Host.Outcome State Fault Refusal :=
  onChip (fun c => c.interferenceWindow p.toNat a.toNat w.toNat win.toNat) s

end Sys2Proof.Machine
end

