-- ==== Sys2Proof/Machine/PartState.lean ====
section
/-!
DEFINITION. The states of a partition (R33, R55): their register, their event, and the start of a reset
(R112, R323, R445, R446).
-/

namespace Sys2Proof.Machine

/-- R33, R84: a partition enters a state; PARTITION_STATE is posted to it and to partition 0. -/
def Chip.setPartState (c : Chip) (p : Nat) (st : PState) : Chip :=
  let c1 := (c.setPart p { c.part p with state := st }).showPart p
  if st = .absent then c1.postEvent 0 0x0006 (p * 64) st.code else c1.postBoth p 0x0006 (p * 64) st.code

/-- R112: the events that a partition owns return to UNSIGNALLED. -/
def Chip.clearEvents (c : Chip) (p : Nat) : Chip :=
  (List.range 256).foldl (fun c i =>
    if c.fld Fld.EVT_CFG_OWNER (4 * i) = p ∧ c.flag Fld.EVT_CFG_STATE (4 * i) then
      c.setFld Fld.EVT_CFG_STATE (4 * i) 0 else c) c

/-- R33, R446: a reset, or a destruction, of a partition begins: its state, its events (R112), its display
layers (R323) and its partners on this device (R370, R445). -/
def Chip.startReset (c : Chip) (p : Nat) (destroy : Bool) : Chip :=
  let x := c.part p
  if x.state ≠ .opened ∧ x.state ≠ .ready then c
  else
    let own := c.fld Fld.AXL_DEVICE_DEVNUM
    let c1 := c.setPart p { x with resetFrom := c.gtc, destroyAfter := destroy, resetStage := 0, report := [],
                                   span := false, spanBits := 0, spanPosted := false }
    let c2 := ((c1.clearEvents p).displayReset p).setPartState p (if destroy then .destroying else .resetting)
    (c2.partnerLost own p).rankLost own p

end Sys2Proof.Machine
end

