-- ==== Sys2Proof/Machine/Ras.lean ====
section
/-!
DEFINITION. Faults, spares and the safety sequencer (R431 to R459): cluster faults and their recovery
(R143, R434 to R436), the other single faults (R437), the in-field test (R442) and the barista's
supervision (R450 to R455).
-/

namespace Sys2Proof.Machine

/-! ## Work lost with a cluster (R143, R434) -/

/-- The items of a descriptor that ran, or run, on a cluster. -/
def Grid.itemsOn (g : Grid) (cl : Nat) : List Nat := (g.ran.filter fun r => r.2 == cl).map Prod.fst

/-- R143, R434: a descriptor without the work of a lost cluster, of which the items `res` are resident: its items
are to be run again, on the cluster `on` or on any. Set-up waits for the vertex batches among them (R304). -/
def Grid.loseOn (g : Grid) (cl : Nat) (res : List Nat) (on : Option Nat) : Grid :=
  let items := g.itemsOn cl
  let undone := items.filter fun i => !res.contains i
  { g with
    redo := g.redo ++ items.map fun i => (on, i)
    ran := g.ran.filter fun r => r.2 != cl
    completed := g.completed - undone.length
    sigBy := items.foldl (fun m i => KMap.erase i m) g.sigBy
    run := g.run.map fun d => { d with
      doneBatches := d.doneBatches.filter fun i => !items.contains i
      tilesDone := d.tilesDone - (undone.filter fun i => decide (d.batches ≤ i)).length } }

/-- R400, R445: what the lost items added to the signature of their queue. (DEDUCED, assumption 83.) -/
def Grid.lostSig (g : Grid) (cl : Nat) : PairSig :=
  (g.itemsOn cl).foldl (fun s i => s.plus (KMap.getD g.sigBy i {})) {}

/-- Items of a descriptor resident on a cluster. -/
def Cluster.residents (k : Cluster) (q slot : Nat) : List Nat :=
  (k.wgs.filter fun kw => kw.2.q == q && kw.2.slot == slot).map fun kw => kw.2.index

/-- R434: a descriptor whose items are lost completes only after they have run again.
(DEDUCED, assumption 82.) -/
def Chip.reopen (c : Chip) (q slot : Nat) (g : Grid) : Chip :=
  match c.entry q slot with
  | some e =>
    match e.phase with
    | .done _ _ _ => if g.fault.isSome then c else c.setEntry q slot { e with phase := .running }
    | _ => c
  | none => c

/-- The queue's signature without what the lost items added. (DEDUCED, assumption 83.) -/
def Chip.unsign (c : Chip) (q : Nat) (s : PairSig) : Chip :=
  if s = {} then c else { c with sigs := KMap.modify q {} (·.minus s) c.sigs }

/-- R143, R434: every descriptor since the commit points loses the work of a cluster.
(DEDUCED, assumption 81.) -/
def Chip.loseItems (c : Chip) (cl : Nat) (on : Option Nat) : Chip :=
  let k := c.cluster cl
  let c1 := c.grids.foldl (fun c kg =>
    let q := kg.1 / 64
    let slot := kg.1 % 64
    if (kg.2.itemsOn cl).isEmpty then c
    else ((c.setGrid q slot (kg.2.loseOn cl (k.residents q slot) on)).unsign q (kg.2.lostSig cl)).reopen q slot kg.2) c
  c.hist.foldl (fun c kh =>
    let c2 := kh.2.foldl (fun c g => c.unsign kh.1 (g.lostSig cl)) c
    { c2 with hist := KMap.set kh.1 (kh.2.map fun g => g.loseOn cl [] on) c2.hist }) c1

/-- The waves and items of a cluster stop where they stand; answers to its requests go nowhere. -/
def Chip.dropResidents (c : Chip) (cl : Nat) : Chip :=
  let own (key : Nat) : Bool := key / 64 == cl
  let k := c.cluster cl
  let orphan (r : Req) : Req := match r.who with
    | .wave key _ => if own key then { r with who := .none } else r
    | _ => r
  let c0 := k.wgs.foldl (fun c kw => c.onchip (partOf kw.2.q) kw.2.tag (-(kw.2.onchip : Int))) c
  { c0.setCluster cl { k with wgs := [], granules := [], tiles := [], tileOwner := [],
                              tensor := { k.tensor with queue := [], running := none }
                              draining := false } with
    waves := KMap.drop own c0.waves
    inbuf := KMap.drop (fun r => decide (2 ^ 20 ≤ r) && own (r - 2 ^ 20)) c0.inbuf
    tileRuns := KMap.drop (fun r => r / 2 ^ 32 == cl) c0.tileRuns
    reqs := c0.reqs.map orphan }

/-- R143: a cluster is lost: its residents stop and its items are to be run again. Descriptors that had
faulted and waited for its items end. (DEDUCED, assumption 82.) -/
def Chip.loseCluster (c : Chip) (cl : Nat) (on : Option Nat) : Chip :=
  let hit := (c.cluster cl).wgs.map fun kw => (kw.2.q, kw.2.slot)
  hit.foldl (fun c x => c.settleGrid x.1 x.2) ((c.loseItems cl on).dropResidents cl)

/-! ## Cluster faults (R434 to R439) -/

/-- The recovery of a cluster in progress. -/
def Chip.recovery (c : Chip) (cl : Nat) : Option Recovery := c.ras.recov.find? fun r => r.cl == cl

/-- Store a recovery. -/
def Chip.setRecovery (c : Chip) (r : Recovery) : Chip :=
  { c with ras := { c.ras with recov := c.ras.recov.map fun o => if o.cl = r.cl then r else o } }

/-- R434 step 1: CLUSTER_FAULT: the cluster is isolated, its epoch rises, its work is lost. A spare that stood
in during a test is the one that failed. (DEDUCED, assumption 84.) -/
def Chip.clusterFault (c : Chip) (cl : Nat) : Chip :=
  let k := c.cluster cl
  if cl ≥ c.fld Fld.DET_MAP_NATURAL ∨ k.st = .isolated then c
  else
    let p := k.part
    let c1 := c.loseCluster cl (some cl)
    let k1 := c1.cluster cl
    let c2 := c1.setCluster cl { k1 with st := .isolated, epoch := k1.epoch + 1, retained := none }
    let r : Recovery := { cl := cl, phys := k.phys, part := p, at_ := c.gtc, log := c.fld Fld.RAS_FLOG_HEAD_COUNT }
    let c3 := { c2 with ras := { c2.ras with recov := c2.ras.recov ++ [r] } }.setFld Fld.RAS_PSTATUS_RECOVERING (pg p) 1
    (c3.unitFault .cluster cl [p] .unrecovered).breakSpan p

def execClusterFault (cl : BitVec 7) (s : State) : Host.Outcome State Fault Refusal :=
  onChip (fun c => c.clusterFault cl.toNat) s

/-- R143 step 2: EPOCH_FENCE_DONE: `dropped` late writes were dropped. (DEDUCED, assumption 84.) -/
def Chip.fenceDone (c : Chip) (cl dropped : Nat) : Chip :=
  match c.recovery cl with
  | none => c
  | some r =>
    if r.fenced then c
    else (c.setRecovery { r with fenced := true }).count Fld.EPOCH_DROP_CNT_COUNT 0 dropped

def execEpochFenceDone (cl : BitVec 7) (dropped : Word) (s : State) : Host.Outcome State Fault Refusal :=
  onChip (fun c => c.fenceDone cl.toNat dropped.toNat) s

/-- The healthy physical clusters that back nothing and are not out for test. -/
def Chip.freeSpares (c : Chip) : List Nat :=
  (List.range 96).filter fun f =>
    !c.fusedOff.contains f && !c.ras.retired.contains f && !(c.clusters.any fun kc => kc.2.phys == f)
      && !c.ras.tests.any fun t => t.tested == f

/-- R434: a physical cluster is retired in the field. (DEDUCED, assumption 93.) -/
def Chip.retirePhys (c : Chip) (phys : Nat) : Chip :=
  ({ c with ras := { c.ras with retired := phys :: c.ras.retired } }).count Fld.RAS_SPARES_RETIRED

/-- R456: SPARES falls by 1; SPARES_LOW at 1 and at 0. -/
def Chip.spareGone (c : Chip) : Chip :=
  let n := c.fld Fld.RAS_SPARES_SPARES - 1
  let c1 := (c.setFld Fld.RAS_SPARES_SPARES 0 n).setFld Fld.DEV_CAPS1_SPARES 0 n
  if n ≤ 1 then c1.postRas 0 0x0063 0 n else c1

/-- R434, R458: a recovery has ended: the fault log keeps its outcome and the interruption in µs.
(DEDUCED, assumption 85.) -/
def Chip.logRecovery (c : Chip) (r : Recovery) (o : FaultOutcome) (us : Nat) : Chip :=
  let head := c.fld Fld.RAS_FLOG_HEAD_COUNT
  if (head + 2 ^ 32 - r.log) % 2 ^ 32 > 64 then c
  else
    let a := Reg.RAS_FLOG + 16 * (r.log % 64)
    (c.setRg a (wset (c.rg a) 23 20 o.code)).setRg (a + 4) (BitVec.ofNat 32 (min us 0xFFFF))

/-- R439, R456: a recovery has ended: UNIT_RECOVERED reports the interruption. (DEDUCED, assumption 85.) -/
def Chip.endRecovery (c : Chip) (r : Recovery) (o : FaultOutcome) : Chip :=
  let us := (c.gtc - r.at_).toNat / 1000
  let c1 := { c with ras := { c.ras with recov := c.ras.recov.filter fun x => x.cl != r.cl } }
  let c2 := if c1.ras.recov.any fun x => x.part == r.part then c1
    else c1.setFld Fld.RAS_PSTATUS_RECOVERING (pg r.part) 0
  ((c2.logRecovery r o us).postBoth r.part 0x0061 (r.part * 64) (min us 0xFFFF)).raiseOwner 1

/-- R436, R382: the map loses its highest-numbered logical cluster `h`. -/
def Chip.lowerMap (c : Chip) (h : Nat) : Chip :=
  ((c.setFld Fld.DET_MAP_NATURAL 0 h).setFld Fld.DEV_CAPS1_MAP_DEGRADED 0 1).applyMap (c.fld Fld.DET_MAP_FORCE_CLUSTERS)

/-- R436: a deterministic partition that held a withdrawn cluster is reset. -/
def Chip.resetFor (c : Chip) (p : Nat) : Chip :=
  let c1 := if (c.part p).safety then c.latchCause Cause.detLoss else c
  c1.startReset p false

/-- R436: the physical cluster of the highest logical cluster `h` takes `cl`'s identity, and `h` is withdrawn; an
elastic partition's items of `h` run again elsewhere. -/
def Chip.takeIdentity (c : Chip) (cl h : Nat) : Chip :=
  let kh := c.cluster h
  let c1 := if (c.part kh.part).det then c else c.loseCluster h none
  let k1 := c1.cluster h
  let c2 := c1.setCluster h { k1 with st := .isolated, epoch := k1.epoch + 1, retained := none
                                      part := if (c.part kh.part).det then k1.part else 0 }
  let k := c2.cluster cl
  let c3 := c2.setCluster cl { k with phys := kh.phys, epoch := k.epoch + 1 }
  if (c.part kh.part).det then c3.resetFor kh.part else ((c3.settlePart kh.part).showPart kh.part).showPart 0

/-- Items that were to run again on a cluster may run on any. (DEDUCED, assumption 81.) -/
def Grid.anywhere (cl : Nat) (g : Grid) : Grid :=
  { g with redo := g.redo.map fun r => if r.1 = some cl then (none, r.2) else r }

/-- R436: what a withdrawn cluster was to run again runs elsewhere. -/
def Chip.anywhere (c : Chip) (cl : Nat) : Chip :=
  { c with grids := c.grids.map fun kg => (kg.1, kg.2.anywhere cl)
           hist := c.hist.map fun kh => (kh.1, kh.2.map (Grid.anywhere cl)) }

/-- R434 step 3, R436: SPARE_ASSIGN: the highest-numbered healthy spare takes the identity, or a cluster is
withdrawn. -/
def Chip.spareAssign (c : Chip) (cl : Nat) : Chip :=
  match c.recovery cl with
  | none => c
  | some r =>
    if !r.fenced ∨ r.assigned ∨ !c.firmwareRuns then c
    else
      match c.freeSpares.getLast? with
      | some f =>
        let k := c.cluster cl
        let c1 := (c.setCluster cl { k with phys := f, epoch := k.epoch + 1 }).setRecovery { r with assigned := true }
        (c1.retirePhys r.phys).spareGone
      | none =>
        let h := c.fld Fld.DET_MAP_NATURAL - 1
        let c1 := (c.retirePhys r.phys).lowerMap h
        if h = cl then
          (if (c.part r.part).det then (c1.endRecovery r .partitionReset).resetFor r.part
           else ((((c1.anywhere cl).setCluster cl { c1.cluster cl with part := 0 }).showPart r.part).showPart 0).endRecovery
             r .withdrawn)
        else (c1.setRecovery { r with assigned := true, withdrawn := true }).takeIdentity cl h

def execSpareAssign (cl : BitVec 7) (s : State) : Host.Outcome State Fault Refusal :=
  onChip (fun c => c.spareAssign cl.toNat) s

/-- R434 step 4, R440, R441: the spare is prepared: tables loaded and checked, crema scrubbed, in service. Pinned
translations are the partition's own (`Part.pinned`). (DEDUCED, assumption 84.) -/
def Cluster.prepared (k : Cluster) : Cluster := { k.scrub with st := .inService, tableOk := true, retained := none }

/-- R434 step 5, R439: SPARE_READY. -/
def Chip.spareReady (c : Chip) (cl : Nat) : Chip :=
  match c.recovery cl with
  | none => c
  | some r =>
    if !r.assigned then c
    else (c.setCluster cl (c.cluster cl).prepared).endRecovery r
      (if r.withdrawn then .withdrawn else if r.abandoned then .partitionReset else .replaced)

def execSpareReady (cl : BitVec 7) (s : State) : Host.Outcome State Fault Refusal :=
  onChip (fun c => c.spareReady cl.toNat) s

/-! ## Other single faults (R437) -/

/-- The partitions that hold memory of a pseudo-channel group (R36, R38). -/
def Chip.holders (c : Chip) (g : Nat) : List Nat :=
  c.existing.filter fun p => (c.part p).pcgs.contains g || (c.part p).frames.any fun f => f / 3 == g

/-- R223, R437: DIE_DECLARED_FAILED: the group is degraded; every span that touches it is broken. -/
def Chip.dieFailed (c : Chip) (stack g : Nat) : Chip :=
  let n := stack * 16 + g
  if !c.firmwareRuns ∨ stack ≥ c.fld Fld.DEV_CAPS0_STACKS ∨ bit (c.fld Fld.CTX_STK_STATUS_DEGRADED (steer stack)) g then c
  else
    let ps := c.holders n
    let c1 := (c.setBit Fld.CTX_STK_STATUS_DEGRADED (steer stack) g).unitFault .stackGroup n ps .bypassed
    ps.foldl (fun c p => (c.setFld Fld.RAS_PSTATUS_DEGRADED (pg p) 1).breakSpan p) c1

def execDieDeclaredFailed (stack : BitVec 3) (g : BitVec 4) (s : State) : Host.Outcome State Fault Refusal :=
  onChip (fun c => c.dieFailed stack.toNat g.toNat) s

/-- R437: UCIE_MODULE_FAULT: the traffic moves to the other modules; the spans are broken. -/
def Chip.ucieFault (c : Chip) (m : Nat) : Chip :=
  c.detParts.foldl (fun c p => c.breakSpan p) (c.unitFault .ucie m c.detParts .bypassed)

def execUcieModuleFault (m : BitVec 3) (s : State) : Host.Outcome State Fault Refusal :=
  onChip (fun c => c.ucieFault m.toNat) s

/-- R207, R437: a scratch way of partition `p` is replaced by a free way, cleaned and zeroed.
(DEDUCED, assumption 87.) -/
def Chip.replaceWay (c : Chip) (p w : Nat) : Chip :=
  let c1 := (c.zeroWay w).setWay w .failed
  match c1.pickWays 1 with
  | some (w1 :: _) =>
    let x := c1.part p
    let ways := (List.range 16).reverse.filter fun y => (y != w && x.ways.contains y) || y == w1
    (c1.setPart p { x with ways := ways }).convertWays p [w1]
  | _ => c1.showWays

/-- R437: CACHE_WAY_FAULT: the way is powered off for good; a scratch way is replaced and its partition reset.
(DEDUCED, assumption 87.) -/
def Chip.wayFault (c : Chip) (w : Nat) : Chip :=
  match c.way w with
  | .failed => c
  | .scratch p | .toScratch p => (((c.replaceWay p w).unitFault .way w [p] .partitionReset).breakSpan p).startReset p false
  | _ => (((c.cleanWay w).setWay w .failed).showWays).unitFault .way w [] .bypassed

def execCacheWayFault (w : BitVec 4) (s : State) : Host.Outcome State Fault Refusal :=
  onChip (fun c => c.wayFault w.toNat) s

/-- R399, R437: CROSSING_FAULT: the crossing is re-centred and the span is broken. -/
def execCrossingFault (index : BitVec 7) (p : BitVec 4) (s : State) : Host.Outcome State Fault Refusal :=
  onChip (fun c => (c.unitFault .crossing index.toNat [p.toNat] .replaced).breakSpan p.toNat) s

/-- The units of SHARED_UNIT_FAULT by number. -/
def sharedUnits : List SharedUnit :=
  [.slice, .memory, .grinder, .context, .frontEnd, .copy, .compression, .collective, .layer, .event, .fence]

/-- R432, R437: SHARED_UNIT_FAULT: work that needs the unit completes with POISONED until PERST_N.
(DESIGN CHOICE, assumption 88.) -/
def Chip.sharedFault (c : Chip) (u : SharedUnit) (index : Nat) : Chip :=
  if c.ras.dead.contains (u, index) then c
  else
    let c1 := { c with ras := { c.ras with dead := (u, index) :: c.ras.dead } }
    let c2 := if u = .context then c1.setFld Fld.CTX_STK_STATUS_ENGINE_OK (steer index) 0 else c1
    let c3 := c2.unitFault (.other (Config.freeNat c.ctr index)) index c.existing .unrecovered
    c.detParts.foldl (fun c p => c.breakSpan p) c3

/-- R431, R432: SHARED_UNIT_FAULT; the kind after the last unit says that an error in a structure without a counter of its
own was corrected, which is only counted. -/
def execSharedUnitFault (kind : BitVec 4) (index : BitVec 5) (s : State) : Host.Outcome State Fault Refusal :=
  onChip (fun c => match sharedUnits[kind.toNat]? with
    | some u => c.sharedFault u index.toNat
    | none => if kind.toNat = sharedUnits.length then c.count Fld.RAS_CE_CNT_COUNT else c) s

/-! ## In-field test (R440, R442) -/

/-- R442, R498: a partition has no begun descriptor, or one LAUNCH_AT whose count lies at least `ns` ahead. -/
def Chip.calmFor (c : Chip) (p ns : Nat) : Bool :=
  let es := (c.queues.filter fun kq => partOf kq.1 == p).flatMap fun kq => kq.2.entries.map Prod.snd
  match es with
  | [] => true
  | [e] =>
    match e.watch with
    | .launch n => decide (c.gtc.toNat + ns ≤ n.toNat)
    | _ => false
  | _ => false

/-- R442: a deterministic partition lends a cluster only with 3.2 ms to spare. -/
def Chip.mayLend (c : Chip) (p : Nat) : Bool := c.calmFor p 3200000

/-- A cluster's identity moves to another physical cluster (R141, R440): its crema is scrubbed and its
configuration reloaded. (DEDUCED, assumption 84.) -/
def Cluster.moveTo (k : Cluster) (phys : Nat) : Cluster :=
  { k.prepared with phys := phys, epoch := k.epoch + 1 }

/-- R442: whether a spare may stand in for a cluster now: it is in service and empty, and its partition lends it. -/
def Chip.lendable (c : Chip) (cl : Nat) : Bool :=
  let k := c.cluster cl
  decide (cl < c.fld Fld.DET_MAP_NATURAL) && k.st == .inService && k.wgs.isEmpty
    && (!(c.part k.part).det || c.mayLend k.part)

/-- R442: TEST_SLICE_START: a spare takes the cluster's identity. (DEDUCED, assumption 85.) -/
def Chip.testStart (c : Chip) (cl : Nat) : Chip :=
  let k := c.cluster cl
  match c.freeSpares.getLast? with
  | none => c
  | some f =>
    if !c.flag Fld.RAS_TEST_CFG_EN ∨ !c.firmwareRuns ∨ !c.lendable cl ∨ c.ras.tests.any (fun t => t.cl == cl) then c
    else
      let t : TestSlice := { cl := cl, tested := k.phys, spare := f }
      { c.setCluster cl (k.moveTo f) with ras := { c.ras with tests := t :: c.ras.tests } }.count Fld.RAS_SPARES_LOANED

def execTestSliceStart (cl : BitVec 7) (s : State) : Host.Outcome State Fault Refusal :=
  onChip (fun c => c.testStart cl.toNat) s

/-- R442: the cluster returns to its own physical cluster, where the spare still stands in and no item is
resident. -/
def Chip.testReturn (c : Chip) (t : TestSlice) : Chip :=
  let k := c.cluster t.cl
  if k.phys = t.spare ∧ k.st = .inService then c.setCluster t.cl (k.moveTo t.tested) else c

/-- R442: TEST_SLICE_END: the cluster returns, or is retired without re-execution. -/
def Chip.testEnd (c : Chip) (cl : Nat) (pass : Bool) : Chip :=
  match c.ras.tests.find? fun t => t.cl == cl with
  | none => c
  | some t =>
    let k := c.cluster cl
    if pass ∧ k.st = .inService ∧ !k.wgs.isEmpty then c
    else
      let c1 := { c with ras := { c.ras with tests := c.ras.tests.filter fun o => o.cl != cl } }
      let c2 := c1.setFld Fld.RAS_SPARES_LOANED 0 (c1.fld Fld.RAS_SPARES_LOANED - 1)
      if pass then c2.testReturn t
      else ((c2.unitFault .cluster cl [k.part] .replaced).retirePhys t.tested).spareGone

def execTestSliceEnd (cl : BitVec 7) (pass : Bool) (s : State) : Host.Outcome State Fault Refusal :=
  onChip (fun c => c.testEnd cl.toNat pass) s

/-! ## The safety sequencer (R450 to R455) -/

/-! The states of the barista in RAS_SEQ_STATUS (R457). -/
namespace Barista
def running : Nat := 0
def restarting : Nat := 1
def held : Nat := 2
end Barista

def Chip.setBarista (c : Chip) (v : Nat) : Chip := c.setFld Fld.RAS_SEQ_STATUS_BARISTA_STATE 0 v

/-- R452 to R454: BARISTA_FAILURE: the cause, the cap, the fallback. (DEDUCED, assumption 90.) -/
def Chip.baristaFailure (c : Chip) : Chip :=
  if !c.firmwareRuns then c
  else
    let c0 := ((c.setBarista Barista.restarting).latchCause Cause.barista).setFld Fld.RAS_SEQ_STATUS_CAP 0 1
    let c1 := c0.refreshCap.inForce 9
    let c2 := if c1.fld Fld.MGT_STATE_MODE = 1 then c1.setFld Fld.MGT_STATE_MODE 0 3 else c1
    (c2.unitFault .barista 0 [] .bypassed).setFld Fld.PWR_DRIP_LEVEL 0 63

def execBaristaFailure (s : State) : Host.Outcome State Fault Refusal := onAlways Chip.baristaFailure s

/-- R455: BARISTA_RESET_ATTEMPT: one more attempt; where no heartbeat comes and three have failed, the barista is
held. (DEDUCED, assumption 90.) -/
def Chip.baristaAttempt (c : Chip) (beats : Bool) : Chip :=
  if c.fld Fld.RAS_SEQ_STATUS_BARISTA_STATE ≠ Barista.restarting then c
  else
    let n := min 3 (c.fld Fld.RAS_SEQ_STATUS_ATTEMPTS + 1)
    let c1 := c.setFld Fld.RAS_SEQ_STATUS_ATTEMPTS 0 n
    if !beats ∧ n = 3 then c1.setBarista Barista.held else c1

def execBaristaResetAttempt (beats : Bool) (s : State) : Host.Outcome State Fault Refusal :=
  onAlways (fun c => c.baristaAttempt beats) s

/-- R455: RETRY: one more attempt where the barista is held. -/
def execRetry (s : State) : Host.Outcome State Fault Refusal :=
  onHostAlways (fun c => if c.fld Fld.RAS_SEQ_STATUS_BARISTA_STATE = Barista.held then c.setBarista Barista.restarting else c) s

/-- R450: FORCE latches SOFTWARE. -/
def execForce (s : State) : Host.Outcome State Fault Refusal := onHostAlways (fun c => c.latchCause Cause.software) s

/-- R450: the causes that RELEASE leaves latched. (DEDUCED, assumption 91.) -/
def Chip.keptCauses (c : Chip) : Nat :=
  let now := c.fld Fld.RAS_SEQ_STATUS_CAUSE
  let lim := c.fld Fld.LCE_PCRC_LIMIT_LIMIT
  let crcBad := (List.range 2).any fun n => c.fld Fld.LCE_PCRC_STATUS_CONSEC (pipeOff n) ≥ lim
  (if bit now Cause.barista && !c.firmwareRuns then 2 ^ Cause.barista else 0)
    + (if bit now Cause.crcLimit && lim != 0 && crcBad then 2 ^ Cause.crcLimit else 0)
    + (if bit now Cause.thermal then 2 ^ Cause.thermal else 0)

/-- R450, R455: RELEASE. (DEDUCED, assumption 91.) -/
def Chip.releaseCauses (c : Chip) : Chip :=
  let kept := c.keptCauses
  let c1 := (c.setFld Fld.RAS_SEQ_STATUS_CAUSE 0 kept).setFld Fld.RAS_SEQ_STATUS_ATTEMPTS 0 0
  let c2 := if c.firmwareRuns then (c1.setFld Fld.RAS_SEQ_STATUS_CAP 0 0).refreshCap else c1
  if kept = 0 ∧ !c.stopped then { c2.setFld Fld.RAS_SEQ_STATUS_FAULT 0 0 with faultN := false, smbAlertN := false } else c2

def execRelease (s : State) : Host.Outcome State Fault Refusal := onHostAlways Chip.releaseCauses s

/-- R451: HEARTBEAT. -/
def execHeartbeat (val : Word) (s : State) : Host.Outcome State Fault Refusal :=
  onAlways (fun c => c.setRg Reg.RAS_HB val) s

end Sys2Proof.Machine
end

