-- ==== Sys2Proof/Machine/Security.lean ====
section
/-!
DEFINITION. Security (R460 to R479): the verification of images, rollback counters, attestation, key rotation
and the debug unlock.
-/

namespace Sys2Proof.Machine

/-- R503: the Vendor ID of every function. -/
def vendorId : Nat := 0x1DF3

/-- R478: an event of the security block, with its vector. -/
def Chip.postSec (c : Chip) (code detail : Nat) : Chip := (c.postEvent 0 code 0 detail).raiseOwner 4

/-! ## Flash and images (R461, R462, R480) -/

/-- A byte of the firmware sets; an erased one reads 0xFF. (PRESUMED, assumption 94.) -/
def NonVol.flashByte (nv : NonVol) (a : Nat) : Byte := KMap.getD nv.flash a 0xFF

/-- Bytes of flash. -/
def NonVol.flashRead (nv : NonVol) (a n : Nat) : List Byte := (rangeFrom a n).map nv.flashByte

/-- R480: where a set's image of a TYPE stands, and its largest size. (DEDUCED, assumption 95.) -/
def imageAt (set typ : Nat) : Nat × Nat :=
  let base := set * 0x1800000
  match typ with
  | 2 => (base, 0x200000)
  | 0 => (base + 0x200000, 0x600000)
  | _ => (base + 0x800000, 0x1000000)

/-- Bytes of an image header. -/
def NonVol.hdr (nv : NonVol) (a o n : Nat) : List Byte := nv.flashRead (a + o) n

/-- R461: the header bytes that are listed; every other one is RsvdZ. -/
def headerBytes : List (Nat × Nat) :=
  [(0, 4), (4, 1), (5, 1), (6, 1), (8, 8), (0x10, 4), (0x40, 96), (0xA0, 48), (0xD0, 96)]

/-- R461: the RsvdZ bytes of a header are 0. -/
def NonVol.rsvOk (nv : NonVol) (a : Nat) : Bool :=
  (List.range 512).all fun o =>
    headerBytes.any (fun f => decide (f.1 ≤ o) && decide (o < f.1 + f.2)) || nv.flashByte (a + o) == 0

/-- R464: whether a step of a rollback counter counts as burnt: 2 of its 3 fuses. -/
def NonVol.stepBurnt (nv : NonVol) (ctr step : Nat) : Bool :=
  decide (((List.range 3).filter fun i => nv.fuses.contains (ctr * 192 + 3 * step + i)).length ≥ 2)

/-- R464: the value of a rollback counter: burnt steps from step 0 onwards. -/
def NonVol.svnCtr (nv : NonVol) (ctr : Nat) : Nat := ((List.range 64).takeWhile (nv.stepBurnt ctr)).length

/-- The SVN of an image, and its FW_ID. -/
def NonVol.imageSvn (nv : NonVol) (set typ : Nat) : Nat := leNat (nv.hdr (imageAt set typ).1 6 1)
def NonVol.imageFwId (nv : NonVol) (set typ : Nat) : Nat := leNat (nv.hdr (imageAt set typ).1 0x10 4)

/-- SHA-384 of an image's payload. -/
def NonVol.payloadHash (nv : NonVol) (set typ : Nat) : Nat :=
  let a := (imageAt set typ).1
  sha384 (nv.flashRead (a + 512) (leNat (nv.hdr a 8 8)))

/-- R462: the first check that an image fails, or 0. An image longer than its place fails check 1.
(DEDUCED, assumption 95.) -/
def NonVol.verify (nv : NonVol) (set typ : Nat) : Nat :=
  let a := (imageAt set typ).1
  let key := leNat (nv.hdr a 5 1)
  let len := leNat (nv.hdr a 8 8)
  let svn := nv.imageSvn set typ
  if leNat (nv.hdr a 0 4) ≠ 0x47465846 ∨ leNat (nv.hdr a 4 1) ≠ typ ∨ key > 3 ∨ svn > 64 ∨ !nv.rsvOk a
      ∨ len + 512 > (imageAt set typ).2 then 1
  else if bit nv.revoked key then 2
  else if nv.rootHash.getD key 0 = 0 ∨ sha384 (nv.hdr a 0x40 96) ≠ nv.rootHash.getD key 0 then 3
  else if svn < nv.svnCtr typ then 4
  else if nv.payloadHash set typ ≠ beNat (nv.hdr a 0xA0 48) then 5
  else if !ecdsaOk (beNat (nv.hdr a 0x40 96)) (sha384 (nv.hdr a 0 0xD0)) (beNat (nv.hdr a 0xD0 96)) then 6
  else 0

/-! ## Rollback counters (R464, R487) -/

/-- SEC_SVN shows the counters. -/
def Chip.showSvn (c : Chip) (nv : NonVol) : Chip :=
  c.setRg Reg.SEC_SVN (BitVec.ofNat 32 (nv.svnCtr 0 + 2 ^ 8 * nv.svnCtr 1 + 2 ^ 16 * nv.svnCtr 2))

/-! ## Keys (R469 to R472) -/

/-- R205, R471, R472: the key of a frame is replaced: its lines leave the caches, what it held is unreadable, and its
listed poisoned lines are rewritten with zeros. -/
def Chip.rotateFrame (c0 : Chip) (f : Nat) : Chip :=
  let c := c0.invalidateLines fun l => l / (gib / 128) == f
  let mine (l : Nat) : Bool := l / (gib / 128) == f
  let bad := c.poison.filter mine
  let kept : KMap Byte := KMap.drop (fun a => a / gib == f) c.mem
  { c with
    keyGen := KMap.set f (KMap.getD c.keyGen f 0 + 1) c.keyGen
    poison := c.poison.filter fun l => !mine l
    mem := bad.foldl (fun m l => (rangeFrom (l * 128) 128).foldl (fun m a => KMap.set a 0 m) m) kept }.count
      Fld.SEC_KEY_ROT_CNT_COUNT

/-- Rotate frames in turn. -/
def Chip.rotateFrames (c : Chip) (fs : List Nat) : Chip := fs.foldl Chip.rotateFrame c

/-! ## Attestation (R465 to R468) -/

/-- R468: the responder runs. -/
def Chip.spdmRuns (c : Chip) : Bool := c.firmwareRuns && c.flag Fld.SEC_CFG_DOE_EN && c.sec.measured != []

/-! The codes of the responder's errors (DSP0274). -/
namespace Spdm
def error : Nat := 0x7F
/-- PRESUMED, assumption 96. -/
def invalidRequest : Nat := 0x01
/-- PRESUMED, assumption 96. -/
def unexpectedRequest : Nat := 0x04
end Spdm

/-- R466, R468: a request that needs the connection to have reached `need` is answered by `f`; with no responder
there is no answer. (PRESUMED, assumption 96.) -/
def Chip.spdm (c : Chip) (need : Nat) (valid : Bool) (f : Chip → Chip × List Nat) : Chip :=
  if !c.spdmRuns then c
  else if c.sec.spdm < need then c.emit (.response [Spdm.error, Spdm.unexpectedRequest])
  else if !valid then c.emit (.response [Spdm.error, Spdm.invalidRequest])
  else let r := f c; r.1.emit (.response r.2)

/-- The connection has reached a stage. -/
def Chip.setSpdm (c : Chip) (n : Nat) : Chip := { c with sec := { c.sec with spdm := n } }

/-- R466: GET_VERSION: SPDM 1.3 alone; the connection starts again. (PRESUMED, assumption 96.) -/
def execGetVersion (s : State) : Host.Outcome State Fault Refusal :=
  onChip (fun c => c.spdm 0 true fun c => (c.setSpdm 1, [0x04, 0x13])) s

/-- R466: GET_CAPABILITIES. -/
def execGetCapabilities (s : State) : Host.Outcome State Fault Refusal :=
  onChip (fun c => c.spdm 1 true fun c => (c.setSpdm 2, 0x61 :: Config.crypto 0x61 [])) s

/-- R466: NEGOTIATE_ALGORITHMS: ECDSA P-384 with SHA-384, and SHA-384 measurements, where offered. -/
def execNegotiateAlgorithms (offered : Bool) (s : State) : Host.Outcome State Fault Refusal :=
  onChip (fun c => c.spdm 2 offered fun c => (c.setSpdm 3, 0x63 :: Config.crypto 0x63 [])) s

/-- R466: slots 0 and 1 hold certificates. -/
def slotHeld (slot : Nat) : Bool := decide (slot ≤ 1)

/-- R466: the digest of a slot's chain: slot 0's is fixed, slot 1's ends in the boot's alias certificate.
(DESIGN CHOICE, assumption 97.) -/
def Chip.certChain (c : Chip) (nv : NonVol) (slot : Nat) : List Nat :=
  Config.crypto 0x01 (if slot = 0 then [nv.uds] else nv.uds :: c.sec.measured.take 3 ++ [c.mgt.fwId])

/-- R466: GET_DIGESTS. -/
def execGetDigests (s : State) : Host.Outcome State Fault Refusal :=
  onBoth (fun nv c => (nv, c.spdm 3 true fun c => (c, 0x01 :: c.certChain nv 0 ++ c.certChain nv 1))) s

/-- R466: GET_CERTIFICATE: a part of a slot's chain. -/
def execGetCertificate (slot : BitVec 3) (off len : Half) (s : State) : Host.Outcome State Fault Refusal :=
  onBoth (fun nv c => (nv, c.spdm 3 (slotHeld slot.toNat) fun c =>
    (c, 0x02 :: Config.crypto 0x02 (off.toNat :: len.toNat :: c.certChain nv slot.toNat)))) s

/-- R466: CHALLENGE, signed with the alias key. -/
def execChallenge (slot : BitVec 3) (nonce : List Byte) (s : State) : Host.Outcome State Fault Refusal :=
  onBoth (fun nv c => (nv, c.spdm 3 (slotHeld slot.toNat) fun c =>
    (c, 0x03 :: Config.crypto 0x03 (c.ctr :: beNat nonce :: c.certChain nv slot.toNat ++ c.sec.measured)))) s

/-- R467: measurement 5, taken at the request. -/
def Chip.measure5 (c : Chip) (nv : NonVol) : List Nat :=
  [c.fld Fld.SEC_STATUS_DEBUG_LEVEL, nv.svnCtr 0, nv.svnCtr 1, nv.svnCtr 2, nv.revoked,
   c.fld Fld.SEC_LOCK_LOCK, c.fld Fld.DET_MAP_CLUSTERS, c.fld Fld.DET_MAP_FORCE_CLUSTERS]

/-- R467: the measurement blocks that a request names: one by its index, or all of them.
(DESIGN CHOICE, assumption 97.) -/
def Chip.measurements (c : Chip) (nv : NonVol) (index : Nat) : List Nat :=
  let one (i : Nat) : List Nat := if i = 5 then c.measure5 nv else [c.sec.measured.getD (if i > 5 then i - 2 else i - 1) 0]
  if index = 0xFF then (rangeFrom 1 6).flatMap one else if index = 0 then [6] else one index

/-- R467: GET_MEASUREMENTS, signed with the alias key on request. -/
def execGetMeasurements (index : Byte) (sign : Bool) (nonce : List Byte) (s : State) :
    Host.Outcome State Fault Refusal :=
  onBoth (fun nv c => (nv, c.spdm 3 (decide (index.toNat ≤ 6) || index == 0xFF) fun c =>
    let m := c.measurements nv index.toNat
    (c, 0x60 :: m ++ (if sign then Config.crypto 0x60 (c.ctr :: beNat nonce :: nv.uds :: m) else [])))) s

/-- R468: DOE Abort: whatever exchange was under way is dropped. (PRESUMED, assumption 96.) -/
def execDoeAbort (s : State) : Host.Outcome State Fault Refusal := onChip (fun c => c.setSpdm 0) s

/-! ## Debug unlock (R475, R476) -/

/-- R476: SEC_DBG_CTL with CHAL: a challenge from the DRBG; ignored after three failures. -/
def Chip.dbgChallenge (c : Chip) (level : Nat) : Chip :=
  let c1 := c.setFld Fld.SEC_DBG_CTL_LEVEL 0 level
  if c1.fld Fld.SEC_DBG_CTL_FAILS ≥ 3 then c1
  else
    (List.range 8).foldl (fun c i => c.setRg (Reg.SEC_DBG_CHAL + 4 * i) (BitVec.ofNat 32 (Config.freeNat c.ctr i)))
      { c1 with sec := { c1.sec with challenge := true } }

def execSecDbgChal (level : BitVec 2) (s : State) : Host.Outcome State Fault Refusal :=
  onChip (fun c => c.dbgChallenge level.toNat) s

/-- Words of a multi-word register as bytes. -/
def Chip.wordsAt (c : Chip) (a n : Nat) : List Byte := (List.range n).flatMap fun i => leBytes 4 (c.rg (a + 4 * i)).toNat

/-- R476: whether an unlock succeeds. -/
def Chip.unlockOk (c : Chip) (nv : NonVol) (level : Nat) : Bool :=
  let key := c.wordsAt Reg.SEC_DBG_KEY 24
  let msg := c.wordsAt Reg.SEC_DBG_CHAL 8 ++ [BitVec.ofNat 8 level] ++ leBytes 8 nv.serial.toNat
  c.sec.challenge && sha384 key == nv.dbgHash
    && ecdsaOk (beNat key) (sha384 msg) (beNat (c.wordsAt Reg.SEC_DBG_RESP 24))
    && (level == 1 || level == 2) && decide (level ≤ nv.dbgMax) && (level != 2 || c.aloneWithZero)

/-- Every frame of the populated stacks. -/
def Chip.allFrames (c : Chip) : List Nat := List.range (c.fld Fld.DEV_CAPS0_STACKS * 48)

/-- R476: SEC_DBG_CTL with SUBMIT. -/
def Chip.dbgSubmit (c : Chip) (nv : NonVol) (level : Nat) : Chip :=
  let c1 := { c.setFld Fld.SEC_DBG_CTL_LEVEL 0 level with sec := { c.sec with challenge := false } }
  if c.unlockOk nv level then
    let c2 := if level = 2 then c1.rotateFrames c1.allFrames else c1
    (c2.setFld Fld.SEC_STATUS_DEBUG_LEVEL 0 level).postSec 0x0070 level
  else c1.setFld Fld.SEC_DBG_CTL_FAILS 0 (min 3 (c1.fld Fld.SEC_DBG_CTL_FAILS + 1))

def execSecDbgSubmit (level : BitVec 2) (s : State) : Host.Outcome State Fault Refusal :=
  onBoth (fun nv c => (nv, c.dbgSubmit nv level.toNat)) s

/-- R477: SEC_LOCK_SET. -/
def Chip.lockSec (c : Chip) : Chip := (c.setFld Fld.SEC_LOCK_LOCK 0 1).setFld Fld.SEC_STATUS_LOCKED 0 1

def execSecLockSet (s : State) : Host.Outcome State Fault Refusal := onChip Chip.lockSec s

end Sys2Proof.Machine
end

