-- ==== Sys2Proof/Machine/Alloc.lean ====
section
/-!
DEFINITION. The allocation of a partition's resources (R34 to R38, R56, R83, R141): its register pages, its
frames, its pseudo-channel groups and its clusters.
-/

namespace Sys2Proof.Machine

/-! ## Register pages (R56, R83) -/

/-- Partition 0's page in each block that has partition pages. -/
def pageBlocks : List Nat := [0x100000, 0x200000, 0x501000, 0x601000, 0x901000, 0xA01000, 0xB01000, 0xC01000]

/-- R437, R459: the status bits of RAS_PSTATUS that follow the partition's resources. -/
def Chip.showPStatus (c : Chip) (p : Nat) : Chip :=
  let bad (g : Nat) : Bool := bit (c.fld Fld.CTX_STK_STATUS_DEGRADED (steer (g / 16))) (g % 16)
  let x := c.part p
  let c1 := c.setFld Fld.RAS_PSTATUS_DEGRADED (pg p) (b2n (x.pcgs.any bad || x.frames.any fun f => bad (f / 3)))
  c1.setFld Fld.RAS_PSTATUS_RECOVERING (pg p) (b2n (c.ras.recov.any fun r => r.part == p))

/-- R83: a partition's registers at their reset values. -/
def Chip.resetPage (c : Chip) (p : Nat) : Chip :=
  let mine (a : Nat) : Bool := pageBlocks.any fun b => a / 0x1000 == b / 0x1000 + p
  let c1 := { c with regs := KMap.drop mine c.regs, gtcLatch := KMap.erase (p + 1) c.gtcLatch }
  ((c1.setRg (Reg.SCHED_CFG + pg p) 0x3E8).showPart p).showPStatus p

/-! ## Frames and groups (R35 to R38, R472) -/

/-- Pseudo-channel groups that some carve-out holds. -/
def Chip.carved (c : Chip) (g : Nat) : Bool :=
  c.parts.any fun kp => kp.2.state != .absent && kp.2.det && kp.2.pcgs.contains g

/-- A group that is degraded, which no CREATE chooses (R437). -/
def Chip.degraded (c : Chip) (g : Nat) : Bool := bit (c.fld Fld.CTX_STK_STATUS_DEGRADED (steer (g / 16))) (g % 16)

/-- A frame that some elastic partition holds. -/
def Chip.frameHeld (c : Chip) (f : Nat) : Bool :=
  c.parts.any fun kp => kp.2.state != .absent && kp.2.frames.contains f

/-- R38, R472: the free frames of a stack, ascending. -/
def Chip.freeFrames (c : Chip) (stack : Nat) : List Nat :=
  (rangeFrom (stack * 48) 48).filter fun f =>
    !c.carved (f / 3) && !c.frameHeld f && !c.degraded (f / 3) && !c.sec.withheld.contains f

/-- R38: the next frame, round robin across the stacks, with its stack. -/
def Chip.nextFrame (c : Chip) : Option (Nat × Nat) :=
  let n := c.fld Fld.DEV_CAPS0_STACKS
  ((rangeFrom (c.lastStack + 1) n).map (· % n)).findSome? fun s => (c.freeFrames s).head?.map fun f => (f, s)

/-- R38: a partition takes frames one by one; their keys are fresh (R471). -/
def Chip.takeFrames (p : Nat) : Nat → Chip → Chip
  | 0, c => c
  | n + 1, c =>
    match c.nextFrame with
    | none => c
    | some (f, s) =>
      let x := c.part p
      Chip.takeFrames p n ({ c.setPart p { x with frames := x.frames ++ [f] } with lastStack := s }.rotateFrame f)

/-- Free frames of the device. -/
def Chip.freeFrameCount (c : Chip) : Nat :=
  (List.range (c.fld Fld.DEV_CAPS0_STACKS)).foldl (fun n s => n + (c.freeFrames s).length) 0

/-- R35, R36, R472: the groups of a stack that a carve-out may take: wholly free, healthy, with no frame withheld. -/
def Chip.freeGroups (c : Chip) (stack : Nat) : List Nat :=
  (rangeFrom (stack * 16) 16).filter fun g =>
    !c.carved g && !c.degraded g && (rangeFrom (3 * g) 3).all fun f => !c.frameHeld f && !c.sec.withheld.contains f

/-- R36: how many groups of a carve-out of `n` a logical stack holds. -/
def spread (n k s : Nat) : Nat := n / k + (if s < n % k then 1 else 0)

/-- R36: groups in a stack that carve-outs hold already. -/
def Chip.carvedIn (c : Chip) (stack : Nat) : Nat := ((rangeFrom (stack * 16) 16).filter c.carved).length

/-- R34, R36: the canonical spread of a carve-out, or none; which free groups of a stack are taken is the device's
choice. (DESIGN CHOICE, assumption 60.) -/
def Chip.pickGroups (c : Chip) (n : Nat) : Option (List Nat) :=
  let ss := c.fld Fld.DEV_CAPS0_STACKS
  if (List.range ss).any fun s =>
      decide ((c.freeGroups s).length < spread n ss s) || decide (c.carvedIn s + spread n ss s > 15) then none
  else some ((List.range ss).flatMap fun s =>
    let free := c.freeGroups s
    let chosen := (free.rotateLeft (Config.freeNat c.ctr (100 + s) % (free.length + 1))).take (spread n ss s)
    free.filter fun g => chosen.contains g)

/-! ## Clusters (R34, R141) -/

/-- R141: a cluster is handed to a partition: at once, or once its residents have run to their boundary. -/
def Chip.handOver (c : Chip) (p cl : Nat) : Chip :=
  let k := c.cluster cl
  if k.part = p then c
  else if k.wgs.isEmpty then c.handCluster cl p k
  else c.setCluster cl { k with part := p, draining := true }

/-- Hand over clusters in turn. -/
def Chip.handOverAll (c : Chip) (p : Nat) (cls : List Nat) : Chip := cls.foldl (fun c cl => c.handOver p cl) c

/-- The clusters of partition 0 in the map that are not isolated. -/
def Chip.zeroClusters (c : Chip) : List Nat := (c.clustersOf 0).filter fun cl => (c.cluster cl).st != .isolated

/-- R382: the first logical cluster of the partial group. -/
def Chip.partialFrom (c : Chip) : Nat := c.fld Fld.DET_MAP_CLUSTERS / 8 * 8

/-- R34: the order in which elastic partitions take clusters: the partial group's first, then the lowest. -/
def Chip.takeOrder (c : Chip) (cls : List Nat) : List Nat :=
  cls.filter (fun cl => decide (c.partialFrom ≤ cl)) ++ cls.filter fun cl => decide (cl < c.partialFrom)

/-- R34: the order in which an elastic partition returns them. -/
def Chip.returnOrder (c : Chip) (cls : List Nat) : List Nat :=
  (cls.filter fun cl => decide (cl < c.partialFrom)).reverse ++ (cls.filter fun cl => decide (c.partialFrom ≤ cl)).reverse

/-- R34: the full logical groups that hold no cluster of a partition other than 0. -/
def Chip.openGroups (c : Chip) : List Nat :=
  (List.range (c.fld Fld.DET_MAP_CLUSTERS / 8)).filter fun g =>
    (rangeFrom (8 * g) 8).all fun cl => (c.cluster cl).part == 0 && (c.cluster cl).st != .isolated

end Sys2Proof.Machine
end

