-- ==== Sys2Proof/Machine/Boot.lean ====
section
/-!
DEFINITION. The boot ledger and the boot (R480 to R488), restarts of the barista, and the power and reset pins
(R519, R522, R523).
-/

namespace Sys2Proof.Machine

/-! ## The ledger (R480, R483) -/

/-- R483: a ledger record before its CRC. -/
def Ledger.body (l : Ledger) : List Byte :=
  leBytes 4 0x4752444C ++ leBytes 4 l.seq ++ leBytes 4 l.boots
    ++ leBytes 4 (l.failedBoots + 2 ^ 4 * b2n l.rescueNext + 2 ^ 5 * l.prefSet + 2 ^ 6 * l.runSet)
    ++ leBytes 8 l.stepState ++ leBytes 4 l.decision ++ leBytes 4 l.restarts ++ leBytes 4 l.opHours
    ++ leBytes 4 l.ageHours ++ leBytes 0xD4 0

/-- R483: the 256 bytes of a record. -/
def Ledger.bytes (l : Ledger) : List Byte := l.body ++ leBytes 4 (crc32 0 l.body)

/-- R480: the copy in force is the valid one with the higher SEQ: whether it is copy 1. -/
def NonVol.newer1 (nv : NonVol) : Bool :=
  match nv.ledger0, nv.ledger1 with
  | _, none => false
  | none, some _ => true
  | some a, some b => decide (a.seq < b.seq)

/-- The record in force, all 0 where no copy is valid. -/
def NonVol.ledger (nv : NonVol) : Ledger :=
  (if nv.newer1 then nv.ledger1 else nv.ledger0).getD {}

/-- The other copy. -/
def NonVol.olderLedger (nv : NonVol) : Option Ledger := if nv.newer1 then nv.ledger0 else nv.ledger1

/-- R480: a write goes to the older copy, with the next SEQ. -/
def NonVol.setLedger (nv : NonVol) (l : Ledger) : NonVol :=
  let l1 := { l with seq := nv.ledger.seq + 1 }
  if nv.newer1 ∨ nv.ledger0.isNone then { nv with ledger0 := some l1 } else { nv with ledger1 := some l1 }

/-- Change the record in force. -/
def NonVol.modLedger (nv : NonVol) (f : Ledger → Ledger) : NonVol := nv.setLedger (f nv.ledger)

/-- The state of a step in a record, and a record with another. -/
def Ledger.step (l : Ledger) (n : Nat) : Nat := bits l.stepState (2 * n + 1) (2 * n)
def Ledger.setStep (l : Ledger) (n v : Nat) : Ledger :=
  { l with stepState := l.stepState - l.step n * 4 ^ n + v * 4 ^ n }

/-- R496: hours until the automatic measurement. -/
def Ledger.dueHours (l : Ledger) : Nat := 256 - (l.opHours - l.ageHours)

/-- R501: what the management registers show of the ledger. -/
def Chip.showLedger (c : Chip) (nv : NonVol) : Chip :=
  let l := nv.ledger
  let c1 := ((c.setFld Fld.MGT_STATE_RUN_SET 0 l.runSet).setFld Fld.MGT_STATE_PREF_SET 0 l.prefSet).setFld
    Fld.MGT_STATE_ACT_PEND 0 (b2n (l.prefSet != l.runSet))
  let c2 := (c1.setFld Fld.MGT_STATE_FAILED_BOOTS 0 l.failedBoots).setFld Fld.MGT_HOURS_HOURS 0 l.opHours
  (c2.setFld Fld.MGT_DECISION_DECISION 0 l.decision).setFld Fld.MGT_AGE_STATUS_DUE_H 0 l.dueHours

/-! ## The steps (R481, R484) -/

/-- The classes of R481. -/
inductive StepClass where
  | required | alternative | optional
  deriving DecidableEq, Repr

/-- R481: the class of a step. -/
def stepClass (n : Nat) : StepClass :=
  if [3, 5, 8, 10, 14, 19].contains n then .alternative
  else if [22, 24, 25, 26, 28, 29].contains n then .optional
  else .required

/-- A boot under way: the stores, the chip, whether it goes on, and whether it is a rescue boot. -/
structure Booting where
  nv : NonVol
  chip : Chip
  go : Bool := true
  rescue : Bool := false

/-- The TYPE that a step loads. -/
def stepImage (n : Nat) : Option Nat := if n = 5 then some 2 else if n = 8 then some 0 else if n = 14 then some 1 else none

/-- R462, R484: the set in use, and the check of R462 that a step's image fails, or 0. -/
def NonVol.stepVerify (nv : NonVol) (n : Nat) : Nat :=
  match stepImage n with
  | some t => nv.verify nv.ledger.runSet t
  | none => 0

/-- Stored training stands for every stack. -/
def NonVol.trained (nv : NonVol) : Bool := (List.range nv.stacks).all fun s => (KMap.find s nv.training).isSome

/-- R481: whether a step passes: its own test, its image, its store. `alt`: its alternative is in force. -/
def stepPasses (w : BootSample) (nv : NonVol) (n : Nat) (alt : Bool) : Bool :=
  !w.fails.getLsbD n && nv.stepVerify n == 0
    && (n != 10 || alt || nv.cal.isSome) && (n != 19 || !alt || nv.trained)

/-- R496: a measurement: DRIFT by group. -/
def Chip.measureAge (c : Chip) (drift : List Byte) : Chip :=
  { c with mgt := { c.mgt with drift := (List.range 12).map fun g => (drift.getD g 0).toNat } }

/-- R497: the set point of a group at a clock point with a guard-band, at most 850 mV. -/
def setPoint (image : List Byte) (f band : Nat) : Nat := min 850 (Config.calPoint image f + band)

/-- R495: the guard-bands of the store, or the largest of every field (step 10). -/
def Chip.loadBands (c : Chip) (cal : Option Cal) : Chip :=
  let image := (cal.getD {}).image
  let bands := match cal with
    | some k => k.bands
    | none => List.replicate 36 315
  { c with mgt := { c.mgt with bands := bands, image := image } }

/-- R140, R145: the SFU tables in every cluster. -/
def Chip.loadTables (c : Chip) (v : Half) : Chip :=
  { c with clusters := c.clusters.map fun kc => (kc.1, { kc.2 with tableVer := v, tableOk := true }) }

/-- R434, R436: a physical cluster that fails the boot test is retired: the highest-numbered spare takes the identity
it backs, or the map shrinks. (DEDUCED, assumption 93.) -/
def Chip.bootRetire (c : Chip) (f : Nat) : Chip :=
  if f ≥ 96 ∨ c.fusedOff.contains f ∨ c.ras.retired.contains f then c
  else
    match c.clusters.find? fun kc => kc.2.phys == f with
    | none => (c.retirePhys f).spareGone
    | some (cl, k) =>
      match c.freeSpares.getLast? with
      | some s => ((c.setCluster cl (k.moveTo s)).retirePhys f).spareGone
      | none =>
        let h := c.fld Fld.DET_MAP_NATURAL - 1
        let c1 := (c.retirePhys f).lowerMap h
        let kh := c1.cluster h
        let c2 := if h = cl then c1 else c1.setCluster cl (k.moveTo kh.phys)
        c2.setCluster h { kh with st := .isolated, epoch := kh.epoch + 1 }

/-- R25, R38, R57, R481 step 23: partition 0: four frames with fresh keys, ASIDs 0 to 63, every cluster.
(DEDUCED, assumption 100.) -/
def Chip.setupZero (c : Chip) : Chip :=
  let x : Part := { state := .ready, wqueues := 63, memGib := 4, asidBase := 0, asidCount := 64 }
  let c1 := { c.setPart 0 x with lastStack := c.fld Fld.DEV_CAPS0_STACKS - 1 }
  (Chip.takeFrames 0 4 c1).resetPage 0

/-- R467: the measurements of a boot: ROM, security engine, barista, data path, calibration store.
(DESIGN CHOICE, assumption 97.) -/
def measureBoot (nv : NonVol) : List Nat :=
  let set := nv.ledger.runSet
  [(Config.crypto 0xE0 []).headD 0, nv.payloadHash set 2, nv.payloadHash set 0, nv.payloadHash set 1,
   sha384 ((nv.cal.getD {}).image)]

/-- R481: what a step that passes does. -/
def passStep (w : BootSample) (n : Nat) (nv : NonVol) (c : Chip) : NonVol × Chip :=
  let set := nv.ledger.runSet
  match n with
  | 4 => (nv, ((c.setFld Fld.PCI_LINK_UP 0 1).setFld Fld.PCI_LINK_SPEED 0 w.speed.toNat).setFld Fld.PCI_LINK_WIDTH 0
            w.width.toNat)
  | 10 => (nv, c.loadBands nv.cal)
  | 14 => (nv, { c with
      mgt := { c.mgt with fwId := nv.imageFwId set 1
                          svns := [nv.imageSvn set 0, nv.imageSvn set 1, nv.imageSvn set 2] }
      sec := { c.sec with measured := measureBoot nv } }.setFld Fld.SEC_STATUS_SECURE_BOOT 0 1)
  | 15 => (nv, c.loadTables (Config.tableVersion c.mgt.fwId))
  | 16 => (nv, w.clusters.foldl (fun c f => c.bootRetire f.toNat) c)
  | 19 => ({ nv with training := (List.range nv.stacks).map fun s => (s, nv.ledger.boots) }, c)
  | 22 => (nv, (List.range nv.stacks).foldl (fun c s => c.setFld Fld.CTX_STK_STATUS_ENGINE_OK (steer s)
            (b2n (w.engines.getLsbD s && c.flag Fld.DEV_CAPS0_CTX_ENGINE))) c)
  | 23 => (nv, c.setupZero)
  | 24 => (nv, c.setFld Fld.CDE_LANE_STATUS_OUT 0 w.lanes.toNat)
  | 25 => (nv, { c with mgt := { c.mgt with axlPhy := true } })
  | 26 => (nv, { c with mgt := { c.mgt with dispPhy := true } })
  | 28 => (nv.modLedger fun l => { l with ageHours := l.opHours }, c.measureAge w.drift)
  | 29 => (nv, { c with mgt := { c.mgt with smbus := true, smbAddr := 0x60 + nv.straps % 4 } })
  | 30 => (nv, (c.lockSec).setFld Fld.RAS_SEQ_CFG_LOCK 0 1)
  | _ => (nv, c)

/-- R481: the outcome of a skipped optional step, and of an alternative. -/
def skipStep (n : Nat) (c : Chip) : Chip :=
  match n with
  | 10 => c.loadBands none
  | 24 => c.setFld Fld.CDE_LANE_STATUS_OUT 0 0xF
  | _ => c

/-- R481: FAULT_N is released unless a cause is latched. -/
def Chip.unfault (c : Chip) : Chip :=
  if c.fld Fld.RAS_SEQ_STATUS_CAUSE = 0 then { c.setFld Fld.RAS_SEQ_STATUS_FAULT 0 0 with faultN := false } else c

/-- R464, R481, R484, R485: step 31. (DEDUCED, assumption 100.) -/
def completeBoot (nv : NonVol) (c : Chip) : NonVol × Chip :=
  let nv1 := nv.modLedger fun l => { l.setStep 31 1 with failedBoots := 0 }
  let c1 := ({ c with mgt := { c.mgt with booting := false, burnDue := true } }.setFld Fld.MGT_STATE_MODE 0 1).unfault
  let c2 := ((c1.setRg Reg.DET_FW_ID (BitVec.ofNat 32 c.mgt.fwId)).showLedger nv1).showSvn nv1
  (nv1, if nv1.ledger.decision = 0 then c2 else c2.postEvent 0 0x0080 0 nv1.ledger.decision)

/-- R485: the boot fails on its own: counted, and an internal reboot follows. -/
def Booting.fail (b : Booting) (n : Nat) (decide_ : Nat) : Booting :=
  let nv := b.nv.modLedger fun l => { l.setStep n 2 with
    failedBoots := min 3 (l.failedBoots + 1), decision := l.decision ||| decide_ }
  { b with nv := nv, chip := { b.chip with mgt := { b.chip.mgt with booting := false, failed := true } }.showLedger nv
           go := false }

/-- R462: the reason of an image that is refused. -/
def Booting.noteImage (b : Booting) (n : Nat) : Booting :=
  match stepImage n, b.nv.stepVerify n with
  | some t, r + 1 => { b with chip := (b.chip.setFld Fld.SEC_BOOT_FAIL_REASON 0 (r + 1)).setFld Fld.SEC_BOOT_FAIL_TYPE 0 t }
  | _, _ => b

/-- R484: a step ends with a state, and the ledger records it. -/
def Booting.record (b : Booting) (n v : Nat) : Booting :=
  let nv := b.nv.modLedger fun l => l.setStep n v
  { b with nv := nv, chip := b.chip.showLedger nv }

/-- R481: a step that passes. -/
def Booting.pass (b : Booting) (w : BootSample) (n v : Nat) : Booting :=
  let r := passStep w n b.nv b.chip
  { b with nv := r.1, chip := r.2 }.record n v

/-- The bits that a failing step sets (R484). -/
def decisionBits (n : Nat) : Nat := if n = 5 ∨ n = 8 ∨ n = 14 then 2 ^ 5 + 2 ^ 8 + 2 ^ 14 else 2 ^ n

/-- R485: the record is that of a boot that power or PERST_N cut short after step 3.
(DEDUCED, assumption 99.) -/
def Ledger.cutShort (l : Ledger) : Bool :=
  l.step 3 != 0 && l.step 31 != 1
    && match (List.range 32).reverse.find? fun n => l.step n != 0 with
       | some n => l.step n != 2 || stepClass n == .optional
       | none => false

/-- R484 to R486: step 3: the record is read, a boot cut short is counted, and rescue or a new record follows.
(DEDUCED, assumption 99.) -/
def Booting.readLedger (b : Booting) (w : BootSample) : Booting :=
  let valid := !w.fails.getLsbD 3 && (b.nv.ledger0.isSome || b.nv.ledger1.isSome)
  let l := if valid then b.nv.ledger else {}
  let failed := if l.cutShort then min 3 (l.failedBoots + 1) else l.failedBoots
  if failed = 3 ∨ l.rescueNext then
    -- R486: a rescue that RESCUE_NEXT alone brings changes nothing else; the next boot counts one cut short.
    let nv := b.nv.setLedger { l with failedBoots := if failed = 3 then 3 else l.failedBoots, rescueNext := false }
    { b with nv := nv, chip := b.chip.showLedger nv, rescue := true }
  else
    let run := if bit l.decision 5 then 1 - l.prefSet else l.prefSet
    let l1 : Ledger := { l with boots := l.boots + 1, failedBoots := failed, runSet := run
                                stepState := 1 + 4 + 16 + 64 * (if valid then 1 else 3) }
    let nv := b.nv.setLedger l1
    { b with nv := nv, chip := b.chip.showLedger nv }

/-- R481, R484: one step of the boot. -/
def Booting.run (w : BootSample) (b : Booting) (n : Nat) : Booting :=
  if !b.go ∨ (b.rescue ∧ n > 4) then b
  else
    let b := { b with chip := b.chip.setFld Fld.MGT_STATE_STEP 0 n }
    if w.hang = some (BitVec.ofNat 5 n) then { b with go := false }
    else if n = 3 then b.readLedger w
    else if n < 3 then (if w.fails.getLsbD n then b.fail n 0 else b)
    else if n = 31 then
      let r := completeBoot b.nv b.chip
      { b with nv := r.1, chip := r.2 }
    else if b.rescue then
      let r := passStep w n b.nv b.chip
      (if w.fails.getLsbD n then { b with go := false } else { b with nv := r.1, chip := r.2 })
    else
      let forced := bit b.nv.ledger.decision n
      let ok := stepPasses w b.nv n forced
      let b1 := b.noteImage n
      match stepClass n with
      | .required => if ok then b1.pass w n 1 else b1.fail n 0
      | .optional =>
        if forced then { b1 with chip := skipStep n b1.chip }.record n 3
        else if ok then b1.pass w n 1
        else
          let b2 := { b1 with chip := skipStep n b1.chip }.record n 2
          let nv := b2.nv.modLedger fun l => { l with decision := l.decision ||| 2 ^ n }
          { b2 with nv := nv, chip := b2.chip.showLedger nv }
      | .alternative =>
        if ok then
          (if forced ∧ n = 10 then { b1 with chip := skipStep n b1.chip }.record n 3
           else if forced ∧ n = 19 then b1.record n 3
           else b1.pass w n (if forced then 3 else 1))
        else b1.fail n (if forced then 0 else decisionBits n)

/-- R481: the steps from `n`. (DESIGN CHOICE, assumption 98.) -/
def runBoot (w : BootSample) (n : Nat) (nv : NonVol) (c : Chip) : NonVol × Chip :=
  let b := (rangeFrom n (32 - n)).foldl (Booting.run w) { nv := nv, chip := c, rescue := c.fld Fld.MGT_STATE_MODE == 2 }
  (b.nv, if b.rescue && b.go then
    { b.chip with mgt := { b.chip.mgt with booting := false } }.setFld Fld.MGT_STATE_MODE 0 2 else b.chip)

/-- R481, R522: BOOT: PERST_N rises and the boot runs, up to a step that does not end.
(DESIGN CHOICE, assumption 98.) -/
def bootStart (w : BootSample) (nv : NonVol) (c : Chip) : NonVol × Chip :=
  if !c.powered ∨ !c.perst then (nv, c)
  else runBoot w 0 nv { c with perst := false, mgt := { c.mgt with booting := true } }

def execBoot (w : BootSample) (s : State) : Host.Outcome State Fault Refusal := onBothAlways (bootStart w) s

/-- R481: BOOT_STEP_TIMEOUT: the step in progress fails, and the boot goes on as its class says.
(DESIGN CHOICE, assumption 98.) -/
def bootTimeout (w : BootSample) (nv : NonVol) (c : Chip) : NonVol × Chip :=
  if !c.mgt.booting then (nv, c)
  else
    let n := c.fld Fld.MGT_STATE_STEP
    runBoot { w with fails := w.fails ||| BitVec.ofNat 32 (2 ^ n) } n nv c

def execBootStepTimeout (w : BootSample) (s : State) : Host.Outcome State Fault Refusal :=
  onBothAlways (bootTimeout w) s

/-- The registers of the always-on domain, which an internal reboot keeps (R450, R485, R519).
(DEDUCED, assumption 101.) -/
def aonRegs : List Nat := [Reg.RAS_SEQ_STATUS, Reg.RAS_SEQ_CFG, Reg.RAS_HB, Reg.PCI_SUPPLY_LAST, Reg.RAS_FLOG_HEAD]

/-- A register of the always-on domain or of the fault log (R458). (DEDUCED, assumption 101.) -/
def isAon (a : Nat) : Bool := aonRegs.contains a || (decide (Reg.RAS_FLOG ≤ a) && decide (a < Reg.RAS_FLOG + 1024))

/-- A fresh chip that keeps some registers, and what has left the device. (DEDUCED, assumption 101.) -/
def Chip.renewed (c : Chip) (nv : NonVol) (keep : Nat → Bool) : Chip :=
  let f := Chip.fresh nv c.ctr
  { f with regs := (c.regs.filter fun r => keep r.1).foldl (fun m r => KMap.put 0 r.1 (c.rg r.1) m) (KMap.drop keep f.regs)
           outbox := c.outbox }

/-- R485: INTERNAL_REBOOT: everything but the always-on domain is reset, and the boot starts at step 0.
(DEDUCED, assumption 101.) -/
def internalReboot (w : BootSample) (nv : NonVol) (c : Chip) : NonVol × Chip :=
  if !c.mgt.failed then (nv, c)
  else
    let c1 := c.renewed nv isAon
    runBoot w 0 nv { c1 with faultN := true, smbAlertN := c.smbAlertN, perst := false
                             mgt := { c1.mgt with booting := true } }

def execInternalReboot (w : BootSample) (s : State) : Host.Outcome State Fault Refusal :=
  onBothAlways (internalReboot w) s

/-! ## Restart of the barista (R455, R488) -/

/-- R488, R493: the erased bytes of a firmware set. (PRESUMED, assumption 94.) -/
def NonVol.eraseSet (nv : NonVol) (set : Nat) : NonVol :=
  { nv with flash := KMap.drop (fun a => a / 0x1800000 == set) nv.flash }

/-- R489: the mailbox operation ends with a result: RESULT, DONE, vector 3. -/
def Chip.endOp (c : Chip) (result : Nat) : Chip :=
  let c1 := { c with mgt := { c.mgt with op := none } }
  let c2 := ((c1.setFld Fld.MGT_STATUS_BUSY 0 0).setFld Fld.MGT_STATUS_DONE 0 1).setFld Fld.MGT_STATUS_RESULT 0 result
  let c3 := c2.setRg Reg.MGT_OP 0
  if c.flag Fld.MGT_CTL_IRQ_EN then c3.raiseOwner 3 else c3

/-- Whether an operation code works on the staged set of the open session. (DEDUCED, assumption 117.) -/
def stages (code : Nat) : Bool := code == 0x11 || code == 0x12 || code == 0xF2

/-- R488: an interrupted mailbox operation ends with ABORTED; an interrupted staging leaves its set empty.
(DEDUCED, assumption 117.) -/
def abortOp (nv : NonVol) (c : Chip) : NonVol × Chip :=
  match c.mgt.op with
  | none => (nv, c)
  | some o =>
    let c1 := c.endOp 0x07
    if o.code = 0x10 then (nv.eraseSet (o.args.headD 0), c1)
    else
      match c.mgt.staging with
      | some st => if stages o.code then (nv.eraseSet st.set, c1) else (nv, c1)
      | none => (nv, c1)

/-- R488: BARISTA_RESTART: the barista's part of step 0 and steps 3, 5, 8 and 9 from the running set.
(DEDUCED, assumption 117.) -/
def baristaRestart (nv : NonVol) (c : Chip) : NonVol × Chip :=
  let set := nv.ledger.runSet
  if c.fld Fld.RAS_SEQ_STATUS_BARISTA_STATE ≠ Barista.restarting ∨ nv.verify set 2 ≠ 0 ∨ nv.verify set 0 ≠ 0 then (nv, c)
  else
    let nv1 := nv.modLedger fun l => { l with restarts := l.restarts + 1 }
    let c1 := (c.setBarista Barista.running).setSpdm 0
    let c2 := if c1.fld Fld.MGT_STATE_MODE = 3 then c1.setFld Fld.MGT_STATE_MODE 0 1 else c1
    abortOp nv1 (c2.showLedger nv1).resumeTraining

def execBaristaRestart (s : State) : Host.Outcome State Fault Refusal := onBothAlways baristaRestart s

/-! ## Power and reset (R519, R522, R523) -/

/-- R519: SUPPLY_FAULT: a rail outside its range stops every clock but the always-on domain's, until PERST_N. -/
def Chip.supplyFault (c : Chip) (rail : Nat) : Chip :=
  if rail = 0 ∨ rail > 9 then c
  else
    let c1 := (c.setFld Fld.PCI_SUPPLY_LAST_RAIL 0 rail).setFld Fld.RAS_SEQ_STATUS_FAULT 0 1
    { c1 with stopped := true, faultN := true }

def execSupplyFault (rail : BitVec 4) (s : State) : Host.Outcome State Fault Refusal :=
  onAlways (fun c => c.supplyFault rail.toNat) s

/-- R523: PERST_N_ASSERT: the whole device is reset, except for PCI_SUPPLY_LAST. -/
def perstAssert (nv : NonVol) (c : Chip) : NonVol × Chip :=
  (nv, { c.renewed nv (· == Reg.PCI_SUPPLY_LAST) with powered := c.powered })

def execPerstNAssert (s : State) : Host.Outcome State Fault Refusal := onBothAlways perstAssert s

/-- R519: VDD_AON_LOSS: the whole device is reset, PCI_SUPPLY_LAST too, and stays without power. -/
def aonLoss (nv : NonVol) (c : Chip) : NonVol × Chip := (nv, { c.renewed nv (fun _ => false) with powered := false })

def execVddAonLoss (s : State) : Host.Outcome State Fault Refusal := onBothAlways aonLoss s

/-- R518, R522, R523: POWER_UP: the rails are up, FAULT_N is low and PERST_N is held low. -/
def powerUp (nv : NonVol) (c : Chip) : NonVol × Chip := (nv, { c.renewed nv (fun _ => false) with powered := true })

def execPowerUp (s : State) : Host.Outcome State Fault Refusal := onBothAlways powerUp s

end Sys2Proof.Machine
end

