-- ==== Sys2Proof/Machine/Stacks.lean ====
section
/-!
DEFINITION. The stacks' refresh windows and scrubbing (R219 to R224).
-/

namespace Sys2Proof.Machine

/-- The partition whose carve-out holds a pseudo-channel group (R36, R219). -/
def Chip.carveOwner (c : Chip) (pcg : Nat) : Option Nat :=
  (c.parts.find? fun kp => kp.2.det && kp.2.state != .absent && kp.2.pcgs.contains pcg).map Prod.fst

/-- The windows that have not ended. -/
def Chip.liveWindows (c : Chip) : KMap Nat := c.windows.filter fun w => decide (c.gtc.toNat < w.2)

/-- R220: the scheduled window of group `g`, where the count stands at its start. -/
def Chip.refresh (c : Chip) (stack g : Nat) : Chip :=
  let pcg := stack * 16 + g
  if (c.carveOwner pcg).isSome ∧ c.gtc.toNat % 2048 = 128 * g then
    { c with windows := KMap.set pcg (c.gtc.toNat + 256) c.liveWindows }
  else c

/-- R220: REFRESH_WINDOW. -/
def execRefreshWindow (stack : BitVec 3) (g : BitVec 4) (s : State) : Host.Outcome State Fault Refusal :=
  onChip (fun c => c.refresh stack.toNat g.toNat) s

/-- R221: an extra window is counted; the owner's descriptors with an access that falls due during it are perturbed by
REFRESH. -/
def Chip.rfmExtra (c : Chip) (stack g : Nat) (delayed : List (Nat × Nat)) : Chip :=
  let pcg := stack * 16 + g
  match c.carveOwner pcg with
  | none => c
  | some p =>
    let c1 := { c.count Fld.CTX_RFM_EXTRA_COUNT (steer stack) with
      windows := KMap.set pcg (c.gtc.toNat + 256) c.liveWindows }
    let mine := delayed.filter fun d => partOf d.1 == p && (c.entry d.1 d.2).isSome
    if mine.isEmpty then c1 else c1.perturbOnly p 4 fun q slot => mine.contains (q, slot)

/-- R221: RFM_EXTRA_WINDOW; `delayed` names the descriptors, by queue and slot, with an access that falls due during
it. -/
def execRfmExtraWindow (stack : BitVec 3) (g : BitVec 4) (delayed : List (BitVec 10 × BitVec 6)) (s : State) :
    Host.Outcome State Fault Refusal :=
  onChip (fun c => c.rfmExtra stack.toNat g.toNat (delayed.map fun d => (d.1.toNat, d.2.toNat))) s

/-- R222: what a read of a line finds: nothing, an error corrected, or one that cannot be corrected, which poisons it. -/
def Chip.lineFound (c : Chip) (line : Nat) (found : Nat) : Chip :=
  match found with
  | 1 => c.count Fld.CTX_ECC_CE_COUNT (steer (stackOf line))
  | 2 => (c.count Fld.CTX_ECC_UE_COUNT (steer (stackOf line))).addPoison line
  | _ => c

/-- R224: a scrub read; in a carve-out's groups it runs only inside the refresh windows of R220. -/
def Chip.scrub (c : Chip) (line : Nat) (found : Nat) : Chip :=
  let pcg := line * 128 / (3 * gib)
  if (c.carveOwner pcg).isSome && (KMap.find pcg c.liveWindows).isNone then c else c.lineFound line found

/-- R224: STACK_SCRUB: a line is read: no error, an error corrected from the line, or an uncorrectable one,
which poisons the line. -/
def execStackScrub (line : BitVec 32) (found : BitVec 2) (s : State) : Host.Outcome State Fault Refusal :=
  onChip (fun c => c.scrub line.toNat found.toNat) s

end Sys2Proof.Machine
end

