-- ==== Sys2Proof/Machine/CacheAccess.lean ====
section
/-!
DEFINITION. The accesses that go through the shared cache, and how each is treated there (R47, R197, R199, R211).
-/

namespace Sys2Proof.Machine

/-- R47: the MT field of a leaf. -/
def leafMt (e : Dword) : Nat := bits e.toNat 8 7

/-- R197, R199: the partition and the partition-physical address that an access reaches in local memory, and its MT; none
where its translation fails, or under TARGET 0x1 and 0x2. How another device's access is treated the spec leaves open.
(DESIGN CHOICE, assumption 175.) -/
def Chip.accessOf (c : Chip) (src : CacheSource) : Option (Nat × Nat × Nat) :=
  match src with
  | .virt p asid va =>
    match c.leafOf { p := p.toNat, asid := asid.toNat, kernel := true } va.toNat with
    | .ok (e, size) =>
      if bits e.toNat 55 52 = 0 then
        some (p.toNat, bits e.toNat 51 12 * 4096 / size * size + va.toNat % size, leafMt e)
      else none
    | .error _ => none
  | .phys p pa => some (p.toNat, pa.toNat, 0)
  | .host fn off => some (fn.toNat, c.bar4Base fn.toNat + off.toNat, 1)
  | .inbound p pa => some (p.toNat, pa.toNat, Config.inboundMt % 4)

/-- The slice that holds a scratch location (R210). -/
def scratchSlice (l : Nat) : Nat := (l - scratchBase) / (2048 * 128) / 16

/-- R432: what a slice's SECDED finds as it serves a line or a scratch location. -/
def Chip.sliceError (c : Chip) (l : Nat) (ecc : CacheEcc) (k : CReq) : Chip :=
  let scratch := decide (l ≥ scratchBase)
  match ecc with
  | .none => c
  | .corrected => c.count Fld.SC_ECC_CE_CNT_COUNT (steer (if scratch then scratchSlice l else homeSlice (l / 128)))
  | .uncorrected =>
    if k = .writeFull then c
    else if scratch then c.addPoison (l / 128)
    else c.lineError (l / 128)

/-- R222, R223: a line is read from its stack: a read of a degraded group is rebuilt and counts as a corrected error, and
ECC may find one. -/
def Chip.memoryRead (c : Chip) (line : Nat) (found : CacheEcc) : Chip :=
  let st := stackOf line
  let rebuilt := bit (c.fld Fld.CTX_STK_STATUS_DEGRADED (steer st)) (line * 128 / (3 * gib) % 16)
  let c1 := if rebuilt && !c.lostLoc (line * 128) then c.count Fld.CTX_ECC_CE_COUNT (steer st) else c
  c1.lineFound line (match found with | .none => 0 | .corrected => 1 | .uncorrected => 2)

/-- R203: MISS_FILL. -/
def execMissFill (slice : BitVec 5) (fill : FillArgs) (s : State) : Host.Outcome State Fault Refusal :=
  onChip (fun c =>
    match KMap.find fill.reg.toNat (c.slice slice.toNat).miss with
    | some m => (c.memoryRead m.line fill.found).missFill slice.toNat fill.reg.toNat
    | none => c) s

/-- R197 to R204, R210, R211: an access reaches the slice of its line. A deterministic partition's scratch is served by
the slice without any lookup, its carve-out bypasses the slices, and its MT is ignored (R47); MT 0b11 is treated as
uncached. -/
def Chip.cacheRequest (c : Chip) (src : CacheSource) (k : CReq) (ecc : CacheEcc) : Chip :=
  match c.accessOf src with
  | none => c
  | some (p, a, mt) =>
    let x := c.part p
    match x.loc a with
    | none => c
    | some l =>
      if c.deadLoc x l then c
      else if x.det then
        (if l ≥ scratchBase then c.sliceError l ecc k else if k = .writeFull then c else c.memoryRead (l / 128) ecc)
      else (c.sliceError l ecc k).lineRequest (l / 128) { mt := if mt = 3 then 1 else mt, kind := k }

/-- The kinds of request as the command codes them. -/
def CReq.of (n : BitVec 2) : CReq :=
  match n.toNat with
  | 0 => .read
  | 1 => .writeFull
  | 2 => .writePart
  | _ => .atomic

/-- R200: CACHE_REQUEST. -/
def execCacheRequest (source : CacheSource) (kind : BitVec 2) (ecc : CacheEcc) (s : State) :
    Host.Outcome State Fault Refusal :=
  onChip (fun c => c.cacheRequest source (CReq.of kind) ecc) s

end Sys2Proof.Machine
end

