-- ==== Sys2Proof/Machine/HostLink.lean ====
section
/-!
DEFINITION. The host interface (R87, R502 to R511): completions of the device's requests, translation
invalidations, resets of the host's view, and configuration writes.
-/

namespace Sys2Proof.Machine

/-! ## Completions (R509) -/

/-- R509: the status of a host completion's outcome: successful, UR, CA or denied, EP set. -/
def hostStatus (outcome : Nat) : Half :=
  if outcome = 0 then St.ok else if outcome = 2 then St.poisoned else St.permissionFault

/-- A completion fits its request: a translation has eight bytes, a read's data the length asked for. -/
def Req.fits (r : Req) (outcome : Nat) (bs : List Byte) : Bool :=
  outcome != 0 || (if r.asks then bs.length == 8 else
    match r.kind with
    | .read n => bs.length == n
    | _ => true)

/-- R509: HOST_COMPLETION: the request with a tag is answered, or the translation that it asked for is granted: then a
read goes on under its tag, and a write is done. (DEDUCED, assumption 119.) -/
def Chip.hostCompletion (c : Chip) (tag outcome : Nat) (bs : List Byte) : Chip :=
  match c.reqs.find? fun r => r.sent && r.host && r.tag == tag with
  | none => c
  | some r =>
    if !r.fits outcome bs then c
    else if r.asks ∧ outcome = 0 then
      let c1 := c.granted r (grantedPage bs)
      match r.kind with
      | .read _ => c1
      | _ => c1.respond r St.ok []
    else c.respond r (hostStatus outcome) bs

def execHostCompletion (tag : Half) (outcome : BitVec 2) (bytes : List Byte) (s : State) :
    Host.Outcome State Fault Refusal :=
  onChip (fun c => c.hostCompletion tag.toNat outcome.toNat bytes) s

/-- R509: PCIE_COMPLETION_TIMEOUT. -/
def execPcieCompletionTimeout (tag : Half) (s : State) : Host.Outcome State Fault Refusal :=
  onChip (fun c => c.hostCompletion tag.toNat 1 []) s

/-- Whether a page lies in the range of an ATS Invalidate Request. -/
def inPages (lo n page : Nat) : Bool := decide (lo ≤ page) && decide (page < lo + n)

/-- R509: ATS_INVALIDATE of a function's host pages: the cache forgets them, and the request is completed once every
access that used one of their translations has completed. -/
def Chip.atsInvalidate (c0 : Chip) (fn tag lo n : Nat) : Chip :=
  if !c0.fnEnabled fn then c0
  else
    let c := { c0 with pcie := c0.pcie.forget fn (inPages lo n) }
    let open_ := (c.reqs.filter fun r =>
      r.sent && r.host && r.part == fn && r.xlat.isSome && inPages lo n (r.addr / 4096)).map Req.tag
    if open_.isEmpty then (c.emit (.atsDone tag)).count Fld.PCI_ATS_INV_CNT_COUNT
    else { c with pcie := { c.pcie with invals := c.pcie.invals ++ [(tag, open_)] } }

def execAtsInvalidate (fn : BitVec 4) (r : AtsRange) (s : State) : Host.Outcome State Fault Refusal :=
  onChip (fun c => c.atsInvalidate fn.toNat r.tag.toNat r.page.toNat r.pages.toNat) s

/-! ## MSI-X (R87) -/

/-- R87: pending vectors of a function that may now be sent are raised once. (PRESUMED, assumption 142.) -/
def Chip.sendPending (c : Chip) (fn : Nat) : Chip :=
  c.msix.foldl (fun c kv =>
    if kv.1 / 2048 = fn ∧ kv.2.pending ∧ !kv.2.masked ∧ c.mayMsix fn then
      { c with msix := KMap.set kv.1 { kv.2 with pending := false } c.msix }.emit (.msix fn (kv.1 % 2048))
    else c) c

/-- R87: the vectors of a function's table. -/
def vectors (fn : Nat) : Nat := if fn = 0 then 1088 else 64

/-- R87: the mask bit of a vector. (PRESUMED, assumption 142.) -/
def Chip.maskVector (c : Chip) (fn v : Nat) (masked : Bool) : Chip :=
  let k := fn * 2048 + v
  { c with msix := KMap.set k { KMap.getD c.msix k {} with masked := masked } c.msix }.sendPending fn

/-- R87: MSIX_UNMASK. -/
def execMsixUnmask (fn : BitVec 4) (v : BitVec 11) (s : State) : Host.Outcome State Fault Refusal :=
  onChip (fun c => if !c.fnEnabled fn.toNat ∨ v.toNat ≥ vectors fn.toNat then c
    else c.maskVector fn.toNat v.toNat false) s

/-! ## Resets of the host's view (R510, R511) -/

/-- A mask without a function's bit. -/
def clearBit (m i : Nat) : Nat := if bit m i then m - 2 ^ i else m

/-- A mask with a function's bit at a value. -/
def putBit (m i : Nat) (on : Bool) : Nat := if on then m ||| 2 ^ i else clearBit m i

/-- R510: the configuration space and the MSI-X table of a function are reset. (DEDUCED, assumption 120.) -/
def Chip.resetFn (c : Chip) (fn : Nat) : Chip :=
  { c with
    pcie := { c.pcie with bme := clearBit c.pcie.bme fn, ats := clearBit c.pcie.ats fn, d3 := clearBit c.pcie.d3 fn,
                          msixOn := clearBit c.pcie.msixOn fn, msixMask := clearBit c.pcie.msixMask fn }.forget fn
                          fun _ => true
    msix := KMap.drop (fun k => k / 2048 == fn) c.msix }

/-- R510: every function's view is reset; partitions go on. (DEDUCED, assumption 121.) -/
def Chip.resetView (c : Chip) : Chip :=
  { c with msix := [], pcie := {} }.setSpdm 0

/-- R510, R526: a Hot Reset or a Link Down, and the link as it is afterwards. (DEDUCED, assumption 120.) -/
def Chip.hotReset (c : Chip) (down : Bool) (up : Option LinkUp) : Chip :=
  if c.perst then c
  else
    let c1 := if down ∧ c.flag Fld.PCI_LINK_UP then c.resetView.count Fld.PCI_LINK_DOWNS else c.resetView
    match up with
    | none => ((c1.setFld Fld.PCI_LINK_UP 0 0).setFld Fld.PCI_LINK_SPEED 0 0).setFld Fld.PCI_LINK_WIDTH 0 0
    | some l => ((c1.setFld Fld.PCI_LINK_UP 0 1).setFld Fld.PCI_LINK_SPEED 0 l.speed.toNat).setFld Fld.PCI_LINK_WIDTH 0
        l.width.toNat

def execHotReset (down : Bool) (up : Option LinkUp) (s : State) : Host.Outcome State Fault Refusal :=
  onChip (fun c => c.hotReset down up) s

/-- R510: VF Enable and NumVFs: functions that are no longer enabled have their view reset. -/
def Chip.vfChange (c : Chip) (on : Bool) (n : Nat) : Chip :=
  if !c.fnEnabled 0 then c
  else
    let c1 := { c with pcie := { c.pcie with vfEnable := on, numVfs := n } }
    ((rangeFrom 1 15).filter fun p => c.fnEnabled p && !c1.fnEnabled p).foldl (fun c p => c.resetFn p) c1

def execVfEnableChange (on : Bool) (n : BitVec 4) (s : State) : Host.Outcome State Fault Refusal :=
  onChip (fun c => c.vfChange on n.toNat) s

/-! ## The configuration identity (R503) -/

/-- R503: the class code, a processing accelerator. -/
def classCode : Nat := 0x120000

/-- R503: the Device ID of a function: DEV_ID.PART, or one more for a virtual one. -/
def Chip.deviceId (c : Chip) (fn : Nat) : Nat := c.fld Fld.DEV_ID_PART + b2n (fn != 0)

/-- R503: the Revision ID. -/
def Chip.revisionId (c : Chip) : Nat := c.fld Fld.DEV_ID_STEPPING

/-- R503: SR-IOV's TotalVFs, First VF Offset and VF Stride; and the routing ID of a function. -/
def totalVfs : Nat := 15
def firstVfOffset : Nat := 1
def vfStride : Nat := 1
def routingId (pf p : Nat) : Nat := if p = 0 then pf else pf + firstVfOffset + vfStride * (p - 1)

/-! ## Configuration writes (R502, R504) -/

/-- R502, R504: whether a value is one that the item supports. -/
def cfgValid (i : CfgItem) (v : Nat) : Bool :=
  match i with
  | .bar4Size | .vfBar4Size => decide (28 ≤ v) && decide (v ≤ 39)
  | .maxPayload => [128, 256, 512].contains v
  | .maxRead => [128, 256, 512, 1024, 2048, 4096].contains v
  | .timeout => [0, 5, 6, 9, 10].contains v
  | _ => true

/-- R502: the items that the physical function alone holds. -/
def cfgPhysical (i : CfgItem) : Bool :=
  match i with
  | .bar4Size | .vfBar4Size | .maxPayload | .maxRead | .aspmL1 | .timeout => true
  | _ => false

/-- The configuration space after a write. -/
def Pcie.write (x : Pcie) (fn : Nat) (i : CfgItem) (v : Nat) : Pcie :=
  let on := v % 2 == 1
  match i with
  | .busMaster => { x with bme := putBit x.bme fn on }
  | .d3hot => { x with d3 := putBit x.d3 fn on }
  | .ats => { x with ats := putBit x.ats fn on }.forget fn fun _ => true
  | .msixEnable => { x with msixOn := putBit x.msixOn fn on }
  | .msixMask => { x with msixMask := putBit x.msixMask fn on }
  | .bar4Size => { x with bar4 := v }
  | .vfBar4Size => { x with vfBar4 := v }
  | .maxPayload => { x with maxPayload := v }
  | .maxRead => { x with maxRead := v }
  | .aspmL1 => { x with aspmL1 := on }
  | .timeout => { x with timeoutRange := v % 16 }

/-- R87, R502: CONFIG_SPACE_WRITE; vectors that may now be sent are raised. (PRESUMED, assumption 142.) -/
def Chip.configWrite (c : Chip) (fn : Nat) (i : CfgItem) (v : Nat) : Chip :=
  if !c.fnEnabled fn ∨ !cfgValid i v ∨ (cfgPhysical i ∧ fn ≠ 0) then c
  else { c with pcie := c.pcie.write fn i v }.sendPending fn

def execConfigSpaceWrite (fn : BitVec 4) (item : CfgItem) (val : Word) (s : State) : Host.Outcome State Fault Refusal :=
  onChip (fun c => c.configWrite fn.toNat item val.toNat) s

/-- R511: FLR of a virtual function: its view, and RESET of its partition where that is OPEN or READY.
(DEDUCED, assumption 121.) -/
def Chip.flr (c : Chip) (p : Nat) : Chip :=
  if p = 0 ∨ !c.fnEnabled p then c else (c.resetFn p).startReset p false

def execFlr (p : BitVec 4) (s : State) : Host.Outcome State Fault Refusal := onChip (fun c => c.flr p.toNat) s

end Sys2Proof.Machine
end

