-- ==== Sys2Proof/Machine/Mailbox.lean ====
section
/-!
DEFINITION. The mailbox (R489 to R492), the firmware update through it (R493), the calibration store (R495) and
ageing (R496 to R498). A command latches its arguments and starts an operation; MGT_DONE does its work and ends it.
-/

namespace Sys2Proof.Machine

/-! ## Starting and ending an operation (R489 to R491) -/

/-! The values of RESULT (R492). -/
namespace Res
def done : Nat := 0
def badCommand : Nat := 1
def badArgument : Nat := 2
def notAllowed : Nat := 3
def verifyFailed : Nat := 4
def signatureInvalid : Nat := 5
def flashError : Nat := 6
def aborted : Nat := 7
def unitFailed : Nat := 8
end Res

/-- R489: an operation ends: MGT_RES, RESULT, DONE, vector 3.
(DEDUCED, assumption 107.) -/
def Chip.finishOp (c : Chip) (result : Nat) (res : List Nat) : Chip :=
  ((List.range 8).foldl (fun c i => c.setRg (Reg.MGT_RES + 4 * i) (BitVec.ofNat 32 (res.getD i 0))) c).endOp result

/-- R490: a refused write of MGT_CMD. -/
def Chip.refuseMgt (c : Chip) : Chip :=
  (c.setFld Fld.MGT_STATUS_REFUSED 0 St.mgtBusy.toNat).count Fld.MGT_BUSY_CNT_COUNT

/-- R454, R490: the mailbox is served: by the firmware of a running device, or by the boot ROM in rescue mode.
(DEDUCED, assumption 106.) -/
def Chip.mgtServed (c : Chip) : Bool :=
  c.firmwareRuns && (c.fld Fld.MGT_STATE_MODE == 1 || c.fld Fld.MGT_STATE_MODE == 2)

/-- R486: rescue mode. -/
def Chip.inRescue (c : Chip) : Bool := c.fld Fld.MGT_STATE_MODE == 2

/-- The arguments as they stand. -/
def Chip.mgtArgs (c : Chip) : List Nat := (List.range 8).map fun i => (c.rg (Reg.MGT_ARG + 4 * i)).toNat

/-- An operation is running: BUSY, MGT_OP. -/
def Chip.beginOp (c : Chip) (o : MgtOp) : Chip :=
  ({ c with mgt := { c.mgt with op := some o } }.setFld Fld.MGT_STATUS_BUSY 0 1).setRg Reg.MGT_OP (BitVec.ofNat 32 o.code)

/-- R489 to R491: a write of MGT_CMD: refused, ended at once, or an operation starts. `normal` and `rescue` are the
modes that the code is allowed in; `check` gives the result of a command whose conditions fail.
(DEDUCED, assumptions 106, 116.) -/
def Chip.mgtStart (code : Nat) (normal rescue : Bool) (check : Chip → Option Nat) (start : Chip → Chip) (c : Chip) :
    Chip :=
  if !c.fnEnabled 0 then c
  else if !c.mgtServed ∨ c.flag Fld.MGT_STATUS_BUSY then c.refuseMgt
  else
    let c1 := (c.setFld Fld.MGT_STATUS_REFUSED 0 0).wakeDevice
    if !(if c1.inRescue then rescue else normal) then c1.finishOp Res.badCommand []
    else
      match check c1 with
      | some r => c1.finishOp r []
      | none => start (c1.beginOp { code := code, args := c1.mgtArgs })

/-- The command's conditions always hold. -/
def always (_ : Chip) : Option Nat := none

/-- The command's result where a condition fails. -/
def orElse (ok : Bool) (result : Nat) : Option Nat := if ok then none else some result

/-- Words written to MGT_DATA (R501), 4 bytes each. -/
def mgtData : Nat := 0xE40000

/-- The first `n` bytes of MGT_DATA. -/
def Chip.mgtBytes (c : Chip) (n : Nat) : List Byte := (c.wordsAt mgtData ((n + 3) / 4)).take n

/-- Bytes in MGT_DATA's words. -/
def Chip.setMgtData (c : Chip) (bs : List Byte) : Chip :=
  (List.range ((bs.length + 3) / 4)).foldl (fun c i => c.setRg (mgtData + 4 * i) (wordAt bs (4 * i))) c

/-! ## The commands (R491) -/

/-- R491: INFO. -/
def mgtInfo : Chip → Chip :=
  Chip.mgtStart 0x01 true true always id

def execInfo (s : State) : Host.Outcome State Fault Refusal := onChip mgtInfo s

/-- R491: LEDGER_READ. -/
def mgtLedgerRead : Chip → Chip :=
  Chip.mgtStart 0x02 true true
    (fun c => orElse (decide ((c.rg Reg.MGT_ARG).toNat ≤ 1)) Res.badArgument) id

def execLedgerRead (s : State) : Host.Outcome State Fault Refusal := onChip mgtLedgerRead s

/-- R491: LEDGER_RESET. -/
def mgtLedgerReset : Chip → Chip :=
  Chip.mgtStart 0x03 true true always id

def execLedgerReset (s : State) : Host.Outcome State Fault Refusal := onChip mgtLedgerReset s

/-- R491: RESCUE. -/
def mgtRescue : Chip → Chip :=
  Chip.mgtStart 0x04 true false always id

def execRescue (s : State) : Host.Outcome State Fault Refusal := onChip mgtRescue s

/-- A session of the mailbox is open: its set is not verified yet. (DEDUCED, assumption 108.) -/
def Chip.mgtSession (c : Chip) : Option Nat :=
  match c.mgt.staging with
  | some st => if st.pldm ∨ st.verified then none else some st.set
  | none => none

/-- R491: the set that FW_BEGIN opens. -/
def Chip.beginSet (c : Chip) : Nat :=
  1 - (if c.inRescue then c.fld Fld.MGT_STATE_PREF_SET else c.fld Fld.MGT_STATE_RUN_SET)

/-- R493, R494: no PLDM update is under way, and no session is open. -/
def Chip.mayBeginFw (c : Chip) : Bool :=
  c.mgt.fd == .idle && c.mgtSession.isNone && !(c.mgt.staging.any fun st => st.pldm)

/-- R491, R493: FW_BEGIN. -/
def mgtFwBegin : Chip → Chip :=
  Chip.mgtStart 0x10 true true (fun c => orElse c.mayBeginFw Res.notAllowed)
    (fun c => c.beginOp { code := 0x10, args := [c.beginSet] })

def execFwBegin (s : State) : Host.Outcome State Fault Refusal := onChip mgtFwBegin s

/-- R491: FW_DATA's offset and length. -/
def fwDataOk (o n : Nat) : Bool :=
  o % 4096 == 0 && n % 4096 == 0 && decide (0 < n) && decide (n ≤ 0x40000) && decide (o + n ≤ 0x1800000)

/-- R491, R493: FW_DATA. -/
def mgtFwData : Chip → Chip :=
  Chip.mgtStart 0x11 true true (fun c =>
    if c.mgtSession.isNone then some Res.notAllowed
    else orElse (fwDataOk (c.rg Reg.MGT_ARG).toNat (c.rg (Reg.MGT_ARG + 4)).toNat) Res.badArgument) id

def execFwData (s : State) : Host.Outcome State Fault Refusal := onChip mgtFwData s

/-- R491, R493: FW_END. -/
def mgtFwEnd : Chip → Chip :=
  Chip.mgtStart 0x12 true true (fun c => orElse c.mgtSession.isSome Res.notAllowed) id

def execFwEnd (s : State) : Host.Outcome State Fault Refusal := onChip mgtFwEnd s

/-- R493: a verified set of the mailbox. (DEDUCED, assumption 108.) -/
def Chip.mayActivate (c : Chip) : Bool := c.mgt.staging.any fun st => st.verified && !st.pldm

/-- R491, R493: FW_ACTIVATE. -/
def mgtFwActivate : Chip → Chip :=
  Chip.mgtStart 0x13 true true (fun c => orElse c.mayActivate Res.notAllowed) id

def execFwActivate (s : State) : Host.Outcome State Fault Refusal := onChip mgtFwActivate s

/-- R491: FW_CANCEL. (DEDUCED, assumption 108.) -/
def mgtFwCancel : Chip → Chip :=
  Chip.mgtStart 0x14 true true always id

def execFwCancel (s : State) : Host.Outcome State Fault Refusal := onChip mgtFwCancel s

/-- R480: the bytes of a calibration store: its 64 KiB hold at least the header. (DEDUCED, assumption 110.) -/
def calSizeOk (n : Nat) : Bool := decide (64 ≤ n) && decide (n ≤ 0x10000)

/-- R491, R495: CAL_WRITE. -/
def mgtCalWrite : Chip → Chip :=
  Chip.mgtStart 0x20 true false (fun c => orElse (calSizeOk (c.rg Reg.MGT_ARG).toNat) Res.badArgument) id

def execCalWrite (s : State) : Host.Outcome State Fault Refusal := onChip mgtCalWrite s

/-- R491, R495: CAL_EXPORT. (DEDUCED, assumption 110.) -/
def mgtCalExport : Chip → Chip :=
  Chip.mgtStart 0x21 true false always id

def execCalExport (s : State) : Host.Outcome State Fault Refusal := onChip mgtCalExport s

/-- R491, R495: CAL_IMPORT: the blob is an image and 96 bytes of signature. -/
def mgtCalImport : Chip → Chip :=
  Chip.mgtStart 0x22 true false
    (fun c => orElse (decide (96 ≤ (c.rg Reg.MGT_ARG).toNat) && calSizeOk ((c.rg Reg.MGT_ARG).toNat - 96)) Res.badArgument)
    id

def execCalImport (s : State) : Host.Outcome State Fault Refusal := onChip mgtCalImport s

/-- R490: a command that needs the clusters or the stacks wakes them. (DEDUCED, assumption 116.) -/
def Chip.wakeAll (c : Chip) : Chip := (List.range 12).foldl (fun c g => c.groupWake g) c.wakeDevice

/-- R491: no queue of partition 0 holds a begun descriptor. -/
def Chip.zeroIdle (c : Chip) : Bool := c.queues.all fun kq => partOf kq.1 != 0 || kq.2.entries.isEmpty

/-- The stack mask of MEM_RETRAIN names populated stacks only. -/
def Chip.maskOk (c : Chip) : Bool :=
  decide (bits (c.rg Reg.MGT_ARG).toNat 5 0 < 2 ^ c.fld Fld.DEV_CAPS0_STACKS)

/-- R491: MEM_RETRAIN. -/
def mgtMemRetrain : Chip → Chip :=
  Chip.mgtStart 0x30 true false
    (fun c => if !c.maskOk then some Res.badArgument else orElse (c.aloneWithZero && c.zeroIdle) Res.notAllowed)
    Chip.wakeAll

def execMemRetrain (s : State) : Host.Outcome State Fault Refusal := onChip mgtMemRetrain s

/-- R491: TEST_FULL. -/
def mgtTestFull : Chip → Chip :=
  Chip.mgtStart 0x40 true false always Chip.wakeAll

def execTestFull (s : State) : Host.Outcome State Fault Refusal := onChip mgtTestFull s

/-- R491, R496: AGE_MEASURE. -/
def mgtAgeMeasure : Chip → Chip :=
  Chip.mgtStart 0x50 true false always Chip.wakeAll

def execAgeMeasure (s : State) : Host.Outcome State Fault Refusal := onChip mgtAgeMeasure s

/-! ## Ageing (R496 to R498) -/

/-- R497: the new guard-band of a group at a clock point, in mV; `sens` in 0.01 mV per ps. -/
def newBand (band drift sens : Nat) : Nat := max band (5 * ((drift * sens + 499) / 500))

/-- R497: the guard-bands of every group and clock point after a re-plan. -/
def Chip.planBands (c : Chip) : List Nat :=
  (List.range 36).map fun i =>
    newBand (c.mgt.bands.getD i 0) (c.mgt.drift.getD (i / 3) 0) (Config.calSens c.mgt.image (i / 3) (i % 3))

/-- R497: a group whose set point would pass 850 mV. (DEDUCED, assumption 113.) -/
def overLimit (image : List Byte) (bands : List Nat) (g : Nat) : Bool :=
  (List.range 3).any fun f => decide (Config.calPoint image f + bands.getD (3 * g + f) 0 > 850)

/-- R497: the re-plan is computed: LIMIT and AGEING_LIMIT, and every group waits for its window.
(DEDUCED, assumption 113.) -/
def Chip.replan (code : Nat) (c : Chip) : Chip :=
  let bands := c.planBands
  let worn := (List.range 12).filter (overLimit c.mgt.image bands)
  let c1 := c.beginOp { code := code, args := c.mgtArgs, groups := List.range 12, bands := bands }
  let c2 := if worn.isEmpty then c1 else c1.setFld Fld.MGT_AGE_STATUS_LIMIT 0 1
  worn.foldl (fun c g => c.postEvent 0 0x0081 0 g) c2

/-- R491, R497: AGE_REPLAN. -/
def mgtAgeReplan : Chip → Chip :=
  Chip.mgtStart 0x51 true false always (Chip.replan 0x51)

def execAgeReplan (s : State) : Host.Outcome State Fault Refusal := onChip mgtAgeReplan s

/-- R498: a group's window: each partition that holds its clusters is calm (2 ms) if deterministic, and its elastic
clusters are empty. (DEDUCED, assumption 114.) -/
def Chip.hasWindow (c : Chip) (g : Nat) : Bool :=
  (c.groupClusters g).all fun cl =>
    let p := (c.cluster cl).part
    if (c.part p).det then c.calmFor p 2000000 else (c.cluster cl).wgs.isEmpty

/-- A list with the three guard-bands of a group replaced. -/
def takeBands (g : Nat) (old new : List Nat) : List Nat :=
  (List.range 36).map fun i => if i / 3 = g then new.getD i 0 else old.getD i 0

/-- R498: SETPOINT_APPLY: a group takes its new set points in its window. -/
def Chip.applyPoint (c : Chip) (g : Nat) : Chip :=
  match c.mgt.op with
  | none => c
  | some o =>
    if !o.groups.contains g ∨ !c.hasWindow g ∨ !c.firmwareRuns then c
    else { c with mgt := { c.mgt with bands := takeBands g c.mgt.bands o.bands
                                      op := some { o with groups := o.groups.filter (· != g) } } }

def execSetpointApply (g : BitVec 4) (s : State) : Host.Outcome State Fault Refusal :=
  onChip (fun c => c.applyPoint g.toNat) s

/-- The clock point of a group: the fastest of those that its holders run at (R27, R28).
(DEDUCED, assumption 114.) -/
def Chip.groupClock (c : Chip) (g : Nat) : Nat :=
  ((c.groupClusters g).map fun cl => (c.part (c.cluster cl).part).clock).min?.getD 0

/-- R497, R498: the set point that a group runs at, in mV. -/
def Chip.groupPoint (c : Chip) (g : Nat) : Nat :=
  setPoint c.mgt.image (c.groupClock g) (c.mgt.bands.getD (3 * g + c.groupClock g) 0)

/-- R498: the external VDD_CORE set point in mV: 30 mV above the highest group's. -/
def Chip.coreRail (c : Chip) : Nat := ((List.range 12).map c.groupPoint).foldl max 0 + 30

/-- R496: OP_HOUR: an hour with VDD_CORE up and the device not in decaf. (DEDUCED, assumption 115.) -/
def opHour (nv : NonVol) (c : Chip) : NonVol × Chip :=
  if !c.powered ∨ (c.fld Fld.MGT_STATE_MODE ≠ 1 ∧ c.fld Fld.MGT_STATE_MODE ≠ 3) ∨ c.fld Fld.PWR_DEVSTATE_STATE = 2 then (nv, c)
  else
    let nv1 := nv.modLedger fun l => { l with opHours := l.opHours + 1 }
    (nv1, c.showLedger nv1)

def execOpHour (s : State) : Host.Outcome State Fault Refusal := onBoth opHour s

/-- The device and every group are awake. -/
def Chip.awake (c : Chip) : Bool :=
  c.fld Fld.PWR_DEVSTATE_STATE == 0 && (List.range 12).all fun g => c.groupState g == 0

/-- R496: AUTO_AGE_MEASURE: due, and the mailbox is free; a re-plan follows.
(DEDUCED, assumptions 107, 113.) -/
def autoAge (drift : List Byte) (nv : NonVol) (c : Chip) : NonVol × Chip :=
  if nv.ledger.opHours - nv.ledger.ageHours < 256 ∨ !c.mgtServed ∨ c.inRescue ∨ c.flag Fld.MGT_STATUS_BUSY then (nv, c)
  else if !c.awake then (nv, c.wakeAll)
  else
    let nv1 := nv.modLedger fun l => { l with ageHours := l.opHours }
    (nv1, Chip.replan 0xF0 ((c.measureAge drift).showLedger nv1))

def execAutoAgeMeasure (drift : List Byte) (s : State) : Host.Outcome State Fault Refusal := onBoth (autoAge drift) s

/-! ## Provisioning (R460, R491) -/

/-- R491: some ROOT_HASH slot would stay programmed and unrevoked. -/
def NonVol.keeps (nv : NonVol) (revoked : Nat) : Bool :=
  (List.range 4).any fun k => nv.rootHash.getD k 0 != 0 && !bit revoked k

/-- The revocation bits after a PROVISION. -/
def NonVol.revokedWith (nv : NonVol) (c : Chip) : Nat := nv.revoked ||| bits (c.rg Reg.MGT_ARG).toNat 7 4

/-- R477: SEC_LOCK stands against a PROVISION that the mailbox would serve. (DEDUCED, assumption 105.) -/
def Chip.provisionLocked (c : Chip) : Bool :=
  c.flag Fld.SEC_LOCK_LOCK && c.fnEnabled 0 && c.mgtServed && !c.flag Fld.MGT_STATUS_BUSY && c.inRescue

/-- R460, R477, R491: PROVISION, in rescue mode alone; once SEC_LOCK is set it is refused, and counted.
(DEDUCED, assumption 105.) -/
def mgtProvision (nv : NonVol) (c : Chip) : Chip :=
  let c1 := Chip.mgtStart 0x60 false true
    (fun c => orElse (!c.flag Fld.SEC_LOCK_LOCK && nv.keeps (nv.revokedWith c)) Res.notAllowed) id c
  if c.provisionLocked then c1.regError Reg.MGT_CMD else c1

def execProvision (s : State) : Host.Outcome State Fault Refusal := onBoth (fun nv c => (nv, mgtProvision nv c)) s

/-- R491: a write of MGT_CMD with any code; one that is not listed ends with BAD_COMMAND. -/
def mgtCommand (nv : NonVol) (code : Nat) : Chip → Chip :=
  match code with
  | 0x01 => mgtInfo
  | 0x02 => mgtLedgerRead
  | 0x03 => mgtLedgerReset
  | 0x04 => mgtRescue
  | 0x10 => mgtFwBegin
  | 0x11 => mgtFwData
  | 0x12 => mgtFwEnd
  | 0x13 => mgtFwActivate
  | 0x14 => mgtFwCancel
  | 0x20 => mgtCalWrite
  | 0x21 => mgtCalExport
  | 0x22 => mgtCalImport
  | 0x30 => mgtMemRetrain
  | 0x40 => mgtTestFull
  | 0x50 => mgtAgeMeasure
  | 0x51 => mgtAgeReplan
  | 0x60 => mgtProvision nv
  | _ => Chip.mgtStart code false false always id

/-! ## The work of an operation (R489) -/

/-- The outcome of an operation: the stores, the chip, RESULT and MGT_RES. -/
abbrev OpEnd := NonVol × Chip × Nat × List Nat

/-- A change of the ledger, where the flash write verifies. -/
def ledgerOp (ok : Bool) (f : Ledger → Ledger) (nv : NonVol) (c : Chip) : OpEnd :=
  if ok then (nv.modLedger f, c.showLedger (nv.modLedger f), Res.done, []) else (nv, c, Res.flashError, [])

/-- R491: INFO's results. -/
def infoRes (nv : NonVol) (c : Chip) : List Nat :=
  let l := nv.ledger
  [c.mgt.fwId, l.runSet + 2 * l.prefSet + 4 * b2n (l.prefSet != l.runSet), l.boots, l.opHours]

/-- R491: the record that LEDGER_READ copies; what an invalid copy holds is free.
(DESIGN CHOICE, assumption 111.) -/
def ledgerCopy (nv : NonVol) (c : Chip) (other : Nat) : List Byte :=
  if other = 0 then nv.ledger.bytes
  else
    match nv.olderLedger with
    | some l => l.bytes
    | none => (List.range 256).map fun i => BitVec.ofNat 8 (Config.freeNat c.ctr i)

/-- R493: bytes of a firmware set are written. -/
def NonVol.writeSet (nv : NonVol) (set o : Nat) (bs : List Byte) : NonVol :=
  { nv with flash := (rangeFrom (set * 0x1800000 + o) bs.length).zip bs |>.foldl (fun m x => KMap.put 0xFF x.1 x.2 m) nv.flash }

/-- R493: the first image of a set that fails a check of R462, with its TYPE.
(DESIGN CHOICE, assumption 109.) -/
def NonVol.badImage (nv : NonVol) (set : Nat) : Option (Nat × Nat) :=
  ((List.range 3).map fun t => (nv.verify set t, t)).find? fun x => x.1 != 0

/-- R493: the images carry one FW_ID. -/
def NonVol.sameFwId (nv : NonVol) (set : Nat) : Bool :=
  nv.imageFwId set 0 == nv.imageFwId set 1 && nv.imageFwId set 1 == nv.imageFwId set 2

/-- R493: FW_END: the set is verified, or the session ends without it. RES0 and RES1 of a set that fails on FW_ID
alone are free. (DEDUCED, assumption 108; DESIGN CHOICE, assumption 109.) -/
def fwEnd (nv : NonVol) (c : Chip) (st : Staging) : OpEnd :=
  let closed := { c with mgt := { c.mgt with staging := none } }
  match nv.badImage st.set with
  | some (r, t) => (nv, closed, Res.verifyFailed, [r, t])
  | none =>
    if nv.sameFwId st.set then (nv, { c with mgt := { c.mgt with staging := some { st with verified := true } } }, Res.done, [])
    else (nv, closed, Res.verifyFailed, [Config.freeNat c.ctr 0, Config.freeNat c.ctr 1])

/-- R491, R493: the staged set becomes the preferred one from the next boot, and its session closes. -/
def activateSet (ok : Bool) (set : Nat) (nv : NonVol) (c : Chip) : OpEnd :=
  if ok then
    ledgerOp true (fun l => { l with prefSet := set, decision := l.decision &&& (0xFFFFFFFF ^^^ (2 ^ 5 + 2 ^ 8 + 2 ^ 14)) }) nv
      { c with mgt := { c.mgt with staging := none } }
  else (nv, c, Res.flashError, [])

/-- R495: the checks of a calibration image. (DESIGN CHOICE, assumption 103.) -/
def calAccepts (nv : NonVol) (image : List Byte) : Bool :=
  fieldLE image 0 4 == 0x4C414346 && fieldLE image 8 8 == nv.serial.toNat && Config.calOk image
    && (List.range 3).all fun f => decide (650 ≤ Config.calPoint image f) && decide (Config.calPoint image f ≤ 850)

/-- R467, R495: measurement 6 follows the store. -/
def Chip.measureCal (c : Chip) (image : List Byte) : Chip :=
  { c with sec := { c.sec with measured := if c.sec.measured = [] then [] else c.sec.measured.set 4 (sha384 image) } }

/-- R495: an image replaces the store, where it passes the checks; bit 10 of DECISION clears. -/
def writeCal (ok : Bool) (image : List Byte) (nv : NonVol) (c : Chip) : OpEnd :=
  if !calAccepts nv image then (nv, c, Res.badArgument, [])
  else
    let k : Cal := { image := image, bands := (List.range 36).map fun i => Config.calBand image (i / 3) (i % 3) }
    if ok then
      ledgerOp true (fun l => { l with decision := l.decision &&& (0xFFFFFFFF ^^^ 2 ^ 10) }) { nv with cal := some k }
        (c.measureCal image)
    else (nv, c, Res.flashError, [])

/-- R495: a signature of 96 bytes over a SHA-384, made with the identity key.
(DESIGN CHOICE, assumption 97.) -/
def calSignature (nv : NonVol) (c : Chip) (image : List Byte) : List Byte :=
  let r := Config.crypto 0xCE [nv.uds, c.ctr, sha384 image]
  (List.range 96).map fun i => BitVec.ofNat 8 (r.getD i 0)

/-- R495: a blob's signature verifies under this device's identity key, or an unrevoked key of ROOT_HASH.
(DESIGN CHOICE, assumption 59.) -/
def blobSigned (nv : NonVol) (image sig : List Byte) : Bool :=
  let d := sha384 image
  ecdsaOk ((Config.crypto 0xE1 [nv.uds]).headD 0) d (beNat sig)
    || (List.range 4).any fun k => nv.rootHash.getD k 0 != 0 && !bit nv.revoked k
        && Config.ecdsaUnder (nv.rootHash.getD k 0) d (beNat sig)

/-- R491: MEM_RETRAIN: trained stacks have their record rewritten; a stack that fails has lost its memory
controller (R437). (DEDUCED, assumption 112.) -/
def retrain (w : MgtSample) (mask : Nat) (nv : NonVol) (c : Chip) : OpEnd :=
  let named := (List.range nv.stacks).filter (bit mask)
  let bad := named.filter fun s => w.untrained.getLsbD s
  let good := named.filter fun s => !w.untrained.getLsbD s
  let c1 := bad.foldl (fun c s => c.sharedFault .memory s) c
  if !w.flashOk then (nv, c1, Res.flashError, [])
  else
    let nv1 := { nv with training := good.foldl (fun m s => KMap.set s nv.ledger.boots m) nv.training }
    if !bad.isEmpty then (nv1, c1, Res.unitFailed, [])
    else if good.length = nv.stacks then
      ledgerOp true (fun l => { l with decision := l.decision &&& (0xFFFFFFFF ^^^ 2 ^ 19) }) nv1 c1
    else (nv1, c1, Res.done, [])

/-- R442: a cluster under full test fails: a spare has its identity, and it is retired without re-execution. A
cluster that cannot be lent, or with no spare to stand in, was not tested. (DEDUCED, assumption 112.) -/
def Chip.testFails (c : Chip) (cl : Nat) : Chip :=
  let k := c.cluster cl
  match c.freeSpares.getLast? with
  | none => c
  | some f =>
    if !c.lendable cl then c
    else (((c.setCluster cl (k.moveTo f)).unitFault .cluster cl [k.part] .replaced).retirePhys k.phys).spareGone

/-- R141, R442: a cluster has passed the four slices of its test: for each its identity has moved to a spare and back. -/
def Cluster.testedFull (k : Cluster) : Cluster := { k.prepared with epoch := k.epoch + 8 }

/-- R442: the clusters that a full test tests: those that a spare can stand in for, where there is one. -/
def Chip.testable (c : Chip) : List Nat :=
  if c.freeSpares.isEmpty then [] else (List.range (c.fld Fld.DET_MAP_NATURAL)).filter c.lendable

/-- R442: a full test is deferred: a cluster in service cannot be lent yet. -/
def Chip.testDeferred (c : Chip) : Bool :=
  !c.freeSpares.isEmpty && (List.range (c.fld Fld.DET_MAP_NATURAL)).any fun cl =>
    (c.cluster cl).st == .inService && !c.lendable cl

/-- R349, R442: the unused lane of a port fails its test. (DEDUCED, assumption 112.) -/
def Chip.laneTestFails (c : Chip) (l : Nat) : Chip :=
  if l % 16 = 8 ∧ !c.flag Fld.AXL_PORT_STATUS_SPARE_USED (po (l / 16)) then c.laneFault (l / 16) 8 else c

/-- R437, R442: a cached way fails its test. (DEDUCED, assumption 112.) -/
def Chip.wayTestFails (c : Chip) (w : Nat) : Chip := if c.way w = .cached then c.wayFault w else c

/-- R491: TEST_FULL. (DEDUCED, assumption 112.) -/
def testFull (w : MgtSample) (nv : NonVol) (c : Chip) : OpEnd :=
  let passed := c.testable.filter fun cl => !w.clusters.any fun x => x.toNat == cl
  let c0 := passed.foldl (fun c cl => c.setCluster cl (c.cluster cl).testedFull) c
  let c1 := w.clusters.foldl (fun c x => c.testFails x.toNat) c0
  let c2 := w.ways.foldl (fun c x => c.wayTestFails x.toNat) c1
  let c3 := w.lanes.foldl (fun c x => c.laneTestFails x.toNat) c2
  (nv, c3, if w.clusters = [] ∧ w.ways = [] ∧ w.lanes = [] then Res.done else Res.unitFailed, [])

/-- R496: AGE_MEASURE. (DEDUCED, assumption 113.) -/
def ageMeasure (w : MgtSample) (nv : NonVol) (c : Chip) : OpEnd :=
  ledgerOp w.flashOk (fun l => { l with ageHours := l.opHours }) nv (c.measureAge w.drift)

/-- R497: the re-plan ends: the store holds the new guard-bands, AGE_HOURS is written. -/
def replanEnd (ok : Bool) (o : MgtOp) (nv : NonVol) (c : Chip) : OpEnd :=
  if !ok then (nv, c, Res.flashError, [])
  else
    let cal := nv.cal.map fun k => { image := Config.calWith k.image o.bands, bands := o.bands : Cal }
    let c1 := match cal with | some k => c.measureCal k.image | none => c
    ledgerOp true (fun l => { l with ageHours := l.opHours }) { nv with cal := cal } c1

/-- R491: PROVISION burns. -/
def provision (arg : Nat) (nv : NonVol) (c : Chip) : OpEnd :=
  let nv1 := { nv with dbgMax := nv.dbgMax ||| bits arg 1 0, revoked := nv.revoked ||| bits arg 7 4 }
  (nv1, (c.setFld Fld.SEC_STATUS_DBG_MAX 0 nv1.dbgMax).setFld Fld.SEC_STATUS_REVOKED 0 nv1.revoked, Res.done, [])

/-- R491, R493 to R497: what an operation does. (DEDUCED, assumption 106.) -/
def opWork (w : MgtSample) (o : MgtOp) (nv : NonVol) (c : Chip) : OpEnd :=
  let a0 := o.args.headD 0
  match o.code with
  | 0x01 => (nv, c, Res.done, infoRes nv c)
  | 0x02 => (nv, c.setMgtData (ledgerCopy nv c a0), Res.done, [])
  | 0x03 => ledgerOp w.flashOk (fun l => { l with failedBoots := 0, decision := 0 }) nv c
  | 0x04 => ledgerOp w.flashOk (fun l => { l with rescueNext := true }) nv c
  | 0x10 => if w.flashOk then (nv.eraseSet a0, { c with mgt := { c.mgt with staging := some { set := a0 } } }, Res.done, [])
            else (nv, c, Res.flashError, [])
  | 0x11 => match c.mgt.staging with
    | some st => if w.flashOk then (nv.writeSet st.set a0 (c.mgtBytes (o.args.getD 1 0)), c, Res.done, [])
                 else (nv, c, Res.flashError, [])
    | none => (nv, c, Res.notAllowed, [])
  | 0x12 => match c.mgt.staging with
    | some st => fwEnd nv c st
    | none => (nv, c, Res.notAllowed, [])
  | 0x13 => match c.mgt.staging with
    | some st => activateSet w.flashOk st.set nv c
    | none => (nv, c, Res.notAllowed, [])
  | 0x14 => match c.mgt.staging with
    | some st => if st.pldm then (nv, c, Res.done, [])
                 else (nv.eraseSet st.set, { c with mgt := { c.mgt with staging := none } }, Res.done, [])
    | none => (nv, c, Res.done, [])
  | 0x20 => writeCal w.flashOk (c.mgtBytes a0) nv c
  | 0x21 => match nv.cal with
    | some k =>
      let bs := k.image ++ calSignature nv c k.image
      (nv, c.setMgtData bs, Res.done, [bs.length])
    | none => (nv, c, Res.notAllowed, [])
  | 0x22 =>
    let image := c.mgtBytes (a0 - 96)
    if blobSigned nv image ((c.mgtBytes a0).drop (a0 - 96)) ∧ fieldLE image 8 8 = nv.serial.toNat then
      writeCal w.flashOk image nv c
    else (nv, c, Res.signatureInvalid, [])
  | 0x30 => retrain w (bits a0 5 0) nv c
  | 0x40 => testFull w nv c
  | 0x50 => ageMeasure w nv c
  | 0x51 => replanEnd w.flashOk o nv c
  | 0xF0 => replanEnd w.flashOk o nv c
  | 0x60 => provision a0 nv c
  | 0xF2 => match c.mgt.staging with
    | some st => if w.flashOk then (nv.writeSet st.set a0 ((o.args.drop 1).map (BitVec.ofNat 8)), c, Res.done, [])
                 else (nv, c, Res.flashError, [])
    | none => (nv, c, Res.done, [])
  | _ => (nv, c, Res.done, [])

/-- The operation cannot have ended yet: a group has no set point, steps are being burnt (R464), a test is deferred
(R442), or what it tests is not awake. -/
def Chip.opHeld (c : Chip) (o : MgtOp) : Bool :=
  !o.groups.isEmpty || o.code == 0xF1 || (o.code == 0x40 && c.testDeferred)
    || ((o.code == 0x30 || o.code == 0x40 || o.code == 0x50) && !c.awake)

/-- R489: MGT_DONE: the operation's work is done and it ends. (DEDUCED, assumption 106.) -/
def mgtDone (w : MgtSample) (nv : NonVol) (c : Chip) : NonVol × Chip :=
  match c.mgt.op with
  | none => (nv, c)
  | some o =>
    if !c.firmwareRuns ∨ c.opHeld o then (nv, c)
    else let r := opWork w o nv c; (r.1, r.2.1.finishOp r.2.2.1 r.2.2.2)

def execMgtDone (w : MgtSample) (s : State) : Host.Outcome State Fault Refusal := onBoth (mgtDone w) s

/-! ## The rollback burn (R464) -/

/-- R464: the lowest counter that the booted images exceed. -/
def burnNext (nv : NonVol) (c : Chip) : Option Nat :=
  (List.range 3).find? fun t => decide (nv.svnCtr t < c.mgt.svns.getD t 0)

/-- R501: the operation that the mailbox runs, or 0. -/
def Chip.opCode (c : Chip) : Nat := match c.mgt.op with | some o => o.code | none => 0

/-- R464: no step is left: the burn, where it holds the mailbox, ends. -/
def Chip.burnEnd (c : Chip) : Chip :=
  let c1 := { c with mgt := { c.mgt with burnDue := false } }
  if c.opCode = 0xF1 then c1.finishOp Res.done [] else c1

/-- R464, R501: ROLLBACK_BURN: the next step of a counter, while the burn holds the mailbox as operation 0xF1; `fuses` are
those that read burnt afterwards, and a step not verified is burnt again. (DEDUCED, assumption 189.) -/
def burnStep (fuses : Nat) (nv : NonVol) (c : Chip) : NonVol × Chip :=
  if !c.mgt.burnDue ∨ !c.firmwareRuns ∨ (c.opCode ≠ 0 ∧ c.opCode ≠ 0xF1) then (nv, c)
  else if c.flag Fld.SEC_CFG_SVN_HOLD then (nv, if c.opCode = 0xF1 then c.finishOp Res.done [] else c)
  else
    match burnNext nv c with
    | none => (nv, c.burnEnd)
    | some t =>
      let step := nv.svnCtr t
      let burnt := ((List.range 3).filter (bit fuses)).map fun i => t * 192 + 3 * step + i
      let nv1 := { nv with fuses := nv.fuses ++ burnt.filter fun f => !nv.fuses.contains f }
      let c1 := (c.beginOp { code := 0xF1, args := [] }).showSvn nv1
      (nv1, if (burnNext nv1 c1).isNone then c1.burnEnd else c1)

def execRollbackBurn (fuses : BitVec 3) (s : State) : Host.Outcome State Fault Refusal :=
  onBoth (burnStep fuses.toNat) s

/-- R492: ABORT ends FW_DATA with its set empty, TEST_FULL, and a re-plan that waits for a window.
(DEDUCED, assumption 114.) -/
def abortMgt (nv : NonVol) (c : Chip) : NonVol × Chip :=
  match c.mgt.op with
  | none => (nv, c)
  | some o =>
    if !c.firmwareRuns ∨ !c.fnEnabled 0 then (nv, c)
    else if o.code = 0x11 then
      (match c.mgt.staging with | some st => nv.eraseSet st.set | none => nv, c.finishOp Res.aborted [])
    else if o.code = 0x40 ∨ !o.groups.isEmpty then (nv, c.finishOp Res.aborted [])
    else (nv, c)

def execAbort (s : State) : Host.Outcome State Fault Refusal := onBoth abortMgt s

end Sys2Proof.Machine
end

