-- ==== Sys2Proof/Machine/Pldm.lean ====
section
/-!
DEFINITION. The SMBus endpoint (R499): MCTP control messages, PLDM Types 0 and 2; and the firmware update over PLDM
Type 5 (R494).
-/

namespace Sys2Proof.Machine

/-! Completion codes (DSP0236, DSP0240, DSP0248, DSP0267). -/
namespace Cc
def success : Nat := 0x00
def invalidData : Nat := 0x02
def notReady : Nat := 0x04
def invalidSensor : Nat := 0x80
def notInUpdateMode : Nat := 0x80
def alreadyInUpdateMode : Nat := 0x81
def dataOutOfRange : Nat := 0x82
def invalidState : Nat := 0x84
def incompleteUpdate : Nat := 0x85
def selfContained : Nat := 0x8C
end Cc

/-- R454, R481, R499: the endpoint acknowledges its address. -/
def Chip.smbusUp (c : Chip) : Bool := c.mgt.smbus && c.firmwareRuns

/-- A request on the endpoint is answered; with no endpoint nothing happens. -/
def smbusAnswer (f : NonVol → Chip → NonVol × Chip × List Nat) (nv : NonVol) (c : Chip) : NonVol × Chip :=
  if !c.smbusUp then (nv, c)
  else let r := f nv c; (r.1, r.2.1.emit (.response r.2.2))

/-- A request that reads alone. -/
def smbusRead (f : NonVol → Chip → List Nat) (s : State) : Host.Outcome State Fault Refusal :=
  onBoth (smbusAnswer fun nv c => (nv, c, f nv c)) s

/-- R499: a request that needs the mailbox engine is answered ERROR_NOT_READY while BUSY.
(PRESUMED, assumption 118.) -/
def smbusEngine (f : NonVol → Chip → NonVol × Chip × List Nat) (s : State) : Host.Outcome State Fault Refusal :=
  onBoth (smbusAnswer fun nv c => if c.flag Fld.MGT_STATUS_BUSY then (nv, c, [Cc.notReady]) else f nv c) s

/-! ## MCTP control and PLDM Type 0 (R499) -/

/-- R499: Set Endpoint ID; the null and broadcast identifiers are refused. (PRESUMED, assumption 118.) -/
def execSetEndpointId (eid : Byte) (s : State) : Host.Outcome State Fault Refusal :=
  onBoth (smbusAnswer fun nv c =>
    if eid = 0 ∨ eid = 0xFF then (nv, c, [Cc.invalidData])
    else (nv, { c with mgt := { c.mgt with eid := eid.toNat } }, [Cc.success, 0, eid.toNat])) s

def execGetEndpointId (s : State) : Host.Outcome State Fault Refusal :=
  smbusRead (fun _ c => [Cc.success, c.mgt.eid]) s

def execGetMctpVersionSupport (s : State) : Host.Outcome State Fault Refusal :=
  smbusRead (fun _ _ => Cc.success :: Config.standard 0x0004) s

/-- R499: the message types are MCTP control and PLDM. -/
def execGetMessageTypeSupport (s : State) : Host.Outcome State Fault Refusal :=
  smbusRead (fun _ _ => [Cc.success, 2, 0x00, 0x01]) s

def execGettid (s : State) : Host.Outcome State Fault Refusal :=
  smbusRead (fun _ _ => Cc.success :: Config.standard 0x0102) s

def execGetpldmversion (s : State) : Host.Outcome State Fault Refusal :=
  smbusRead (fun _ _ => Cc.success :: Config.standard 0x0103) s

/-- R494, R499: PLDM Types 0, 2 and 5. -/
def execGetpldmtypes (s : State) : Host.Outcome State Fault Refusal :=
  smbusRead (fun _ _ => [Cc.success, 2 ^ 0 + 2 ^ 2 + 2 ^ 5]) s

def execGetpldmcommands (s : State) : Host.Outcome State Fault Refusal :=
  smbusRead (fun _ _ => Cc.success :: Config.standard 0x0105) s

/-! ## Sensors: PLDM Type 2 (R499) -/

/-- The numeric sensors in the table's order: 19 temperatures, package, compute, memory and link power, effective
cap, healthy spares. (PRESUMED, assumption 118.) -/
def Chip.numericSensor (c : Chip) (i : Nat) : Option Nat :=
  if i < 19 then some (c.fld Fld.PWR_THERM_TEMP (steer i))
  else match i with
    | 19 => some (c.fld Fld.PWR_EFFECTIVE_PKG)
    | 20 => some (c.fld Fld.PWR_MEAS_COMPUTE)
    | 21 => some (c.fld Fld.PWR_MEAS_MEMORY)
    | 22 => some (c.fld Fld.PWR_MEAS_LINK)
    | 23 => some (c.fld Fld.PWR_EFFECTIVE_EFF_CAP)
    | 27 => some (c.fld Fld.RAS_SPARES_SPARES)
    | _ => none

/-- The state sensors: throttle reasons, FAULT_N and the latched causes, boot mode and DECISION not 0, ageing
limit. -/
def Chip.stateSensor (c : Chip) (i : Nat) : Option (List Nat) :=
  match i with
  | 24 => some [c.fld Fld.PWR_THR_ACTIVE_REASONS]
  | 25 => some [c.fld Fld.RAS_SEQ_STATUS_FAULT, c.fld Fld.RAS_SEQ_STATUS_CAUSE]
  | 26 => some [c.fld Fld.MGT_STATE_MODE, b2n (c.fld Fld.MGT_DECISION_DECISION != 0)]
  | 28 => some [c.fld Fld.MGT_AGE_STATUS_LIMIT]
  | _ => none

/-- R499: the number of sensors, each with one PDR; a record's handle is its sensor's number plus 1.
(PRESUMED, assumption 118.) -/
def sensorCount : Nat := 29

/-- R499: GetPDR: the record of a handle (0: the first), and the next one's. -/
def execGetpdr (handle : Word) (s : State) : Host.Outcome State Fault Refusal :=
  smbusRead (fun _ c =>
    let h := if handle = 0 then 1 else handle.toNat
    if h > sensorCount then [Cc.invalidData]
    else [Cc.success, if h = sensorCount then 0 else h + 1, h - 1, b2n (c.numericSensor (h - 1)).isSome]) s

/-- R499: GetSensorReading; it never needs the mailbox engine. -/
def execGetsensorreading (id : Half) (s : State) : Host.Outcome State Fault Refusal :=
  smbusRead (fun _ c => match c.numericSensor id.toNat with
    | some v => [Cc.success, v]
    | none => [Cc.invalidSensor]) s

def execGetstatesensorreadings (id : Half) (s : State) : Host.Outcome State Fault Refusal :=
  smbusRead (fun _ c => match c.stateSensor id.toNat with
    | some v => Cc.success :: v
    | none => [Cc.invalidSensor]) s

/-! ## Firmware update: PLDM Type 5 (R494) -/

/-- The code of a state in GetStatus. -/
def FdState.code : FdState → Nat
  | .idle => 0
  | .learn => 1
  | .ready => 2
  | .download => 3
  | .verify => 4
  | .apply => 5
  | .activate => 6

def Chip.setFd (c : Chip) (st : FdState) : Chip := { c with mgt := { c.mgt with fd := st } }

/-- R503: the identifiers of the device. -/
def execQuerydeviceidentifiers (s : State) : Host.Outcome State Fault Refusal :=
  smbusRead (fun nv _ => [Cc.success, vendorId, nv.part]) s

/-- R493, R494: the running FW_ID, and that of the set of the next boot. -/
def execGetfirmwareparameters (s : State) : Host.Outcome State Fault Refusal :=
  smbusRead (fun nv c => [Cc.success, c.mgt.fwId, nv.imageFwId nv.ledger.prefSet 1]) s

/-- R494: RequestUpdate: the session's set is the one that does not run, and is emptied. -/
def requestUpdate (nv : NonVol) (c : Chip) : NonVol × Chip × List Nat :=
  if c.mgtSession.isSome ∨ c.mgt.fd ≠ .idle then (nv, c, [Cc.alreadyInUpdateMode])
  else
    let set := 1 - c.fld Fld.MGT_STATE_RUN_SET
    (nv.eraseSet set, { c with mgt := { c.mgt with fd := .learn, staging := some { set := set, pldm := true } } }, [Cc.success])

def execRequestupdate (s : State) : Host.Outcome State Fault Refusal := smbusEngine requestUpdate s

/-- A request of the update that is good in one state. -/
def Chip.inFd (c : Chip) (st : FdState) (f : Chip → Chip × List Nat) : Chip × List Nat :=
  if c.mgt.fd = .idle then (c, [Cc.notInUpdateMode])
  else if c.mgt.fd ≠ st then (c, [Cc.invalidState])
  else f c

/-- R494: PassComponentTable; the last one ends the table. -/
def execPasscomponenttable (last : Bool) (s : State) : Host.Outcome State Fault Refusal :=
  onBoth (smbusAnswer fun nv c =>
    (nv, c.inFd .learn fun c => (if last then c.setFd .ready else c, [Cc.success]))) s

/-- R494: UpdateComponent: the components are the three TYPEs. -/
def execUpdatecomponent (typ : BitVec 2) (s : State) : Host.Outcome State Fault Refusal :=
  onBoth (smbusAnswer fun nv c =>
    (nv, c.inFd .ready fun c =>
      if typ = 3 then (c, [Cc.invalidData])
      else ({ c with mgt := { c.mgt with fd := .download, fdTyp := typ.toNat } }, [Cc.success]))) s

/-- R494: a piece of a component of at most 256 KiB that lies within the component's place. -/
def pieceOk (typ offset n : Nat) : Bool := decide (n ≤ 0x40000) && decide (offset + n ≤ (imageAt 0 typ).2)

/-- R494: RequestFirmwareData: a piece arrives, and the mailbox is busy while it is written.
(DEDUCED, assumption 107.) -/
def Chip.takePiece (c : Chip) (typ offset : Nat) (piece : List Byte) : Chip :=
  if !c.smbusUp ∨ c.mgt.fd ≠ .download ∨ c.mgt.fdTyp ≠ typ ∨ c.flag Fld.MGT_STATUS_BUSY ∨ !pieceOk typ offset piece.length then c
  else c.beginOp { code := 0xF2, args := ((imageAt 0 typ).1 + offset) :: piece.map BitVec.toNat }

def execRequestfirmwaredata (typ : BitVec 2) (offset : Word) (piece : List Byte) (s : State) :
    Host.Outcome State Fault Refusal :=
  onChip (fun c => c.takePiece typ.toNat offset.toNat piece) s

/-- R494: the device reports a step of the update: it moves on, or the component is to be updated again. -/
def reportStep (from_ dest : FdState) (ok : NonVol → Chip → Bool) (nv : NonVol) (c : Chip) : NonVol × Chip :=
  if !c.smbusUp ∨ c.mgt.fd ≠ from_ ∨ c.flag Fld.MGT_STATUS_BUSY then (nv, c)
  else
    let good := ok nv c
    (nv, (c.setFd (if good then dest else .ready)).emit (.response [from_.code, b2n good]))

/-- R494: TransferComplete. -/
def execTransfercomplete (ok : Bool) (s : State) : Host.Outcome State Fault Refusal :=
  onBoth (reportStep .download .verify fun _ _ => ok) s

/-- R462, R494: VerifyComplete: the component's image passes the checks. -/
def execVerifycomplete (s : State) : Host.Outcome State Fault Refusal :=
  onBoth (reportStep .verify .apply fun nv c =>
    match c.mgt.staging with
    | some st => nv.verify st.set c.mgt.fdTyp == 0
    | none => false) s

/-- R494: ApplyComplete. -/
def execApplycomplete (ok : Bool) (s : State) : Host.Outcome State Fault Refusal :=
  onBoth (reportStep .apply .ready fun _ _ => ok) s

/-- R493, R494: ActivateFirmware: the verified set becomes the preferred one, from the next boot. -/
def activateFirmware (selfContained : Bool) (nv : NonVol) (c : Chip) : NonVol × Chip × List Nat :=
  match c.mgt.staging with
  | none => (nv, c, [Cc.notInUpdateMode])
  | some st =>
    if c.mgt.fd = .idle then (nv, c, [Cc.notInUpdateMode])
    else if c.mgt.fd ≠ .ready then (nv, c, [Cc.invalidState])
    else if selfContained then (nv, c, [Cc.selfContained])
    else if (nv.badImage st.set).isSome ∨ !nv.sameFwId st.set then (nv, c, [Cc.incompleteUpdate])
    else
      let r := activateSet true st.set nv (c.setFd .idle)
      (r.1, r.2.1, [Cc.success])

def execActivatefirmware (selfContained : Bool) (s : State) : Host.Outcome State Fault Refusal :=
  smbusEngine (activateFirmware selfContained) s

/-- R494: GetStatus. -/
def execGetstatus (s : State) : Host.Outcome State Fault Refusal :=
  smbusRead (fun _ c => [Cc.success, c.mgt.fd.code]) s

/-- R494: CancelUpdateComponent: the component under way is given up. -/
def execCancelupdatecomponent (s : State) : Host.Outcome State Fault Refusal :=
  smbusEngine (fun nv c =>
    match c.mgt.fd with
    | .idle => (nv, c, [Cc.notInUpdateMode])
    | .download | .verify | .apply => (nv, c.setFd .ready, [Cc.success])
    | _ => (nv, c, [Cc.invalidState])) s

/-- R493, R494: CancelUpdate: the session closes with its set empty. -/
def cancelUpdate (nv : NonVol) (c : Chip) : NonVol × Chip × List Nat :=
  match c.mgt.staging with
  | none => (nv, c, [Cc.notInUpdateMode])
  | some st =>
    if c.mgt.fd = .idle then (nv, c, [Cc.notInUpdateMode])
    else (nv.eraseSet st.set, { c with mgt := { c.mgt with fd := .idle, staging := none } }, [Cc.success])

def execCancelupdate (s : State) : Host.Outcome State Fault Refusal := smbusEngine cancelUpdate s

end Sys2Proof.Machine
end

