-- ==== Sys2Proof/Machine/RoleSwap.lean ====
section
/-!
DEFINITION. Role swap (R371, R372): the lead role of a pair and the time-master role.
-/

namespace Sys2Proof.Machine

/-- The register page of a swap: the partition's, or the global one. -/
def Swap.page (w : Swap) : Nat := pg w.part

/-- The device's serial (R345). -/
def Chip.serial (c : Chip) : Nat := c.rg64 Reg.AXL_SERIAL_LO Reg.AXL_SERIAL_HI

/-- Whether two swaps are of the same role: the lead role of a pair, or the time-master role. -/
def Swap.sameRole (a b : Swap) : Bool := a.timeRole == b.timeRole && (a.timeRole || a.part == b.part)

/-- R372: the order of requests: the lower count, then the lower serial. -/
def Swap.before (a b : Swap) : Bool :=
  if a.count ≠ b.count then decide (a.count < b.count) else decide (a.serial < b.serial)

/-- R371, R373: an own request ends: STATUS, BUSY and the event. (DEDUCED, assumption 50.) -/
def Chip.swapEnds (c : Chip) (w : Swap) (s : Half) : Chip :=
  let c1 := if w.timeRole
    then (c.setFld Fld.AXL_TSWAP_CTL_STATUS 0 s.toNat).setFld Fld.AXL_TSWAP_CTL_BUSY 0 0
    else (c.setFld Fld.AXL_PSWAP_CTL_STATUS w.page s.toNat).setFld Fld.AXL_PSWAP_CTL_BUSY w.page 0
  let p := if w.timeRole then 0 else w.part
  c1.postLink p 0x0032 (p * 64) (s.toNat + 2 ^ 16 * b2n w.timeRole)

/-- The message of a swap to its other end. -/
def Chip.swapMsg (c : Chip) (w : Swap) (op : Nat) (granted : Bool) : Msg :=
  let vc := if op = MOp.swapReq then Vc.req else Vc.rsp
  { vc := c.vcFor w.part vc, op := op, srcDev := c.fld Fld.AXL_DEVICE_DEVNUM, srcPart := w.part
    dstDev := w.dev, dstPart := w.peerPart, tag := Config.collTag (b2n w.timeRole) w.count % 2 ^ 13
    data := Config.swapSlots [w.count, w.at_, w.serial, b2n granted] |>.take 10 }

/-- R371: the answer to an own request. (DEDUCED, assumption 50.) -/
def Chip.swapAnswered (c : Chip) (timeRole : Bool) (part : Nat) (granted : Bool) : Chip :=
  match c.swaps.find? fun w => w.own && !w.granted && w.timeRole == timeRole && (timeRole || w.part == part) with
  | none => c
  | some w =>
    if granted then
      { c with swaps := c.swaps.map fun o => if o = w then { o with granted := true } else o }.swapEnds w St.ok
    else { c with swaps := c.swaps.filter (· != w) }.swapEnds w St.swapCollided

/-- R371: answer another end's request. -/
def Chip.swapAnswer (c : Chip) (w : Swap) (granted : Bool) : Chip :=
  if w.dev = c.fld Fld.AXL_DEVICE_DEVNUM then c.swapAnswered w.timeRole w.peerPart granted
  else
    match c.ownRoutes w.part w.dev with
    | port :: _ => c.sendMsg port (c.swapMsg w MOp.swapAns granted)
    | [] => c

/-- R372: a request is refused: an own one ends, another end's is answered. -/
def Chip.swapLoses (c : Chip) (w : Swap) : Chip :=
  let c1 := { c with swaps := c.swaps.filter (· != w) }
  if w.own then c1.swapEnds w St.swapCollided else c1.swapAnswer w false

/-- R372: a request joins those of its role: one already granted stands; otherwise only the first stays. -/
def Chip.swapJoins (c : Chip) (w : Swap) : Chip :=
  let rivals := c.swaps.filter fun o => o.sameRole w
  if rivals.any fun o => o.granted || o.before w then c.swapLoses w
  else
    let c1 := rivals.foldl Chip.swapLoses c
    if w.own then { c1 with swaps := c1.swaps ++ [w] }
    else { c1 with swaps := c1.swaps ++ [{ w with granted := true }] }.swapAnswer w true

/-- R371: an own request goes to the other end: another device, or the pair's partition of this one. -/
def Chip.swapSend (c : Chip) (w : Swap) : Chip :=
  if !c.swaps.contains w then c
  else if w.dev = c.fld Fld.AXL_DEVICE_DEVNUM then
    c.swapJoins { w with own := false, part := w.peerPart, peerPart := w.part }
  else
    match c.ownRoutes w.part w.dev with
    | port :: _ => c.sendMsg port (c.swapMsg w MOp.swapReq false)
    | [] => c

/-- R371: GO. -/
def Chip.swapGo (c : Chip) (w : Swap) (busy possible : Bool) : Chip :=
  if busy then c
  else if w.at_ < w.count + 50000 then c.swapEnds w St.launchLate
  else if !possible then c.swapEnds w St.malformed
  else
    let c1 := if w.timeRole then c.setFld Fld.AXL_TSWAP_CTL_BUSY 0 1 else c.setFld Fld.AXL_PSWAP_CTL_BUSY w.page 1
    (c1.swapJoins w).swapSend w

/-- R371: TSWAP_GO. -/
def Chip.tswapGo (c : Chip) : Chip :=
  let peer := c.fld Fld.AXL_TSWAP_CTL_PEER
  c.swapGo { timeRole := true, part := 0, own := true, count := c.gtc.toNat
             at_ := c.rg64 Reg.AXL_TSWAP_AT_LO Reg.AXL_TSWAP_AT_HI, serial := c.serial, dev := peer
             peerPart := 0 }
    (c.flag Fld.AXL_TSWAP_CTL_BUSY) (peer != c.fld Fld.AXL_DEVICE_DEVNUM)

def execTswapGo (s : State) : Host.Outcome State Fault Refusal := onHost (fun c => c.tswapGo) s

/-- R371: PSWAP_GO. -/
def Chip.pswapGo (c : Chip) (p : Nat) : Chip :=
  let x := c.part p
  if !c.exists? p then c
  else
    c.swapGo { timeRole := false, part := p, own := true, count := c.gtc.toNat
               at_ := c.rg64 (Reg.AXL_PSWAP_AT_LO + pg p) (Reg.AXL_PSWAP_AT_HI + pg p), serial := c.serial
               dev := x.pairDev, peerPart := x.pairPart }
      (c.flag Fld.AXL_PSWAP_CTL_BUSY (pg p)) x.pairEn

def execPswapGo (p : BitVec 4) (s : State) : Host.Outcome State Fault Refusal :=
  onHost (fun c => c.pswapGo p.toNat) s

/-- R371, R372: SWAP_MESSAGE. -/
def Chip.swapMessage (c : Chip) (a : SwapArgs) : Chip :=
  let op := if a.request then MOp.swapReq else MOp.swapAns
  let vc := c.vcFor a.part.toNat (if a.request then Vc.req else Vc.rsp)
  let c1 := c.dropMsg a.port.toNat vc (·.op == op)
  if a.request then
    c1.swapJoins { timeRole := a.timeRole, part := a.part.toNat, own := false, count := a.count.toNat
                   at_ := a.at_.toNat, serial := a.serial.toNat, dev := a.srcDev.toNat
                   peerPart := a.srcPart.toNat }
  else c1.swapAnswered a.timeRole a.part.toNat a.granted

def execSwapMessage (m : SwapArgs) (s : State) : Host.Outcome State Fault Refusal :=
  onChip (fun c => c.swapMessage m) s

/-- R371: SWAP_DEADLINE: requests not answered by AT − 10,000 complete with LINK_UNREACHABLE. -/
def Chip.swapDeadline (c : Chip) : Chip :=
  (c.swaps.filter fun w => w.own && !w.granted && decide (w.at_ ≤ c.gtc.toNat + 10000)).foldl
    (fun c w => { c with swaps := c.swaps.filter (· != w) }.swapEnds w St.linkUnreachable) c

def execSwapDeadline (s : State) : Host.Outcome State Fault Refusal := onChip (fun c => c.swapDeadline) s

/-- R371, R388: the time-master role changes: the master becomes a follower in LOCKED, and the follower whose
master was the other end becomes the master. (DEDUCED, assumption 50.) -/
def Chip.timeRoleChange (c : Chip) (w : Swap) : Chip :=
  if c.timeState = TimeState.master then
    let src := ((c.routes w.dev).head?).getD 0
    (c.setFld Fld.GTC_CTL_SRC_PORT 0 src).setTimeState TimeState.locked 0
  else
    match KMap.find (c.fld Fld.GTC_CTL_SRC_PORT) c.timeIn with
    | some t => if t.masterDev = w.dev then c.setTimeState TimeState.master 0 else c
    | none => c

/-- R371, R376: the lead role of a partition changes. (DEDUCED, assumption 50.) -/
def Chip.leadRoleChange (c : Chip) (w : Swap) : Chip :=
  let x := c.part w.part
  (c.setPart w.part { x with pairLead := !x.pairLead }).setFld Fld.AXL_PSWAP_CTL_LEAD w.page (b2n (!x.pairLead))

/-- R371: ROLE_CHANGE: granted swaps whose counts are reached take effect. -/
def Chip.roleChange (c : Chip) : Chip :=
  (c.swaps.filter fun w => w.granted && decide (w.at_ ≤ c.gtc.toNat)).foldl (fun c w =>
    let c1 := { c with swaps := c.swaps.filter (· != w) }
    if w.timeRole then c1.timeRoleChange w else c1.leadRoleChange w) c

def execRoleChange (s : State) : Host.Outcome State Fault Refusal := onChip (fun c => c.roleChange) s

end Sys2Proof.Machine
end

