-- ==== Sys2Proof/Machine/Registers.lean ====
section
/-!
DEFINITION. The register views of BAR0 (R11, R12, R482, R505 to R507): writes by field type and by the registers' own
rules, reads that clear, the values that registers derive from other state, and the registers with rows of their
own: the kernel ring (R83), the event ring (R83, R85) and the event configuration (R119).
-/

namespace Sys2Proof.Machine

/-! ## Where an offset leads (R505, R506) -/

/-- R506: the physical function's offset that a virtual function's offset stands for.
(DEDUCED, assumption 128.) -/
def vfOffset (p o : Nat) : Option Nat :=
  let page := o / 0x1000
  if page = 0 then
    (if o < 0xC ∨ o = 0x10 ∨ o = 0x14 ∨ o = 0x18 then some o else none)
  else
    match [0x200000, 0x100000, 0x501000, 0x601000, 0x901000, 0xA01000, 0xB01000, 0xC01000][page - 1]? with
    | some b => some (b + p * 0x1000 + o % 0x1000)
    | none =>
      if page = 0xF0 ∧ o % 0x1000 < 0x400 then some (0xF00000 + o % 0x1000)
      else if page = 0xF8 ∧ o % 0x1000 < 8 then some (0xF80000 + o % 0x1000)
      else none

/-- The offset in the physical function's numbering that an access reaches. -/
def physOffset (fn o : Nat) : Option Nat := if fn = 0 then some o else vfOffset fn o

/-- The offset that a register access error records: the physical function's for the same register, or the offset
accessed where the view shows none. (DEDUCED, assumption 123.) -/
def shownOffset (fn o : Nat) : Nat := (physOffset fn o).getD o

/-- A register at an offset: its description, its partition and its index. -/
def RegDesc.at? (d : RegDesc) (a : Nat) : Option (Nat × Nat) :=
  if a < d.base then none
  else
    let o := a - d.base
    let p := if d.paged then o / 0x1000 else 0
    let r := if d.paged then o % 0x1000 else o
    if r % d.stride = 0 ∧ r / d.stride < d.count ∧ p < 16 then some (p, r / d.stride) else none

/-- The register at an offset (R507). -/
def findReg (a : Nat) : Option (RegDesc × Nat × Nat) :=
  regTable.findSome? fun d => (d.at? a).map fun x => (d, x.1, x.2)

/-- R482: the windows that are open before boot step 31. (DEDUCED, assumptions 104, 128.) -/
def earlyWindow (a : Nat) : Bool := decide (a < 0x100000) || a / 0x100000 == 0xD || a / 0x100000 == 0xE

/-- The MSI-X table, and its pending-bit array (R505). -/
def inMsix (a : Nat) : Bool := a / 0x80000 == 0x1E
def inPba (a : Nat) : Bool := a / 0x80000 == 0x1F

/-- MGT_DATA (R501). -/
def inMgtData (a : Nat) : Bool := decide (mgtData ≤ a) && decide (a < 0xE80000)

/-- R425: the blocks of the compute die and the stacks, whose registers wake the device. -/
def onDie (a : Nat) : Bool := [3, 4, 5, 6].contains (a / 0x100000)

def Chip.wakeFor (c : Chip) (a : Nat) : Chip := if onDie a then c.wakeDevice else c

/-- R251, R326, R375: registers that a part lacks: they read 0, and writes to them are discarded. -/
def Chip.regAbsent (c : Chip) (d : RegDesc) (i : Nat) : Bool :=
  if d.base / 0x100000 = 5 then
    !c.flag Fld.DEV_CAPS0_CTX_ENGINE && (d.paged || d.base == Reg.CTX_NEXT_DET || d.base == Reg.CTX_FREE
      || d.base == Reg.CTX_SLOT_OWN_LO || d.base == Reg.CTX_SLOT_OWN_HI || d.base == Reg.CTX_GOV)
  else if d.base / 0x100000 = 7 ∧ d.stride = 0x100 then !c.pipeExists i
  else if d.base / 0x100000 = 9 ∧ d.stride = 0x40 then !c.hasPort i
  else false

/-- R145, R214, R251, R269, R429, R501, R526: the copy that a steered register shows, or none. -/
def Chip.steered (c : Chip) (s : Steer) (fn p : Nat) : Option Nat :=
  let within (i n : Nat) : Option Nat := if i < n then some i else none
  match s with
  | .none => some 0
  | .cluster => within (c.fld Fld.CLU_SEL_LCLUSTER) (c.fld Fld.DEV_CAPS0_LCLUSTERS)
  | .slice => within (c.fld Fld.SC_SEL_SLICE) 24
  | .stack => within (c.fld Fld.CTX_STK_SEL_STACK) (c.fld Fld.DEV_CAPS0_STACKS)
  | .slot => within (c.fld Fld.BATCH_SEL_SLOT (pg p)) (c.slotRange p).2
  | .sensor => within (c.fld Fld.PWR_THERM_SEL_SENSOR) 19
  | .group => within (c.fld Fld.MGT_AGE_SEL_GROUP) 12
  | .function => some fn

/-- R426: a register of a cluster in decaf wakes its group; its state and its epoch are kept outside the cluster.
(DEDUCED, assumption 79.) -/
def Chip.wakeSteered (c : Chip) (d : RegDesc) (k : Nat) : Chip :=
  if d.steer = .cluster ∧ d.base ≠ Reg.CLU_STATUS ∧ d.base ≠ Reg.CLU_EPOCH then c.wakeCluster k else c

/-! ## Writes by field type (R11) -/

/-- R11: a field after a write. -/
def FType.next (t : FType) (locked : Bool) (old new : Nat) : Nat :=
  match t with
  | .rw => new
  | .rw1c => old - (old &&& new)
  | .rw1s => old ||| new
  | .rwl => if locked then old else new
  | .ro | .wo | .rc => old

/-- R11: a register's word after a write. -/
def storeWord (fs : List FDesc) (locked : Bool) (old v : Word) : Word :=
  fs.foldl (fun w f => wset w f.hi f.lo (f.ty.next locked (wbits old f.hi f.lo) (wbits v f.hi f.lo))) old

/-- R11: whether a write meets a locked field. (DEDUCED, assumption 125.) -/
def meetsLock (fs : List FDesc) (locked : Bool) : Bool := locked && fs.any fun f => f.ty == .rwl

/-- Some port's MODE is not OFF (R374, R403). -/
def Chip.anyPortOn (c : Chip) : Bool := (List.range 8).any fun n => c.fld Fld.AXL_PORT_CTL_MODE (po n) != 0

/-- R53, R83, R118, R251, R326, R374 to R377, R403, R404, R457, R459, R477: whether a register's lockable fields are
locked. -/
def Chip.regLocked (c : Chip) (base p i : Nat) : Bool :=
  let sealed := (c.part p).sealed
  if base = Reg.PART_ASIDT_LO ∨ base = Reg.PART_ASIDT_HI ∨ base = Reg.DET_JOB ∨ base = Reg.RAS_PAIR_CFG then sealed
  else if base = Reg.KRING_BASE_LO ∨ base = Reg.KRING_BASE_HI ∨ base = Reg.KRING_CTL then
    c.flag Fld.KRING_CTL_ENABLE (pg p)
  else if base = Reg.EVRING_BASE_LO ∨ base = Reg.EVRING_BASE_HI ∨ base = Reg.EVRING_CTL then
    c.flag Fld.EVRING_CTL_EV_ENABLE (pg p)
  else if base = Reg.SAVE_BASE_LO ∨ base = Reg.SAVE_BASE_HI then
    c.queues.any fun kq => partOf kq.1 == p && indexOf kq.1 != 0 && kq.2.state != .unbound
  else if base = Reg.ACCT_BASE_LO ∨ base = Reg.ACCT_BASE_HI then c.flag Fld.ACCT_BASE_LO_ACCT_EN (pg p)
  else if base = Reg.CTX_POOL_HEAD_LO ∨ base = Reg.CTX_POOL_HEAD_HI ∨ base = Reg.CTX_POOL_CNT then
    c.flag Fld.CTX_POOL_HEAD_LO_POOL_EN (pg p)
  else if base / 0x100000 = 7 then c.flag Fld.LCE_PIPE_CTL_ENABLE (pipeOff i)
  else if base = Reg.AXL_DEVICE ∨ base = Reg.GTC_CTL then c.anyPortOn
  else if base = Reg.AXL_PORT_CTL then c.fld Fld.AXL_PORT_CTL_MODE (po i) != 0
  else if base = Reg.RAS_SEQ_CFG then c.flag Fld.RAS_SEQ_CFG_LOCK
  else if base = Reg.RAS_RPT_BASE_LO ∨ base = Reg.RAS_RPT_BASE_HI then c.flag Fld.RAS_RPT_BASE_LO_RPT_EN
  else if base = Reg.SEC_CFG then c.flag Fld.SEC_LOCK_LOCK
  else false

/-- R11: store a write by the field types; a locked field logs it. -/
def Chip.storeReg (c : Chip) (d : RegDesc) (p i k a : Nat) (v : Word) : Chip :=
  let locked := c.regLocked d.base p i
  let c1 := c.setRg (a + steer k) (storeWord d.fields locked (c.rg (a + steer k)) v)
  if meetsLock d.fields locked then c1.regError a else c1

/-- R429: whether a value lies in the stated ranges of a power register. -/
def powerRangeOk (base : Nat) (v : Word) : Bool :=
  let within (x lo hi : Nat) : Bool := decide (lo ≤ x) && decide (x ≤ hi)
  let f (hi lo : Nat) : Nat := wbits v hi lo
  if base = Reg.PWR_CAP then within (f 9 0) 250 600 && within (f 25 16) 250 600 && decide (f 9 0 ≤ f 25 16)
  else if base = Reg.PWR_PRIO then
    decide (f 1 0 < 3) && decide (f 3 2 < 3) && decide (f 5 4 < 3) && f 1 0 != f 3 2 && f 3 2 != f 5 4 && f 1 0 != f 5 4
  else if base = Reg.PWR_FLOOR then decide (f 7 0 + f 15 8 + f 23 16 ≤ 210)
  else if base = Reg.PWR_EXT_CAP then within (f 9 0) 250 600
  else if base = Reg.PWR_SHIFT_CTL then within (f 15 8) 1 50
  else if base = Reg.PWR_AUTO then decide (10 ≤ f 31 16)
  else if base = Reg.PWR_THERM_CFG then decide (2 ≤ f 3 0)
  else true

/-! ## Registers with rows of their own -/

/-- R83: a ring of `n` bytes an entry can be enabled. -/
def Chip.ringOk (c : Chip) (p base l n : Nat) : Bool :=
  decide (6 ≤ l) && decide (l ≤ 16) && decide (base + n * 2 ^ l ≤ (c.part p).memBytes)

/-- R83: a write of KRING_CTL. A ring that is enabled while its begun descriptors still complete starts once they
have. (DEDUCED, assumption 125.) -/
def Chip.kringCtl (c : Chip) (p : Nat) (v : Word) : Chip :=
  let was := c.flag Fld.KRING_CTL_ENABLE (pg p)
  let on := wbit v 0
  let a := Reg.KRING_CTL + pg p
  let c1 := ((c.setFld Fld.KRING_CTL_VECTOR (pg p) (wbits v 21 16)).setFld Fld.KRING_CTL_IRQ_EN (pg p) (wbits v 24 24))
  let c2 := if was then c1.regError a else c1.setFld Fld.KRING_CTL_LOG2 (pg p) (wbits v 12 8)
  if was then (if on then c2 else (c2.setFld Fld.KRING_CTL_ENABLE (pg p) 0).stopQueue (p * 64))
  else if !on then c2
  else if !c2.ringOk p (c2.ringBase (p * 64)) (wbits v 12 8) 96 then c2.regError a
  else
    let c3 := c2.setFld Fld.KRING_CTL_ENABLE (pg p) 1
    if (c3.queue (p * 64)).stopping then c3 else c3.startKring p

/-- R83: a write to a partition's page: the partition exists, or the write is discarded and logged. -/
def Chip.pageWrite (c : Chip) (p a : Nat) (f : Chip → Chip) : Chip :=
  if c.exists? p then f c else c.regError a

def execKringCtlWrite (p : BitVec 4) (val : Word) (s : State) : Host.Outcome State Fault Refusal :=
  onHost (fun c => c.pageWrite p.toNat (Reg.KRING_CTL + pg p.toNat) fun c => c.kringCtl p.toNat val) s

/-- R83, R85: a write of EVRING_CTL. (DEDUCED, assumption 125.) -/
def Chip.evringCtl (c : Chip) (p : Nat) (v : Word) : Chip :=
  let was := c.flag Fld.EVRING_CTL_EV_ENABLE (pg p)
  let on := wbit v 0
  let a := Reg.EVRING_CTL + pg p
  let c1 := c.setFld Fld.EVRING_CTL_VECTOR (pg p) (wbits v 21 16)
  let c2 := if was then c1.regError a else c1.setFld Fld.EVRING_CTL_LOG2 (pg p) (wbits v 12 8)
  if was then (if on then c2 else c2.setFld Fld.EVRING_CTL_EV_ENABLE (pg p) 0)
  else if !on then c2
  else if !c2.ringOk p (c2.evBase p) (wbits v 12 8) 16 then c2.regError a
  else ((c2.setFld Fld.EVRING_CTL_EV_ENABLE (pg p) 1).setRg (Reg.EVRING_HEAD + pg p) 0).setRg (Reg.EVRING_TAIL + pg p) 0

def execEvringCtlWrite (p : BitVec 4) (val : Word) (s : State) : Host.Outcome State Fault Refusal :=
  onHost (fun c => c.pageWrite p.toNat (Reg.EVRING_CTL + pg p.toNat) fun c => c.evringCtl p.toNat val) s

/-- R85: a write of EVRING_HEAD. -/
def Chip.evringHead (c : Chip) (p : Nat) (v : Word) : Chip :=
  let head := c.rg (Reg.EVRING_HEAD + pg p)
  let tail := c.rg (Reg.EVRING_TAIL + pg p)
  if !c.flag Fld.EVRING_CTL_EV_ENABLE (pg p) ∨ (v - head).toNat > (tail - head).toNat then c.regError (Reg.EVRING_HEAD + pg p)
  else c.setRg (Reg.EVRING_HEAD + pg p) v

def execEvringHeadWrite (p : BitVec 4) (val : Word) (s : State) : Host.Outcome State Fault Refusal :=
  onHost (fun c => c.pageWrite p.toNat (Reg.EVRING_HEAD + pg p.toNat) fun c => c.evringHead p.toNat val) s

/-- R119: an EVENT_WAIT waits on event `n`. -/
def Chip.eventAwaited (c : Chip) (n : Nat) : Bool :=
  c.queues.any fun kq => kq.2.entries.any fun ke => ke.2.watch == .event n

/-- R119: what a write of EVT_CFG stores: the state bit stays, and a SOURCE of 6 or 7 is 0.
(DEDUCED, assumption 126.) -/
def evtWord (old v : Word) : Word :=
  wset (wset old 4 0 (wbits v 4 0)) 10 8 (if wbits v 10 8 ≥ 6 then 0 else wbits v 10 8)

/-- R119: a write of EVT_CFG. -/
def Chip.evtCfg (c : Chip) (n : Nat) (v : Word) : Chip :=
  let a := Reg.EVT_CFG + 4 * n
  let w := evtWord (c.rg a) v
  if c.eventAwaited n ∧ w ≠ c.rg a then c.regError a else c.setRg a w

def execEvtCfgWrite (n : Byte) (val : Word) (s : State) : Host.Outcome State Fault Refusal :=
  onHost (fun c => c.evtCfg n.toNat val) s

/-! ## Registers whose writes do more than store -/

/-- R375: a write of AXL_PORT_CTL. -/
def Chip.portCtl (c : Chip) (d : RegDesc) (n a : Nat) (v : Word) : Chip :=
  if wbits v 1 0 = 3 then c.regError a
  else
    let keep := c.rg a
    let c1 := c.storeReg d 0 n 0 a (wset (wset v 1 0 (wbits keep 1 0)) 20 16 (wbits keep 20 16))
    let c2 := if wbit v 20 != wbit keep 20 ∨ (!wbit v 20 && wbits v 19 16 != wbits keep 19 16) then
      (c1.setFld Fld.AXL_PORT_CTL_LOAN_LANE (po n) (wbits v 19 16)).laneLoan n (wbit v 20) (wbits v 19 16) false else c1
    if wbits v 1 0 = wbits keep 1 0 then c2 else c2.portMode n (wbits v 1 0)

/-- R326: a write of LCE_PIPE_CTL: the lockable fields, then OWNER, then ENABLE. -/
def Chip.pipeCtl (c : Chip) (d : RegDesc) (n a : Nat) (v : Word) : Chip :=
  let keep := c.rg a
  let c1 := c.storeReg d 0 n 0 a (wset (wset v 0 0 (wbits keep 0 0)) 11 8 (wbits keep 11 8))
  let c2 := if wbits v 11 8 = wbits keep 11 8 then c1 else c1.pipeOwner n (wbits v 11 8)
  c2.pipeEnable n (wbit v 0)

/-- R388, R389, R403: a write of GTC_CTL. (DEDUCED, assumption 126.) -/
def Chip.gtcCtl (c : Chip) (d : RegDesc) (a : Nat) (v : Word) : Chip :=
  let was := c.flag Fld.GTC_CTL_MASTER_INIT
  let c1 := c.storeReg d 0 0 0 a v
  let now := c1.flag Fld.GTC_CTL_MASTER_INIT
  let c2 := if now ∧ !was then c1.setTimeState TimeState.master 0
    else if was ∧ !now then c1.setTimeState TimeState.unlocked 63 else c1
  if wbit v 2 ∧ c2.timeState ≠ TimeState.master then { c2 with lockRun := 0 }.setTimeState TimeState.unlocked 63 else c2

/-- R476, R479: a write of SEC_DBG_CTL. (DEDUCED, assumption 104.) -/
def Chip.dbgCtl (c : Chip) (nv : NonVol) (v : Word) : Chip :=
  let c1 := c.setFld Fld.SEC_DBG_CTL_LEVEL 0 (wbits v 1 0)
  let c2 := if wbit v 2 then c1.dbgChallenge (wbits v 1 0) else c1
  if wbit v 3 then c2.dbgSubmit nv (wbits v 1 0) else c2

/-- R450, R455, R457: a write of RAS_SEQ_CTL. (DEDUCED, assumption 92.) -/
def Chip.seqCtl (c : Chip) (v : Word) : Chip :=
  let c1 := if wbit v 0 then c.releaseCauses else c
  if wbit v 1 then c1.latchCause Cause.software else c1

/-- R421, R422, R429: a write of PWR_SHIFT_CTL. -/
def Chip.shiftCtl (c : Chip) (d : RegDesc) (a : Nat) (v : Word) : Chip :=
  let c1 := if wbit v 0 then c else c.shiftEnClear
  c1.storeReg d 0 0 0 a v

/-- R430, R118, R235, R268, R371, R374: a write to a register that stores more, or less, than its fields. None: the
register stores by its field types. (DESIGN CHOICE, assumption 122.) -/
def Chip.ownWrite (c : Chip) (nv : NonVol) (d : RegDesc) (p i k a : Nat) (v : Word) : Option (NonVol × Chip) :=
  let b := d.base
  let just (x : Chip) : Option (NonVol × Chip) := some (nv, x)
  if b = Reg.KRING_CTL then just (c.kringCtl p v)
  else if b = Reg.EVRING_CTL then just (c.evringCtl p v)
  else if b = Reg.EVRING_HEAD then just (c.evringHead p v)
  else if b = Reg.EVT_CFG then just (c.evtCfg i v)
  else if b = Reg.SCHED_CFG then
    just (if 50 ≤ wbits v 13 0 ∧ wbits v 13 0 ≤ 10000 then c.storeReg d p i k a v
      else c.storeReg d p i k a (wset v 13 0 (wbits (c.rg a) 13 0)))
  else if b = Reg.SC_WAYOFF then just (c.wayOff v)
  else if b = Reg.CTX_NEXT_DET then just (c.nextDetWrite v)
  else if b = Reg.CTX_POOL_PUSH_LO then just (c.setRg a (v &&& 0xFFFF0000))
  else if b = Reg.CTX_POOL_PUSH_HI then just (c.poolPush p v)
  else if b = Reg.BATCH_RANGE then just (c.batchRange i v)
  else if b = Reg.BATCH_TOKMAX then
    just (if 1 ≤ wbits v 16 0 ∧ wbits v 16 0 ≤ 65536 then c.storeReg d p i k a v else c)
  else if b = Reg.LCE_PIPE_CTL then just (c.pipeCtl d i a v)
  else if b = Reg.AXL_PORT_CTL then just (c.portCtl d i a v)
  else if b = Reg.AXL_PTAGS then just (if (c.part i).det then c else c.storeReg d p i k a v)
  else if b = Reg.AXL_TSWAP_CTL then just (let c1 := c.storeReg d p i k a v; if wbit v 0 then c1.tswapGo else c1)
  else if b = Reg.AXL_PSWAP_CTL then just (if wbit v 0 then c.pswapGo p else c)
  else if Reg.AXL_IN_BASE_LO ≤ b ∧ b ≤ Reg.AXL_IN_SRC ∧ d.stride = 0x10 ∧ (c.part p).sealed then just (c.regError a)
  else if b = Reg.GTC_CTL then just (c.gtcCtl d a v)
  else if b = Reg.GTC_SET_HI then just (c.gtcSet v)
  else if b = Reg.DET_MAP_FORCE then just (c.mapForce v)
  else if b = Reg.PWR_DEVSTATE then just (c.devStateWrite (wbit v 0))
  else if b / 0x1000 = 0xB00 ∧ !powerRangeOk b v then just (c.regError a)
  else if b = Reg.PWR_CAP ∨ b = Reg.PWR_EXT_CAP then just (c.storeReg d p i k a v).refreshCap
  else if b = Reg.PWR_SHIFT_CTL then just (c.shiftCtl d a v)
  else if (b = Reg.PWR_SHIFT_MEMBERS_LO ∨ b = Reg.PWR_SHIFT_MEMBERS_HI) ∧ c.flag Fld.PWR_SHIFT_CTL_EN then just c
  else if b = Reg.RAS_SEQ_CTL then just (c.seqCtl v)
  else if b = Reg.RAS_DM_CTL then
    just (if wbit v 0 ∧ c.fld Fld.RAS_SEQ_STATUS_BARISTA_STATE = Barista.held then c.setBarista Barista.restarting else c)
  else if b = Reg.SEC_LOCK then just (if wbit v 0 then c.lockSec else c)
  else if b = Reg.SEC_DBG_CTL then just (c.dbgCtl nv v)
  else if b = Reg.SEC_DBG_KEY ∨ b = Reg.SEC_DBG_RESP then just (c.setRg a v)
  else if b = Reg.MGT_CMD then just (mgtCommand nv (wbits v 7 0) c)
  else if b = Reg.MGT_CTL then
    let c1 := c.storeReg d p i k a v
    some (if wbit v 0 then abortMgt nv c1 else (nv, c1))
  else none

/-! ## REGISTER_WRITE -/

/-- R87: a write to the MSI-X table of a function: address, data, and the mask bit. -/
def Chip.msixWrite (c : Chip) (fn o : Nat) (v : Word) : Chip :=
  let n := o / 16
  let k := fn * 2048 + n
  let e := KMap.getD c.msix k {}
  let put (x : MsixEntry) : Chip := { c with msix := KMap.set k x c.msix }
  if n ≥ vectors fn then c
  else match o % 16 / 4 with
    | 0 => put { e with addr := e.addr / 2 ^ 32 * 2 ^ 32 + v.toNat }
    | 1 => put { e with addr := e.addr % 2 ^ 32 + v.toNat * 2 ^ 32 }
    | 2 => put { e with data := v.toNat }
    | _ => c.maskVector fn n (wbit v 0)

/-- R11, R12, R482, R507: one aligned word written at an offset of the device.
(DESIGN CHOICE, assumption 122.) -/
def regStore (fn a : Nat) (v : Word) (nv : NonVol) (c : Chip) : NonVol × Chip :=
  if !c.booted ∧ !earlyWindow a then (nv, c)
  else if inMsix a then (nv, c.msixWrite fn (a % 0x80000) v)
  else if inPba a then (nv, c)
  else if inMgtData a then (nv, if c.flag Fld.MGT_STATUS_BUSY then c.regError a else c.setRg a v)
  else
    match findReg a with
    | none => (nv, c.regError a)
    | some (d, p, i) =>
      let c1 := c.wakeFor a
      if d.paged ∧ !c1.exists? p then (nv, c1.regError a)
      else if c1.regAbsent d i then (nv, c1)
      else
        match c1.steered d.steer fn p with
        | none => (nv, c1)
        | some k =>
          let c2 := c1.wakeSteered d k
          (c2.ownWrite nv d p i k a v).getD (nv, c2.storeReg d p i k a v)

/-- R12: the words of an access: one of 4 bytes, or an aligned pair. (DEDUCED, assumption 124.) -/
def accessWords (off size : Nat) : Option (List Nat) :=
  if size = 4 ∧ off % 4 = 0 then some [off] else if size = 8 ∧ off % 8 = 0 then some [off, off + 4] else none

/-- R11, R12, R507: REGISTER_WRITE in a function's view. (DEDUCED, assumptions 123, 124.) -/
def regWrite (fn off size : Nat) (v : Dword) (nv : NonVol) (c : Chip) : NonVol × Chip :=
  if !c.fnEnabled fn then (nv, c)
  else
    match accessWords off size with
    | none => (nv, c.regError (shownOffset fn off))
    | some ws => ws.foldl (fun (nc : NonVol × Chip) o =>
        match physOffset fn o with
        | some a => regStore fn a (BitVec.ofNat 32 (v.toNat / 2 ^ (8 * (o - off)))) nc.1 nc.2
        | none => (nc.1, nc.2.regError o)) (nv, c)

/-- R60: a write to a doorbell page of a function's BAR2: DB_TAIL or CPL_HEAD; any other is discarded. -/
def Chip.bar2Write (c : Chip) (fn off size : Nat) (v : Word) : Chip :=
  if !c.booted ∨ !c.flag Fld.PCI_LINK_UP ∨ size ≠ 4 ∨ off ≥ 2 ^ 18 then c
  else
    match off % 4096 with
    | 0 => c.dbTail fn (off / 4096) v
    | 4 => c.cplHeadWrite fn (off / 4096) v
    | _ => c

/-- R11, R60: REGISTER_WRITE, in BAR0 or in BAR2. -/
def execRegisterWrite (fn : BitVec 4) (place : RegPlace) (size : BitVec 4) (val : Dword) (s : State) :
    Host.Outcome State Fault Refusal :=
  onBoth (fun nv c => if place.bar2 then (nv, c.bar2Write fn.toNat place.off.toNat size.toNat (val.truncate 32))
    else regWrite fn.toNat place.off.toNat size.toNat val nv c) s

/-! ## Reads -/

/-- R145: CLU_STATUS of a logical cluster. (DEDUCED, assumption 86.) -/
def Chip.clusterStatus (c : Chip) (cl : Nat) : Nat :=
  let k := c.cluster cl
  let waves := (c.waves.filter fun kw => kw.1 / 64 == cl).length
  let st := match k.st with
    | .inService =>
      if c.ras.tests.any fun t => t.cl == cl then 3 else if k.draining then 2 else if k.wgs.isEmpty then 0 else 1
    | .decaf => 4
    | .isolated => 5
  st + 2 ^ 4 * k.part + 2 ^ 8 * k.phys + 2 ^ 16 * waves

/-- R214: CREMA_STATUS of a logical cluster. -/
def Chip.cremaStatus (c : Chip) (cl : Nat) : Nat :=
  let g := (c.cluster cl).granules
  (256 - g.length) + 2 ^ 16 * (g.filter fun x => match x.2 with | .tile _ => true | _ => false).length

/-- R269: BATCH_COUNT of a partition. -/
def Chip.batchCount (c : Chip) (p : Nat) : Nat :=
  let bs := (c.batchSlots p).map Prod.snd
  (bs.filter fun b => b.state == .active).length
    + 2 ^ 16 * (bs.filter fun b => b.state == .joining || b.parkPend || (b.state == .leaving && !b.releasing)).length

/-- R269: BATCH_SLOT_STATUS of a slot. -/
def slotStatus (b : BSlot) : Nat :=
  b.state.code + 2 ^ 3 * b2n b.parkPend + 2 ^ 4 * b2n b.resume + 2 ^ 5 * b2n b.releasing + 2 ^ 6 * b2n (b.table != 0)
    + 2 ^ 16 * b.tag.toNat

/-- R501: MGT_AGE of a group. -/
def Chip.ageWord (c : Chip) (g : Nat) : Nat :=
  let band (f : Nat) : Nat := min 63 (c.mgt.bands.getD (3 * g + f) 0 / 5)
  min 255 (c.mgt.drift.getD g 0) + 2 ^ 8 * band 0 + 2 ^ 14 * band 1 + 2 ^ 20 * band 2

/-- R358, R374: the tags that a deterministic partition holds. -/
def Chip.tagsOf (c : Chip) (p : Nat) : Option Nat := if (c.part p).det then some (c.part p).linkTags else none

/-- R423, R429: PWR_GROUP_STATE; whether a group that is on and holds no work has been without it for long enough to be
IDLE is free. (DESIGN CHOICE, assumption 191.) -/
def Chip.groupWord (c : Chip) : Nat :=
  (List.range 12).foldl (fun n g =>
    let v := c.groupState g
    let quiet := (c.groupClusters g).all fun cl => (c.cluster cl).wgs.isEmpty
    n + 4 ^ g * (if v = 0 ∧ quiet then Config.freeNat c.ctr (2 ^ 79 + g) % 2 else v)) 0

/-- R501: MGT_OP, whose PROGRESS is free, from 0 to 100, while an operation runs. (DESIGN CHOICE, assumption 102.) -/
def Chip.opWord (c : Chip) : Option Nat :=
  c.mgt.op.map fun o => o.code % 2 ^ 8 + 2 ^ 8 * (Config.freeNat c.ctr (2 ^ 70) % 101)

/-- The value of a register that shows other state. -/
def Chip.derived (c : Chip) (base p i k : Nat) : Option Nat :=
  if base = Reg.CLU_STATUS then some (c.clusterStatus k)
  else if base = Reg.CLU_EPOCH then some (c.cluster k).epoch.toNat
  else if base = Reg.CLU_SFU then some ((c.cluster k).tableVer.toNat + 2 ^ 16 * b2n (c.cluster k).tableOk)
  else if base = Reg.CREMA_STATUS then some (c.cremaStatus k)
  else if base = Reg.BATCH_COUNT then some (c.batchCount p)
  else if base = Reg.BATCH_SLOT_STATUS then some (slotStatus (KMap.getD c.bslots ((c.slotRange p).1 + k) {}))
  else if base = Reg.BATCH_SLOT_POS then some (KMap.getD c.bslots ((c.slotRange p).1 + k) {}).pos.toNat
  else if base = Reg.MGT_AGE then some (c.ageWord k)
  else if base = Reg.AXL_PTAGS then c.tagsOf i
  else if base = Reg.MGT_OP then c.opWord
  else if base = Reg.PWR_GROUP_STATE then some c.groupWord
  else if base = Reg.GTC_LO ∨ base = Reg.DET_GTC_LO then some (dbits c.gtc 31 0)
  else if base = Reg.GTC_HI then some (KMap.getD c.gtcLatch 0 0).toNat
  else if base = Reg.DET_GTC_HI then some (KMap.getD c.gtcLatch (p + 1) 0).toNat
  else none

/-- R11: what a read returns: WO fields and reserved bits are 0. -/
def readWord (fs : List FDesc) (w : Word) : Word :=
  fs.foldl (fun x f => if f.ty = .wo then x else wset x f.hi f.lo (wbits w f.hi f.lo)) 0

/-- R11: a register after a read: its RC fields are 0. (DEDUCED, assumption 127.) -/
def clearRc (fs : List FDesc) (w : Word) : Word :=
  fs.foldl (fun x f => if f.ty = .rc then wset x f.hi f.lo 0 else x) w

/-- R403, R404: a read of the counter's low half latches the high half. -/
def Chip.latchFor (c : Chip) (base p : Nat) : Chip :=
  let hi : Word := BitVec.ofNat 32 (dbits c.gtc 63 32)
  if base = Reg.GTC_LO then { c with gtcLatch := KMap.put 0 0 hi c.gtcLatch }
  else if base = Reg.DET_GTC_LO then { c with gtcLatch := KMap.put 0 (p + 1) hi c.gtcLatch }
  else c

/-- R87: a word of the MSI-X table, and of the pending-bit array. -/
def Chip.msixRead (c : Chip) (fn o : Nat) : Word :=
  let e := KMap.getD c.msix (fn * 2048 + o / 16) {}
  if o / 16 ≥ vectors fn then 0
  else BitVec.ofNat 32 (match o % 16 / 4 with
    | 0 => e.addr
    | 1 => e.addr / 2 ^ 32
    | 2 => e.data
    | _ => b2n e.masked)

def Chip.pbaRead (c : Chip) (fn o : Nat) : Word :=
  BitVec.ofNat 32 ((List.range 32).foldl (fun n i =>
    n + 2 ^ i * b2n (decide (8 * o + i < vectors fn) && (KMap.getD c.msix (fn * 2048 + 8 * o + i) {}).pending)) 0)

/-- R11, R482, R507: one aligned word read at an offset of the device. (DEDUCED, assumption 127.) -/
def Chip.regLoad (c : Chip) (fn a : Nat) : Chip × Word :=
  if !c.booted ∧ !earlyWindow a then (c, 0)
  else if inMsix a then (c, c.msixRead fn (a % 0x80000))
  else if inPba a then (c, c.pbaRead fn (a % 0x80000))
  else if inMgtData a then (c, c.rg a)
  else
    match findReg a with
    | none => (c, 0)
    | some (d, p, i) =>
      let c1 := c.wakeFor a
      if (d.paged ∧ !c1.exists? p) ∨ c1.regAbsent d i then (c1, 0)
      else
        match c1.steered d.steer fn p with
        | none => (c1, 0)
        | some k =>
          let c2 := c1.wakeSteered d k
          let w := match c2.derived d.base p i k with
            | some n => BitVec.ofNat 32 n
            | none => c2.rg (a + steer k)
          ((c2.setRg (a + steer k) (clearRc d.fields (c2.rg (a + steer k)))).latchFor d.base p, readWord d.fields w)

/-- R11, R12, R507: a read in a function's view; a narrow or misaligned one returns all ones and is logged.
(DEDUCED, assumptions 123, 124, 127.) -/
def Chip.regRead (c : Chip) (fn off size : Nat) : Chip :=
  if !c.fnEnabled fn then c
  else
    match accessWords off size with
    | none => (c.regError (shownOffset fn off)).emit (allOnes size)
    | some ws =>
      let r := ws.foldl (fun (x : Chip × List Byte) o =>
        match physOffset fn o with
        | some a => let y := x.1.regLoad fn a; (y.1, x.2 ++ leBytes 4 y.2.toNat)
        | none => (x.1, x.2 ++ leBytes 4 0)) (c, [])
      r.1.emit (.hostData r.2)

/-- R60: the code of a queue's state. -/
def QState.code : QState → Nat
  | .unbound => 0
  | .running => 1
  | .halted => 2
  | .draining => 3

/-- R60: a word of a doorbell page: Q_STATE and Q_HEAD; DB_TAIL and CPL_HEAD are write-only. -/
def Chip.bar2Word (c : Chip) (fn off : Nat) : Nat :=
  let x := c.queue (fn * 64 + off / 4096)
  match off % 4096 with
  | 8 => x.state.code + 2 ^ 16 * x.haltStatus.toNat
  | 12 => x.head.toNat
  | _ => 0

/-- R60: a read of a doorbell page of a function's BAR2; one that is not an aligned 32-bit access reads 0. -/
def Chip.bar2Read (c : Chip) (fn off size : Nat) : Chip :=
  if !c.fnEnabled fn then c
  else
    let n := if c.booted && size == 4 && decide (off < 2 ^ 18) then c.bar2Word fn off else 0
    c.emit (.hostData (leBytes size n))

/-- R11, R60: COUNTER_READ_CLEAR: a read of a register, whose RC fields then clear, or of a doorbell page. -/
def execCounterReadClear (fn : BitVec 4) (place : RegPlace) (size : BitVec 4) (s : State) :
    Host.Outcome State Fault Refusal :=
  onChip (fun c => if place.bar2 then c.bar2Read fn.toNat place.off.toNat size.toNat
    else c.regRead fn.toNat place.off.toNat size.toNat) s

end Sys2Proof.Machine
end

