-- ==== Sys2Proof/Machine/Partition.lean ====
section
/-!
DEFINITION. PARTITION_CTL (R30 to R34, R53, R532) and the partition-reset sequence with its report (R446 to
R449).
-/

namespace Sys2Proof.Machine

/-! ## The configuration block (R31) -/

/-- The fields of a partition configuration block (R31). -/
structure PConf where
  part : Nat
  det : Bool
  clock : Nat
  safety : Bool
  groups : Nat
  clusters : Nat
  ways : Nat
  wqueues : Nat
  memGib : Nat
  asidBase : Nat
  asidCount : Nat
  pairEn : Bool
  pairLead : Bool
  pairDev : Nat
  pairPart : Nat
  linkSlots : Nat
  meshRate : Nat
  memRate : Nat
  linkRate : Nat
  burst : Nat
  rsvOk : Bool

/-- R31: the block's fields; `rsvOk` says that every RsvdZ bit is 0. -/
def PConf.ofBytes (b : List Byte) : PConf :=
  let w (i : Nat) : Nat := fieldLE b i 4
  { part := bits (w 0) 3 0, det := bit (w 0) 4, clock := bits (w 0) 6 5, safety := bit (w 0) 7
    groups := bits (w 0) 11 8, clusters := bits (w 0) 18 12, ways := bits (w 0) 23 19, wqueues := bits (w 0) 29 24
    memGib := bits (w 4) 8 0, asidBase := bits (w 4) 27 16, asidCount := bits (w 8) 12 0
    pairEn := bit (w 0xC) 0, pairLead := bit (w 0xC) 1, pairDev := bits (w 0xC) 7 2, pairPart := bits (w 0xC) 11 8
    linkSlots := fieldLE b 0x10 8, meshRate := bits (w 0x18) 15 0, memRate := bits (w 0x18) 31 16
    linkRate := bits (w 0x1C) 15 0, burst := bits (w 0x1C) 31 16
    rsvOk := bits (w 0) 31 30 == 0 && bits (w 4) 15 9 == 0 && bits (w 4) 31 28 == 0 && bits (w 8) 31 13 == 0
      && bits (w 0xC) 31 12 == 0 && bits (w 0x20) 15 8 == 0 && bits (w 0x20) 31 23 == 0
      && fieldLE b 0x24 28 == 0 }

/-- R363: FIRST and COUNT of the LINK_SLOTS byte of a port. -/
def PConf.slots (f : PConf) (n : Nat) : Nat × Nat :=
  (bits f.linkSlots (8 * n + 3) (8 * n), bits f.linkSlots (8 * n + 7) (8 * n + 4))

/-- R36: pseudo-channel groups of a carve-out. -/
def PConf.pcgs (f : PConf) : Nat := ceilDiv f.memGib 3

/-! ## The checks (R32) -/

/-! The reason codes (R32). -/
namespace Reason
def ok : Nat := 0x00
def partExists : Nat := 0x01
def vfDisabled : Nat := 0x02
def clustersShort : Nat := 0x03
def memoryShort : Nat := 0x04
def scratchShort : Nat := 0x05
def asidConflict : Nat := 0x06
def slotsShort : Nat := 0x07
def fieldInvalid : Nat := 0x08
def safetyTaken : Nat := 0x09
def pinCapacity : Nat := 0x0A
def tableInvalid : Nat := 0x0B
def wrongState : Nat := 0x0C
end Reason

/-- The first reason whose condition holds, or OK. (DEDUCED, assumption 131.) -/
def firstReason : List (Bool × Nat) → Nat
  | [] => Reason.ok
  | (b, r) :: t => if b then r else firstReason t

/-- R31, R363: fields that are out of range or forbidden for the kind at CREATE. -/
def Chip.createFieldsBad (c : Chip) (f : PConf) : Bool :=
  let ports := c.fld Fld.DEV_CAPS0_LINK_PORTS
  !f.rsvOk || f.part == 0 || f.memGib == 0 || f.asidCount == 0 || decide (f.asidBase + f.asidCount > 4096)
    || (if f.det then
          f.clock == 3 || f.groups == 0 || decide (f.groups > 11) || f.ways == 0 || decide (f.ways > 14)
            || f.clusters != 0 || f.meshRate != 0 || f.memRate != 0 || f.linkRate != 0 || f.burst != 0
            || (List.range 8).any fun n =>
                 decide ((f.slots n).1 + (f.slots n).2 > 16) || ((f.slots n).2 != 0 && decide (ports ≤ n))
        else
          f.clusters == 0 || decide (f.clusters > 87)
            || f.clock != 0 || f.safety || f.groups != 0 || f.ways != 0 || f.pairEn || f.pairLead || f.pairDev != 0
            || f.pairPart != 0 || f.linkSlots != 0)

/-- R32, R44: the ASID range overlaps another partition's. -/
def Chip.asidConflict (c : Chip) (f : PConf) : Bool :=
  c.existing.any fun p =>
    let x := c.part p
    decide (f.asidBase < x.asidBase + x.asidCount) && decide (x.asidBase < f.asidBase + f.asidCount)

/-- R363: the slots of a port that partitions own, one bit each. (DEDUCED, assumption 135.) -/
def Chip.ownedSlots (c : Chip) (n : Nat) : Nat :=
  c.detParts.foldl (fun m p =>
    let x := c.part p
    m ||| ((2 ^ x.slotCount n - 1) * 2 ^ bits x.linkSlots (8 * n + 3) (8 * n))) 0

/-- R358, R363, R364: link slots or tags that CREATE cannot have; `refused` says which ports' partners refuse.
(DEDUCED, assumption 135.) -/
def Chip.slotsShort (c : Chip) (f : PConf) (refused : Byte) : Bool :=
  decide (c.fld Fld.AXL_NEXT_DET_TAGS > c.fld Fld.AXL_TAGS_FREE_FREE)
    || (List.range 8).any fun n =>
      let (first, k) := f.slots n
      let want := (2 ^ k - 1) * 2 ^ first
      let own := c.ownedSlots n
      k != 0 && (!c.portUp n || refused.getLsbD n || own &&& want != 0 || own ||| want == 0xFFFF)

/-- R34: clusters that CREATE cannot have; partition 0 keeps one. -/
def Chip.clustersShort (c : Chip) (f : PConf) : Bool :=
  if f.det then decide (c.openGroups.length < f.groups) || decide (c.zeroClusters.length ≤ 8 * f.groups)
  else decide (c.zeroClusters.length ≤ f.clusters)

/-- R36, R38: memory that CREATE cannot have. -/
def Chip.memoryShort (c : Chip) (f : PConf) : Bool :=
  if f.det then (c.pickGroups f.pcgs).isNone else decide (c.freeFrameCount < f.memGib)

/-- R454: CREATE, SEAL and RESIZE wait for firmware that does not run: they complete with WRONG_STATE. -/
def Chip.noFirmware (c : Chip) : Bool := !c.firmwareRuns

/-- R32, R476: why a CREATE fails. (DEDUCED, assumption 131.) -/
def Chip.createReason (c : Chip) (f : PConf) (refused : Byte) : Nat :=
  firstReason
    [(c.createFieldsBad f, Reason.fieldInvalid),
     (c.exists? f.part, Reason.partExists),
     (c.noFirmware || c.fld Fld.SEC_STATUS_DEBUG_LEVEL == 2, Reason.wrongState),
     (!(c.pcie.vfEnable && decide (f.part ≤ c.pcie.numVfs)), Reason.vfDisabled),
     (f.safety && c.existing.any fun p => (c.part p).safety, Reason.safetyTaken),
     (c.asidConflict f, Reason.asidConflict),
     (c.clustersShort f, Reason.clustersShort),
     (c.memoryShort f, Reason.memoryShort),
     (f.det && (c.pickWays f.ways).isNone, Reason.scratchShort),
     (f.det && c.slotsShort f refused, Reason.slotsShort)]

/-- Clusters that a partition holds. (DEDUCED, assumption 133.) -/
def Chip.held (c : Chip) (p : Nat) : List Nat := (c.clusters.filter fun kc => kc.2.part == p).map Prod.fst

/-- R32, R532: why a RESIZE fails. (DEDUCED, assumption 131.) -/
def Chip.resizeReason (c : Chip) (f : PConf) : Nat :=
  let x := c.part f.part
  firstReason
    [(!f.rsvOk || f.memGib == 0 || (if f.part = 0 then f.clusters != 0 else f.clusters == 0 || decide (f.clusters > 87)),
        Reason.fieldInvalid),
     (x.state != .ready || x.det || c.noFirmware, Reason.wrongState),
     (f.part != 0 && decide (c.zeroClusters.length + (c.held f.part).length ≤ f.clusters), Reason.clustersShort),
     (decide (c.freeFrameCount + x.memGib < f.memGib), Reason.memoryShort)]

/-- R32, R532: why an operation that reads PART only fails, where `states` are those that allow it.
(DEDUCED, assumption 131.) -/
def Chip.plainReason (c : Chip) (f : PConf) (states : List PState) (firmware : Bool) : Nat :=
  firstReason
    [(!f.rsvOk || f.part == 0, Reason.fieldInvalid),
     (!states.contains (c.part f.part).state || (firmware && c.noFirmware), Reason.wrongState)]

/-! ## PARTITION_CTL (R30, R32) -/

/-- R31: the RESULT word after an operation on partition `p`. (DEDUCED, assumption 133.) -/
def Chip.resultWord (c : Chip) (p reason : Nat) : List Byte :=
  leBytes 4 (reason + 2 ^ 16 * (c.part p).pcgs.length)

/-- Write the RESULT word of a PARTITION_CTL. (DEDUCED, assumption 132.) -/
def Chip.putReason (c : Chip) (slot : Nat) (e : Entry) (bytes : List Byte) : Except (AccErr × Nat) Chip :=
  c.writeVA (c.actor 0 slot) 0 (.entry 0 slot) (e.desc.p1.toNat + 0x20) bytes

/-- R32: a PARTITION_CTL ends with a reason: OK, or MALFORMED_DESCRIPTOR. (DEDUCED, assumption 132.) -/
def Chip.endCtl (c : Chip) (slot : Nat) (e : Entry) (p reason : Nat) : Chip :=
  match c.putReason slot e (c.resultWord p reason) with
  | .error err => c.failAt 0 slot FaultUnit.frontEnd err
  | .ok c1 => if reason = Reason.ok then c1.finishOk 0 slot else c1.finishMalformed 0 slot

/-- R30, R209: execute a PARTITION_CTL whose operation is `op`, once no way is changing.
(DEDUCED, assumption 130.) -/
def Chip.partCtl (c : Chip) (slot op : Nat) (f : Chip → Entry → PConf → Chip) : Chip :=
  c.run 0 slot Op.partitionCtl fun c e =>
    if e.desc.p0.toNat ≠ op ∨ c.flag Fld.SC_STATUS_BUSY then c
    else
      match c.readVA (c.actor 0 slot) e.desc.p1.toNat 64 with
      | .error err => c.failAt 0 slot FaultUnit.frontEnd err
      | .ok b => f c e (PConf.ofBytes b)

/-! ## CREATE (R34 to R38, R207, R235, R364) -/

/-- R363: OWNED of every port follows the partitions' slots. -/
def Chip.showSlots (c : Chip) : Chip :=
  (List.range (c.fld Fld.DEV_CAPS0_LINK_PORTS)).foldl
    (fun c n => c.setFld Fld.AXL_PORT_STATUS_OWNED (po n) (c.ownedSlots n)) c

/-- R251, R358: the global registers that count free frame slots, half-watts and tags, and name each slot's
owner. (DEDUCED, assumption 141.) -/
def Chip.showEngines (c : Chip) : Chip :=
  let owned (f : Part → Nat) : Nat := c.detParts.foldl (fun n p => n + f (c.part p)) 0
  let owner (k : Nat) : Nat := (c.detParts.find? fun p => (c.part p).ctxSlots.contains k).getD 0
  let word (lo : Nat) : Word := BitVec.ofNat 32 ((rangeFrom lo 8).foldl (fun n k => n + owner k * 16 ^ (k - lo)) 0)
  let c1 := ((c.setFld Fld.CTX_FREE_SLOTS 0 (16 - owned fun x => x.ctxSlots.length)).setFld Fld.CTX_FREE_WATTS 0
    (19 - owned Part.ctxWatts)).setFld Fld.AXL_TAGS_FREE_FREE 0 (8192 - owned Part.linkTags)
  (c1.setRg Reg.CTX_SLOT_OWN_LO (word 0)).setRg Reg.CTX_SLOT_OWN_HI (word 8)

/-- The registers of a page that follow the partition's resources (R251, R376). -/
def Chip.showOwn (c : Chip) (p : Nat) : Chip :=
  let x := c.part p
  ((c.setFld Fld.CTX_DET_SLOTS (pg p) x.ctxSlots.length).setFld Fld.CTX_DET_WATTS (pg p) x.ctxWatts).setFld
    Fld.AXL_PSWAP_CTL_LEAD (pg p) (b2n (x.pairEn && x.pairLead))

/-- The partition that a configuration block describes, with no resource that is chosen yet.
(DEDUCED, assumption 140.) -/
def Chip.confPart (c : Chip) (f : PConf) : Part :=
  { det := f.det, clock := f.clock, safety := f.safety, groups := f.groups, scratchWays := f.ways
    wqueues := f.wqueues, memGib := f.memGib, asidBase := f.asidBase, asidCount := f.asidCount
    pairEn := f.pairEn, pairLead := f.pairLead, pairDev := f.pairDev, pairPart := f.pairPart
    linkSlots := f.linkSlots, meshRate := f.meshRate, memRate := f.memRate, linkRate := f.linkRate, burst := f.burst
    bornSeq := c.wseq, bound := [(f.asidBase, c.wseq)], resets := (c.part f.part).resets }

/-- R34: the logical groups that a deterministic CREATE takes, which the device chooses.
(DESIGN CHOICE, assumption 60.) -/
def Chip.chooseGroups (c : Chip) (n : Nat) : List Nat :=
  let g := c.openGroups
  (g.rotateLeft (Config.freeNat c.ctr 99 % (g.length + 1))).take n

/-- Frames of pseudo-channel groups. -/
def framesOf (gs : List Nat) : List Nat := gs.flatMap fun g => rangeFrom (3 * g) 3

/-- R235, R364: a deterministic CREATE takes what CTX_NEXT_DET and AXL_NEXT_DET give, and clears both.
(DEDUCED, assumption 141.) -/
def Chip.takeEngines (c : Chip) (p : Nat) : Chip :=
  let free := (List.range 16).filter fun k => c.frameOwner k == 0
  let x := { c.part p with
    ctxSlots := free.take (c.fld Fld.CTX_NEXT_DET_SLOTS), ctxWatts := c.fld Fld.CTX_NEXT_DET_WATTS
    linkTags := c.fld Fld.AXL_NEXT_DET_TAGS, linkJob := c.fld Fld.AXL_NEXT_DET_JOB }
  ((c.setPart p x).setRg Reg.CTX_NEXT_DET 0).setRg Reg.AXL_NEXT_DET 0

/-- The resources of a deterministic CREATE: groups, carve-out, scratch ways, engine slots, tags, link slots and the
die-to-die slots that match them (R18, R364). (DEDUCED, assumption 135.) -/
def Chip.createDet (c : Chip) (f : PConf) : Chip :=
  let p := f.part
  let ws := (c.pickWays f.ways).getD []
  let gs := (c.pickGroups f.pcgs).getD []
  let cls := (c.chooseGroups f.groups).flatMap fun g => rangeFrom (8 * g) 8
  let x := { c.confPart f with pcgs := gs, ways := (List.range 16).reverse.filter ws.contains,
                               dieSlots := f.linkSlots, state := .opened }
  ((((((c.setPart p x).rotateFrames (framesOf gs)).convertWays p ws).handOverAll p cls).takeEngines p).showEngines).showSlots

/-- The resources of an elastic CREATE: clusters and frames. -/
def Chip.createElastic (c : Chip) (f : PConf) : Chip :=
  let p := f.part
  let cls := (c.takeOrder c.zeroClusters).take f.clusters
  (Chip.takeFrames p f.memGib (c.setPart p { c.confPart f with state := .ready })).handOverAll p cls

/-- R236: the scan buckets of a partition are full. -/
def Chip.fillScans (c : Chip) (p : Nat) : Chip := { c with scanDebt := KMap.drop (fun k => k % 16 == p) c.scanDebt }

/-- R33, R34: CREATE. -/
def Chip.create (c : Chip) (f : PConf) : Chip :=
  let c1 := if f.det then c.createDet f else c.createElastic f
  let c2 := (((c1.settlePart 0).fillScans f.part).resetPage f.part).showOwn f.part
  (c2.setPartState f.part (if f.det then .opened else .ready)).showPart 0

/-- R364: a deterministic CREATE asks the partner of every port that it names to hold the slots. -/
def Chip.askSlots (c : Chip) (f : PConf) : Chip :=
  (List.range 8).foldl (fun c n =>
    let (first, k) := f.slots n
    if k = 0 then c else c.emit (.slotAsk n first k (c.fld Fld.AXL_NEXT_DET_JOB))) c

/-- R30 to R34: PARTITION_CTL CREATE; the link partners are asked once nothing here stands against it; `refused` says
which ports' link partners refuse the slots (R364). (DEDUCED, assumption 132.) -/
def Chip.partitionCreate (c : Chip) (slot : Nat) (refused : Byte) : Chip :=
  c.partCtl slot 0 fun c0 e f =>
    let r := c0.createReason f refused
    let c := if f.det ∧ c0.createReason f 0 = Reason.ok then c0.askSlots f else c0
    if r = Reason.ok then
      match c.putReason slot e (leBytes 4 (2 ^ 16 * (if f.det then f.pcgs else 0))) with
      | .error err => c.failAt 0 slot FaultUnit.frontEnd err
      | .ok c1 => (c1.create f).finishOk 0 slot
    else c.endCtl slot e f.part r

def execPartitionCreate (slot : BitVec 6) (refused : Byte) (s : State) : Host.Outcome State Fault Refusal :=
  onChip (fun c => c.partitionCreate slot.toNat refused) s

/-! ## SEAL (R53) -/

/-- Why the walk of SEAL stops: a 513th leaf, or an entry or table that cannot be used. -/
inductive SealErr where
  | full
  | invalid (err : AccErr) (asid va : Nat)

/-- What SEAL has found: leaves, newest first, and their number; table pages; the end of the last 64 KiB run. -/
structure Sealed where
  leaves : List Leaf := []
  count : Nat := 0
  pages : List Nat := []
  runEnd : Nat := 0

/-- R53: one more leaf. -/
def Sealed.add (a : Sealed) (f : Leaf) : Except SealErr Sealed :=
  if a.count ≥ 512 then .error .full
  else .ok { a with leaves := f :: a.leaves, count := a.count + 1
                    runEnd := if f.size = 65536 then f.va + f.size else a.runEnd }

/-- R53: the walk of one table, depth first in ascending index. Entries that are not valid are passed over; the
rest of a 64 KiB run is not read (R49). A read that fails names the lowest VA that the table covers.
(DEDUCED, assumption 134.) -/
def Chip.sealTable (c : Chip) (p asid : Nat) : Nat → Nat → Nat → Sealed → Except SealErr Sealed
  | 0, _, _, a => .ok a
  | level + 1, table, base, a =>
    (List.range 512).foldl (fun r i =>
      match r with
      | .error e => .error e
      | .ok a =>
        let va := base + i * 2 ^ (12 + 9 * level)
        if level = 0 ∧ va < a.runEnd then .ok a
        else
          match c.readPP p (table + 8 * i) 8 with
          | .error e => .error (.invalid e asid base)
          | .ok b =>
            let e := dwordAt b 0
            if !bit e.toNat 0 then .ok a
            else
              match judgeEntry (level + 1) e with
              | .bad => .error (.invalid .xlate asid va)
              | .leaf size =>
                if bits e.toNat 55 52 = 1 then .error (.invalid .xlate asid va)
                else a.add { asid := asid, va := va / size * size, size := size, entry := e }
              | .table t => Chip.sealTable c p asid level t va { a with pages := t / 4096 :: a.pages, runEnd := 0 })
      (.ok a)

/-- R53: the walk of every valid ASID of the range, in ascending order. (DEDUCED, assumption 134.) -/
def Chip.sealWalk (c : Chip) (p : Nat) : Except SealErr Sealed :=
  let x := c.part p
  (List.range x.asidCount).foldl (fun r i =>
    match r with
    | .error e => .error e
    | .ok a =>
      let asid := x.asidBase + i
      match c.readPP p (c.asidTable p + 8 * i) 8 with
      | .error e => .error (.invalid e asid 0)
      | .ok b =>
        let e := dwordAt b 0
        if !bit e.toNat 0 then .ok a
        else
          match asidEntry e with
          | none => .error (.invalid .xlate asid 0)
          | some t => c.sealTable p asid 4 t 0 { a with pages := t / 4096 :: a.pages, runEnd := 0 }) (.ok {})

/-- R53: the pages that hold the ASID table. -/
def Chip.asidPages (c : Chip) (p : Nat) : List Nat :=
  let lo := c.asidTable p / 4096
  rangeFrom lo ((c.asidTable p + 8 * (c.part p).asidCount - 1) / 4096 + 1 - lo)

/-- R33, R53: the partition is sealed and READY. -/
def Chip.sealPart (c : Chip) (p : Nat) (a : Sealed) : Chip :=
  (c.setPart p { c.part p with sealed := true, pinned := a.leaves.reverse
                               pinnedPages := c.asidPages p ++ distinct a.pages.reverse }).setPartState p .ready

/-- R53: PARTITION_CTL SEAL. -/
def Chip.partitionSeal (c : Chip) (slot : Nat) : Chip :=
  c.partCtl slot 1 fun c e f =>
    let r := c.plainReason f [.opened] true
    if r ≠ Reason.ok then c.endCtl slot e f.part r
    else
      match c.sealWalk f.part with
      | .error .full => c.endCtl slot e f.part Reason.pinCapacity
      | .error (.invalid err asid va) =>
        (c.capture f.part err FaultUnit.sealWalk asid va e.desc.tag.toNat).endCtl slot e f.part Reason.tableInvalid
      | .ok a =>
        match c.putReason slot e (c.resultWord f.part Reason.ok) with
        | .error err => c.failAt 0 slot FaultUnit.frontEnd err
        | .ok c1 => (c1.sealPart f.part a).finishOk 0 slot

def execPartitionSeal (slot : BitVec 6) (s : State) : Host.Outcome State Fault Refusal :=
  onChip (fun c => c.partitionSeal slot.toNat) s

/-! ## RESIZE (R34, R38, R532) -/

/-- R38: the frames of a partition become `n`, at the top. -/
def Chip.resizeFrames (c : Chip) (p n : Nat) : Chip :=
  let x := c.part p
  let gone := x.frames.drop n
  let c1 := (c.setPart p { x with memGib := n, frames := x.frames.take n }).rotateFrames gone
  Chip.takeFrames p (n - x.frames.length) c1

/-- R34: the clusters of an elastic partition become `n`. -/
def Chip.resizeClusters (c : Chip) (p n : Nat) : Chip :=
  let mine := c.held p
  if mine.length < n then
    (c.handOverAll p ((c.takeOrder c.zeroClusters).take (n - mine.length))).settlePart 0
  else (c.handOverAll 0 ((c.returnOrder mine).take (mine.length - n))).settlePart p

/-- R33, R34: RESIZE. -/
def Chip.resize (c : Chip) (f : PConf) : Chip :=
  let c1 := if f.part = 0 then c else c.resizeClusters f.part f.clusters
  (((c1.resizeFrames f.part f.memGib).showPart f.part).showPart 0).showPStatus f.part

/-- R532: PARTITION_CTL RESIZE. -/
def Chip.partitionResize (c : Chip) (slot : Nat) : Chip :=
  c.partCtl slot 2 fun c e f =>
    let r := c.resizeReason f
    if r ≠ Reason.ok then c.endCtl slot e f.part r
    else
      match c.putReason slot e (c.resultWord f.part Reason.ok) with
      | .error err => c.failAt 0 slot FaultUnit.frontEnd err
      | .ok c1 => (c1.resize f).finishOk 0 slot

def execPartitionResize (slot : BitVec 6) (s : State) : Host.Outcome State Fault Refusal :=
  onChip (fun c => c.partitionResize slot.toNat) s

/-! ## RESET and DESTROY (R33, R449) -/

/-- The operation waits for the end of the reset. -/
def Chip.awaitReset (c : Chip) (slot : Nat) (e : Entry) (p : Nat) : Chip :=
  let x := c.part p
  (c.setPart p { x with ctlWaiters := x.ctlWaiters ++ [slot] }).setEntry 0 slot { e with phase := .running }

/-- R33, R449: PARTITION_CTL RESET; one during a reset waits for its end. -/
def Chip.partitionCtlReset (c : Chip) (slot : Nat) : Chip :=
  c.partCtl slot 3 fun c e f =>
    let r := c.plainReason f [.opened, .ready, .resetting] false
    if r ≠ Reason.ok then c.endCtl slot e f.part r
    else (c.startReset f.part false).awaitReset slot e f.part

def execPartitionCtlReset (slot : BitVec 6) (s : State) : Host.Outcome State Fault Refusal :=
  onChip (fun c => c.partitionCtlReset slot.toNat) s

/-- R33, R449: PARTITION_CTL DESTROY; one during a reset runs after it. -/
def Chip.partitionDestroy (c : Chip) (slot : Nat) : Chip :=
  c.partCtl slot 4 fun c e f =>
    let r := c.plainReason f [.opened, .ready, .resetting] false
    if r ≠ Reason.ok then c.endCtl slot e f.part r
    else if (c.part f.part).state = .resetting then c
    else (c.startReset f.part true).awaitReset slot e f.part

def execPartitionDestroy (slot : BitVec 6) (s : State) : Host.Outcome State Fault Refusal :=
  onChip (fun c => c.partitionDestroy slot.toNat) s

/-! ## The partition-reset sequence (R446, R447) -/

/-- R448: a record of the reset report. (DESIGN CHOICE, assumption 138.) -/
def reportRecord (c : Chip) (q : Nat) (e : Entry) (s : Half) (detail : Word) : List Byte :=
  (recordBytes s e.desc.tag e.index c.gtc (BitVec.ofNat 64 (Config.freeNat c.ctr (q * 2 ^ 32 + e.index.toNat))) detail
    e.desc.opcode true).set 0x1D (BitVec.ofNat 8 (indexOf q))

/-- R447: a started copy or job that waits for data stops at its next boundary, or when its time is over.
(DEDUCED, assumption 136.) -/
def Chip.stillMoving (c : Chip) (q slot : Nat) (e : Entry) : Bool :=
  let op := e.desc.opcode.toNat
  (op == Op.copy || op == Op.remoteCopy || op == Op.compress || op == Op.decompress)
    && e.phase == .ready
    && c.reqs.any fun r => r.who == .entry q slot && match r.kind with | .read _ => true | _ => false

/-- R446 steps 2 to 4: a begun descriptor ends with ABORTED_RESET; one that had executed keeps its status. -/
def Chip.endEntry (c : Chip) (q slot : Nat) (e : Entry) : List Byte :=
  match e.phase with
  | .done s d _ => reportRecord c q e s d
  | _ => reportRecord c q e St.abortedReset (BitVec.ofNat 32 (min (e.stoppedDetail (c.writesOut q slot)) (2 ^ 32 - 1)))

/-- A begun compression job that has not ended. -/
def Entry.openJob (e : Entry) : Bool :=
  isJobOp e.desc.opcode.toNat && match e.phase with | .done _ _ _ => false | _ => true

/-- Remove begun descriptors of a partition that satisfy `f`; their records join its report, and the compression jobs among
them are counted (R343). -/
def Chip.collect (c0 : Chip) (p : Nat) (f : Nat → Nat → Entry → Bool) : Chip :=
  let mine := c0.queues.filter fun kq => partOf kq.1 == p
  let jobs := mine.flatMap fun kq => kq.2.entries.filter fun ke => f kq.1 ke.1 ke.2 && ke.2.openJob
  let c := c0.count Fld.CDE_JOB_CNT_COUNT 0 jobs.length
  let recs := mine.flatMap fun kq => (kq.2.entries.filter fun ke => f kq.1 ke.1 ke.2).map fun ke =>
    c.endEntry kq.1 ke.1 ke.2
  let x := c.part p
  { c.setPart p { x with report := x.report ++ recs } with
    queues := c.queues.map fun kq =>
      if partOf kq.1 = p then
        (kq.1, { kq.2 with fetched := [], entries := kq.2.entries.filter fun ke => !f kq.1 ke.1 ke.2 })
      else kq }

/-- R446 step 2: the partition's waves stop at once; a cluster that was leaving it has left. -/
def Chip.stopWaves (c : Chip) (p : Nat) : Chip :=
  c.clusters.foldl (fun c kc =>
    if kc.2.wgs.any fun kw => partOf kw.2.q == p then
      let c1 := c.dropResidents kc.1
      if kc.2.draining then c1.handCluster kc.1 (c1.cluster kc.1).part (c1.cluster kc.1) else c1
    else c) c

/-- R446: what the front end and the engines hold of the partition's work, the moving transfers apart.
(DEDUCED, assumptions 51, 136.) -/
def Chip.dropWork (c : Chip) (p : Nat) : Chip :=
  let mine (q : Nat) : Bool := partOf q == p
  let job (k : Nat) : Bool := mine (k / 64)
  let lanes := c.lanes.filter fun l => job l.2 && !(match c.entry (l.2 / 64) (l.2 % 64) with
    | some e => c.stillMoving (l.2 / 64) (l.2 % 64) e
    | none => false)
  let c1 := lanes.foldl (fun c l => c.freeLane l.1) c
  { c1 with
    grids := KMap.drop job c1.grids, hist := KMap.drop mine c1.hist, chains := KMap.drop mine c1.chains
    scans := KMap.drop job c1.scans
    colls := c1.colls.filter fun x => !mine x.q
    collHeld := c1.collHeld.filter fun m => m.part != p
    sigs := KMap.drop mine c1.sigs, sigIn := KMap.drop mine c1.sigIn
    swaps := c1.swaps.filter fun w => w.timeRole || w.part != p || w.granted
    ras := { c1.ras with recov := c1.ras.recov.map fun r => if r.part = p then { r with abandoned := true } else r } }

/-- R446 step 5: the tags of the partition's remote requests return and the answers are discarded; requests of its
messages that have not left do not leave. (DEDUCED, assumption 137.) -/
def Chip.dropRequests (c : Chip) (p : Nat) : Chip :=
  let isReq (m : Msg) : Bool := m.srcPart == p && decide (m.op ≤ MOp.atomic)
  { c with
    reqs := (c.reqs.filter fun r => r.sent || r.part != p).map fun r =>
      if r.part = p then
        (if r.host then { r with who := .none } else { r with who := .none, part := noPart, queue := 64 * noPart })
      else r
    ports := c.ports.map fun kp => (kp.1, { kp.2 with txq := kp.2.txq.map fun kv =>
      (kv.1, kv.2.filter fun m => !isReq m) }) }

/-- R446 step 7: memory, caches, scratch, crema, batch slots and the pin store are erased.
(DEDUCED, assumptions 51, 139.) -/
def Chip.erasePart (c : Chip) (p : Nat) : Chip :=
  let x := c.part p
  let fs := x.frames ++ framesOf x.pcgs
  let c1 : Chip := x.ways.foldl Chip.zeroWay (c.rotateFrames fs)
  let base := c1.fld Fld.BATCH_RANGE_BASE (8 * p)
  let n := c1.fld Fld.BATCH_RANGE_COUNT (8 * p)
  let c2 : Chip := { c1 with
    oldWords := c1.oldWords.filter fun o => !fs.contains (o.addr / gib)
    clusters := c1.clusters.map fun (kc : Nat × Cluster) =>
      if kc.2.part = p ∧ kc.2.wgs.isEmpty then (kc.1, kc.2.scrub) else kc
    bslots := KMap.drop (fun k => decide (base ≤ k) && decide (k < base + n)) c1.bslots
    inbuf := KMap.drop (fun k => decide (k < 2 ^ 20) && partOf (k / 64) == p) c1.inbuf
    queues := KMap.drop (fun q => partOf q == p) c1.queues }
  c2.setPart p { c2.part p with resetStage := 2, sealed := false, pinned := [], pinnedPages := [], runList := []
                                dpClaims := [], invals := [], bornSeq := c2.wseq
                                bound := [((c2.part p).asidBase, c2.wseq)] }

/-- R446: no transfer moves any more, and the partition is erased. (DEDUCED, assumption 136.) -/
def Chip.quiesce (c : Chip) (p : Nat) : Chip :=
  let moving := c.queues.any fun kq => partOf kq.1 == p && kq.2.entries.any fun ke => c.stillMoving kq.1 ke.1 ke.2
  if (c.part p).resetStage ≠ 1 ∨ moving then c
  else
    let c1 := (c.collect p fun _ _ _ => true).dropWork p
    (c1.dropRequests p).erasePart p

/-- R446 steps 1 to 4: PARTITION_RESET. -/
def Chip.partitionReset (c : Chip) (p : Nat) : Chip :=
  if !c.inReset p ∨ (c.part p).resetStage ≠ 0 then c
  else
    let c1 := (c.stopWaves p).dropWork p
    let c2 := c1.collect p fun q slot e => !c.stillMoving q slot e
    (c2.setPart p { c2.part p with resetStage := 1 }).quiesce p

def execPartitionReset (p : BitVec 4) (s : State) : Host.Outcome State Fault Refusal :=
  onChip (fun c => c.partitionReset p.toNat) s

/-- R447: TRANSFER_STOP_TIMEOUT: the transfers that have not reached a boundary stop where they stand.
(DEDUCED, assumption 136.) -/
def Chip.transferStop (c : Chip) (p : Nat) : Chip :=
  if !c.inReset p ∨ (c.part p).resetStage ≠ 1 then c
  else (c.collect p fun _ _ _ => true).quiesce p

def execTransferStopTimeout (p : BitVec 4) (s : State) : Host.Outcome State Fault Refusal :=
  onChip (fun c => c.transferStop p.toNat) s

/-! ## The end of a reset (R448) -/

/-- R448: where the report of a partition lies. -/
def Chip.reportBase (c : Chip) (p : Nat) : Nat :=
  2 ^ 22 * c.fld Fld.RAS_RPT_BASE_LO_BASE_LO + 2 ^ 32 * c.fld Fld.RAS_RPT_BASE_HI_BASE_HI + p * 2 ^ 18

/-- R448: the report, and vector 16 + p; with RPT_EN at 0, or where it cannot be written, its records are lost.
(DESIGN CHOICE, assumption 138.) -/
def Chip.writeReport (c : Chip) (p : Nat) : Chip :=
  let x := c.part p
  let n := x.report.length
  let bytes := leBytes 4 n ++ leBytes 4 x.resets ++ leBytes 8 x.resetFrom.toNat ++ leBytes 8 c.gtc.toNat
    ++ List.replicate 40 0 ++ x.report.flatten
  if !c.flag Fld.RAS_RPT_BASE_LO_RPT_EN then c.count Fld.RAS_RPT_LOST_COUNT 0 n
  else
    match c.writePP 0 (c.reportBase p) bytes with
    | .ok c1 => c1.raiseOwner (16 + p)
    | .error _ => c.count Fld.RAS_RPT_LOST_COUNT 0 n

/-- R33, R208, R235, R471: every resource of a destroyed partition returns. (DEDUCED, assumption 139.) -/
def Chip.returnAll (c : Chip) (p : Nat) : Chip :=
  let x := c.part p
  let c1 := ((c.displayDestroy p).handOverAll 0 (c.held p)).rotateFrames (x.frames ++ framesOf x.pcgs)
  let c2 := if x.ways.isEmpty then c1 else c1.returnWays x.ways
  ((c2.setPart p { resets := x.resets, ctlWaiters := x.ctlWaiters }).showEngines).showSlots

/-- R33, R56: a partition leaves a reset for OPEN or READY, or a DESTROY for ABSENT. -/
def Chip.leaveReset (c : Chip) (p : Nat) : Chip :=
  let x := c.part p
  let st := if x.state = .destroying then PState.absent else if x.det then .opened else .ready
  let c1 := if st = .absent then c.returnAll p else c
  let c3 := ((c1.fillScans p).resetPage p).showOwn p
  ((c3.setPart p { c3.part p with resetStage := 0, report := [], ctlWaiters := [] }).setPartState p st).showPart 0

/-- R30, R33: the PARTITION_CTLs that waited complete with OK. -/
def Chip.releaseCtl (c : Chip) (p : Nat) (slots : List Nat) : Chip :=
  slots.foldl (fun c slot =>
    match c.entry 0 slot with
    | some e => c.endCtl slot e p Reason.ok
    | none => c) c

/-- R446, R448: PARTITION_RESET_DONE. -/
def Chip.resetDone (c : Chip) (p : Nat) : Chip :=
  let c1 := c.quiesce p
  if !c1.inReset p ∨ (c1.part p).resetStage ≠ 2 then c1
  else
    let x := c1.part p
    let c2 := (c1.setPart p { x with resets := x.resets + 1 }).writeReport p
    (c2.leaveReset p).releaseCtl p x.ctlWaiters

def execPartitionResetDone (p : BitVec 4) (s : State) : Host.Outcome State Fault Refusal :=
  onChip (fun c => c.resetDone p.toNat) s

end Sys2Proof.Machine
end

