-- ==== Sys2Proof/Machine/WaveTensor.lean ====
section
/-!
DEFINITION. Tensor instructions (R163 to R170) and the tensor unit's issue and drain-path timing (R168).
-/

namespace Sys2Proof.Machine

/-- The physical tile that TILE names in a workgroup, or none at or above its TILES (R163). -/
def tileOf (wg : WGroup) (t : BitVec 3) : Option Nat := wg.tileBase[t.toNat]?

/-- A tile of a cluster; an unlisted one is in the zero state, in long mode (R163). -/
def Cluster.tile (k : Cluster) (n : Nat) : Tile := KMap.getD k.tiles n {}

def Cluster.setTile (k : Cluster) (n : Nat) (t : Tile) : Cluster := { k with tiles := KMap.set n t k.tiles }

/-- Crema reads of a workgroup as the tensor unit makes them. -/
def cremaRd (k : Cluster) (gs : List Nat) (o : Nat) : Nat := (KMap.getD k.crema (cremaAddr gs o) 0).toNat

/-- R169: an area read by the tensor unit: alignment, bounds, poison. -/
def Cluster.areaOk (k : Cluster) (gs : List Nat) (o n align : Nat) : Except AccErr Unit :=
  if o % align ≠ 0 ∨ o + n > gs.length * 4096 then .error .perm
  else if k.cremaPoison.any fun p => (rangeFrom o n).any fun b => cremaAddr gs b / 8 == p then .error (.poison none)
  else .ok ()

/-- R163: operand fields that must be scalar registers or NONE, as the operation needs.
(DEDUCED, assumption 23.) -/
def tensorShape (a : Args) (long dst s0 s1 : Bool) (s2 : Bool) : Bool :=
  let sc (need : Bool) (c : BitVec 9) := if need then (Operand.of c).isS else Operand.of c == .none
  argOk a && (a.len == 1) == long && sc dst a.dst && sc s0 a.src0 && sc s1 a.src1 && sc s2 a.src2

/-- The value of a scalar register operand. -/
def WCtx.sc (x : WCtx) (c : BitVec 9) : Nat := (x.wv.src (Operand.of c) 0 0).toNat

/-- R164: the checked operands of a TMMA, or none where it is illegal. -/
def tmmaArgs (ch : Chip) (x : WCtx) (opRsv : BitVec 3) (f64 : Bool) (a : Args) : Option TmmaArgs :=
  let w := a.ext.toNat
  let k := x.sc a.src2
  match TFmt.ofCode (bits w 3 0), TFmt.ofCode (bits w 8 5) with
  | some fa, some fb =>
    let ua := bit w 4
    let ub := bit w 9
    let present (f : TFmt) := bit (ch.fld Fld.DEV_CAPS1_TFMT) f.tfmtBit
    let mx := fa.group == .mx || fb.group == .mx
    if opRsv == 0 && tensorShape a true false true true true && a.mod == 0 && w < 2 ^ 10
        && fa.group == fb.group && present fa && present fb
        && (!ua || fa.group == .integer) && (!ub || fb.group == .integer)
        && decide (1 ≤ k) && decide (k ≤ 65536) && (!mx || k % 32 == 0)
        && (fa.group == .double) == f64
    then some { codeA := bits w 3 0, unsA := ua, codeB := bits w 8 5, unsB := ub, fa := fa, fb := fb,
                offA := x.sc a.src0, offB := x.sc a.src1, kcount := k }
    else none
  | _, _ => none

/-- R168: the first cycle from `t` on in which the issue stage is free for `n` cycles. -/
def firstGap (n : Nat) : List (Nat × Nat) → Nat → Nat
  | [], t => t
  | (a, b) :: rest, t => if t + n ≤ a then t else firstGap n rest (max t b)

/-- An interval put in its place among others. -/
def putInterval (x : Nat × Nat) : List (Nat × Nat) → List (Nat × Nat)
  | [] => [x]
  | y :: rest => if x.1 ≤ y.1 then x :: y :: rest else y :: putInterval x rest

/-- R167: an instruction is accepted `n` cycles after the one before it; what the issue stage ended before is past. -/
def Cluster.accept (k : Cluster) (n : Nat) : Cluster :=
  let u := k.tensor
  { k with tensor := { u with
      now := u.now + n
      busy := u.busy.filter fun x => decide (u.now + n < x.2)
      portS := u.portS.filter fun x => decide (u.now + n < x.first + x.cycles) } }

/-- R195: port S's part in an instruction that operates from cycle `first` on. -/
def TensorTimes.usePort (u : TensorTimes) (wg first cycles : Nat) (areas : List PortArea) (write : Bool) : TensorTimes :=
  if areas.isEmpty then u
  else { u with portS := u.portS ++ [{ wg := wg, first := first, cycles := cycles, areas := areas, write := write }] }

/-- R195: a TMMA's reads of a panel of `n` bytes: its bank words spread evenly over the operand cycles. -/
def panelArea (off n cycles : Nat) : PortArea :=
  let words := (off + n + 31) / 32 - off / 32
  let r := (words + cycles - 1) / cycles
  { base := off / 32 * 32, step := 32 * r, len := 32 * r, top := (off / 32 + words) * 32 }

/-- R195: the 128 bytes a cycle of TACC_RAW and TSTORE_RAW. -/
def rawArea (off : Nat) : PortArea := { base := off, step := 128, len := 128, top := off + 98304 }

/-- R168: an accepted instruction takes the issue stage for `n` cycles once the drain-path instructions accepted before it
on its tile have ended; one that waits does not hold the stage. `operands`: a TMMA or TACC_RAW.
(DEDUCED, assumption 171.) -/
def Cluster.operate (k : Cluster) (tile n : Nat) (operands : Bool) (wg : Nat) (areas : List PortArea) : Cluster :=
  let u := k.tensor
  let t := firstGap n u.busy (max u.now (max (KMap.getD u.drained tile 0) (KMap.getD u.operands tile 0)))
  let v : TensorTimes := { u with
    busy := putInterval (t, t + n) u.busy
    operands := if operands then KMap.set tile (t + n) u.operands else u.operands }
  { k with tensor := v.usePort wg t n areas false }

/-- R168: an accepted instruction of the drain path starts 34 cycles after the last operand cycle of the last TMMA or
TACC_RAW accepted before it on its tile, or at acceptance where that is later, or when the path frees.
(DEDUCED, assumption 171.) -/
def Cluster.queueDrain (k : Cluster) (tile kind cycles wg : Nat) (areas : List PortArea) : Cluster :=
  let u := k.tensor
  let ready := match KMap.find tile u.operands with | some e => max u.now (e + 34) | none => u.now
  let start := max ready u.free
  let v : TensorTimes := { u with
    drained := KMap.set tile (start + cycles) u.drained
    free := start + cycles
    queue := u.queue ++ [{ tile := tile, kind := kind, start := start, cycles := cycles }] }
  { k with tensor := v.usePort wg start cycles areas true }

/-- Execute a tensor instruction on a tile of the wave's workgroup. -/
def Chip.tensorIssue (ch : Chip) (c w top : Nat) (tile opRsv : BitVec 3) (a : Args)
    (legal : WCtx → Tile → Bool)
    (f : WCtx → Cluster → Nat → Tile → Except AccErr (Cluster × Wave × Nat)) : Chip :=
  ch.issue c w Cls.tensor (tensorOp top tile opRsv) a
    (fun x => match tileOf x.wg tile with
      | some n => opRsv == 0 && legal x ((ch.cluster x.cl).tile n)
      | none => false)
    fun ch x =>
      let k := (ch.cluster x.cl).accept (Config.freeNat ch.ctr (2 ^ 75))
      match tileOf x.wg tile with
      | none => .ok (ch, x.wv)
      | some n =>
        match f x k n (k.tile n) with
        | .error e => .error (e, 0)
        | .ok (k1, wv, flags) =>
          let o := steer x.cl
          .ok ((ch.setCluster x.cl k1).setRg (Reg.CLU_TNS_STICKY + o)
                (ch.rg (Reg.CLU_TNS_STICKY + o) ||| BitVec.ofNat 32 flags), wv)

/-- R149, R162, R164: TMMA. Panel A is checked wholly before panel B. (DESIGN CHOICE, assumption 169.) -/
def execTmma (c : BitVec 7) (w : BitVec 6) (tile opRsv : BitVec 3) (i : CremaArgs) (s : State) :
    Host.Outcome State Fault Refusal :=
  let a := i.toArgs
  onChip (fun ch => (ch.cremaErrors c.toNat i.ecc).tensorIssue c.toNat w.toNat 0 tile opRsv a
    (fun x t => (tmmaArgs ch x opRsv t.f64 a).isSome) fun x k n t =>
      match tmmaArgs ch x opRsv t.f64 a with
      | none => .error .illegal
      | some m =>
        match k.areaOk x.wg.granules m.offA (panelBytes m.fa m.kcount) 16,
              k.areaOk x.wg.granules m.offB (panelBytes m.fb m.kcount) 16 with
        | .ok _, .ok _ =>
          let cycles := tmmaCycles (max m.fa.width m.fb.width) m.kcount
          .ok ((k.setTile n (t.mma (cremaRd k x.wg.granules) m)).operate n cycles true x.wv.wg
                 [panelArea m.offA (panelBytes m.fa m.kcount) cycles,
                  panelArea m.offB (panelBytes m.fb m.kcount) cycles], x.wv, 0)
        | .error e, _ => .error e
        | _, .error e => .error e) s

/-- R166: TZERO. -/
def execTzero (c : BitVec 7) (w : BitVec 6) (tile opRsv : BitVec 3) (a : Args) (s : State) :
    Host.Outcome State Fault Refusal :=
  onChip (fun ch => ch.tensorIssue c.toNat w.toNat 1 tile opRsv a
    (fun _ _ => tensorShape a false false false false false && a.mod.toNat < 2
      -- R133, R147: the F64 mode needs the FP64 format.
      && (a.mod == 0 || bit (ch.fld Fld.DEV_CAPS1_TFMT) 11)) fun x k n _ =>
      .ok ((k.setTile n { f64 := a.mod == 1 }).operate n 1 false x.wv.wg [], x.wv, 0)) s

/-- R165: SEED, SLOT, ROW_BASE and COL_BASE of a stochastic drain, from four scalar registers. -/
def srOperands (x : WCtx) (a : Args) : Option (Nat × Nat × Nat × Nat) :=
  match Operand.of a.src2 with
  | .s n =>
    if n % 4 = 0 ∧ n + 3 < 128 ∧ (x.wv.s (n + 1)).toNat < 2 ^ 12 then
      some ((x.wv.s n).toNat, (x.wv.s (n + 1)).toNat, (x.wv.s (n + 2)).toNat, (x.wv.s (n + 3)).toNat)
    else none
  | _ => none

/-- R157, R158: the rounding of position `k` of a drain. -/
def drainRound (rmode : Nat) (sr : Nat × Nat × Nat × Nat) (k : Nat) : Round :=
  (Round.ofCode rmode (rand32 sr.1 sr.2.1 (sr.2.2.1 + k / 32) (sr.2.2.2 + k % 32))).getD .rne

/-- R160, R162, R165, R169: legality of a TDRAIN on a tile. -/
def drainLegal (x : WCtx) (f64 : Bool) (a : Args) : Bool :=
  let w := a.ext.toNat
  let fmt := bits w 3 0
  let rm := bits w 6 4
  let size := drainSize fmt
  let al := if fmt = 6 then 8 else 4
  let stride := x.sc a.src1
  let sr := rm == 4
  argOk a && a.len == 1 && a.mod == 0 && w < 2 ^ 9 && fmt ≤ 6 && rm ≤ 4
    && (!bit w 7 || fmt == 3)
    && (if f64 then fmt == 0 || (fmt == 6 && rm == 0) else fmt != 6)
    && ((Operand.of a.dst).isS || Operand.of a.dst == .none)
    && (Operand.of a.src0).isS && (Operand.of a.src1).isS
    && (if sr then (srOperands x a).isSome else Operand.of a.src2 == .none)
    && stride % al == 0 && decide (stride ≥ 32 * size)

/-- R165: the encodings of row `i`, in column order. -/
def drainRow (t : Tile) (fmt : Nat) (mode : Nat → Round) (satf : Bool) (i : Nat) : List Byte :=
  (List.range 32).flatMap fun j => leBytes (drainSize fmt) (t.drainPos fmt mode satf (32 * i + j)).1

/-- R154 to R161, R165: TDRAIN. -/
def execTdrain (c : BitVec 7) (w : BitVec 6) (tile opRsv : BitVec 3) (a : Args) (s : State) :
    Host.Outcome State Fault Refusal :=
  onChip (fun ch => ch.tensorIssue c.toNat w.toNat 2 tile opRsv a
    (fun x t => drainLegal x t.f64 a) fun x k n t =>
      let wd := a.ext.toNat
      let fmt := bits wd 3 0
      let dst := x.sc a.src0
      let stride := x.sc a.src1
      let mode := drainRound (bits wd 6 4) ((srOperands x a).getD (0, 0, 0, 0))
      if dst % (if fmt = 6 then 8 else 4) ≠ 0
          ∨ dst + 31 * stride + 32 * drainSize fmt > x.wg.granules.length * 4096 then .error .perm
      else
        let flags := (t.drainFlags fmt mode (bit wd 7)).word
        let k1 := (List.range 32).foldl
          (fun k i => k.cremaPut x.wg.granules (dst + i * stride) (drainRow t fmt mode (bit wd 7) i)) k
        let k2 := if bit wd 8 then k1 else k1.setTile n { f64 := t.f64 }
        let wv := { x.wv.dstN (Operand.of a.dst) 0 flags 1 with tflags := x.wv.tflags ||| flags }
        let area : PortArea := ⟨dst, stride, 32 * drainSize fmt, dst + 31 * stride + 32 * drainSize fmt⟩
        .ok (k2.queueDrain n 0 32 x.wv.wg [area], wv, flags)) s

/-- R166: TSTORE_RAW. -/
def execTstoreRaw (c : BitVec 7) (w : BitVec 6) (tile opRsv : BitVec 3) (a : Args) (s : State) :
    Host.Outcome State Fault Refusal :=
  onChip (fun ch => ch.tensorIssue c.toNat w.toNat 3 tile opRsv a
    (fun _ t => tensorShape a false false true false false && a.mod == 0 && !t.f64) fun x k n t =>
      let dst := x.sc a.src0
      if dst % 16 ≠ 0 ∨ dst + 98304 > x.wg.granules.length * 4096 then .error .perm
      else
        .ok (((List.range 1024).foldl
          (fun k i => k.cremaPut x.wg.granules (dst + 96 * i) (t.lpos i).image) k).queueDrain n 1 768 x.wv.wg [rawArea dst], x.wv, 0)) s

/-- R166: TACC_RAW. -/
def execTaccRaw (c : BitVec 7) (w : BitVec 6) (tile opRsv : BitVec 3) (i : CremaArgs) (s : State) :
    Host.Outcome State Fault Refusal :=
  let a := i.toArgs
  onChip (fun ch => (ch.cremaErrors c.toNat i.ecc).tensorIssue c.toNat w.toNat 4 tile opRsv a
    (fun _ t => tensorShape a false false true false false && a.mod == 0 && !t.f64) fun x k n t =>
      match k.areaOk x.wg.granules (x.sc a.src0) 98304 16 with
      | .error e => .error e
      | .ok _ =>
        .ok ((k.setTile n (t.accRaw (cremaRd k x.wg.granules) (x.sc a.src0))).operate n 768 true
               x.wv.wg [rawArea (x.sc a.src0)], x.wv, 0)) s

/-- R166: TSTAT. -/
def execTstat (c : BitVec 7) (w : BitVec 6) (tile opRsv : BitVec 3) (a : Args) (s : State) :
    Host.Outcome State Fault Refusal :=
  onChip (fun ch => ch.tensorIssue c.toNat w.toNat 5 tile opRsv a
    (fun _ _ => tensorShape a false true false false false && a.mod.toNat < 2
      && (Operand.of a.dst).regOk 0 2) fun x k n t =>
      let wv := x.wv.dstN (Operand.of a.dst) 0 (t.stat + 2 ^ 32 * x.wv.tflags) 2
      .ok (k.queueDrain n 2 1 x.wv.wg [], if a.mod == 1 then { wv with tflags := 0 } else wv, 0)) s

/-- R168: DRAIN_PATH_START: the first accepted drain-path instruction that has not started takes the path. -/
def Chip.drainStart (ch : Chip) (c : Nat) : Chip :=
  let k := ch.cluster c
  match k.tensor.queue with
  | [] => ch
  | d :: rest => ch.setCluster c { k with tensor := { k.tensor with queue := rest, running := some d } }

def execDrainPathStart (c : BitVec 7) (s : State) : Host.Outcome State Fault Refusal :=
  onChip (fun ch => ch.drainStart c.toNat) s

end Sys2Proof.Machine
end

