-- ==== Sys2Proof/Machine/Dispatch.lean ====
section
/-!
DEFINITION. The one dispatch over the commands: each arm is one call of the command's meaning.
-/

namespace Sys2Proof.Machine

def exec (i : Instr) (s : State) : Host.Outcome State Fault Refusal :=
  match i with
  | .dbTailWrite fn page val => Sys2Proof.Machine.execDbTailWrite fn page val s
  | .cplHeadWrite fn page val => Sys2Proof.Machine.execCplHeadWrite fn page val s
  | .descriptorFetch q => Sys2Proof.Machine.execDescriptorFetch q s
  | .descriptorBegin q => Sys2Proof.Machine.execDescriptorBegin q s
  | .descriptorComplete q slot u => Sys2Proof.Machine.execDescriptorComplete q slot u s
  | .coalesceTimeout q => Sys2Proof.Machine.execCoalesceTimeout q s
  | .nop q slot => Sys2Proof.Machine.execNop q slot s
  | .dispatch q slot => Sys2Proof.Machine.execDispatch q slot s
  | .draw q slot => Sys2Proof.Machine.execDraw q slot s
  | .copy q slot => Sys2Proof.Machine.execCopy q slot s
  | .fill q slot => Sys2Proof.Machine.execFill q slot s
  | .fenceSignal q slot => Sys2Proof.Machine.execFenceSignal q slot s
  | .fenceWait q slot => Sys2Proof.Machine.execFenceWait q slot s
  | .fenceWake q slot => Sys2Proof.Machine.execFenceWake q slot s
  | .semAcquire q slot => Sys2Proof.Machine.execSemAcquire q slot s
  | .semRetry q slot => Sys2Proof.Machine.execSemRetry q slot s
  | .semRelease q slot => Sys2Proof.Machine.execSemRelease q slot s
  | .timestamp q slot => Sys2Proof.Machine.execTimestamp q slot s
  | .step q slot => Sys2Proof.Machine.execStep q slot s
  | .seqJoin q slot => Sys2Proof.Machine.execSeqJoin q slot s
  | .seqLeave q slot => Sys2Proof.Machine.execSeqLeave q slot s
  | .seqPark q slot => Sys2Proof.Machine.execSeqPark q slot s
  | .slotRelease p bs => Sys2Proof.Machine.execSlotRelease p bs s
  | .ctxScan q slot => Sys2Proof.Machine.execCtxScan q slot s
  | .ctxGather q slot => Sys2Proof.Machine.execCtxGather q slot s
  | .ctxAppend q slot => Sys2Proof.Machine.execCtxAppend q slot s
  | .engineFrameSlot stack corrected => Sys2Proof.Machine.execEngineFrameSlot stack corrected s
  | .compress q slot mismatch => Sys2Proof.Machine.execCompress q slot mismatch s
  | .decompress q slot => Sys2Proof.Machine.execDecompress q slot s
  | .compressionLaneStart => Sys2Proof.Machine.execCompressionLaneStart s
  | .collective q slot => Sys2Proof.Machine.execCollective q slot s
  | .collectiveTimeout q slot => Sys2Proof.Machine.execCollectiveTimeout q slot s
  | .remoteCopy q slot => Sys2Proof.Machine.execRemoteCopy q slot s
  | .displayFlip q slot => Sys2Proof.Machine.execDisplayFlip q slot s
  | .protectedFlip q slot => Sys2Proof.Machine.execProtectedFlip q slot s
  | .launchAt q slot => Sys2Proof.Machine.execLaunchAt q slot s
  | .launchRelease q slot => Sys2Proof.Machine.execLaunchRelease q slot s
  | .checkpoint q slot => Sys2Proof.Machine.execCheckpoint q slot s
  | .eventSet q slot => Sys2Proof.Machine.execEventSet q slot s
  | .eventReset q slot => Sys2Proof.Machine.execEventReset q slot s
  | .eventWait q slot => Sys2Proof.Machine.execEventWait q slot s
  | .ptInvalidate q slot => Sys2Proof.Machine.execPtInvalidate q slot s
  | .regulatorSet slot => Sys2Proof.Machine.execRegulatorSet slot s
  | .partitionCreate slot refused => Sys2Proof.Machine.execPartitionCreate slot refused s
  | .partitionSeal slot => Sys2Proof.Machine.execPartitionSeal slot s
  | .partitionResize slot => Sys2Proof.Machine.execPartitionResize slot s
  | .partitionCtlReset slot => Sys2Proof.Machine.execPartitionCtlReset slot s
  | .partitionDestroy slot => Sys2Proof.Machine.execPartitionDestroy slot s
  | .memAccount q slot => Sys2Proof.Machine.execMemAccount q slot s
  | .queueCreate q slot => Sys2Proof.Machine.execQueueCreate q slot s
  | .queueDestroy q slot => Sys2Proof.Machine.execQueueDestroy q slot s
  | .queueResume q slot => Sys2Proof.Machine.execQueueResume q slot s
  | .queueFlush q slot => Sys2Proof.Machine.execQueueFlush q slot s
  | .queueModify q slot => Sys2Proof.Machine.execQueueModify q slot s
  | .ctxQuery q slot u => Sys2Proof.Machine.execCtxQuery q slot u s
  | .sliceExpiry p => Sys2Proof.Machine.execSliceExpiry p s
  | .preemptStalled q => Sys2Proof.Machine.execPreemptStalled q s
  | .displayLate p lateNs => Sys2Proof.Machine.execDisplayLate p lateNs s
  | .workgroupLaunch q slot c => Sys2Proof.Machine.execWorkgroupLaunch q slot c s
  | .tileAssign q slot c => Sys2Proof.Machine.execTileAssign q slot c s
  | .tileWriteOut c wg cycles => Sys2Proof.Machine.execTileWriteOut c wg cycles s
  | .primitiveSetup q slot => Sys2Proof.Machine.execPrimitiveSetup q slot s
  | .ld c w size atop a => Sys2Proof.Machine.execLd c w size atop a s
  | .st c w size atop a => Sys2Proof.Machine.execSt c w size atop a s
  | .atom c w size atop a => Sys2Proof.Machine.execAtom c w size atop a s
  | .ldc c w size atop a => Sys2Proof.Machine.execLdc c w size atop a s
  | .stc c w size atop a => Sys2Proof.Machine.execStc c w size atop a s
  | .atomc c w size atop a => Sys2Proof.Machine.execAtomc c w size atop a s
  | .lds c w size atop a => Sys2Proof.Machine.execLds c w size atop a s
  | .fence c w a => Sys2Proof.Machine.execFence c w a s
  | .barSync c w a => Sys2Proof.Machine.execBarSync c w a s
  | .barrierPass c wg => Sys2Proof.Machine.execBarrierPass c wg s
  | .waitMem c w a => Sys2Proof.Machine.execWaitMem c w a s
  | .gtcRead c w a => Sys2Proof.Machine.execGtcRead c w a s
  | .endWave c w a => Sys2Proof.Machine.execEndWave c w a s
  | .ctrlBranch c w op a => Sys2Proof.Machine.execCtrlBranch c w op a s
  | .saluOp c w op a => Sys2Proof.Machine.execSaluOp c w op a s
  | .valuOp c w op a => Sys2Proof.Machine.execValuOp c w op a s
  | .min c w f a => Sys2Proof.Machine.execMin c w f a s
  | .max c w f a => Sys2Proof.Machine.execMax c w f a s
  | .qmx c w a => Sys2Proof.Machine.execQmx c w a s
  | .dqmx c w a => Sys2Proof.Machine.execDqmx c w a s
  | .rcp c w f a => Sys2Proof.Machine.execRcp c w f a s
  | .sqrt c w f a => Sys2Proof.Machine.execSqrt c w f a s
  | .rsqrt c w f a => Sys2Proof.Machine.execRsqrt c w f a s
  | .exp2 c w f a => Sys2Proof.Machine.execExp2 c w f a s
  | .log2 c w f a => Sys2Proof.Machine.execLog2 c w f a s
  | .sinpi c w f a => Sys2Proof.Machine.execSinpi c w f a s
  | .cospi c w f a => Sys2Proof.Machine.execCospi c w f a s
  | .tanh c w f a => Sys2Proof.Machine.execTanh c w f a s
  | .erf c w f a => Sys2Proof.Machine.execErf c w f a s
  | .tmma c w tile opRsv a => Sys2Proof.Machine.execTmma c w tile opRsv a s
  | .tzero c w tile opRsv a => Sys2Proof.Machine.execTzero c w tile opRsv a s
  | .tdrain c w tile opRsv a => Sys2Proof.Machine.execTdrain c w tile opRsv a s
  | .tstoreRaw c w tile opRsv a => Sys2Proof.Machine.execTstoreRaw c w tile opRsv a s
  | .taccRaw c w tile opRsv a => Sys2Proof.Machine.execTaccRaw c w tile opRsv a s
  | .tstat c w tile opRsv a => Sys2Proof.Machine.execTstat c w tile opRsv a s
  | .drainPathStart c => Sys2Proof.Machine.execDrainPathStart c s
  | .cacheRequest source kind ecc => Sys2Proof.Machine.execCacheRequest source kind ecc s
  | .missFill slice fill => Sys2Proof.Machine.execMissFill slice fill s
  | .missQueueGrant slice cycles => Sys2Proof.Machine.execMissQueueGrant slice cycles s
  | .refreshWindow stack g => Sys2Proof.Machine.execRefreshWindow stack g s
  | .rfmExtraWindow stack g delayed => Sys2Proof.Machine.execRfmExtraWindow stack g delayed s
  | .vblankLatch n => Sys2Proof.Machine.execVblankLatch n s
  | .flipRelease n => Sys2Proof.Machine.execFlipRelease n s
  | .scanoutLine n late => Sys2Proof.Machine.execScanoutLine n late s
  | .displayHotplug n hpd => Sys2Proof.Machine.execDisplayHotplug n hpd s
  | .timeFlitSend port tx => Sys2Proof.Machine.execTimeFlitSend port tx s
  | .timeFlitReceive port f => Sys2Proof.Machine.execTimeFlitReceive port f s
  | .gtcCompare differs => Sys2Proof.Machine.execGtcCompare differs s
  | .gtcPpsEdge => Sys2Proof.Machine.execGtcPpsEdge s
  | .roleChange => Sys2Proof.Machine.execRoleChange s
  | .swapMessage m => Sys2Proof.Machine.execSwapMessage m s
  | .portTrainingDone port w => Sys2Proof.Machine.execPortTrainingDone port w s
  | .portTrainingTimeout port => Sys2Proof.Machine.execPortTrainingTimeout port s
  | .portRetrainTimer port => Sys2Proof.Machine.execPortRetrainTimer port s
  | .portDown port => Sys2Proof.Machine.execPortDown port s
  | .laneFault port r => Sys2Proof.Machine.execLaneFault port r s
  | .flitReceive port flit lost ce count => Sys2Proof.Machine.execFlitReceive port flit lost ce count s
  | .retryFlitReceive port flit lost => Sys2Proof.Machine.execRetryFlitReceive port flit lost s
  | .retryTimeout port => Sys2Proof.Machine.execRetryTimeout port s
  | .inboundRequest port det => Sys2Proof.Machine.execInboundRequest port det s
  | .remoteResponse port det => Sys2Proof.Machine.execRemoteResponse port det s
  | .collMessage m => Sys2Proof.Machine.execCollMessage m s
  | .signatureMessage q m => Sys2Proof.Machine.execSignatureMessage q m s
  | .shiftReportSend t => Sys2Proof.Machine.execShiftReportSend t s
  | .shiftReportReceive port dev slot => Sys2Proof.Machine.execShiftReportReceive port dev slot s
  | .shiftEvaluate => Sys2Proof.Machine.execShiftEvaluate s
  | .interferenceWindow p a w win => Sys2Proof.Machine.execInterferenceWindow p a w win s
  | .powerPeriod w => Sys2Proof.Machine.execPowerPeriod w s
  | .slopeWindow cl want => Sys2Proof.Machine.execSlopeWindow cl want s
  | .droopDetect g => Sys2Proof.Machine.execDroopDetect g s
  | .droopRecover g => Sys2Proof.Machine.execDroopRecover g s
  | .throttleNAssert => Sys2Proof.Machine.execThrottleNAssert s
  | .throttleNRelease => Sys2Proof.Machine.execThrottleNRelease s
  | .groupDecafEntry g => Sys2Proof.Machine.execGroupDecafEntry g s
  | .groupWake g => Sys2Proof.Machine.execGroupWake g s
  | .deviceWake => Sys2Proof.Machine.execDeviceWake s
  | .decafEntryDone g => Sys2Proof.Machine.execDecafEntryDone g s
  | .bar4Access fn off w n => Sys2Proof.Machine.execBar4Access fn off w n s
  | .hostCompletion tag outcome bytes => Sys2Proof.Machine.execHostCompletion tag outcome bytes s
  | .atsInvalidate fn r => Sys2Proof.Machine.execAtsInvalidate fn r s
  | .hotReset down up => Sys2Proof.Machine.execHotReset down up s
  | .vfEnableChange on n => Sys2Proof.Machine.execVfEnableChange on n s
  | .flr p => Sys2Proof.Machine.execFlr p s
  | .partitionReset p => Sys2Proof.Machine.execPartitionReset p s
  | .transferStopTimeout p => Sys2Proof.Machine.execTransferStopTimeout p s
  | .partitionResetDone p => Sys2Proof.Machine.execPartitionResetDone p s
  | .clusterFault cl => Sys2Proof.Machine.execClusterFault cl s
  | .epochFenceDone cl dropped => Sys2Proof.Machine.execEpochFenceDone cl dropped s
  | .spareAssign cl => Sys2Proof.Machine.execSpareAssign cl s
  | .spareReady cl => Sys2Proof.Machine.execSpareReady cl s
  | .dieDeclaredFailed stack g => Sys2Proof.Machine.execDieDeclaredFailed stack g s
  | .ucieModuleFault m => Sys2Proof.Machine.execUcieModuleFault m s
  | .cacheWayFault w => Sys2Proof.Machine.execCacheWayFault w s
  | .crossingFault index p => Sys2Proof.Machine.execCrossingFault index p s
  | .testSliceStart cl => Sys2Proof.Machine.execTestSliceStart cl s
  | .testSliceEnd cl pass => Sys2Proof.Machine.execTestSliceEnd cl pass s
  | .baristaFailure => Sys2Proof.Machine.execBaristaFailure s
  | .baristaResetAttempt beats => Sys2Proof.Machine.execBaristaResetAttempt beats s
  | .baristaRestart => Sys2Proof.Machine.execBaristaRestart s
  | .supplyFault rail => Sys2Proof.Machine.execSupplyFault rail s
  | .vddAonLoss => Sys2Proof.Machine.execVddAonLoss s
  | .perstNAssert => Sys2Proof.Machine.execPerstNAssert s
  | .boot w => Sys2Proof.Machine.execBoot w s
  | .bootStepTimeout w => Sys2Proof.Machine.execBootStepTimeout w s
  | .internalReboot w => Sys2Proof.Machine.execInternalReboot w s
  | .rollbackBurn fuses => Sys2Proof.Machine.execRollbackBurn fuses s
  | .opHour => Sys2Proof.Machine.execOpHour s
  | .autoAgeMeasure drift => Sys2Proof.Machine.execAutoAgeMeasure drift s
  | .setpointApply g => Sys2Proof.Machine.execSetpointApply g s
  | .kringCtlWrite p val => Sys2Proof.Machine.execKringCtlWrite p val s
  | .evringCtlWrite p val => Sys2Proof.Machine.execEvringCtlWrite p val s
  | .evringHeadWrite p val => Sys2Proof.Machine.execEvringHeadWrite p val s
  | .evtCfgWrite n val => Sys2Proof.Machine.execEvtCfgWrite n val s
  | .batchRangeWrite p val => Sys2Proof.Machine.execBatchRangeWrite p val s
  | .batchTokmaxWrite p val => Sys2Proof.Machine.execBatchTokmaxWrite p val s
  | .ctxPoolPush p val => Sys2Proof.Machine.execCtxPoolPush p val s
  | .ctxNextDetWrite val => Sys2Proof.Machine.execCtxNextDetWrite val s
  | .scWayoffWrite val => Sys2Proof.Machine.execScWayoffWrite val s
  | .mapForce val => Sys2Proof.Machine.execMapForce val s
  | .gtcSet val => Sys2Proof.Machine.execGtcSet val s
  | .resync => Sys2Proof.Machine.execResync s
  | .gtcLoRead page => Sys2Proof.Machine.execGtcLoRead page s
  | .tswapGo => Sys2Proof.Machine.execTswapGo s
  | .pswapGo p => Sys2Proof.Machine.execPswapGo p s
  | .portModeWrite port mode => Sys2Proof.Machine.execPortModeWrite port mode s
  | .laneLoan port on lane failed => Sys2Proof.Machine.execLaneLoan port on lane failed s
  | .pipeEnableWrite n on => Sys2Proof.Machine.execPipeEnableWrite n on s
  | .pipeOwnerWrite n owner => Sys2Proof.Machine.execPipeOwnerWrite n owner s
  | .pwrDevstateWrite req => Sys2Proof.Machine.execPwrDevstateWrite req s
  | .shiftEnClear => Sys2Proof.Machine.execShiftEnClear s
  | .release => Sys2Proof.Machine.execRelease s
  | .force => Sys2Proof.Machine.execForce s
  | .retry => Sys2Proof.Machine.execRetry s
  | .heartbeat val => Sys2Proof.Machine.execHeartbeat val s
  | .secDbgChal level => Sys2Proof.Machine.execSecDbgChal level s
  | .secDbgSubmit level => Sys2Proof.Machine.execSecDbgSubmit level s
  | .secLockSet => Sys2Proof.Machine.execSecLockSet s
  | .msixUnmask fn v => Sys2Proof.Machine.execMsixUnmask fn v s
  | .counterReadClear fn place size => Sys2Proof.Machine.execCounterReadClear fn place size s
  | .registerWrite fn place size val => Sys2Proof.Machine.execRegisterWrite fn place size val s
  | .info => Sys2Proof.Machine.execInfo s
  | .ledgerRead => Sys2Proof.Machine.execLedgerRead s
  | .ledgerReset => Sys2Proof.Machine.execLedgerReset s
  | .rescue => Sys2Proof.Machine.execRescue s
  | .fwBegin => Sys2Proof.Machine.execFwBegin s
  | .fwData => Sys2Proof.Machine.execFwData s
  | .fwEnd => Sys2Proof.Machine.execFwEnd s
  | .fwActivate => Sys2Proof.Machine.execFwActivate s
  | .fwCancel => Sys2Proof.Machine.execFwCancel s
  | .calWrite => Sys2Proof.Machine.execCalWrite s
  | .calExport => Sys2Proof.Machine.execCalExport s
  | .calImport => Sys2Proof.Machine.execCalImport s
  | .memRetrain => Sys2Proof.Machine.execMemRetrain s
  | .testFull => Sys2Proof.Machine.execTestFull s
  | .ageMeasure => Sys2Proof.Machine.execAgeMeasure s
  | .ageReplan => Sys2Proof.Machine.execAgeReplan s
  | .provision => Sys2Proof.Machine.execProvision s
  | .abort => Sys2Proof.Machine.execAbort s
  | .getVersion => Sys2Proof.Machine.execGetVersion s
  | .getCapabilities => Sys2Proof.Machine.execGetCapabilities s
  | .negotiateAlgorithms offered => Sys2Proof.Machine.execNegotiateAlgorithms offered s
  | .getDigests => Sys2Proof.Machine.execGetDigests s
  | .getCertificate slot off len => Sys2Proof.Machine.execGetCertificate slot off len s
  | .challenge slot nonce => Sys2Proof.Machine.execChallenge slot nonce s
  | .getMeasurements index sign nonce => Sys2Proof.Machine.execGetMeasurements index sign nonce s
  | .doeAbort => Sys2Proof.Machine.execDoeAbort s
  | .setEndpointId eid => Sys2Proof.Machine.execSetEndpointId eid s
  | .getEndpointId => Sys2Proof.Machine.execGetEndpointId s
  | .getMctpVersionSupport => Sys2Proof.Machine.execGetMctpVersionSupport s
  | .getMessageTypeSupport => Sys2Proof.Machine.execGetMessageTypeSupport s
  | .gettid => Sys2Proof.Machine.execGettid s
  | .getpldmversion => Sys2Proof.Machine.execGetpldmversion s
  | .getpldmtypes => Sys2Proof.Machine.execGetpldmtypes s
  | .getpldmcommands => Sys2Proof.Machine.execGetpldmcommands s
  | .getpdr handle => Sys2Proof.Machine.execGetpdr handle s
  | .getsensorreading id => Sys2Proof.Machine.execGetsensorreading id s
  | .getstatesensorreadings id => Sys2Proof.Machine.execGetstatesensorreadings id s
  | .querydeviceidentifiers => Sys2Proof.Machine.execQuerydeviceidentifiers s
  | .getfirmwareparameters => Sys2Proof.Machine.execGetfirmwareparameters s
  | .requestupdate => Sys2Proof.Machine.execRequestupdate s
  | .passcomponenttable last => Sys2Proof.Machine.execPasscomponenttable last s
  | .updatecomponent typ => Sys2Proof.Machine.execUpdatecomponent typ s
  | .requestfirmwaredata typ offset piece => Sys2Proof.Machine.execRequestfirmwaredata typ offset piece s
  | .transfercomplete ok => Sys2Proof.Machine.execTransfercomplete ok s
  | .verifycomplete => Sys2Proof.Machine.execVerifycomplete s
  | .applycomplete ok => Sys2Proof.Machine.execApplycomplete ok s
  | .activatefirmware selfContained => Sys2Proof.Machine.execActivatefirmware selfContained s
  | .getstatus => Sys2Proof.Machine.execGetstatus s
  | .cancelupdatecomponent => Sys2Proof.Machine.execCancelupdatecomponent s
  | .cancelupdate => Sys2Proof.Machine.execCancelupdate s
  | .tokenBucketFill p ns which n => Sys2Proof.Machine.execTokenBucketFill p ns which n s
  | .stackScrub line found => Sys2Proof.Machine.execStackScrub line found s
  | .sharedUnitFault kind index => Sys2Proof.Machine.execSharedUnitFault kind index s
  | .compressionLaneReturn lane => Sys2Proof.Machine.execCompressionLaneReturn lane s
  | .laneSwitchoverDone port => Sys2Proof.Machine.execLaneSwitchoverDone port s
  | .wayModeChangeDone => Sys2Proof.Machine.execWayModeChangeDone s
  | .decafWakeDone g stall => Sys2Proof.Machine.execDecafWakeDone g stall s
  | .farEndChange port => Sys2Proof.Machine.execFarEndChange port s
  | .swapDeadline => Sys2Proof.Machine.execSwapDeadline s
  | .partnerResetting dev part => Sys2Proof.Machine.execPartnerResetting dev part s
  | .displayLinkTrained n lanes rate => Sys2Proof.Machine.execDisplayLinkTrained n lanes rate s
  | .mgtDone w => Sys2Proof.Machine.execMgtDone w s
  | .powerUp => Sys2Proof.Machine.execPowerUp s
  | .pcieCompletionTimeout tag => Sys2Proof.Machine.execPcieCompletionTimeout tag s
  | .flitTime port => Sys2Proof.Machine.execFlitTime port s
  | .configSpaceWrite fn item val => Sys2Proof.Machine.execConfigSpaceWrite fn item val s

end Sys2Proof.Machine
end

