-- ==== Sys2Proof/Machine/Step.lean ====
section
/-!
DEFINITION. One step: the command at the front of the queue, or a nanosecond in which nothing is
commanded.
-/

namespace Sys2Proof.Machine

/-- DESIGN CHOICE: with no command waiting the device idles for one nanosecond of its time base (R384, R385).
(DESIGN CHOICE, assumption 1.) -/
def idle (s : State) : State := { s with chip := s.chip.idleTick }

/-- One step of the device. (DESIGN CHOICE, assumptions 1, 149, 150.) -/
def step (s : State) : Host.Outcome State Fault Refusal :=
  match s.pending with
  | [] => .next (idle s)
  | c :: rest => exec c { s with pending := rest }

/-- The state with the command that a table word spells put at the front of its queue.
(DESIGN CHOICE, assumptions 1, 4.) -/
def State.withFetchWord (s : State) (nbits w : Nat) : State :=
  match Sys2Proof.decodeTableWord nbits w with
  | some c => { s with pending := c :: s.pending }
  | none => s

end Sys2Proof.Machine
end

