-- ==== Sys2Proof/Safety.lean ====
section
/-!
DEFINITION. What the statements speak of: a command that runs, the states in which it may, what a command leaves as it
was, and the forms that the device's tables keep.
-/

namespace Sys2Proof.Machine

/-! ## Commands that run -/

/-- The clocks of the device run (R416). -/
def Live (s : State) : Prop := s.chip.stopped = false

/-- The host's writes take effect: the clocks run, boot step 31 has completed and the PCIe link is up (R482). -/
def HostUp (s : State) : Prop :=
  s.chip.stopped = false ∧ s.chip.booted = true ∧ s.chip.flag Fld.PCI_LINK_UP = true

/-- The command completes and its effect on the chip leaves `c`. The queue of commands and the nonvolatile stores stay
as they were; the count of steps, which the free values alone depend on, advances. -/
def Ran (i : Instr) (s : State) (c : Chip) : Prop := exec i s = .next { s with chip := c.tick }

/-- The command completes and leaves these nonvolatile stores and this chip. -/
def RanNv (i : Instr) (s : State) (nv : NonVol) (c : Chip) : Prop :=
  exec i s = .next { s with nv := nv, chip := c.tick }

/-- Slot `slot` of queue `q` holds a descriptor with this opcode that has begun and not executed; its parameters are at
hand, no unit that it needs has failed, and its partition is not being reset (R66, R68, R437, R446). -/
def Holds (c : Chip) (q slot op : Nat) (e : Entry) : Prop :=
  c.entry q slot = some e ∧ e.desc.opcode.toNat = op ∧ e.phase = .ready ∧ e.loaded = true ∧ c.unitDead op = false ∧
    c.inReset (partOf q) = false

/-- The slot's descriptor has executed with this status and detail; its record is still to be written (R80). -/
def Chip.ended (c : Chip) (q slot : Nat) (e : Entry) (st : Half) (detail : Nat) : Chip :=
  c.setEntry q slot { e with phase := .done st (BitVec.ofNat 32 (min detail (2 ^ 32 - 1))) false,
                             watch := .none, donees := [] }

/-- The wave in slot `w` of cluster `cl` stands at no barrier, and at its program counter stands, within its code and on
pages that permit fetches, the instruction of class `cls` (operation `op`, where the manual codes it) with operand fields
`a`, in an encoding that an instruction can have (R128 to R134). -/
def Issues (c : Chip) (cl w cls : Nat) (op : Option Nat) (a : Args) (x : WCtx) : Prop :=
  c.wctx cl w = some x ∧ ∃ i, c.fetchInsn x = .ok i ∧ i.defined = true ∧ i.is cls op a = true

/-- The chip after an instruction of a wave whose effect left chip `c1` and wave `wv`: the wave stands behind the
instruction, and what was delivered to it is used up; `c` is the chip before it. -/
def Chip.executed (c c1 : Chip) (x : WCtx) (a : Args) (wv : Wave) : Chip :=
  (c1.signItem c x.wg.q x.wg.slot x.wg.index).retire x wv (argBytes a)

/-! ## Forms that tables keep -/

/-- Memory and scratch in canonical form: addresses strictly rising, and no scratch byte listed that reads as it would
unlisted. A memory byte that nothing has written since its frame's key was issued reads as a free value, which no listed
byte can be compared with. (DESIGN CHOICE, assumptions 9, 10.) -/
def Chip.memWf (c : Chip) : Bool := KMap.wf c.mem && KMap.wf c.scratch && c.scratch.all fun e => e.2 != 0

/-- The image of flash in canonical form: no erased byte is listed. (PRESUMED, assumption 94.) -/
def NonVol.flashWf (nv : NonVol) : Bool := KMap.wf nv.flash && nv.flash.all fun e => e.2 != 0xFF

/-- What OTP holds can only be added to: the identity and the keys' digests stay, burnt fuses stay burnt, and a revoked
key stays revoked (R460, R464). -/
def NonVol.OtpKept (a b : NonVol) : Prop :=
  b.part = a.part ∧ b.grade = a.grade ∧ b.stepping = a.stepping ∧ b.serial = a.serial ∧ b.fusedOff = a.fusedOff
    ∧ b.fusedBands = a.fusedBands ∧ b.rootHash = a.rootHash ∧ b.uds = a.uds ∧ b.dbgHash = a.dbgHash
    ∧ (∀ f, f ∈ a.fuses → f ∈ b.fuses) ∧ (∀ i, a.dbgMax.testBit i = true → b.dbgMax.testBit i = true)
    ∧ (∀ i, a.revoked.testBit i = true → b.revoked.testBit i = true)

/-- The frames of device memory that a partition holds (R36, R38). -/
def Part.holdsFrame (x : Part) (f : Nat) : Prop := if x.det then f ∈ framesOf x.pcgs else f ∈ x.frames

/-- The memory of a partition is laid out as CREATE lays it: one frame for each GiB, or three for each pseudo-channel
group, none twice and each on the device; scratch ways, none twice (R36, R38, R210). -/
def Part.laid (x : Part) : Prop :=
  (x.det = false → x.frames.length = x.memGib ∧ x.frames.Nodup ∧ ∀ f ∈ x.frames, f < 288) ∧
  (x.det = true → x.memGib = 3 * x.pcgs.length ∧ x.pcgs.Nodup ∧ (∀ g ∈ x.pcgs, g < 96) ∧ x.ways.Nodup ∧
    ∀ w ∈ x.ways, w < 16)

end Sys2Proof.Machine
end

