-- ==== Sys2Proof/Certificates/Slice0/Obligations.lean ====
section
/-!
DEFINITION. The statements about the device that are to be proved, each with the rules of spec/ that it rests on.
-/

open Sys2Proof Sys2Proof.Machine

/-! ## The machine -/

/-- DESIGN CHOICE (assumption 1): the commands that wait form a queue. A step takes the command at its front and runs it
on the state with the rest; with none waiting, a step is one nanosecond of idling. -/
def Obligations.step_runs_front : Prop :=
  (∀ (i : Instr) (s : State), step { s with pending := i :: s.pending } = exec i s) ∧
  (∀ s : State, s.pending = [] → step s = .next { s with chip := s.chip.idleTick })

/-- R1, R6, R11, R33, R83, R214, R268, R374: what these registers hold after reset on the device that State.reset
describes, an FX-960 of grade A with every physical cluster healthy (assumption 2). The device that State.reset
describes meets what the invariants ask (assumption 2): its memory, its register file and its flash are in canonical
form, and its partitions' memory is laid out. -/
def Obligations.reset_state : Prop :=
  (State.reset.pending = [] ∧ (∀ p, State.reset.chip.part p = {}) ∧ State.reset.chip.msix = [] ∧
   State.reset.chip.fld Fld.DEV_ID_PART = 0x960 ∧ State.reset.chip.fld Fld.DEV_CAPS0_LCLUSTERS = 88 ∧
   State.reset.chip.fld Fld.DEV_CAPS0_STACKS = 6 ∧ State.reset.chip.fld Fld.DEV_CAPS0_LINK_PORTS = 8 ∧
   State.reset.chip.rg Reg.SC_STATUS = 0x1E ∧ State.reset.chip.rg Reg.AXL_TAGS_FREE = 0x2000 ∧
   State.reset.chip.fld Fld.CTX_FREE_SLOTS = 16 ∧ State.reset.chip.fld Fld.CTX_FREE_WATTS = 19 ∧
   State.reset.chip.fld Fld.DET_MAP_CLUSTERS = 88 ∧
   (∀ p, p < 16 → State.reset.chip.fld Fld.BATCH_RANGE_BASE (8 * p) = 0 ∧
     State.reset.chip.fld Fld.BATCH_RANGE_COUNT (8 * p) = (if p = 0 then 4096 else 0))) ∧
  (State.reset.chip.memWf = true ∧ KMap.wf State.reset.chip.regs = true ∧ State.reset.nv.flashWf = true ∧
     ∀ p, (State.reset.chip.part p).laid)

/-- Every command leaves the queue of waiting commands as it is: the commands that wait come from outside alone. R416:
while the clocks of the device are stopped, each of nine commands outside the always-on domain changes nothing but
the count of steps. Model's choices it rests on: assumptions 5, 6. -/
def Obligations.queue_and_clocks : Prop :=
  (∀ (i : Instr) (s : State), ∃ t, exec i s = .next t ∧ t.pending = s.pending) ∧
  (∀ (s : State), s.chip.stopped = true →
     (∀ q slot, Ran (.copy q slot) s s.chip) ∧ (∀ q, Ran (.descriptorFetch q) s s.chip) ∧
     (∀ c w op a, Ran (.saluOp c w op a) s s.chip) ∧ (∀ c w t r a, Ran (.tmma c w t r a) s s.chip) ∧
     (∀ src k ecc, Ran (.cacheRequest src k ecc) s s.chip) ∧ (∀ port, Ran (.flitTime port) s s.chip) ∧
     (∀ fn page v, Ran (.dbTailWrite fn page v) s s.chip) ∧ (∀ n late, Ran (.scanoutLine n late) s s.chip) ∧
     (∀ slot r, Ran (.partitionCreate slot r) s s.chip))

/-- R80, R81, R128: the frames that the statements about commands rest on. A descriptor that ends changes its own entry
alone; an instruction that retires changes the wave that ran it and what its item signed; a store through a
translation to device memory changes no byte outside the bytes stored, and one to host memory changes no byte at all;
the store of a register's field changes no other register. Model's choices it rests on: assumptions 9, 10. -/
def Obligations.frames : Prop :=
  (∀ (c : Chip) (q slot : Nat) (e : Entry) (st : Half) (d : Nat),
    let t := c.ended q slot e st d
    t.mem = c.mem ∧ t.scratch = c.scratch ∧ t.regs = c.regs ∧ t.parts = c.parts ∧ t.clusters = c.clusters ∧
    t.waves = c.waves ∧ t.grids = c.grids ∧ t.sigs = c.sigs ∧ t.bslots = c.bslots ∧ t.outbox = c.outbox ∧
    (∀ o, o ≠ q → t.queue o = c.queue o) ∧ (∀ j, j ≠ slot → t.entry q j = c.entry q j)) ∧
  (∀ (c c1 : Chip) (x : WCtx) (a : Args) (wv : Wave),
    let t := c.executed c1 x a wv
    t.mem = c1.mem ∧ t.scratch = c1.scratch ∧ t.regs = c1.regs ∧ t.parts = c1.parts ∧ t.queues = c1.queues ∧
    t.clusters = c1.clusters ∧ (∀ k, k ≠ waveKey x.cl x.w → KMap.find k t.waves = KMap.find k c1.waves)) ∧
  (∀ (c c' : Chip) (w : Actor) (q : Nat) (who : Requester) (va : Nat) (bs : List Byte),
    va % 4096 + bs.length ≤ 4096 → bs ≠ [] → c.writeVA w q who va bs = .ok c' →
    (∀ pa, c.translate w .write va = .ok (.here pa) →
      (∀ ls l, (c.part w.p).locs pa bs.length = some ls → l ∉ ls → c'.byteAt l = c.byteAt l) ∧
      c'.regs = c.regs ∧ c'.parts = c.parts ∧ c'.clusters = c.clusters ∧ c'.waves = c.waves ∧ c'.reqs = c.reqs) ∧
    (∀ a, c.translate w .write va = .ok (.host a) →
      c'.mem = c.mem ∧ c'.scratch = c.scratch ∧ c'.regs = c.regs ∧ c'.parts = c.parts)) ∧
  (∀ (c : Chip) (f : Fld) (o v b : Nat),
    (c.setFld f o v).mem = c.mem ∧ (c.setFld f o v).scratch = c.scratch ∧ (c.setFld f o v).parts = c.parts ∧
    (b ≠ f.base + o → (c.setFld f o v).rg b = c.rg b))

/-! ## Doorbells, descriptors and their completion (R57 to R89) -/

/-- R61, R62: a DB_TAIL value within both windows becomes the queue's tail, and wakes the device; a CPL_HEAD value
between the previous one and the number of records written becomes its CPL_HEAD. R61: a DB_TAIL write whose value
lies outside a window, or that names a queue that does not exist or a partition that is RESETTING, is discarded: it
is counted in DB_DISCARD and posted as DOORBELL_DISCARDED, and no queue changes. Model's choices it rests on:
assumption 41. -/
def Obligations.doorbells : Prop :=
  (∀ (s : State) (fn : BitVec 4) (page : BitVec 6) (v : Word),
     HostUp s → s.chip.fnEnabled fn.toNat = true → s.chip.queueExists (fn.toNat * 64 + page.toNat) = true →
     ((((s.chip.part fn.toNat).state = .opened ∨ (s.chip.part fn.toNat).state = .ready) →
       s.chip.tailOk (fn.toNat * 64 + page.toNat) v = true →
         Ran (.dbTailWrite fn page v) s (s.chip.wakeDevice.setQueue (fn.toNat * 64 + page.toNat)
           { s.chip.queue (fn.toNat * 64 + page.toNat) with tail := v })) ∧
      (s.chip.exists? fn.toNat = true → s.chip.cplOk (fn.toNat * 64 + page.toNat) v = true →
         Ran (.cplHeadWrite fn page v) s (s.chip.setQueue (fn.toNat * 64 + page.toNat)
           { s.chip.queue (fn.toNat * 64 + page.toNat) with cplHead := v })))) ∧
  (∀ (s : State) (fn : BitVec 4) (page : BitVec 6) (v : Word),
     HostUp s → s.chip.fnEnabled fn.toNat = true → s.chip.exists? fn.toNat = true →
     ((s.chip.part fn.toNat).state = .resetting ∨ s.chip.queueExists (fn.toNat * 64 + page.toNat) = false ∨
       s.chip.tailOk (fn.toNat * 64 + page.toNat) v = false) →
     Ran (.dbTailWrite fn page v) s
       ((s.chip.count Fld.DB_DISCARD_COUNT (pg fn.toNat)).postEvent fn.toNat 0x0004 (fn.toNat * 64 + page.toNat) v.toNat))

/-- R64, R67: the front end reads the descriptor at the queue's head, once, and decodes its 64 bytes. R65, R70: the next
fetched descriptor begins: it takes the lowest free command entry of its queue, and one that fails a decode check has
executed at once with that check's status. R90, R94: one that needs clusters puts its queue on the run list, or claims
clusters, where no check fails. -/
def Obligations.fetch_and_begin : Prop :=
  (∀ (s : State) (q : BitVec 10) (b : List Byte), Live s → s.chip.mayFetch q.toNat = true →
     s.chip.readPP (partOf q.toNat) (s.chip.ringBase q.toNat
       + 64 * ((s.chip.queue q.toNat).head.toNat % 2 ^ s.chip.ringLog2 q.toNat)) 64 = .ok b →
     Ran (.descriptorFetch q) s (s.chip.setQueue q.toNat { s.chip.queue q.toNat with
       head := (s.chip.queue q.toNat).head + 1,
       fetched := (s.chip.queue q.toNat).fetched ++ [.ok (Desc.ofBytes b)] })) ∧
  (∀ (s : State) (q : BitVec 10) (d : Desc) (rest : List Fetched), Live s →
     (s.chip.queue q.toNat).fetched = .ok d :: rest → s.chip.mayBegin q.toNat (.ok d) = true →
     (s.chip.queue q.toNat).lateLeft = 0 →
     let x := s.chip.queue q.toNat
     let slot := x.freeSlot fun j => (KMap.find (q.toNat * 64 + j) s.chip.grids).isSome
     let e : Entry := { index := x.next, desc := d, loaded := !d.indirect, began := s.chip.gtc,
                        decodedAt := s.chip.gtc, beginSeq := s.chip.waitCtr }
     let c : Chip := { (if clusterOp d.opcode = true then s.chip.joinRunList q.toNat else s.chip) with
         waitCtr := s.chip.waitCtr + 1 }.setQueue q.toNat
       { x with fetched := rest, next := x.next + 1, entries := KMap.set slot e x.entries, lateLeft := 0 }
     Ran (.descriptorBegin q) s (match c.decodeCheck q.toNat d with
       | none => if clusterOp d.opcode = true then c.beginCluster q.toNat slot else c
       | some (st, halts) => c.finish q.toNat slot st 0 halts))

/-- R63: what the front end decodes from a descriptor's 64 bytes is what they say, for every descriptor. -/
def Obligations.descriptor_round_trip : Prop :=
  ∀ d : Desc, d.bytes.length = 64 ∧ Desc.ofBytes d.bytes = d

/-- R79, R80: a descriptor that has executed, with nothing to acknowledge and no signal to give, is accounted, writes its
record, interrupts, and frees its entry. R89: with coalescing, COAL_US after the first record that was not signalled
the queue's vector is raised. Model's choices it rests on: assumption 37. -/
def Obligations.completion : Prop :=
  (∀ (s : State) (q : BitVec 10) (slot : BitVec 6) (u : Usage) (e : Entry) (st : Half) (detail : Word), Live s →
     s.chip.entry q.toNat slot.toNat = some e → e.phase = .done st detail false → s.chip.inReset (partOf q.toNat) = false →
     s.chip.acknowledged q.toNat slot.toNat = true → s.chip.lateTurn q.toNat slot.toNat e st = true →
     e.desc.signalAfter = false →
     let c := ((s.chip.accountUsage (partOf q.toNat) e.desc.tag.toNat u).countMark q.toNat e).writeRecord q.toNat
       (statusWithWarning st e.warn (s.chip.marked q.toNat e)) e.desc.tag e.index u.cycles detail e.desc.opcode
     Ran (.descriptorComplete q slot u) s
       (((if e.desc.opcode.toNat = Op.draw ∧ isError st = true ∧ st ≠ St.malformed then c.failChain q.toNat st false
          else c).noteBatch q.toNat e.desc.opcode.toNat).freeEntry q.toNat slot.toNat)) ∧
  (∀ (s : State) (q : BitVec 10), Live s → (s.chip.queue q.toNat).irqMode = 2 → 0 < (s.chip.queue q.toNat).coalSeen →
     Ran (.coalesceTimeout q) s
       ((s.chip.setQueue q.toNat { s.chip.queue q.toNat with coalSeen := 0 }).raiseVector (partOf q.toNat)
         (s.chip.queue q.toNat).vector))

/-- R75, R77, R78: the operations of QUEUE_CTL and NOP. A DESTROY completes when its queue is unbound: at once, where
no begun descriptor of that queue is outstanding. Model's choices it rests on: assumption 144. -/
def Obligations.queue_control : Prop :=
  ∀ (s : State) (q : BitVec 10) (slot : BitVec 6) (e : Entry), Live s →
    (Holds s.chip q.toNat slot.toNat Op.nop e →
      Ran (.nop q slot) s (s.chip.ended q.toNat slot.toNat e St.ok 0)) ∧
    (Holds s.chip q.toNat slot.toNat Op.queueCtl e →
      let t := ctlTarget q.toNat e.desc
      (dbits e.desc.p0 2 0 = 0 → s.chip.createBad (partOf q.toNat) t e.desc = false →
        s.chip.asidOk (partOf q.toNat) (dbits e.desc.p0 43 32) = true →
        Ran (.queueCreate q slot) s ((s.chip.createQueue t e.desc).finishOk q.toNat slot.toNat)) ∧
      (dbits e.desc.p0 2 0 = 1 → s.chip.queueExists t = true →
        let c := s.chip.setEntry q.toNat slot.toNat { e with phase := .running, watch := .unbound t }
        ((c.queue t).entries ≠ [] → Ran (.queueDestroy q slot) s
          (c.setQueue t { (c.queue t).endWaits with stopping := true, fetched := [] })) ∧
        ((c.queue t).entries = [] → Ran (.queueDestroy q slot) s (c.unbind t))) ∧
      (dbits e.desc.p0 2 0 = 2 → (s.chip.queue t).state = .halted →
        Ran (.queueResume q slot) s ((s.chip.setQState t .running 0).finishOk q.toNat slot.toNat)) ∧
      (dbits e.desc.p0 2 0 = 3 → (s.chip.queue t).state = .halted → (s.chip.queue t).tail = (s.chip.queue t).next →
        indexOf t ≠ 0 →
        Ran (.queueFlush q slot) s ((s.chip.setQueue t { s.chip.queue t with state := .running, haltStatus := 0 }).finishOk
          q.toNat slot.toNat)) ∧
      (dbits e.desc.p0 2 0 = 4 → s.chip.queueExists t = true →
        Ran (.queueModify q slot) s ((s.chip.setQueue t { s.chip.queue t with
          vector := dbits e.desc.p2 5 0, irqMode := dbits e.desc.p2 9 8, coalCount := dbits e.desc.p2 23 16,
          coalUs := dbits e.desc.p2 41 32, sliceUs := dbits e.desc.p3 13 0 }).finishOk q.toNat slot.toNat)))

/-! ## Descriptors (R76, R92 to R115, R123 to R127, R381, R391 to R401) -/

/-- R123 to R127: a DISPATCH whose program header reads, passes its checks, needs nothing that is absent and carries the
machine's own key either completes at once, where its grid is empty, or runs from then on as the grid says, in the
order in which it began. R126, R127, R282: where the scheduler's choice on a cluster is item `i` of a descriptor, a launch places it there: a
workgroup of a DISPATCH with its waves, or a vertex batch of a DRAW with its lanes' indices. Model's choices it rests
on: assumptions 30, 60, 161, 172. -/
def Obligations.grids : Prop :=
  (∀ (s : State) (q : BitVec 10) (slot : BitVec 6) (e : Entry) (b : List Byte), Live s →
     Holds s.chip q.toNat slot.toNat Op.dispatch e →
     s.chip.readVA (s.chip.actor q.toNat slot.toNat) e.desc.p0.toNat 256 = .ok b →
     let h := Header.ofBytes b
     let g := Geometry.of e.desc
     h.ok = true → g.ok h = true → s.chip.capsOk h = true → s.chip.keyWhy (partOf q.toNat) h = 0 →
     (g.gx * g.gy * g.gz = 0 → Ran (.dispatch q slot) s (s.chip.ended q.toNat slot.toNat e St.ok 0)) ∧
     (g.gx * g.gy * g.gz ≠ 0 → Ran (.dispatch q slot) s
       ((s.chip.setEntry q.toNat slot.toNat { e with phase := .running }).setGrid q.toNat slot.toNat
         (gridOf e.desc h g e.index e.beginSeq)))) ∧
  (∀ (s : State) (q : BitVec 10) (slot : BitVec 6) (c : BitVec 7) (g : Grid) (i : Nat), Live s →
     s.chip.grid q.toNat slot.toNat = some g → g.saved = false →
     let ch := s.chip.claimDisplay q.toNat slot.toNat
     ch.launchChoice q.toNat c.toNat g = some i →
     (g.run = none → Ran (.workgroupLaunch q slot c) s
       ((ch.launch q.toNat slot.toNat c.toNat i g).setGrid q.toNat slot.toNat (g.launched c.toNat i))) ∧
     (∀ d ix, g.run = some d → i < d.batches →
       let per := ceilDiv d.count 32
       ch.batchIndices (ch.actor q.toNat slot.toNat) d
         ((rangeFrom (i % per * 32) 32).filter fun k => decide (k < d.count)) = .ok ix →
       let cut := (ix.filter fun x => x.2.2).map fun x => i / per * d.count + x.1
       Ran (.workgroupLaunch q slot c) s
         (((ch.launch q.toNat slot.toNat c.toNat i (g.shape i)).setWave
           (waveKey c.toNat ((ch.pickSlots c.toNat 1).headD 0))
           (vertexWave g d (ch.cluster c.toNat).nextWg i (i % per * 32) (i / per) ix
             fun l => Config.freeNat ch.ctr (2 ^ 76 + l))).setGrid q.toNat slot.toNat
             (({ g with run := some { d with restarts := distinct (d.restarts ++ cut) } } : Grid).launched c.toNat i))))

/-- R391, R392: a LAUNCH_AT named at least 50 µs ahead of the instant it was decoded waits for its release; one named too
late ends with LAUNCH_LATE, and the descriptors behind it, up to the tail, are marked to end so too. A release runs
only once the counter has reached the named value, which then stands in DET_LAST_LAUNCH; in an elastic partition that
is all that changes besides the events that the launch signals. R142, R401: a CHECKPOINT commits once every earlier
descriptor of its queue has completed and no work since the last commit point is to be run again: at once in a
partition that is not paired. A partner's signature message with a release still to come is kept; when it is released
and agrees with what the waiting CHECKPOINT sent, the CHECKPOINT commits, where nothing is to be run again by then. Model's choices it rests on: assumptions
31, 34, 35. -/
def Obligations.launch_and_checkpoint : Prop :=
  (∀ (s : State) (q : BitVec 10) (slot : BitVec 6) (e : Entry), Live s →
     (Holds s.chip q.toNat slot.toNat Op.launchAt e →
       (e.decodedAt.toNat + 50000 ≤ e.desc.p0.toNat → e.began.toNat ≤ e.desc.p0.toNat →
         Ran (.launchAt q slot) s (s.chip.setEntry q.toNat slot.toNat
           { e with phase := .waiting, watch := .launch e.desc.p0 })) ∧
       (e.desc.p0.toNat < e.decodedAt.toNat + 50000 →
         Ran (.launchAt q slot) s ((s.chip.setQueue q.toNat { s.chip.queue q.toNat with
           lateLeft := ((s.chip.queue q.toNat).tail - (s.chip.queue q.toNat).next).toNat }).ended q.toNat slot.toNat e
             St.launchLate 0))) ∧
     (∀ n, s.chip.entry q.toNat slot.toNat = some e → e.phase = .waiting → e.watch = .launch n →
       (s.chip.gtc.toNat < n.toNat → Ran (.launchRelease q slot) s s.chip) ∧
       (n.toNat ≤ s.chip.gtc.toNat → (s.chip.part (partOf q.toNat)).det = false →
         s.chip.flag Fld.RAS_PSTATUS_DEGRADED (pg (partOf q.toNat)) = false →
         Ran (.launchRelease q slot) s (((s.chip.setRg64 (Reg.DET_LAST_LAUNCH_LO + pg (partOf q.toNat))
           (Reg.DET_LAST_LAUNCH_HI + pg (partOf q.toNat)) n.toNat).sourceSignal 5 (partOf q.toNat)).finishOk
             q.toNat slot.toNat)))) ∧
  (∀ (s : State) (q : BitVec 10) (slot : BitVec 6) (e : Entry), Live s →
     (Holds s.chip q.toNat slot.toNat Op.checkpoint e → s.chip.mayCommit q.toNat slot.toNat e = true →
       (s.chip.part (partOf q.toNat)).pairEn = false →
       Ran (.checkpoint q slot) s (s.chip.commit q.toNat slot.toNat e)) ∧
     (∀ (a : SigArgs), (s.chip.part (partOf q.toNat)).pairEn = true →
       s.chip.gtc.toNat < (a.count + BitVec.ofNat 64 (s.chip.hopDelay a.port.toNat)).toNat →
       (s.chip.dropMsg a.port.toNat Vc.det (·.op == MOp.coll)).gtc = s.chip.gtc →
       Ran (.signatureMessage q (some a)) s { s.chip.dropMsg a.port.toNat Vc.det (·.op == MOp.coll) with
         sigIn := KMap.set q.toNat { sig := { s0 := a.s0, s1 := a.s1, cnt := a.cnt }, commit := a.commit,
                                     reasons := a.reasons.toNat,
                                     release := a.count + BitVec.ofNat 64 (s.chip.hopDelay a.port.toNat) }
                  s.chip.sigIn }) ∧
     (∀ (m : SigMsg) (sent : PairSig), KMap.find q.toNat s.chip.sigIn = some m → m.release.toNat ≤ s.chip.gtc.toNat →
       (s.chip.queue q.toNat).entries = [(slot.toNat, e)] → e.phase = .waiting → e.watch = .partner sent →
       m.commit.toNat = dbits e.desc.p0 31 0 → m.sig = sent → m.reasons = 0 →
       s.chip.errorPending q.toNat e.index = false →
       Ran (.signatureMessage q none) s
         (({ s.chip with sigIn := KMap.erase q.toNat s.chip.sigIn }.setEntry q.toNat slot.toNat e).commit
           q.toNat slot.toNat e)))

/-- R101, R103: a FENCE_SIGNAL of a word in the partition's memory stores its value there when that is not below the
word's; a lower value is a regression, which is counted and posted, and stores nothing. R104, R105: a FENCE_WAIT
completes when the word is at least its value, and otherwise waits at that word and holds its queue, or ends with
QUEUE_FAULTED in a queue that is stopping; a write that reaches the value wakes it. Model's choices it rests on: assumptions 36, 147. -/
def Obligations.fences : Prop :=
  (∀ (s : State) (q : BitVec 10) (slot : BitVec 6) (e : Entry) (a : Nat) (b : List Byte), Live s →
     Holds s.chip q.toNat slot.toNat Op.fenceSignal e →
     s.chip.translate (s.chip.actor q.toNat slot.toNat) .atomic e.desc.p0.toNat = .ok (.here a) →
     s.chip.inWindow (partOf q.toNat) a 8 = false → s.chip.readPP (partOf q.toNat) a 8 = .ok b →
     (e.desc.p1.toNat < leNat b →
       Ran (.fenceSignal q slot) s ((s.chip.regression q.toNat e.desc.p0.toNat).finishOk q.toNat slot.toNat)) ∧
     (∀ c, leNat b ≤ e.desc.p1.toNat → e.desc.p1.toNat ≠ 2 ^ 64 - 1 →
       s.chip.writePP (partOf q.toNat) a (leBytes 8 e.desc.p1.toNat) = .ok c →
       Ran (.fenceSignal q slot) s ((c.sign q.toNat (partOf q.toNat) a (leBytes 8 e.desc.p1.toNat)).finishOk
         q.toNat slot.toNat))) ∧
  (∀ (s : State) (q : BitVec 10) (slot : BitVec 6) (e : Entry), Live s →
     (∀ a l b, Holds s.chip q.toNat slot.toNat Op.fenceWait e →
       s.chip.translate (s.chip.actor q.toNat slot.toNat) .read e.desc.p0.toNat = .ok (.here a) →
       s.chip.inWindow (partOf q.toNat) a 8 = false →
       s.chip.readPP (partOf q.toNat) a 8 = .ok b → (s.chip.part (partOf q.toNat)).loc a = some l →
       (e.desc.p1.toNat ≤ leNat b →
         Ran (.fenceWait q slot) s (s.chip.ended q.toNat slot.toNat e St.ok 0)) ∧
       (leNat b < e.desc.p1.toNat → (s.chip.queue q.toNat).stopping = false →
         Ran (.fenceWait q slot) s ({ s.chip.setEntry q.toNat slot.toNat
           { e with phase := .waiting, watch := .fence l e.desc.p1 false, waitSeq := s.chip.waitCtr } with
             waitCtr := s.chip.waitCtr + 1 }.holdQueue q.toNat)) ∧
       (leNat b < e.desc.p1.toNat → (s.chip.queue q.toNat).stopping = true →
         Ran (.fenceWait q slot) s (s.chip.ended q.toNat slot.toNat e St.queueFaulted 0))) ∧
     (∀ l v, s.chip.entry q.toNat slot.toNat = some e → e.phase = .waiting → e.watch = .fence l v true →
       Ran (.fenceWake q slot) s (s.chip.ended q.toNat slot.toNat e St.ok 0)))

/-- R106: a SEM_ACQUIRE on a word whose COUNT suffices takes its count and puts its tag into OWNER, and waits on a word
whose COUNT does not; a SEM_RELEASE adds its count and clears OWNER where OWNER holds its tag. Then every donation is
brought up to date (R108). R107: a retry of the acquire that waits alone on its word takes the count once the word
holds enough, and completes. Model's choices it rests on: assumptions 43, 147. -/
def Obligations.semaphores : Prop :=
  (∀ (s : State) (q : BitVec 10) (slot : BitVec 6) (e : Entry) (a : Nat) (b : List Byte) (c : Chip), Live s →
     s.chip.translate (s.chip.actor q.toNat slot.toNat) .atomic e.desc.p0.toNat = .ok (.here a) →
     s.chip.inWindow (partOf q.toNat) a 8 = false → s.chip.readPP (partOf q.toNat) a 8 = .ok b →
     (Holds s.chip q.toNat slot.toNat Op.semAcquire e → dbits e.desc.p1 47 0 ≤ semCount (leNat b) →
       s.chip.writePP (partOf q.toNat) a
         (leBytes 8 (e.desc.tag.toNat * 2 ^ 48 + (semCount (leNat b) - dbits e.desc.p1 47 0))) = .ok c →
       Ran (.semAcquire q slot) s
         (((c.signLeft q.toNat (partOf q.toNat) a 8).finishOk q.toNat slot.toNat).donateAll)) ∧
     (Holds s.chip q.toNat slot.toNat Op.semAcquire e → semCount (leNat b) < dbits e.desc.p1 47 0 →
       ∀ l, (s.chip.part (partOf q.toNat)).loc a = some l →
       Ran (.semAcquire q slot) s
         ((s.chip.startWait q.toNat slot.toNat e (.sem l (dbits e.desc.p1 47 0))).donateAll)) ∧
     (Holds s.chip q.toNat slot.toNat Op.semRelease e →
       semCount (leNat b) + dbits e.desc.p1 47 0 ≤ 2 ^ 48 - 1 →
       s.chip.writePP (partOf q.toNat) a (leBytes 8
         ((if semOwner (leNat b) = e.desc.tag.toNat then 0 else semOwner (leNat b)) * 2 ^ 48
           + (semCount (leNat b) + dbits e.desc.p1 47 0))) = .ok c →
       Ran (.semRelease q slot) s
         (((c.signLeft q.toNat (partOf q.toNat) a 8).finishOk q.toNat slot.toNat).donateAll))) ∧
  (∀ (s : State) (q : BitVec 10) (slot : BitVec 6) (e : Entry) (l n k : Nat), Live s →
     s.chip.entry q.toNat slot.toNat = some e → e.phase = .waiting → e.watch = .sem l n →
     s.chip.semWaiters = [(k, q.toNat, slot.toNat)] → s.chip.badLoc l = false →
     s.chip.syncWord (s.chip.actor q.toNat slot.toNat) .atomic e.desc.p0.toNat ≠ .error .stall →
     (s.chip.part (partOf q.toNat)).pairEn = false →
     n ≤ semCount (s.chip.dwordLoc l).toNat →
     ∃ c, Ran (.semRetry q slot) s ((c.finishOk q.toNat slot.toNat).donateAll) ∧
       c = s.chip.writeLocs (rangeFrom l 8) (leBytes 8 (e.desc.tag.toNat * 2 ^ 48
         + (semCount (s.chip.dwordLoc l).toNat - n))))

/-- R109, R110: the three event operations on an event of the descriptor's own partition; on another partition's, they
complete with PERMISSION_FAULT and have no effect. A signal of the one event that names a source does what EVENT_SET
does. -/
def Obligations.event_operations : Prop :=
  (∀ (s : State) (q : BitVec 10) (slot : BitVec 6) (e : Entry), Live s →
     let n := dbits e.desc.p0 7 0
     (s.chip.fld Fld.EVT_CFG_OWNER (4 * n) ≠ partOf q.toNat →
       (Holds s.chip q.toNat slot.toNat Op.eventSet e →
         Ran (.eventSet q slot) s (s.chip.ended q.toNat slot.toNat e St.permissionFault 0)) ∧
       (Holds s.chip q.toNat slot.toNat Op.eventReset e →
         Ran (.eventReset q slot) s (s.chip.ended q.toNat slot.toNat e St.permissionFault 0)) ∧
       (Holds s.chip q.toNat slot.toNat Op.eventWait e →
         Ran (.eventWait q slot) s (s.chip.ended q.toNat slot.toNat e St.permissionFault 0))) ∧
     (s.chip.fld Fld.EVT_CFG_OWNER (4 * n) = partOf q.toNat →
       (Holds s.chip q.toNat slot.toNat Op.eventSet e →
         (s.chip.eventWaiters n = [] → Ran (.eventSet q slot) s
           ((s.chip.setFld Fld.EVT_CFG_STATE (4 * n) 1).ended q.toNat slot.toNat e St.ok 0)) ∧
         (∀ w, s.chip.flag Fld.EVT_CFG_MODE (4 * n) = false → earliest (s.chip.eventWaiters n) = some w →
           Ran (.eventSet q slot) s ((s.chip.finishOk w.2.1 w.2.2).finishOk q.toNat slot.toNat)) ∧
         (s.chip.flag Fld.EVT_CFG_MODE (4 * n) = true → Ran (.eventSet q slot) s
           ((((s.chip.eventWaiters n).foldl (fun c w => c.finishOk w.2.1 w.2.2) s.chip).setFld
             Fld.EVT_CFG_STATE (4 * n) 1).finishOk q.toNat slot.toNat))) ∧
       (Holds s.chip q.toNat slot.toNat Op.eventReset e →
         Ran (.eventReset q slot) s ((s.chip.setFld Fld.EVT_CFG_STATE (4 * n) 0).ended q.toNat slot.toNat e St.ok 0)) ∧
       (Holds s.chip q.toNat slot.toNat Op.eventWait e →
         (s.chip.flag Fld.EVT_CFG_STATE (4 * n) = true → Ran (.eventWait q slot) s
           ((if s.chip.flag Fld.EVT_CFG_MODE (4 * n) = true then s.chip
             else s.chip.setFld Fld.EVT_CFG_STATE (4 * n) 0).ended q.toNat slot.toNat e St.ok 0)) ∧
         (s.chip.flag Fld.EVT_CFG_STATE (4 * n) = false → Ran (.eventWait q slot) s
           (s.chip.startWait q.toNat slot.toNat e (.event n)))))) ∧
  (∀ (c : Chip) (n src p : Nat), n < 256 → c.fld Fld.EVT_CFG_SOURCE (4 * n) = src →
     (∀ m < 256, m ≠ n → c.fld Fld.EVT_CFG_SOURCE (4 * m) ≠ src) →
     c.exists? (c.fld Fld.EVT_CFG_OWNER (4 * n)) = true → (src ≠ 5 ∨ c.fld Fld.EVT_CFG_OWNER (4 * n) = p) →
     (c.eventWaiters n = [] → c.sourceSignal src p = c.setFld Fld.EVT_CFG_STATE (4 * n) 1) ∧
     (∀ w, c.flag Fld.EVT_CFG_MODE (4 * n) = false → earliest (c.eventWaiters n) = some w →
       c.sourceSignal src p = c.finishOk w.2.1 w.2.2) ∧
     (c.flag Fld.EVT_CFG_MODE (4 * n) = true → c.sourceSignal src p
       = ((c.eventWaiters n).foldl (fun c w => c.finishOk w.2.1 w.2.2) c).setFld Fld.EVT_CFG_STATE (4 * n) 1))

/-- R76: a COPY or FILL of no bytes completes with OK and touches nothing; a COPY whose ranges overlap completes with
MALFORMED_DESCRIPTOR and writes nothing. R92: an engine serves one request of the queue whose turn it is, and no other
queue's. R76, R361: a FILL, COPY or REMOTE_COPY inside one 4 KiB block writes it whole and counts one block; where the
block is written to another device, it waits for the acknowledgement; a longer COPY goes on behind the block.
TIMESTAMP stores the global time counter. Model's choices it rests on: assumptions 13, 165. -/
def Obligations.copy_engine : Prop :=
  ∀ (s : State) (q : BitVec 10) (slot : BitVec 6) (e : Entry), Live s →
    let d := e.desc
    let w := s.chip.actor q.toNat slot.toNat
    let moved (eng n : Nat) (c : Chip) : Chip :=
      { c.engineTake (partOf q.toNat) (eng == 1) n with engineLast := KMap.set eng q.toNat c.engineLast }
    (Holds s.chip q.toNat slot.toNat Op.copy e →
      (dbits d.p2 47 0 ≠ 0 → overlaps d.p0.toNat d.p1.toNat (dbits d.p2 47 0) = false →
        s.chip.engineTurn 0 ≠ some q.toNat → Ran (.copy q slot) s s.chip) ∧
      (∀ b c, overlaps d.p0.toNat d.p1.toNat (dbits d.p2 47 0) = false → s.chip.engineTurn 0 = some q.toNat →
        let n := min (dbits d.p2 47 0 - e.progress) (4096 - (d.p1.toNat + e.progress) % 4096)
        e.progress + n < dbits d.p2 47 0 →
        s.chip.readVA w (d.p0.toNat + e.progress) n = .ok b →
        s.chip.writeVA w q.toNat (.entry q.toNat slot.toNat) (d.p1.toNat + e.progress) b = .ok c →
        (moved 0 n c).stopping q.toNat = false →
        Ran (.copy q slot) s ((moved 0 n c).setEntry q.toNat slot.toNat { e with progress := e.progress + n })) ∧
      (dbits d.p2 47 0 = 0 → Ran (.copy q slot) s (s.chip.ended q.toNat slot.toNat e St.ok 0)) ∧
      (dbits d.p2 47 0 ≠ 0 → overlaps d.p0.toNat d.p1.toNat (dbits d.p2 47 0) = true →
        Ran (.copy q slot) s (s.chip.finishMalformed q.toNat slot.toNat)) ∧
      (∀ b c, dbits d.p2 47 0 ≠ 0 → overlaps d.p0.toNat d.p1.toNat (dbits d.p2 47 0) = false → e.progress = 0 →
        d.p1.toNat % 4096 + dbits d.p2 47 0 ≤ 4096 →
        s.chip.engineTurn 0 = some q.toNat → c.writesOut q.toNat slot.toNat = false →
        s.chip.readVA w d.p0.toNat (dbits d.p2 47 0) = .ok b →
        s.chip.writeVA w q.toNat (.entry q.toNat slot.toNat) d.p1.toNat b = .ok c →
        Ran (.copy q slot) s ((moved 0 (dbits d.p2 47 0) c).finishOk q.toNat slot.toNat 1))) ∧
    (Holds s.chip q.toNat slot.toNat Op.remoteCopy e → ∀ b c,
        dbits d.p2 47 0 ≠ 0 → overlaps d.p0.toNat d.p1.toNat (dbits d.p2 47 0) = false → e.progress = 0 →
        d.p1.toNat % 4096 + dbits d.p2 47 0 ≤ 4096 → s.chip.engineTurn 1 = some q.toNat →
        s.chip.readVA w d.p0.toNat (dbits d.p2 47 0) = .ok b →
        s.chip.writeVA w q.toNat (.entry q.toNat slot.toNat) d.p1.toNat b = .ok c →
        (c.writesOut q.toNat slot.toNat = false →
          Ran (.remoteCopy q slot) s ((moved 1 (dbits d.p2 47 0) c).finishOk q.toNat slot.toNat 1)) ∧
        (c.writesOut q.toNat slot.toNat = true →
          Ran (.remoteCopy q slot) s ((moved 1 (dbits d.p2 47 0) c).setEntry q.toNat slot.toNat
            { e with progress := dbits d.p2 47 0 }))) ∧
    (Holds s.chip q.toNat slot.toNat Op.fill e →
      (dbits d.p1 47 0 = 0 → Ran (.fill q slot) s (s.chip.ended q.toNat slot.toNat e St.ok 0)) ∧
      (∀ c, dbits d.p1 47 0 ≠ 0 → e.progress = 0 → d.p0.toNat % 4096 + dbits d.p1 47 0 ≤ 4096 →
        s.chip.engineTurn 0 = some q.toNat → c.writesOut q.toNat slot.toNat = false →
        s.chip.writeVA w q.toNat (.entry q.toNat slot.toNat) d.p0.toNat
          ((List.range (dbits d.p1 47 0)).map fun i => BitVec.ofNat 8 (d.p2.toNat >>> (8 * (i % 8)))) = .ok c →
        Ran (.fill q slot) s ((moved 0 (dbits d.p1 47 0) c).finishOk q.toNat slot.toNat 1))) ∧
    (Holds s.chip q.toNat slot.toNat Op.timestamp e → ∀ c,
      s.chip.writeVA w q.toNat (.entry q.toNat slot.toNat) d.p0.toNat (leBytes 8 s.chip.gtc.toNat) = .ok c →
      Ran (.timestamp q slot) s ({ c with sigs := s.chip.sigs }.finishOk q.toNat slot.toNat))

/-- R42, R51: PT_INVALIDATE with no request outstanding records its scope, drops the display's translations in it and
counts; REGULATOR_SET sets the rates of an elastic partition; a partition's buckets fill at their rates up to their
depth, and a request passes at its bucket once the tokens suffice. R114: CTX_QUERY stores the snapshot of the named
tag's account, with what descriptors in progress have used. With ACCT_EN at 0 the snapshot is 64 zero bytes and
DETAIL reads 1. Model's choices it rests on: assumption 145. -/
def Obligations.upkeep_descriptors : Prop :=
  (∀ (s : State), Live s →
     (∀ (q : BitVec 10) (slot : BitVec 6) (e : Entry), Holds s.chip q.toNat slot.toNat Op.ptInvalidate e →
       (s.chip.part (partOf q.toNat)).sealed = false →
       (dbits e.desc.p0 1 0 = 2 ∨ s.chip.asidOk (partOf q.toNat) (dbits e.desc.p0 27 16) = true) →
       (s.chip.reqs.any fun r => r.part == partOf q.toNat) = false →
       Ran (.ptInvalidate q slot) s ((((s.chip.setPart (partOf q.toNat) { s.chip.part (partOf q.toNat) with
           invals := invalScope e.desc s.chip.wseq :: (s.chip.part (partOf q.toNat)).invals }).refreshLayers
             (partOf q.toNat) (invalScope e.desc s.chip.wseq)).setRg (Reg.PART_INVAL_CNT + pg (partOf q.toNat))
           (s.chip.rg (Reg.PART_INVAL_CNT + pg (partOf q.toNat)) + 1)).finishOk q.toNat slot.toNat)) ∧
     (∀ (slot : BitVec 6) (e : Entry), Holds s.chip 0 slot.toNat Op.regulatorSet e →
       let p := dbits e.desc.p0 3 0
       (s.chip.part p).det = false → (s.chip.part p).state = .ready →
       Ran (.regulatorSet slot) s ((s.chip.setPart p { s.chip.part p with
         meshRate := dbits e.desc.p1 15 0, memRate := dbits e.desc.p1 31 16,
         linkRate := dbits e.desc.p2 15 0, burst := dbits e.desc.p2 31 16 }).finishOk 0 slot.toNat)) ∧
     (∀ (p : BitVec 4) (ns n : Word), (s.chip.part p.toNat).det = false → (s.chip.part p.toNat).state ≠ .absent →
       let x := s.chip.part p.toNat
       let d := (if x.burst = 0 then 4 else x.burst) * 1024
       let full (b : Bucket) (rate : Nat) : Bucket :=
         { tokens := if rate = 0 then d else min d (b.tokens + rate * ns.toNat) }
       x.memRate ≠ 0 → n.toNat ≤ min d (x.memBucket.tokens + x.memRate * ns.toNat) →
       ∃ c, Ran (.tokenBucketFill p ns 1 n) s c ∧ c.part p.toNat = { x with
         meshBucket := full x.meshBucket x.meshRate
         memBucket := { tokens := min d (x.memBucket.tokens + x.memRate * ns.toNat) - n.toNat }
         linkBucket := full x.linkBucket x.linkRate })) ∧
  (∀ (s : State) (q : BitVec 10) (slot : BitVec 6) (u : Usage) (e : Entry) (c : Chip), Live s →
     Holds s.chip q.toNat slot.toNat Op.ctxQuery e →
     let p := partOf q.toNat
     (∀ b, s.chip.flag Fld.ACCT_BASE_LO_ACCT_EN (pg p) = true →
       s.chip.readPP p (s.chip.acctAddr p (dbits e.desc.p0 15 0)) 64 = .ok b →
       s.chip.writeVA (s.chip.actor q.toNat slot.toNat) q.toNat (.entry q.toNat slot.toNat) e.desc.p1.toNat
         (snapshot b u) = .ok c →
       Ran (.ctxQuery q slot u) s (c.finishOk q.toNat slot.toNat)) ∧
     (s.chip.flag Fld.ACCT_BASE_LO_ACCT_EN (pg p) = false →
       s.chip.writeVA (s.chip.actor q.toNat slot.toNat) q.toNat (.entry q.toNat slot.toNat) e.desc.p1.toNat
         (List.replicate 64 0) = .ok c →
       Ran (.ctxQuery q slot u) s (c.finishOk q.toNat slot.toNat 1)))

/-- R115: MEM_ACCOUNT adds its signed delta to ACCOUNTED of the named tag, clamped to 0 and to 2^63 - 1; either clamp
sets CLAMPED. With ACCT_EN at 0 it has no effect, and its record's DETAIL reads 1. -/
def Obligations.mem_account : Prop :=
  ∀ (s : State) (q : BitVec 10) (slot : BitVec 6) (e : Entry), Live s →
    Holds s.chip q.toNat slot.toNat Op.memAccount e →
    let p := partOf q.toNat
    let a := s.chip.acctAddr p (dbits e.desc.p0 15 0) + 0x38
    (s.chip.flag Fld.ACCT_BASE_LO_ACCT_EN (pg p) = false →
      Ran (.memAccount q slot) s (s.chip.ended q.toNat slot.toNat e St.ok 1)) ∧
    (∀ b v c, s.chip.flag Fld.ACCT_BASE_LO_ACCT_EN (pg p) = true → s.chip.readPP p a 8 = .ok b →
      let sum : Int := (bits (leNat b) 62 0 : Int) + e.desc.p1.toInt
      v = (if sum < 0 then 2 ^ 63 else if sum ≤ 2 ^ 63 - 1 then sum.toNat + 2 ^ 63 * b2n (bit (leNat b) 63)
           else 2 ^ 64 - 1) →
      s.chip.writePP p a (leBytes 8 v) = .ok c →
      Ran (.memAccount q slot) s (c.finishOk q.toNat slot.toNat))

/-! ## The step scheduler and the context engine (R230 to R268) -/

/-- R255, R257, R259: the slots of the step scheduler. A SEQ_JOIN without a block or a table takes a FREE slot to
JOINING, cancels a pending park of an ACTIVE one, and takes a PARKED one back; SEQ_LEAVE and SEQ_PARK change a slot
as the table says. R262, R268: a leaving slot without a table, past its boundary and with no command left on it, is
FREE again; BATCH_RANGE takes a range that fits, and logs one that extends beyond the table; BATCH_TOKMAX takes a
quota from 1 to 65,536 and keeps its value otherwise. -/
def Obligations.batch_slots : Prop :=
  (∀ (s : State) (q : BitVec 10) (slot : BitVec 6) (e : Entry) (dev : Nat), Live s →
     s.chip.batchTurn q.toNat slot.toNat e = true →
     s.chip.deviceSlot (partOf q.toNat) (dbits e.desc.p0 11 0) = some dev →
     let b := s.chip.bslot dev
     let done (x : BSlot) : Chip := (s.chip.setBslot dev x).finishOk q.toNat slot.toNat
     (Holds s.chip q.toNat slot.toNat Op.seqJoin e →
       (b.state = .free → e.desc.p1 = 0 → e.desc.p2 = 0 → Ran (.seqJoin q slot) s (done
         { state := .joining, tag := e.desc.tag, asid := s.chip.asidOf q.toNat, kernel := indexOf q.toNat == 0 })) ∧
       (b.state = .active → b.parkPend = true → e.desc.p1 = 0 → e.desc.p2 = 0 →
         Ran (.seqJoin q slot) s (done { b with parkPend := false })) ∧
       (b.state = .parked → e.desc.p1 = 0 → e.desc.p2 = 0 →
         Ran (.seqJoin q slot) s (done { b with state := .joining, resume := true })) ∧
       (b.state = .leaving → Ran (.seqJoin q slot) s (s.chip.ended q.toNat slot.toNat e St.slotStateInvalid 0))) ∧
     (Holds s.chip q.toNat slot.toNat Op.seqLeave e →
       (b.state = .active → Ran (.seqLeave q slot) s (done { b with state := .leaving, parkPend := false })) ∧
       (b.state = .parked → Ran (.seqLeave q slot) s (done { b with state := .leaving })) ∧
       (b.state = .joining → b.resume = false → Ran (.seqLeave q slot) s (done {})) ∧
       (b.state = .free → Ran (.seqLeave q slot) s (s.chip.ended q.toNat slot.toNat e St.slotStateInvalid 0))) ∧
     (Holds s.chip q.toNat slot.toNat Op.seqPark e →
       (b.state = .active → Ran (.seqPark q slot) s (done { b with parkPend := true })) ∧
       (b.state = .parked → Ran (.seqPark q slot) s (done b)) ∧
       (b.state = .joining → Ran (.seqPark q slot) s (s.chip.ended q.toNat slot.toNat e St.slotStateInvalid 0)))) ∧
  (∀ (s : State) (p : BitVec 4) (v : Word),
     (∀ (n : BitVec 12) (dev : Nat), Live s → s.chip.deviceSlot p.toNat n.toNat = some dev →
       (s.chip.bslot dev).state = .leaving → (s.chip.bslot dev).releasing = true → (s.chip.bslot dev).table = 0 →
       s.chip.slotBusy p.toNat n.toNat (s.chip.bslot dev).leaveSeq (fun op => isCtxOp op || isJobOp op) = false →
       (s.chip.flag Fld.ACCT_BASE_LO_ACCT_EN (pg p.toNat)) = false →
       Ran (.slotRelease p n) s (s.chip.setBslot dev {})) ∧
     (HostUp s → 4096 < wbits v 11 0 + wbits v 28 16 →
       Ran (.batchRangeWrite p v) s (s.chip.regError (Reg.BATCH_RANGE + 8 * p.toNat))) ∧
     (HostUp s → wbits v 11 0 + wbits v 28 16 ≤ 4096 → s.chip.bslots = [] →
       (∀ o < 16, o ≠ p.toNat → rangesMeet (wbits v 11 0, wbits v 28 16) (s.chip.slotRange o) = false) →
       Ran (.batchRangeWrite p v) s ((s.chip.setFld Fld.BATCH_RANGE_BASE (8 * p.toNat) (wbits v 11 0)).setFld
         Fld.BATCH_RANGE_COUNT (8 * p.toNat) (wbits v 28 16))) ∧
     (HostUp s → (1 ≤ wbits v 16 0 ∧ wbits v 16 0 ≤ 65536 → Ran (.batchTokmaxWrite p v) s
         (s.chip.setFld Fld.BATCH_TOKMAX_TOKENS_MAX (8 * p.toNat) (wbits v 16 0))) ∧
       ((wbits v 16 0 = 0 ∨ 65536 < wbits v 16 0) → Ran (.batchTokmaxWrite p v) s s.chip)))

/-- R261 to R265: a STEP whose block and requests pass its checks, the LENGTH of every slot with a table among them, takes
the boundary, writes the manifest in order and
adds each request's tokens to its slot's position; DETAIL is the step number's low word. Model's choices it rests on:
assumptions 40, 180. -/
def Obligations.step_forms : Prop :=
  ∀ (s : State) (q : BitVec 10) (slot : BitVec 6) (e : Entry) (b rb : List Byte) (ls : List Nat) (c : Chip), Live s →
    Holds s.chip q.toNat slot.toNat Op.step e → s.chip.batchTurn q.toNat slot.toNat e = true →
    let p := partOf q.toNat
    let x := StepBlk.ofBytes b
    let ws := (List.range x.nreq).map fun i => fieldLE rb (8 * i) 8
    let rs := ws.map stepReq
    let tokens := dbits e.desc.p1 16 0
    let c1 := s.chip.boundary p
    let no := c1.rg64 (Reg.BATCH_STEP_LO + pg p) (Reg.BATCH_STEP_HI + pg p)
    s.chip.readVA (s.chip.actor q.toNat slot.toNat) e.desc.p0.toNat 64 = .ok b → x.ok = true →
    s.chip.readVA (s.chip.actor q.toNat slot.toNat) x.reqVa (8 * x.nreq) = .ok rb →
    reqsOk ws tokens (s.chip.fld Fld.BATCH_TOKMAX_TOKENS_MAX (8 * p)) = true →
    firstFailing (s.chip.stepSlotOk p) rs 0 = none → firstFailing (s.chip.stepPosOk p) rs 0 = none →
    (∃ all, s.chip.stepLengths p (q.toNat * 64 + slot.toNat) (s.chip.tableSlots p) = .ok all) →
    s.chip.stepLengths p (q.toNat * 64 + slot.toNat) (s.chip.namedSlots p rs) = .ok ls →
    Chip.writeManifest q.toNat slot.toNat x.manifest
      (manifestHead x no tokens :: c1.manifestEntries p rs ls 0) c1 = (c, none) →
    Ran (.step q slot) s ((c.addPositions p rs).finishOk q.toNat slot.toNat (no % 2 ^ 32))

/-- R238 to R240: a CTX_APPEND takes a page of the pool for each entry that it misses, writes those entries, its rows and
then LENGTH; DETAIL counts the pages taken. R246, R247: a CTX_GATHER of resident pages writes its rows in order; DETAIL counts them. R233, R241 to R245: a CTX_SCAN
whose block and table pass their checks and which has a row to consider leaves its rows to the engines of the stacks
that hold them; the rows of a degraded group cost 16 times their bytes (R223). R233: each frame slot follows the one before it. R230, R235: a page pushed into a partition's pool
becomes the head of its list, with the old head linked in its first bytes; CTX_NEXT_DET takes a claim that fits in
what is free and logs any other. Model's choices it rests on: assumptions 13, 45, 46, 47. -/
def Obligations.context_engine : Prop :=
  (∀ (s : State) (q : BitVec 10) (slot : BitVec 6) (e : Entry) (x : CtxCmd), Live s →
     let p := partOf q.toNat
     let cnt := fieldLE x.blk 4 4
     (∀ ents gs head taken n resident rows c0 c c', Holds s.chip q.toNat slot.toNat Op.ctxAppend e →
       s.chip.ctxCmd q.toNat slot.toNat e (fun op => op == Op.ctxAppend || isJobOp op) appendBlockOk = .ok x →
       appendOk x.h.kfmt x.blk = true → x.h.length + cnt ≤ x.h.holds →
       s.chip.ctxEntries x.w x.b.table (x.h.entriesFor x.h.length cnt) = .ok ents → badEntry ents = none →
       let miss := (ents.filter fun en => en.2 == .absent).map Prod.fst
       miss.length ≤ s.chip.poolCount p →
       s.chip.peekPool p miss.length (s.chip.poolHead p) (s.chip.poolCount p) = (gs, head, .enough) →
       taken = miss.zip (gs.zip (gs.drop 1 ++ [head])) →
       Chip.writeEntries q.toNat x (.entry q.toNat slot.toNat) taken 0 s.chip = (c0, n, none) →
       resident = (ents.filterMap fun en => match en.2 with
         | .resident g => some (en.1, g)
         | _ => none).foldl (fun m en => KMap.set en.1 en.2 m) ([] : KMap Nat) →
       rows = ((List.range x.h.heads).flatMap fun hd => (List.range cnt).map fun i => (hd, i)) →
       Chip.appendRows q.toNat slot.toNat x e.desc.p1.toNat (fieldLE x.blk 8 8)
         (taken.foldl (fun m en => KMap.set en.1 en.2.1 m) resident) rows c0 = (c, none) →
       c.writeVA x.w q.toNat (.entry q.toNat slot.toNat) (x.b.table + 8) (leBytes 4 (x.h.length + cnt)) = .ok c' →
       Ran (.ctxAppend q slot) s (c'.finishOk q.toNat slot.toNat n)) ∧
     (∀ ib ents c n, Holds s.chip q.toNat slot.toNat Op.ctxGather e →
       s.chip.ctxCmd q.toNat slot.toNat e isJobOp gatherOk = .ok x →
       let w := fieldLE x.blk 0 4
       let size := if bits w 24 24 = 1 then x.h.rs else x.h.vrow
       let stride := if fieldLE x.blk 0x10 4 = 0 then size else fieldLE x.blk 0x10 4
       let idx := (List.range cnt).map fun i => fieldLE ib (8 * i) 4
       bits w 21 16 < x.h.heads → size ≤ stride →
       s.chip.readVA (s.chip.actor q.toNat slot.toNat) (fieldLE x.blk 8 8) (8 * cnt) = .ok ib →
       (∀ i ∈ idx, i < x.h.length ∨ i = 0xFFFFFFFF) →
       s.chip.ctxEntries x.w x.b.table (gatherEntries x.h (bits w 21 16) (bits w 24 24) idx) = .ok ents →
       notResident ents = none →
       Chip.gatherRows q.toNat slot.toNat p x.h (bits w 21 16) (bits w 24 24) size e.desc.p1.toNat stride ents
         (idx.drop e.progress) e.progress s.chip = (c, n, none) →
       Ran (.ctxGather q slot) s (c.finishOk q.toNat slot.toNat n))) ∧
  (∀ (s : State), Live s →
     (∀ (q : BitVec 10) (slot : BitVec 6) (e : Entry) (x : CtxCmd) (b : ScanBlk) (r : ScanRead),
       Holds s.chip q.toNat slot.toNat Op.ctxScan e →
       ((s.chip.part (partOf q.toNat)).det = true → (s.chip.part (partOf q.toNat)).ctxSlots ≠ []) →
       s.chip.scanSetup q.toNat slot.toNat e = .ok (x, b, r) →
       let place (n : Nat) : Nat := rowPpa x.h b (residentPages r.entries) n
       let rows (rebuilt : Bool) : KMap Nat := (b.considered r.limits).foldl (fun m n =>
         if s.chip.rowRebuilt (partOf q.toNat) (place n) = rebuilt
         then KMap.modify (s.chip.rowStack (partOf q.toNat) (place n)) 0 (· + 1) m else m) []
       (rows false ≠ [] ∨ rows true ≠ []) →
       Ran (.ctxScan q slot) s { s.chip.setEntry q.toNat slot.toNat { e with phase := .running } with
         scans := KMap.set (q.toNat * 64 + slot.toNat)
           { seq := e.beginSeq, blk := x.blk, hdr := x.hdr, limits := r.limits, queries := r.queries,
             pages := residentPages r.entries, left := rows false, slow := rows true,
             cost := max (b.nq * x.h.d * 2752) (x.h.rs * 4096), slowCost := max (b.nq * x.h.d * 2752) (x.h.rs * 4096 * 16),
             lines := ceilDiv x.h.rs 128, energy := 48 * x.h.rs + 6 * b.nq * x.h.d } s.chip.scans }) ∧
     (∀ (stack : BitVec 3) (n : Half), stack.toNat < s.chip.fld Fld.DEV_CAPS0_STACKS →
       s.chip.flag Fld.DEV_CAPS0_CTX_ENGINE = true → s.chip.scans = [] → s.chip.detParts = [] →
       Ran (.engineFrameSlot stack n) s { s.chip with
         frameSlot := KMap.set stack.toNat ((KMap.getD s.chip.frameSlot stack.toNat 0 + 1) % 16) s.chip.frameSlot,
         elasticScan := KMap.erase stack.toNat s.chip.elasticScan })) ∧
  (∀ (s : State) (v : Word), HostUp s → s.chip.flag Fld.DEV_CAPS0_CTX_ENGINE = true →
     (∀ (p : BitVec 4) (c : Chip), s.chip.exists? p.toNat = true →
       s.chip.flag Fld.CTX_POOL_HEAD_LO_POOL_EN (pg p.toNat) = true →
       let page := 2 ^ 16 * s.chip.fld Fld.CTX_POOL_PUSH_LO_PAGE_LO (pg p.toNat) + wbits v 6 0 * 2 ^ 32
       (s.chip.part p.toNat).pageOk page = true → s.chip.poolCount p.toNat < 0x7FFFFF →
       s.chip.writePP p.toNat page (leBytes 8 (s.chip.poolHead p.toNat + 1)) = .ok c →
       Ran (.ctxPoolPush p v) s (c.setPool p.toNat page (s.chip.poolCount p.toNat + 1))) ∧
     (let slots := wbits v 4 0
      let watts := wbits v 12 8
      (slots ≤ s.chip.fld Fld.CTX_FREE_SLOTS → watts ≤ s.chip.fld Fld.CTX_FREE_WATTS → (slots = 0 ↔ watts = 0) →
        Ran (.ctxNextDetWrite v) s
          ((s.chip.setFld Fld.CTX_NEXT_DET_SLOTS 0 slots).setFld Fld.CTX_NEXT_DET_WATTS 0 watts)) ∧
      ((s.chip.fld Fld.CTX_FREE_SLOTS < slots ∨ s.chip.fld Fld.CTX_FREE_WATTS < watts) →
        Ran (.ctxNextDetWrite v) s (s.chip.regError Reg.CTX_NEXT_DET))))

/-! ## Waves (R128 to R196) -/

/-- R131, R179: a legal VALU instruction with a single-register destination gives each active lane the operation's result
on that lane's own sources, read before any lane is written; every other register and lane, and the rest of the wave,
stay. Model's choices it rests on: assumptions 16, 17, 18, 19. -/
def Obligations.valu_lanes : Prop :=
  ∀ (s : State) (c : BitVec 7) (w : BitVec 6) (op : ValuOp) (a : Args) (x : WCtx) (n : Nat), Live s →
    Issues s.chip c.toNat w.toNat Cls.valu op.field a x → valuLegal (s.chip.flag Fld.DEV_CAPS0_FP64) op a x.wg.vregs = true →
    Operand.of a.dst = .v n → valuWords op = (1, 1) →
    let val (l : Nat) : Nat := valuResult op ((valuRound a.mod).getD .rne) (bit a.mod.toNat 4)
      (x.wv.src (Operand.of a.src0) a.ext l).toNat (x.wv.src (Operand.of a.src1) a.ext l).toNat
      (x.wv.src (Operand.of a.src2) a.ext l).toNat
    ∃ r : KMap Word, Ran (.valuOp c w op a) s (s.chip.executed s.chip x a { x.wv with vregs := r }) ∧
      (∀ l < 32, x.wv.active l = true → KMap.getD r (32 * n + l) 0 = BitVec.ofNat 32 (val l)) ∧
      (∀ m l, l < 32 → (m ≠ n ∨ x.wv.active l = false) → KMap.getD r (32 * m + l) 0 = x.wv.v m l)

/-- R178 to R191: VALU, MIN, MAX, QMX and DQMX instructions that are legal write their results lane by lane; QMX also
counts the lanes that lost their value. A VALU instruction that is not legal faults with ILLEGAL_OPCODE. R139, R140:
the special functions give each active lane the function's value under the cluster's loaded table set. Model's
choices it rests on: assumptions 16, 20. -/
def Obligations.vector_unit : Prop :=
  (∀ (s : State) (c : BitVec 7) (w : BitVec 6) (a : Args) (x : WCtx), Live s →
     let fp64 := s.chip.flag Fld.DEV_CAPS0_FP64
     (∀ op, Issues s.chip c.toNat w.toNat Cls.valu op.field a x → valuLegal fp64 op a x.wg.vregs = true →
       Ran (.valuOp c w op a) s (s.chip.executed s.chip x a (x.wv.mapLanes a (valuWords op).1 (valuWords op).2
         (valuResult op ((valuRound a.mod).getD .rne) (bit a.mod.toNat 4))))) ∧
     (∀ op, Issues s.chip c.toNat w.toNat Cls.valu op.field a x → valuLegal fp64 op a x.wg.vregs = false →
       Ran (.valuOp c w op a) s (s.chip.waveFault c.toNat w.toNat x.wv .illegal (x.g.codeVa + x.wv.pc))) ∧
     (∀ f t, Issues s.chip c.toNat w.toNat Cls.valu none a x → minMaxLegal fp64 f a x.wg.vregs = true →
       arithFloat f = some t →
       Ran (.min c w f a) s (s.chip.executed s.chip x a
         (x.wv.mapLanes a f.words f.words fun p q _ => minMax t false (bit a.mod.toNat 0) p q)) ∧
       Ran (.max c w f a) s (s.chip.executed s.chip x a
         (x.wv.mapLanes a f.words f.words fun p q _ => minMax t true (bit a.mod.toNat 0) p q))) ∧
     (Issues s.chip c.toNat w.toNat Cls.valu none a x → mxLegal a x.wg.vregs = true →
       let vals := x.wv.lanes.map fun l => Machine.fp32.decode (x.wv.src (Operand.of a.src0) 0 l).toNat
       let word (l : Nat) := qmxWord (a.mod.toNat % 16) (bit a.mod.toNat 4) vals
         (Machine.fp32.decode (x.wv.src (Operand.of a.src0) 0 l).toNat)
       Ran (.qmx c w a) s (s.chip.executed
         (s.chip.count Fld.CLU_QLOSS_COUNT (steer x.cl) (x.wv.lanes.filter fun l => (word l).2).length) x a
         (x.wv.writeLanes (Operand.of a.dst) 1 (x.wv.lanes.map fun l => (l, (word l).1)))) ∧
       Ran (.dqmx c w a) s (s.chip.executed s.chip x a
         (x.wv.mapLanes a 1 1 fun p _ _ => dqmxWord (a.mod.toNat % 16) (bit a.mod.toNat 4) p)))) ∧
  (∀ (s : State) (c : BitVec 7) (w : BitVec 6) (f : NumFmt) (a : Args) (x : WCtx), Live s →
     Issues s.chip c.toNat w.toNat Cls.sfu none a x → sfuLegal f a x.wg.vregs = true →
     let t := (s.chip.cluster x.cl).tableVer.toNat
     let after (fn : SFn) : Chip := s.chip.executed s.chip x a (x.wv.mapLanes a 1 1 fun p _ _ => fn.apply t f p)
     Ran (.rcp c w f a) s (after .rcp) ∧ Ran (.sqrt c w f a) s (after .sqrt) ∧ Ran (.rsqrt c w f a) s (after .rsqrt) ∧
     Ran (.exp2 c w f a) s (after .exp2) ∧ Ran (.log2 c w f a) s (after .log2) ∧
     Ran (.sinpi c w f a) s (after .sinpi) ∧ Ran (.cospi c w f a) s (after .cospi) ∧
     Ran (.tanh c w f a) s (after .tanh) ∧ Ran (.erf c w f a) s (after .erf))

/-- R130: a scalar operation and a branch run to their end: each writes one value to DST, and the scalar operation writes
SCC, the branch goes to one target. Which values and which target is the catalogue's, which the manual does not give:
they are free values. Model's choices it rests on: assumption 16. -/
def Obligations.scalar_and_control : Prop :=
  ∀ (s : State) (c : BitVec 7) (w : BitVec 6) (op : BitVec 10) (a : Args) (x : WCtx), Live s →
    plainLegal a x.wg.vregs = true →
    (Issues s.chip c.toNat w.toNat Cls.salu (some op.toNat) a x → ∃ v scc, Ran (.saluOp c w op a) s
      (s.chip.executed s.chip x a { x.wv.waveResult (Operand.of a.dst) v with scc := scc })) ∧
    (Issues s.chip c.toNat w.toNat Cls.ctrl (some op.toNat) a x → ∃ v target, Ran (.ctrlBranch c w op a) s
      (s.chip.executed s.chip x a { x.wv.waveResult (Operand.of a.dst) v with pc := target }))

/-- R132: LD, ST and LDS in the workgroup's partition: loads put each active lane's data into its destination, a store
writes each active lane's data in lane order, and a uniform load is the wave's. R132: an ATOM whose lanes all work in
the partition's own memory performs them in ascending lane order, each as one read and write, and leaves the old
values in its destination. Model's choices it rests on: assumptions 14, 24, 25, 28. -/
def Obligations.wave_memory : Prop :=
  (∀ (s : State) (c : BitVec 7) (w : BitVec 6) (size : BitVec 3) (a : Args) (x : WCtx) (n : Nat), Live s →
     sizeBytes size.toNat = some n →
     let stands (kind : Nat) : Prop := Issues s.chip c.toNat w.toNat Cls.mem (some (memOp kind size 0)) a x
     (∀ r, stands 0 → memLegal 0 size 0 a x.wg.vregs = true → s.chip.laneReads x a n x.wv.lanes = .ok r →
       Ran (.ld c w size 0 a) s
         (s.chip.executed s.chip x a (x.wv.writeLanes (Operand.of a.dst) (wordsOf n) r))) ∧
     (∀ c1, stands 1 → memLegal 1 size 0 a x.wg.vregs = true → s.chip.releaseWaits x a = false →
       laneWrites x a n x.wv.lanes s.chip = .ok c1 →
       Ran (.st c w size 0 a) s (s.chip.executed c1 x a x.wv)) ∧
     (∀ b, stands 6 → memLegal 6 size 0 a x.wg.vregs = true → s.chip.readVA x.act (laneVa x a 0) n = .ok b →
       Ran (.lds c w size 0 a) s
         (s.chip.executed s.chip x a (x.wv.dstN (Operand.of a.dst) 0 (leNat b) (wordsOf n))))) ∧
  (∀ (s : State) (c : BitVec 7) (w : BitVec 6) (size atop : BitVec 3) (a : Args) (x : WCtx) (n : Nat) (c1 : Chip)
     (r : List (Nat × Nat)), Live s →
     Issues s.chip c.toNat w.toNat Cls.mem (some (memOp 2 size atop)) a x → sizeBytes size.toNat = some n →
     atomLegal (s.chip.flag Fld.DEV_CAPS0_FP64) 2 size atop a x.wg.vregs = true →
     s.chip.waveAsking (waveKey x.cl x.w) = false → s.chip.releaseWaits x a = false → s.chip.unanswered x a n = [] →
     doAtomics x a atop.toNat n x.wv.lanes s.chip = .ok (c1, r) →
     Ran (.atom c w size atop a) s (s.chip.executed c1 x a (x.wv.writeLanes (Operand.of a.dst) (wordsOf n) r)))

/-- R132, R194, R195: crema instructions of a wave with one active lane: a load and a store move the lane's bytes between
its register and the workgroup's crema; an atomic leaves the old value and stores the operation's; the cycles beyond
the first are counted. R192: what the crema's ECC corrects on a load is counted. R134, R135, R360: a
FENCE and a WAIT_MEM with nothing outstanding pass; a BAR_SYNC leaves the wave at its workgroup's barrier, which all
live waves pass together once every one has arrived; GTC_READ writes the counter to its pair. Model's choices it
rests on: assumptions 26, 146, 173. -/
def Obligations.crema_and_sync : Prop :=
  (∀ (s : State) (c : BitVec 7) (w : BitVec 6) (size atop : BitVec 3) (a : Args) (ecc : CremaEcc) (x : WCtx)
     (n l : Nat), Live s → sizeBytes size.toNat = some n → x.wv.lanes = [l] →
     let ch := s.chip.cremaErrors c.toNat ecc
     let k := ch.cluster x.cl
     let o := laneOff x a l
     (∀ b, Issues ch c.toNat w.toNat Cls.mem (some (memOp 3 size 0)) a x → memLegal 3 size 0 a x.wg.vregs = true →
       k.cremaRead x.wg.granules o n = .ok b →
       Ran (.ldc c w size 0 ⟨a, ecc⟩) s (ch.executed (ch.countConflict x (distinct (bankWords o n)) false) x a
         (x.wv.dstN (Operand.of a.dst) l (leNat b) (wordsOf n)))) ∧
     (Issues s.chip c.toNat w.toNat Cls.mem (some (memOp 4 size 0)) a x → memLegal 4 size 0 a x.wg.vregs = true →
       o + n ≤ x.wg.granules.length * 4096 →
       Ran (.stc c w size 0 a) s (s.chip.executed ((s.chip.setCluster x.cl ((s.chip.cluster x.cl).cremaPut
         x.wg.granules o (leBytes n (x.wv.srcN (Operand.of a.src1) a.ext l (wordsOf n))))).countConflict x
           (distinct (bankWords o n)) true) x a x.wv)) ∧
     (∀ b, Issues ch c.toNat w.toNat Cls.mem (some (memOp 5 size atop)) a x →
       atomLegal (s.chip.flag Fld.DEV_CAPS0_FP64) 5 size atop a x.wg.vregs = true → o % n = 0 →
       k.cremaRead x.wg.granules o n = .ok b →
       Ran (.atomc c w size atop ⟨a, ecc⟩) s (ch.executed ((ch.setCluster x.cl (k.cremaPut x.wg.granules o
         (leBytes n (atomicVal atop.toNat n (leNat b) (x.wv.srcN (Operand.of a.src1) a.ext l (wordsOf n))
           (x.wv.srcN (Operand.of a.src2) a.ext l (wordsOf n)))))).countConflict x [o / 32] true) x a
         (x.wv.dstN (Operand.of a.dst) l (leNat b) (wordsOf n))))) ∧
  (∀ (s : State), Live s →
     (∀ (c : BitVec 7) (w : BitVec 6) (a : Args) (x : WCtx),
       let stands (op : Nat) : Prop := Issues s.chip c.toNat w.toNat Cls.sync (some op) a x
       s.chip.waveOutstanding (waveKey x.cl x.w) = false →
       (stands 0 → syncLegal 0 a = true → Ran (.fence c w a) s (s.chip.executed s.chip x a x.wv)) ∧
       (stands 1 → syncLegal 1 a = true → Ran (.barSync c w a) s (s.chip.executed
         (s.chip.setCluster x.cl { s.chip.cluster x.cl with
           wgs := KMap.set x.wv.wg { x.wg with arrived := x.wg.arrived ++ [x.w] } (s.chip.cluster x.cl).wgs }) x a
         { x.wv with atBarrier := true })) ∧
       (stands 2 → syncLegal 2 a = true → Ran (.waitMem c w a) s (s.chip.executed s.chip x a x.wv)) ∧
       (stands 3 → syncLegal 3 a = true → Ran (.gtcRead c w a) s (s.chip.executed s.chip x a
         (x.wv.dstN (Operand.of a.dst) 0 s.chip.gtc.toNat 2)))) ∧
     (∀ (c : BitVec 7) (id : Word) (g : WGroup), KMap.find id.toNat (s.chip.cluster c.toNat).wgs = some g →
       g.arrived ≠ [] → (∀ v ∈ g.live, v ∈ g.arrived) →
       Ran (.barrierPass c id) s { s.chip.setCluster c.toNat { s.chip.cluster c.toNat with
           wgs := KMap.set id.toNat { g with arrived := [] } (s.chip.cluster c.toNat).wgs } with
         waves := s.chip.waves.map fun kw =>
           if kw.1 / 64 = c.toNat ∧ kw.2.wg = id.toNat then (kw.1, { kw.2 with atBarrier := false }) else kw }))

/-- R149, R166, R168: the tensor instructions on the tile that TILE names in the workgroup: TMMA adds the panels'
products, TZERO puts the tile into its zero state, in F64 mode when MOD[0] is 1 and in long mode otherwise, TACC_RAW
merges 1,024 images, each in its operand cycles. R154 to R168: the instructions of the drain path: TDRAIN writes the
tile's rows in the output format, keeps or zeroes the tile and collects its flags; TSTORE_RAW writes 1,024 images of
96 bytes; TSTAT writes the tile's status and the wave's TFLAGS, and clears them with CLEAR. Each waits on the drain
path, which the first of them takes. R168: an instruction of the drain path starts when the path frees, and not before
34 cycles after the last operand cycle of its tile; a TMMA, TZERO or TACC_RAW starts once the drain-path instructions
accepted before it on its tile have ended. Model's choices it rests on: assumptions 21, 22, 23, 169, 171, 173. -/
def Obligations.tensor_unit : Prop :=
  (∀ (s : State) (c : BitVec 7) (w : BitVec 6) (tile : BitVec 3) (a : Args) (ecc : CremaEcc) (x : WCtx) (n : Nat),
     Live s → tileOf x.wg tile = some n →
     let stands (ch : Chip) (top : Nat) : Prop := Issues ch c.toNat w.toNat Cls.tensor (some (tensorOp top tile 0)) a x
     let ch := s.chip.cremaErrors c.toNat ecc
     let k := (ch.cluster x.cl).accept (Config.freeNat s.chip.ctr (2 ^ 75))
     let k0 := (s.chip.cluster x.cl).accept (Config.freeNat s.chip.ctr (2 ^ 75))
     let after (ch : Chip) (k1 : Cluster) : Chip := ch.executed ((ch.setCluster x.cl k1).setRg
       (Reg.CLU_TNS_STICKY + steer x.cl) (ch.rg (Reg.CLU_TNS_STICKY + steer x.cl))) x a x.wv
     (∀ m, stands ch 0 → tmmaArgs s.chip x 0 (k.tile n).f64 a = some m →
       let na := panelBytes m.fa m.kcount
       let nb := panelBytes m.fb m.kcount
       let cycles := tmmaCycles (max m.fa.width m.fb.width) m.kcount
       k.areaOk x.wg.granules m.offA na 16 = .ok () → k.areaOk x.wg.granules m.offB nb 16 = .ok () →
       Ran (.tmma c w tile 0 ⟨a, ecc⟩) s (after ch ((k.setTile n ((k.tile n).mma (cremaRd k x.wg.granules) m)).operate n
         cycles true x.wv.wg [panelArea m.offA na cycles, panelArea m.offB nb cycles]))) ∧
     (stands s.chip 1 → tensorShape a false false false false false = true →
       (a.mod = 0 → Ran (.tzero c w tile 0 a) s
         (after s.chip ((k0.setTile n { f64 := false }).operate n 1 false x.wv.wg []))) ∧
       (a.mod = 1 → bit (s.chip.fld Fld.DEV_CAPS1_TFMT) 11 = true → Ran (.tzero c w tile 0 a) s
         (after s.chip ((k0.setTile n { f64 := true }).operate n 1 false x.wv.wg [])))) ∧
     (stands ch 4 → tensorShape a false false true false false = true → a.mod = 0 → (k.tile n).f64 = false →
       k.areaOk x.wg.granules (x.sc a.src0) 98304 16 = .ok () →
       Ran (.taccRaw c w tile 0 ⟨a, ecc⟩) s (after ch ((k.setTile n ((k.tile n).accRaw (cremaRd k x.wg.granules)
         (x.sc a.src0))).operate n 768 true x.wv.wg [rawArea (x.sc a.src0)])))) ∧
  (∀ (s : State) (c : BitVec 7), Live s →
     (∀ (w : BitVec 6) (tile : BitVec 3) (a : Args) (x : WCtx) (n : Nat), tileOf x.wg tile = some n →
       let stands (top : Nat) : Prop := Issues s.chip c.toNat w.toNat Cls.tensor (some (tensorOp top tile 0)) a x
       let k := (s.chip.cluster x.cl).accept (Config.freeNat s.chip.ctr (2 ^ 75))
       let t := k.tile n
       let after (k1 : Cluster) (flags : Nat) (wv : Wave) : Chip := s.chip.executed ((s.chip.setCluster x.cl k1).setRg
         (Reg.CLU_TNS_STICKY + steer x.cl) (s.chip.rg (Reg.CLU_TNS_STICKY + steer x.cl) ||| BitVec.ofNat 32 flags)) x a wv
       (stands 2 → drainLegal x t.f64 a = true →
         let fmt := bits a.ext.toNat 3 0
         let mode := drainRound (bits a.ext.toNat 6 4) ((srOperands x a).getD (0, 0, 0, 0))
         let satf := bit a.ext.toNat 7
         let dst := x.sc a.src0
         let stride := x.sc a.src1
         dst % (if fmt = 6 then 8 else 4) = 0 →
         dst + 31 * stride + 32 * drainSize fmt ≤ x.wg.granules.length * 4096 →
         let flags := (t.drainFlags fmt mode satf).word
         let k1 := (List.range 32).foldl
           (fun k i => k.cremaPut x.wg.granules (dst + i * stride) (drainRow t fmt mode satf i)) k
         Ran (.tdrain c w tile 0 a) s (after ((if bit a.ext.toNat 8 then k1 else k1.setTile n { f64 := t.f64 }).queueDrain n
           0 32 x.wv.wg [⟨dst, stride, 32 * drainSize fmt, dst + 31 * stride + 32 * drainSize fmt⟩]) flags { x.wv.dstN (Operand.of a.dst) 0 flags 1 with tflags := x.wv.tflags ||| flags })) ∧
       (stands 3 → tensorShape a false false true false false = true → a.mod = 0 → t.f64 = false →
         x.sc a.src0 % 16 = 0 →
         x.sc a.src0 + 98304 ≤ x.wg.granules.length * 4096 →
         Ran (.tstoreRaw c w tile 0 a) s (after (((List.range 1024).foldl
           (fun k i => k.cremaPut x.wg.granules (x.sc a.src0 + 96 * i) (t.lpos i).image) k).queueDrain n 1 768 x.wv.wg
             [rawArea (x.sc a.src0)]) 0 x.wv)) ∧
       (stands 5 → tensorShape a false true false false false = true → (Operand.of a.dst).regOk 0 2 = true →
         let wv := x.wv.dstN (Operand.of a.dst) 0 (t.stat + 2 ^ 32 * x.wv.tflags) 2
         (a.mod = 0 → Ran (.tstat c w tile 0 a) s (after (k.queueDrain n 2 1 x.wv.wg []) 0 wv)) ∧
         (a.mod = 1 → Ran (.tstat c w tile 0 a) s (after (k.queueDrain n 2 1 x.wv.wg []) 0
           { wv with tflags := 0 })))) ∧
     (∀ d rest, (s.chip.cluster c.toNat).tensor.queue = d :: rest →
       Ran (.drainPathStart c) s (s.chip.setCluster c.toNat { s.chip.cluster c.toNat with
         tensor := { (s.chip.cluster c.toNat).tensor with queue := rest, running := some d } }))) ∧
  (∀ (k : Cluster) (n kind cycles wg : Nat) (operands : Bool) (areas : List PortArea),
     let u := k.tensor
     let start := max (max u.now ((KMap.find n u.operands).elim 0 (· + 34))) u.free
     (k.queueDrain n kind cycles wg areas).tensor.queue
       = u.queue ++ [{ tile := n, kind := kind, start := start, cycles := cycles }] ∧
     ∃ t, u.now ≤ t ∧ KMap.getD u.drained n 0 ≤ t ∧
       (k.operate n cycles operands wg areas).tensor.busy = putInterval (t, t + cycles) u.busy)

/-- R149 to R153: a long-mode position takes two contributions in either order with the same outcome. R166: the raw image
of a position gives the position back, while its count of terms is below 2^25. -/
def Obligations.exact_accumulation : Prop :=
  (∀ (p : LPos) (a b : FVal), (p.contribute a).contribute b = (p.contribute b).contribute a) ∧
  (∀ (p : LPos), p.terms < 2 ^ 25 →
    LPos.ofImage (fun i => (p.image.getD i 0).toNat) 0 = p ∧ p.image.length = 96)

/-- R91, R95, R97, R100, R128: END of a DISPATCH's wave with nothing outstanding ends the wave; a slice that is used up
moves the head of the run list to its tail, and what runs on no cluster any more is saved; before that nothing
happens; a display queue's lateness is counted and posted in microseconds, rounded up; a
stalled pre-emption is posted to the partition and to partition 0. Model's choices it rests on: assumptions 27, 60, 159. -/
def Obligations.wave_ends_and_scheduling : Prop :=
  ∀ (s : State), Live s →
    (∀ (c : BitVec 7) (w : BitVec 6) (a : Args) (x : WCtx), Issues s.chip c.toNat w.toNat Cls.ctrl none a x →
      plainLegal a x.wg.vregs = true → s.chip.waveOutstanding (waveKey x.cl x.w) = false →
      KMap.find (tileKey x.cl x.wv.wg) s.chip.tileRuns = none → x.g.run = none →
      Ran (.endWave c w a) s ((s.chip.executed s.chip x a x.wv).endWave x.cl x.w)) ∧
    (∀ (p : BitVec 4) (h : Nat) (t : List Nat), s.chip.runList p.toNat = h :: t →
      let k := s.chip.sliceKey h
      (KMap.getD (s.chip.part p.toNat).sliceUsed k 0 < s.chip.sliceNs k → Ran (.sliceExpiry p) s s.chip) ∧
      (s.chip.sliceNs k ≤ KMap.getD (s.chip.part p.toNat).sliceUsed k 0 → Ran (.sliceExpiry p) s
        ((s.chip.setPart (partOf h) { s.chip.part (partOf h) with
          runList := (s.chip.part (partOf h)).runList.filter (· != h) ++ [h],
          sliceUsed := KMap.erase h (KMap.erase k (s.chip.part (partOf h)).sliceUsed) }).settlePart p.toNat))) ∧
    (∀ (p : BitVec 4) (n : Word) (q : Nat), s.chip.displayQueue p.toNat = some q →
      Ran (.displayLate p n) s ((s.chip.count Fld.DISP_LATE_CNT_COUNT (pg p.toNat)).postEvent p.toNat 0x0010 q
        ((n.toNat + 999) / 1000))) ∧
    (∀ q : BitVec 10, Ran (.preemptStalled q) s (s.chip.postBoth (partOf q.toNat) 0x0011 q.toNat q.toNat))

/-! ## Graphics, compression, collectives and display (R271 to R341, R366 to R370) -/

/-- R271 to R289: a DRAW in its turn whose block, pipeline state and programs pass their checks starts its geometry
phase: as the first of its chain, which it opens with the render pass it reads, or behind the chain's earlier DRAWs.
A DRAW of a queue without an open chain that is not FIRST is malformed, and one whose vertex records do not fit ends
with OUTPUT_OVERFLOW and fails its chain. R283 to R289, R292 to R303: the grinder's next primitive is set up and its
bins' header rewritten, or the geometry phase ends: the DRAW completes, or, as the LAST, its chain's tile phase begins;
a tile is loaded and placed on the cluster of the scheduler's choice; a shaded tile is written out and counted. Model's
choices it rests on: assumptions 60, 70, 71, 72, 73. -/
def Obligations.graphics : Prop :=
  (∀ (s : State) (q : BitVec 10) (slot : BitVec 6) (e : Entry) (bb : List Byte), Live s →
     Holds s.chip q.toNat slot.toNat Op.draw e → s.chip.drawTurn q.toNat slot.toNat e = true →
     e.desc.p1.toNat % 8 = 0 →
     s.chip.readVA (s.chip.actor q.toNat slot.toNat) e.desc.p1.toNat 64 = .ok bb →
     let b := DrawBlk.ofBytes bb
     (s.chip.chain q.toNat = none → b.first = false →
       Ran (.draw q slot) s (s.chip.finishMalformed q.toNat slot.toNat)) ∧
     (∀ h rb c1, s.chip.chain q.toNat = none → b.first = true →
       let rp := e.desc.p3.toNat
       let x : Chain := { rpVa := rp, bsVa := e.desc.p4.toNat, pass := RPass.ofBytes rb }
       rp % 64 = 0 → e.desc.p4.toNat % 4096 = 0 →
       s.chip.readVA (s.chip.actor q.toNat slot.toNat) rp 64 = .ok h →
       s.chip.readVA (s.chip.actor q.toNat slot.toNat) rp (passBytes h) = .ok rb → x.pass.ok = true →
       c1 = (s.chip.setChain q.toNat x).chainedDraw q.toNat slot.toNat e b x →
       (c1.entry q.toNat slot.toNat).map Entry.phase = some .running →
       Ran (.draw q slot) s c1) ∧
     (∀ x pb c1 h e1, s.chip.chain q.toNat = some x → b.first = false → x.rpVa = e.desc.p3.toNat →
       x.bsVa = e.desc.p4.toNat → x.draws < 65536 → x.draws ≠ 0 → x.failed = none → b.ok = true →
       e.desc.p0.toNat % 8 = 0 →
       s.chip.readVA (s.chip.actor q.toNat slot.toNat) e.desc.p0.toNat 64 = .ok pb →
       (Pipe.ofBytes pb).ok x.pass = true →
       s.chip.drawPrograms q.toNat slot.toNat (Pipe.ofBytes pb) x.pass b.last = .ok (c1, h) →
       c1.entry q.toNat slot.toNat = some e1 →
       let d : DrawRun := { no := x.draws, last := b.last, psVa := e.desc.p0.toNat, fargs := b.fargs, vargs := b.vargs,
                            topology := b.topology, index := b.index, indexVa := b.indexVa, restart := b.restart,
                            baseVertex := b.baseVertex, count := dbits e.desc.p2 31 0,
                            instances := dbits e.desc.p2 63 32, pipe := Pipe.ofBytes pb, vbase := x.vtxUsed }
       let need := d.instances * d.count * d.recUnits
       (x.vtxUsed + need ≤ 64 * x.pass.vtxKib →
         Ran (.draw q slot) s
           (((c1.setChain q.toNat { x with vtxUsed := x.vtxUsed + need, draws := x.draws + 1 }).setEntry q.toNat slot.toNat
             { e1 with phase := .running }).setGrid q.toNat slot.toNat
             { draw := true, index := e1.index, tag := e1.desc.tag.toNat, codeVa := h.codeVa, codeBytes := h.codeBytes,
               entryOff := h.entry, vregs := h.vregs, wpw := 1, gx := 1, gy := 1, total := d.batches, seq := e1.beginSeq,
               run := some { d with vregs := h.vregs, since := c1.gtc.toNat } })) ∧
       (64 * x.pass.vtxKib < x.vtxUsed + need →
         Ran (.draw q slot) s ((c1.finish q.toNat slot.toNat St.outputOverflow 2).failChain q.toNat St.outputOverflow
           b.last)))) ∧
  (∀ (s : State), Live s →
     (∀ (q : BitVec 10) (slot : BitVec 6) (g : Grid) (d d1 : DrawRun) (x x1 : Chain) (ks : List Nat) (vs : List CVtx)
         (c1 c2 : Chip) (b : Nat), s.chip.grid q.toNat slot.toNat = some g → s.chip.chain q.toNat = some x →
       g.run = some d → s.chip.setupReady q.toNat slot.toNat g d = true → x.failed = none →
       s.chip.setupTurn q.toNat slot.toNat d = true →
       (d.next = .done → d.last = false → s.chip.grind q.toNat slot.toNat x.bsVa x.header = .ok c2 →
         Ran (.primitiveSetup q slot) s ((c2.setChain q.toNat x).drawDone q.toNat slot.toNat g d)) ∧
       (d.next = .done → d.last = true →
         Chip.endTiles q.toNat slot.toNat (x.heads.map Prod.fst) s.chip x = .ok (c1, x1) →
         c1.grind q.toNat slot.toNat x.bsVa x1.header = .ok c2 →
         Ran (.primitiveSetup q slot) s ((c2.setChain q.toNat x1).setGrid q.toNat slot.toNat
           { g with base := d.batches, next := d.batches, total := d.batches + x.pass.tiles, perCluster := [],
                    cremaKib := 4 * x.pass.granules, vregs := 0, run := some { d with tiles := true } })) ∧
       (∀ d2, d.next = .skip d2 → Ran (.primitiveSetup q slot) s
         (s.chip.setGrid q.toNat slot.toNat { g with run := some d2 })) ∧
       (d.next = .prim ks d1 →
         s.chip.readVtxs (s.chip.actor q.toNat slot.toNat) d x ks = .ok vs →
         s.chip.setupPrim q.toNat slot.toNat d x vs = .ok (c1, x1, b) →
         c1.grind q.toNat slot.toNat x.bsVa x1.header = .ok c2 →
         Ran (.primitiveSetup q slot) s ((c2.setChain q.toNat x1).setGrid q.toNat slot.toNat
           { g with run := some { d1 with prims := d.prims + b } }))) ∧
     (∀ (q : BitVec 10) (slot : BitVec 6) (c : BitVec 7) (g : Grid) (d : DrawRun) (x : Chain) (i : Nat)
         (r : Chip × Grid), s.chip.grid q.toNat slot.toNat = some g → s.chip.chainOf q.toNat slot.toNat = some x →
       g.run = some d → d.tiles = true → g.saved = false →
       (s.chip.claimDisplay q.toNat slot.toNat).launchChoice q.toNat c.toNat g = some i → d.batches ≤ i →
       Chip.placeTile q.toNat slot.toNat c.toNat x d (s.chip.claimDisplay q.toNat slot.toNat) g i = .ok r →
       Ran (.tileAssign q slot c) s (r.1.setGrid q.toNat slot.toNat (r.2.launched c.toNat i))) ∧
     (∀ (c : BitVec 7) (id cycles : Word) (t : TileRun) (g : WGroup) (x : Chain) (c1 : Chip),
       KMap.find (tileKey c.toNat id.toNat) s.chip.tileRuns = some t →
       KMap.find id.toNat (s.chip.cluster c.toNat).wgs = some g → t.cur = none → t.jobs = [] →
       s.chip.chainOf t.q t.slot = some x →
       Chip.writeSurfs (s.chip.actor t.q t.slot) t.q (.entry t.q t.slot) (x.pass.rect t.tile) (writes x.pass t.atts)
         s.chip = .ok c1 →
       let o := pg (partOf t.q)
       let c2 := (c1.count Fld.RAS_PIPE_TILE_CNT_COUNT o).setFld Fld.RAS_PIPE_TILE_MAXCYC_COUNT o
         (max (c1.fld Fld.RAS_PIPE_TILE_MAXCYC_COUNT o) cycles.toNat)
       Ran (.tileWriteOut c id cycles) s
         (((c2.signItem s.chip t.q t.slot g.index).tileOut t.q t.slot).releaseGroup c.toNat id.toNat g)))

/-- R330 to R339: a COMPRESS job that holds its lane reads its input and writes the stream, each of its last stores once
every write before it is acknowledged: the history of a job that is not the LAST, the result words; then it completes
with the stream's length; where its verifier finds a mismatch it completes with VERIFY_MISMATCH and its lane is
withdrawn; where the stream does not fit it fills the buffers and completes with OUTPUT_OVERFLOW. R340: a DECOMPRESS
job that holds its lane writes the decoded bytes and the result words; a stream that is not whole completes with
STREAM_CORRUPT. R249, R341: in context mode a COMPRESS turns a resident page into an object, or, where the object would exceed 65,280 bytes, fills
the object area and leaves the page resident; one whose object area
does not lie between the scratch range and the end of the partition's memory completes with CONTEXT_PAGE_FAULT and
writes nothing. R328, R338: a free lane takes the one job that waits, of its partition and queue; a lane that was
withdrawn is in service again when it returns. Model's choices it rests on: assumptions 61, 62, 63, 65, 67, 68, 69. -/
def Obligations.compression : Prop :=
  (∀ (s : State) (q : BitVec 10) (slot : BitVec 6) (e : Entry) (lane : Nat) (b : List Byte)
     (src dst : List (Nat × Nat)) (h : HistRead) (input : List Byte) (c1 c2 : Chip), Live s →
     s.chip.laneOf q.toNat slot.toNat = some lane → Holds s.chip q.toNat slot.toNat Op.compress e → e.ending = none →
     let blk := e.desc.p0.toNat
     s.chip.readVA (s.chip.actor q.toNat slot.toNat) blk 64 = .ok b →
     let j := Job.ofBytes b
     let x := j.stream h
     let out := x.output input
     j.ctx = false → s.chip.jobBuffers q.toNat slot.toNat blk j true = .ok (src, dst) →
     s.chip.jobHistory q.toNat slot.toNat e j = .ok (c1, h) →
     c1.readFar (c1.actor q.toNat slot.toNat) (bufPieces src) = (input, none) →
     c1.putOutput q.toNat slot.toNat dst (out.take (bufTotal dst)) = (c2, none) →
     (out.length ≤ bufTotal dst → Ran (.compress q slot false) s
       ((Chip.endJob q.toNat slot.toNat lane (.ok out.length) (j.finalStores blk x input out.length) c2).settleLane
         q.toNat slot.toNat lane)) ∧
     (c2.acknowledged q.toNat slot.toNat = true →
       (∀ c3, out.length ≤ bufTotal dst → j.last = true →
         c2.writeVA (c2.actor q.toNat slot.toNat) q.toNat (.entry q.toNat slot.toNat) (blk + 0x30)
           (leBytes 8 out.length ++ leBytes 4 input.length ++ leBytes 4 (checkVal j.fmt (checkMore j.fmt h.check input)))
           = .ok c3 → c3.acknowledged q.toNat slot.toNat = true →
         Ran (.compress q slot false) s
           ((c3.finishOk q.toNat slot.toNat out.length).settleLane q.toNat slot.toNat lane)) ∧
       (out.length ≤ bufTotal dst → Ran (.compress q slot true) s
         ((((c2.finish q.toNat slot.toNat St.verifyMismatch 0).count Fld.CDE_VERIFY_CNT_COUNT).withdrawLane
           (partOf q.toNat) lane).settleLane q.toNat slot.toNat lane)) ∧
       (∀ m, bufTotal dst < out.length → Ran (.compress q slot m) s
         (((c2.finish q.toNat slot.toNat St.outputOverflow 0).count Fld.CDE_OVF_CNT_COUNT).settleLane
           q.toNat slot.toNat lane)))) ∧
  (∀ (s : State) (q : BitVec 10) (slot : BitVec 6) (e : Entry) (lane : Nat), Live s →
     s.chip.laneOf q.toNat slot.toNat = some lane →
     (∀ k l m, e.ending = some (k, l) →
       (Holds s.chip q.toNat slot.toNat Op.compress e → Ran (.compress q slot m) s
         ((Chip.endJob q.toNat slot.toNat lane k l s.chip).settleLane q.toNat slot.toNat lane)) ∧
       (Holds s.chip q.toNat slot.toNat Op.decompress e → Ran (.decompress q slot) s
         ((Chip.endJob q.toNat slot.toNat lane k l s.chip).settleLane q.toNat slot.toNat lane))) ∧
     (∀ b : List Byte, e.ending = none →
       let blk := e.desc.p0.toNat
       let j := Job.ofBytes b
       s.chip.readVA (s.chip.actor q.toNat slot.toNat) blk 64 = .ok b →
       (∀ src dst input c2 c3, Holds s.chip q.toNat slot.toNat Op.decompress e → j.ctx = false →
         s.chip.jobBuffers q.toNat slot.toNat blk j false = .ok (src, dst) →
         s.chip.readFar (s.chip.actor q.toNat slot.toNat) (bufPieces src) = (input, none) →
         let d := decodeFmt j.fmt input
         let n := d.out.length
         s.chip.putOutput q.toNat slot.toNat dst (d.out.take (bufTotal dst)) = (c2, none) → n ≤ bufTotal dst →
         c2.acknowledged q.toNat slot.toNat = true →
         c2.writeVA (c2.actor q.toNat slot.toNat) q.toNat (.entry q.toNat slot.toNat) (blk + 0x30)
           (leBytes 8 n ++ leBytes 4 d.used ++ leBytes 4 (checkVal j.fmt (checkMore j.fmt (checkInit j.fmt) d.out)))
           = .ok c3 → c3.acknowledged q.toNat slot.toNat = true →
         (d.ok = true → Ran (.decompress q slot) s
           ((c3.finishOk q.toNat slot.toNat n).settleLane q.toNat slot.toNat lane)) ∧
         (d.ok = false → Ran (.decompress q slot) s
           (((c3.finish q.toNat slot.toNat St.streamCorrupt n).count Fld.CDE_CORRUPT_CNT_COUNT).settleLane
             q.toNat slot.toNat lane))) ∧
       (∀ t page m, Holds s.chip q.toNat slot.toNat Op.compress e → j.ctx = true →
         s.chip.tier q.toNat slot.toNat e j true = .ok t → t.entry = .resident page →
         ((j.dst < (s.chip.part (partOf q.toNat)).scratchBytes ∨
             (s.chip.part (partOf q.toNat)).memBytes < j.dst + 65280) →
           Ran (.compress q slot m) s
             ((s.chip.finish q.toNat slot.toNat St.contextPageFault 0).settleLane q.toNat slot.toNat lane)) ∧
         (∀ bs, (s.chip.part (partOf q.toNat)).scratchBytes ≤ j.dst →
           j.dst + 65280 ≤ (s.chip.part (partOf q.toNat)).memBytes →
           s.chip.readPP (partOf q.toNat) page 65536 = .ok bs →
           let out := tierStream j bs
           s.chip.stopBytes q.toNat out = none →
           Ran (.compress q slot false) s
             ((if out.length ≤ 65280 then s.chip.tierDown q.toNat slot.toNat lane blk j t page bs out
               else
                 match s.chip.putPP q.toNat j.dst (out.take 65280) with
                 | .error err => s.chip.failAt q.toNat slot.toNat FaultUnit.compression (err, 0)
                 | .ok c1 => Chip.endJob q.toNat slot.toNat lane (.ok 0) [] c1).settleLane
               q.toNat slot.toNat lane))))) ∧
  (∀ (s : State), Live s →
     (∀ p q slot i, s.chip.lanes = [] → s.chip.fld Fld.CDE_LANE_STATUS_OUT = 0 → p < 16 →
       q / 64 = p → s.chip.waitingJobs p = [(q, slot, i)] → (∀ o < 16, o ≠ p → s.chip.waitingJobs o = []) →
       s.chip.lanePart < 16 →
       Ran .compressionLaneStart s (({ s.chip with
         lanes := [(0, q * 64 + slot)], lanePart := p,
         laneQueue := KMap.set p (q % 64) s.chip.laneQueue } : Chip).setBit Fld.CDE_LANE_STATUS_BUSY 0 0)) ∧
     (∀ lane : BitVec 2, bit (s.chip.fld Fld.CDE_LANE_STATUS_OUT) lane.toNat = true →
       Ran (.compressionLaneReturn lane) s (s.chip.setFld Fld.CDE_LANE_STATUS_OUT 0
         (s.chip.fld Fld.CDE_LANE_STATUS_OUT - 2 ^ lane.toNat))))

/-- R366, R367, R370: a COLLECTIVE whose block and ranks pass its checks begins with its own inputs and digest and sends
its digests; a message taken by the collective that it names is recorded and what it completes follows; a rank not
heard in time ends it with LINK_UNREACHABLE; the partner of a waiting CHECKPOINT that resets ends that with
REMOTE_POISONED. Model's choices it rests on: assumptions 52, 55. -/
def Obligations.collectives : Prop :=
  ∀ (s : State), Live s →
    (∀ (q : BitVec 10) (slot : BitVec 6) (e : Entry) (b rb bs : List Byte) (rs : List (Nat × Nat)),
      Holds s.chip q.toNat slot.toNat Op.collective e →
      let w := s.chip.actor q.toNat slot.toNat
      let x0 := Coll.ofBlock q.toNat slot.toNat b s.chip.gtc.toNat
      let x : Coll := { x0 with ranks := rs }
      s.chip.readVA w e.desc.p0.toNat 64 = .ok b → e.desc.p0.toNat % 8 = 0 → collRsvOk b = true → x0.fieldsOk = true →
      s.chip.readVA w (fieldLE b 8 8) (4 * x0.nrank) = .ok rb → rankList rb x0.nrank = some rs → noRepeat rs = true →
      rs.getD x0.myRank (64, 0) = (s.chip.fld Fld.AXL_DEVICE_DEVNUM, partOf q.toNat) →
      (x0.exact = true ∨ x0.dtype ≠ 5 ∨ s.chip.flag Fld.DEV_CAPS0_FP64 = true) →
      s.chip.collRoom (partOf q.toNat) = true →
      s.chip.readVA w x.src (x.inputs x.myRank * x.inSize) = .ok bs →
      let d := Config.collDigest x.digestFields % 2 ^ 64
      let x1 : Coll := { x with
        digest := d, digests := [(x.myRank, d)],
        got := (List.range (x.inputs x.myRank)).foldl (fun m i =>
          KMap.set (elemKey x.myRank i) (fieldLE bs (i * x.inSize) x.inSize) m) [] }
      Ran (.collective q slot) s (((({ s.chip.setEntry q.toNat slot.toNat { e with phase := .running } with
        colls := s.chip.colls ++ [x1] } : Chip).sendDigests x1).settleColl q.toNat slot.toNat).deliverHeld)) ∧
    (∀ (m : CollMsg) (x : Coll) (k : Nat), s.chip.collHeld = [m] → s.chip.collFor m = some x →
      (x.ranksWith fun _ r => r == (m.srcDev, m.srcPart)) = [k] →
      Ran (.collMessage none) s ((({ s.chip with collHeld := [] } : Chip).setColl (x.take k m.body)).settleColl
        x.q x.slot)) ∧
    (∀ a : CollArgs, Ran (.collMessage (some a)) s
      (let c := s.chip.dropMsg a.port.toNat (s.chip.vcFor a.part.toNat Vc.col) (·.op == MOp.coll)
       let m : CollMsg := { part := a.part.toNat, srcDev := a.srcDev.toNat, srcPart := a.srcPart.toNat,
                            group := a.group.toNat, seq := a.seq.toNat, body := collBody a }
       Chip.deliverHeld { c with collHeld := c.collHeld ++ [m] })) ∧
    (∀ (q : BitVec 10) (slot : BitVec 6) (x : Coll) (k : Nat), s.chip.coll q.toNat slot.toNat = some x →
      x.timeout ≠ 0 → x.began + 1000 * x.timeout ≤ s.chip.gtc.toNat →
      ((List.range x.nrank).find? fun k => !x.heard k) = some k →
      Ran (.collectiveTimeout q slot) s (s.chip.endColl x St.linkUnreachable k)) ∧
    (∀ (dev : BitVec 6) (part : BitVec 4) (q : Nat) (x : Queue) (slot : Nat) (e : Entry) (sent : PairSig),
      s.chip.colls = [] → s.chip.queues = [(q, x)] → x.entries = [(slot, e)] → e.phase = .waiting →
      e.watch = .partner sent → (s.chip.part (partOf q)).pairEn = true →
      (s.chip.part (partOf q)).pairDev = dev.toNat → (s.chip.part (partOf q)).pairPart = part.toNat →
      Ran (.partnerResetting dev part) s
        (({ s.chip with sigIn := KMap.erase q s.chip.sigIn } : Chip).finish q slot St.remotePoisoned 0))

/-- R314 to R316: a flip whose block and layers pass the checks joins the flips committed to its pipe and runs until a
vertical blank latches it: then it takes its layers and completes, its DETAIL the number of the frame. R317, R318: one
that a previous owner committed is never shown, and completes with 0xFFFFFFFF; a release fence is signalled once it
can be. R307, R308, R312, R318: a running pipe composes its next line and sends it while its link is up; ENABLE is
taken only with values that the pipe allows and starts training; OWNER turns the old owner's layers off at the next
latch; a write of either on a
running pipe is logged (R11, R326); HPD follows the pin on a pipe that is off; a trained
link takes the fewest lanes at the lowest rate that carry the programmed timing. Model's choices it rests on:
assumptions 74, 75, 181, 182. -/
def Obligations.display : Prop :=
  (∀ (s : State), Live s →
     (∀ (q : BitVec 10) (slot : BitVec 6) (e : Entry) (prot : Bool) (h b : List Byte) (m : KMap Layer),
       Holds s.chip q.toNat slot.toNat (if prot then Op.protectedFlip else Op.displayFlip) e →
       let va := e.desc.p0.toNat
       let n := bits (fieldLE b 0 4) 0 0
       let mask := bits (fieldLE b 0 4) 15 8
       let ls := (layerNums mask).zipIdx.map fun x => (x.1, Layer.ofBytes ((b.drop (64 + 64 * x.2)).take 64))
       s.chip.readVA (s.chip.actor q.toNat slot.toNat) va 64 = .ok h →
       s.chip.readVA (s.chip.actor q.toNat slot.toNat) va
         (64 + 64 * (layerNums (bits (fieldLE h 0 4) 15 8)).length) = .ok b →
       flipHeadOk b prot va = true → (ls.all fun l => l.2.formOk) = true → s.chip.pipeOn n = true →
       (prot = true → mask = 0x80) →
       (prot = false → mask ≠ 0 ∧ bit mask 7 = false ∧
         s.chip.fld Fld.LCE_PIPE_CTL_OWNER (pipeOff n) = partOf q.toNat) →
       (ls.all fun l => l.2.fits l.1 (s.chip.fld Fld.LCE_H_HACTIVE (pipeOff n))
         (s.chip.fld Fld.LCE_V_VACTIVE (pipeOff n))) = true →
       s.chip.translateLayers (s.chip.actor q.toNat slot.toNat) (s.chip.part (partOf q.toNat)).scratchBytes ls = .ok m →
       s.chip.rateOk n m = true →
       Ran (if prot then .protectedFlip q slot else .displayFlip q slot) s
         ((s.chip.setPipe n { s.chip.pipe n with committed := (s.chip.pipe n).committed ++
           [{ q := q.toNat, slot := slot.toNat, asid := s.chip.asidOf q.toNat, prot := prot, layers := m,
              relVa := fieldLE b 8 8, relVal := fieldLE b 0x10 8, crcEn := bit (fieldLE b 0 4) 16,
              expect := fieldLE b 0x18 4, fallback := fieldLE b 0x1C 4 }] }).setEntry q.toNat slot.toNat
           { e with phase := .running })) ∧
     (∀ (n : BitVec 1) (f : Flip), s.chip.pipeOn n.toNat = true →
       let d := s.chip.pipe n.toNat
       let o := pipeOff n.toNat
       let frame := (s.chip.fld Fld.LCE_FRAME_COUNT o + 1) % 2 ^ 32
       d.committed = [f] → f.layers ≠ [] → d.ownerOff = false → d.protOff = false →
       let c1 := s.chip.setPipe n.toNat { d with committed := [], bg := s.chip.fld Fld.LCE_BG_BG o, line := 0, crc := 0 }
       let latched (c2 : Chip) : Chip :=
         let c3 := c2.setPipe n.toNat (c2.pipe n.toNat).retire
         ((c3.setFld Fld.LCE_FRAME_COUNT o frame).setFld Fld.LCE_PCRC_STATUS_CHECKING o
           (b2n (c3.pipe n.toNat).checking)).sourceSignal (1 + n.toNat) 0
       (f.stale = false → Ran (.vblankLatch n) s
         (latched ((c1.setPipe n.toNat ((c1.pipe n.toNat).take f)).finish f.q f.slot St.ok frame))) ∧
       (f.stale = true → f.relVa = 0 → Ran (.vblankLatch n) s (latched (c1.finish f.q f.slot St.ok 0xFFFFFFFF)))) ∧
     (∀ (n : BitVec 1) (f : Flip) (fs : List Flip), (s.chip.pipe n.toNat).toRelease = f :: fs →
       let c := s.chip.setPipe n.toNat { s.chip.pipe n.toNat with toRelease := fs }
       (∀ c1, c.releaseFlip f = some c1 → Ran (.flipRelease n) s c1) ∧
       (c.releaseFlip f = none → Ran (.flipRelease n) s s.chip))) ∧
  (∀ (s : State) (n : BitVec 1),
     let o := pipeOff n.toNat
     let d := s.chip.pipe n.toNat
     (∀ f ws, Live s → s.chip.pipeOn n.toNat = true → d.line < s.chip.fld Fld.LCE_V_VACTIVE o →
       KMap.find 7 d.layers = none →
       s.chip.composeLine n.toNat d [] d.line (List.range (s.chip.fld Fld.LCE_H_HACTIVE o)) [] = (f, ws) →
       (∀ i < 7, i ∉ f) → s.chip.fld Fld.LCE_PIPE_STATUS_STATE o = 2 →
       Ran (.scanoutLine n []) s ((s.chip.setPipe n.toNat { d with line := d.line + 1 }).emit
         (.video n.toNat d.line ws))) ∧
     (HostUp s → s.chip.pipeExists n.toNat = true →
       (s.chip.flag Fld.LCE_PIPE_CTL_ENABLE o = false → s.chip.timingOk n.toNat = true → s.chip.mgt.dispPhy = true →
         Ran (.pipeEnableWrite n true) s ((s.chip.setFld Fld.LCE_PIPE_CTL_ENABLE o 1).trainDisplay n.toNat)) ∧
       (s.chip.flag Fld.LCE_PIPE_CTL_ENABLE o = false → s.chip.timingOk n.toNat = false →
         Ran (.pipeEnableWrite n true) s (s.chip.regError (Reg.LCE_PIPE_CTL + o))) ∧
       (s.chip.flag Fld.LCE_PIPE_CTL_ENABLE o = true → d.committed = [] →
         let c := s.chip.regError (Reg.LCE_PIPE_CTL + o)
         Ran (.pipeEnableWrite n false) s (((c.setFld Fld.LCE_PIPE_CTL_ENABLE o 0).setFld
           Fld.LCE_PIPE_STATUS_STATE o 0).setPipe n.toNat { d with committed := [], line := 0, trainWait := false })) ∧
       (∀ p : BitVec 4,
         let c := if s.chip.flag Fld.LCE_PIPE_CTL_ENABLE o = true then s.chip.regError (Reg.LCE_PIPE_CTL + o) else s.chip
         Ran (.pipeOwnerWrite n p) s ((c.setFld Fld.LCE_PIPE_CTL_OWNER o p.toNat).setPipe n.toNat { d with
           ownerOff := true,
           committed := d.committed.map fun f => { f with stale := f.stale || (!f.prot && partOf f.q != p.toNat) } }))) ∧
     (Live s → s.chip.pipeExists n.toNat = true → s.chip.pipeOn n.toNat = false →
       ∀ hpd, Ran (.displayHotplug n hpd) s (s.chip.setFld Fld.LCE_PIPE_STATUS_HPD o (b2n hpd))) ∧
     (∀ lanes rate : BitVec 3, Live s → s.chip.fld Fld.LCE_PIPE_STATUS_STATE o = 1 → s.chip.firmwareRuns = true →
       let best := (linkModes (s.chip.flag Fld.LCE_PIPE_CTL_OUT_EDP o)).find? fun m => decide
         (33 * s.chip.fld Fld.LCE_PCLK_KHZ o * (3 * s.chip.depthBits n.toNat) ≤ m.1 * laneRate m.2)
       (best = some (lanes.toNat, rate.toNat) →
         Ran (.displayLinkTrained n lanes rate) s (((s.chip.setFld Fld.LCE_PIPE_STATUS_STATE o 2).setFld
           Fld.LCE_PIPE_STATUS_LANES o lanes.toNat).setFld Fld.LCE_PIPE_STATUS_RATE o rate.toNat)) ∧
       (best ≠ some (lanes.toNat, rate.toNat) → Ran (.displayLinkTrained n lanes rate) s s.chip)))

/-! ## The memory side (R26, R35 to R40, R198 to R224) -/

/-- R35 to R40, R210, R433: a write to memory that succeeds stores its bytes, keeps memory in canonical form, and changes
no byte at any other location; where no line of them is poisoned or lost with its groups, a read of the same bytes
gives what was written. Model's choices it rests on:
assumption 9. -/
def Obligations.memory_laws : Prop :=
  ∀ (c c' : Chip) (p a : Nat) (bs : List Byte), (c.part p).laid → c.writePP p a bs = .ok c' →
    c'.parts = c.parts ∧ (c.memWf = true → c'.memWf = true) ∧
    (∀ ls l, (c.part p).locs a bs.length = some ls → l ∉ ls → c'.byteAt l = c.byteAt l) ∧
    (∀ b n x, c.readPP p b n = .ok x → (b + n ≤ a ∨ a + bs.length ≤ b) → c'.readPP p b n = .ok x) ∧
    ((∀ ls l, (c.part p).locs a bs.length = some ls → l ∈ ls → c.badLoc l = false) →
      c'.readPP p a bs.length = .ok bs)

/-- R26, R35, R38, R210: memory of one partition is out of another's reach: whatever partition p writes, what partition q
reads stays as it was, so long as the two hold no frame and no scratch way in common. Model's choices it rests on:
assumption 9. -/
def Obligations.memory_isolation : Prop :=
  ∀ (c c' : Chip) (p q a b n : Nat) (bs x : List Byte), (c.part p).laid → (c.part q).laid →
    (∀ f, (c.part p).holdsFrame f → ¬ (c.part q).holdsFrame f) →
    (∀ w, w ∈ (c.part p).ways → w ∉ (c.part q).ways) →
    c.writePP p a bs = .ok c' → c.readPP q b n = .ok x → c'.readPP q b n = .ok x

/-- R198: the slice, the set and the tag of a line by the home function; set and tag together give the line back. -/
def Obligations.home_of_line : Prop :=
  ∀ (l : Nat),
    homeSlice l = (l ^^^ (l >>> 11) ^^^ (l >>> 22)) % 24 ∧ homeSlice l < 24 ∧
    homeSet l = (l ^^^ (l >>> 11)) &&& 0x7FF ∧ homeTag l = l >>> 11 ∧ lineOf (homeSet l) (homeTag l) = l

/-- R197 to R204: an access of an elastic partition reaches the slice of its line: a request that hits uses the line and
is counted; a read that misses everywhere takes a free miss register or, behind an earlier miss of its line, joins that
one; a fill places the line and frees its register; a request that waited is served once a register is free, later ones
to its line merge into it, and the cycles it waited are counted. R207, R209: a write of SC_WAYOFF while a way is
changing, or that would leave one cached way, is logged; one that turns way 15 off makes that way change and leaves the
others cached; once the changes are made no way is changing. R219 to R224: the refresh window of a group held by a
carve-out starts at its place in the counter's 2,048 ns; an extra window is counted and, where it delays an access of
the owner's descriptor, perturbs that descriptor; a scrub counts what it finds, and an uncorrectable error poisons the
line; a carve-out's line is not scrubbed outside the windows. Model's choices it rests on: assumptions 129, 143, 175. -/
def Obligations.memory_system : Prop :=
  (∀ (s : State) (src : CacheSource) (kind : BitVec 2) (p a mt l : Nat), Live s →
     s.chip.accessOf src = some (p, a, mt) → mt ≠ 3 → (s.chip.part p).det = false → (s.chip.part p).loc a = some l →
     s.chip.deadLoc (s.chip.part p) l = false →
     let line := l / 128
     let i := homeSlice line
     let x := s.chip.slice i
     (∀ w, (x.queue.any fun r => r.line == line) = false → x.lookup line = some w →
       Ran (.cacheRequest src kind .none) s
         ((s.chip.setSlice i (x.use line w { mt := mt, kind := CReq.of kind })).count Fld.SC_HIT_CNT_COUNT (steer i))) ∧
     (x.queue = [] → x.lookup line = none → (x.victim.find? fun v => v.line == line) = none →
       (∀ r, x.fetching line = none → x.freeMiss = some r →
         Ran (.cacheRequest src 0 .none) s ((s.chip.setSlice i { x with
           miss := KMap.set r { line := line, primary := { mt := mt, kind := .read }, secondary := [] } x.miss }).count
             Fld.SC_MISS_CNT_COUNT (steer i))) ∧
       (∀ r m, x.fetching line = some (r, m) → m.secondary.length < 16 →
         Ran (.cacheRequest src 0 .none) s ((s.chip.setSlice i { x with
           miss := KMap.set r { m with secondary := m.secondary ++ [{ mt := mt, kind := .read }] } x.miss }).count
             Fld.SC_MERGE_CNT_COUNT (steer i))))) ∧
  (∀ (s : State) (i : BitVec 5), Live s →
     let x := s.chip.slice i.toNat
     (∀ (r : BitVec 8) (m : MissReg), KMap.find r.toNat x.miss = some m → m.discard = false → m.secondary = [] →
       m.primary.mt = 0 → x.lookup m.line = none → x.queue = [] →
       bit (s.chip.fld Fld.CTX_STK_STATUS_DEGRADED (steer (stackOf m.line))) (m.line * 128 / (3 * gib) % 16) = false →
       ∃ c, Ran (.missFill i ⟨r, .none⟩) s c ∧ c.mem = s.chip.mem ∧
         c.slice i.toNat = ({ x with miss := KMap.erase r.toNat x.miss } : Slice).place s.chip.cachedWays m.line
           m.primary.writes ∧
         ∀ j, j ≠ i.toNat → c.slice j = s.chip.slice j) ∧
     (∀ (n : Word) (r : WaitReq) (rest : List WaitReq) (k : Nat), x.queue = r :: rest → x.fetching r.line = none →
       x.freeMiss = some k → Ran (.missQueueGrant i n) s ((Chip.mergeWaiters i.toNat r.line rest
         ((s.chip.setSlice i.toNat { x with queue := rest }).serveLine i.toNat r.line r.req true) []).count
           Fld.SC_MRFULL_CNT_COUNT (steer i.toNat) n.toNat))) ∧
  (∀ (s : State) (v : Word),
     (HostUp s → s.chip.flag Fld.SC_STATUS_BUSY = true →
       Ran (.scWayoffWrite v) s (s.chip.regError Reg.SC_WAYOFF)) ∧
     (HostUp s → s.chip.flag Fld.SC_STATUS_BUSY = false → s.chip.ways = [] → v.toNat % 2 ^ 16 = 2 ^ 15 →
       ∃ c, Ran (.scWayoffWrite v) s c ∧ c.way 15 = .toOff ∧ (∀ w, w ≠ 15 → c.way w = .cached) ∧
         c.fld Fld.SC_STATUS_BUSY = 1 ∧ c.mem = s.chip.mem ∧ c.scratch = s.chip.scratch) ∧
     (HostUp s → s.chip.flag Fld.SC_STATUS_BUSY = false → s.chip.ways = [] → v.toNat % 2 ^ 16 = 2 ^ 15 - 1 →
       Ran (.scWayoffWrite v) s (s.chip.regError Reg.SC_WAYOFF)) ∧
     (Live s → ∃ c, Ran .wayModeChangeDone s c ∧ c.waysBusy = false ∧ c.mem = s.chip.mem ∧
       ∀ w, w < 16 → s.chip.way w = .toOff → c.way w = .off)) ∧
  (∀ (s : State), Live s →
     (∀ (k : BitVec 3) (g : BitVec 4) (p : Nat), s.chip.carveOwner (k.toNat * 16 + g.toNat) = some p →
       (s.chip.gtc.toNat % 2048 = 128 * g.toNat → Ran (.refreshWindow k g) s { s.chip with
         windows := KMap.set (k.toNat * 16 + g.toNat) (s.chip.gtc.toNat + 256) s.chip.liveWindows }) ∧
       let c : Chip := { s.chip.count Fld.CTX_RFM_EXTRA_COUNT (steer k.toNat) with
         windows := KMap.set (k.toNat * 16 + g.toNat) (s.chip.gtc.toNat + 256) s.chip.liveWindows }
       Ran (.rfmExtraWindow k g []) s c ∧
       (∀ (q : BitVec 10) (slot : BitVec 6), partOf q.toNat = p → (s.chip.entry q.toNat slot.toNat).isSome = true →
         Ran (.rfmExtraWindow k g [(q, slot)]) s
           (c.perturbOnly p 4 fun o j => o == q.toNat && j == slot.toNat))) ∧
     (∀ (line : BitVec 32), let g := line.toNat * 128 / (3 * gib)
       (s.chip.carveOwner g = none →
         Ran (.stackScrub line 0) s s.chip ∧
         Ran (.stackScrub line 1) s (s.chip.count Fld.CTX_ECC_CE_COUNT (steer (stackOf line.toNat))) ∧
         Ran (.stackScrub line 2) s
           ((s.chip.count Fld.CTX_ECC_UE_COUNT (steer (stackOf line.toNat))).addPoison line.toNat)) ∧
       (∀ p found, s.chip.carveOwner g = some p → KMap.find g s.chip.liveWindows = none →
         Ran (.stackScrub line found) s s.chip)))

/-! ## Time, links and the host (R344 to R365, R371 to R390, R403, R502 to R511) -/

/-- R383, R389, R390, R403: the unit map's force, a master's set and a follower's resync, the latched read, the pulse's
capture and the comparison of the counter's copies. R386, R387: a port that is UP sends its TIME flit, but none during
a switch-over; a port not UP receives none, and the first one that an UNLOCKED device has acknowledges and returns
credits as any flit does, steps the counter by the delay and takes it to ACQUIRING. Model's choices it rests on: assumptions 48, 49, 126. -/
def Obligations.time_base : Prop :=
  (∀ (s : State),
     (∀ v, HostUp s → 8 ≤ wbits v 6 0 → s.chip.aloneWithZero = true →
       Ran (.mapForce v) s
         ((((s.chip.setFld Fld.DET_MAP_FORCE_CLUSTERS 0 (wbits v 6 0)).applyMap (wbits v 6 0)).settlePart 0).showPart 0)) ∧
     (∀ v, HostUp s → wbits v 6 0 < 8 → Ran (.mapForce v) s (s.chip.regError Reg.DET_MAP_FORCE)) ∧
     (∀ v, HostUp s → s.chip.timeState = TimeState.master → s.chip.aloneWithZero = true → s.chip.queues = [] →
       Ran (.gtcSet v) s { s.chip with gtc := BitVec.ofNat 64 ((s.chip.rg Reg.GTC_SET_LO).toNat + 2 ^ 32 * v.toNat) }) ∧
     (∀ v, HostUp s → s.chip.timeState ≠ TimeState.master → Ran (.gtcSet v) s (s.chip.regError Reg.GTC_SET_HI)) ∧
     (HostUp s → s.chip.timeState ≠ TimeState.master →
       ((∀ n, n < 8 → s.chip.fld Fld.AXL_PORT_CTL_MODE (n * 0x40) = 0) →
         Ran .resync s ({ s.chip with lockRun := 0 }.setTimeState TimeState.unlocked 63)) ∧
       (∀ n, n < 8 → s.chip.fld Fld.AXL_PORT_CTL_MODE (n * 0x40) ≠ 0 →
         Ran .resync s ({ s.chip.regError Reg.GTC_CTL with lockRun := 0 }.setTimeState TimeState.unlocked 63))) ∧
     (HostUp s → Ran (.gtcLoRead none) s ({ s.chip with
         gtcLatch := KMap.put 0 0 (BitVec.ofNat 32 (dbits s.chip.gtc 63 32)) s.chip.gtcLatch }.emit
       (.hostData (leBytes 4 (dbits s.chip.gtc 31 0))))) ∧
     (∀ p : BitVec 4, HostUp s → s.chip.exists? p.toNat = true → Ran (.gtcLoRead (some p)) s ({ s.chip with
         gtcLatch := KMap.put 0 (p.toNat + 1) (BitVec.ofNat 32 (dbits s.chip.gtc 63 32)) s.chip.gtcLatch }.emit
       (.hostData (leBytes 4 (dbits s.chip.gtc 31 0))))) ∧
     (Live s → s.chip.timeState ≠ TimeState.master → Ran .gtcPpsEdge s
       ((s.chip.setRg64 Reg.GTC_PPS_LO Reg.GTC_PPS_HI s.chip.gtc.toNat).sourceSignal 4 0)) ∧
     (Live s → Ran (.gtcCompare false) s s.chip ∧
       Ran (.gtcCompare true) s (s.chip.detParts.foldl Chip.breakSpan
         (s.chip.unitFault .timeBase 0 s.chip.detParts .replaced)))) ∧
  (∀ (s : State) (port : BitVec 3), Live s →
     (∀ tx, s.chip.portUp port.toNat = true →
       ((s.chip.lport port.toNat).switching = false → Ran (.timeFlitSend port tx) s (s.chip.sendFlit port.toNat
         { ack := (s.chip.lport port.toNat).rxNext + 4095, kind := 3 }
         (s.chip.timePayload s.nv.serial port.toNat tx))) ∧
       ((s.chip.lport port.toNat).switching = true → Ran (.timeFlitSend port tx) s s.chip)) ∧
     (∀ f, s.chip.portUp port.toNat = false → Ran (.timeFlitReceive port f) s s.chip) ∧
     (∀ f, let c0 := s.chip.countRx port.toNat
       let c := c0.setLport port.toNat ((c0.lport port.toNat).heard
         { kind := 3, ack := f.ack.toNat, cvc := f.cvc.toNat, credits := f.credits.toNat })
       s.chip.portUp port.toNat = true → s.chip.timeIn = [] → s.chip.timeState = TimeState.unlocked → f.hops.toNat < 63 →
       ∃ c1, Ran (.timeFlitReceive port f) s c1 ∧
         c1 = Chip.setTimeState { ((({ c with timeIn := [(port.toNat,
           { tx := f.tx, rx := f.arrival, hops := f.hops.toNat,
             masterDev := f.masterDev.toNat, serial := f.masterSerial })] } : Chip).setFld Fld.GTC_CTL_SRC_PORT 0
             port.toNat).stepCounter (BitVec.ofNat 64 (wrapN 64 (f.count.toNat + delayOf f / 256)))) with lockRun := 0 }
           TimeState.acquiring f.hops.toNat))

/-- R371, R372: GO with less than 50 µs to its instant ends with LAUNCH_LATE, and one that names no pair, or this device
itself, is malformed; a request that joins no other goes to the other end; a deadline ends what was not answered; a
role changes once its count is reached. Model's choices it rests on: assumptions 50, 52. -/
def Obligations.role_swaps : Prop :=
  ∀ (s : State),
    (∀ p : BitVec 4, HostUp s → s.chip.exists? p.toNat = true →
      let at_ := s.chip.rg64 (Reg.AXL_PSWAP_AT_LO + pg p.toNat) (Reg.AXL_PSWAP_AT_HI + pg p.toNat)
      let w : Swap := { timeRole := false, part := p.toNat, own := true, count := s.chip.gtc.toNat, at_ := at_,
                        serial := s.chip.serial, dev := (s.chip.part p.toNat).pairDev,
                        peerPart := (s.chip.part p.toNat).pairPart }
      s.chip.flag Fld.AXL_PSWAP_CTL_BUSY (pg p.toNat) = false →
      (at_ < s.chip.gtc.toNat + 50000 → Ran (.pswapGo p) s (s.chip.swapEnds w St.launchLate)) ∧
      (s.chip.gtc.toNat + 50000 ≤ at_ → (s.chip.part p.toNat).pairEn = false →
        Ran (.pswapGo p) s (s.chip.swapEnds w St.malformed)) ∧
      (s.chip.gtc.toNat + 50000 ≤ at_ → (s.chip.part p.toNat).pairEn = true →
        Ran (.pswapGo p) s (((s.chip.setFld Fld.AXL_PSWAP_CTL_BUSY (pg p.toNat) 1).swapJoins w).swapSend w))) ∧
    (HostUp s →
      let at_ := s.chip.rg64 Reg.AXL_TSWAP_AT_LO Reg.AXL_TSWAP_AT_HI
      let w : Swap := { timeRole := true, part := 0, own := true, count := s.chip.gtc.toNat, at_ := at_,
                        serial := s.chip.serial, dev := s.chip.fld Fld.AXL_TSWAP_CTL_PEER, peerPart := 0 }
      s.chip.flag Fld.AXL_TSWAP_CTL_BUSY = false →
      (at_ < s.chip.gtc.toNat + 50000 → Ran .tswapGo s (s.chip.swapEnds w St.launchLate)) ∧
      (s.chip.gtc.toNat + 50000 ≤ at_ → s.chip.fld Fld.AXL_TSWAP_CTL_PEER ≠ s.chip.fld Fld.AXL_DEVICE_DEVNUM →
        Ran .tswapGo s (((s.chip.setFld Fld.AXL_TSWAP_CTL_BUSY 0 1).swapJoins w).swapSend w)) ∧
      (s.chip.gtc.toNat + 50000 ≤ at_ → s.chip.fld Fld.AXL_TSWAP_CTL_PEER = s.chip.fld Fld.AXL_DEVICE_DEVNUM →
        Ran .tswapGo s (s.chip.swapEnds w St.malformed))) ∧
    (∀ a : SwapArgs, Live s → a.request = true →
      Ran (.swapMessage a) s ((s.chip.dropMsg a.port.toNat (s.chip.vcFor a.part.toNat Vc.req)
        (·.op == MOp.swapReq)).swapJoins
        { timeRole := a.timeRole, part := a.part.toNat, own := false,
          count := a.count.toNat, at_ := a.at_.toNat, serial := a.serial.toNat, dev := a.srcDev.toNat,
          peerPart := a.srcPart.toNat })) ∧
    (∀ w : Swap, Live s → s.chip.swaps = [w] → w.own = true → w.granted = false →
      w.at_ ≤ s.chip.gtc.toNat + 10000 →
      Ran .swapDeadline s (({ s.chip with swaps := [] } : Chip).swapEnds w St.linkUnreachable)) ∧
    (∀ w : Swap, Live s → s.chip.swaps = [w] → w.granted = true → w.timeRole = false →
      w.at_ ≤ s.chip.gtc.toNat →
      let x := s.chip.part w.part
      Ran .roleChange s ((({ s.chip with swaps := [] } : Chip).setPart w.part { x with pairLead := !x.pairLead }).setFld
        Fld.AXL_PSWAP_CTL_LEAD w.page (b2n (!x.pairLead))))

/-- R345 to R347, R473: the states of a port. A state entered is the one AXL_PORT_STATUS shows. MODE 3 is logged, MODE 0
turns a port OFF, another MODE trains one that is OFF, and a write that meets the fields a port that is on
locks is logged (R11); when training ends this end has sent its mode, device number, serial and CRYPT setting, and the port is UP, or
REFUSED where the ends do not agree, or, at its time, DOWN; DOWN and REFUSED train again. R348, R349: a lane with no
more errors in the millisecond than SPARE_THRESH allows is no fault; the spare stands in for the first lane that
faults, which is counted, recovered and posted, and flits resume once the switch-over is done; another lane then sends
the port to FAILED, and a lane that is out for test stays replaced; a lane is loaned with the spare unused alone. Model's choices it rests on: assumption 56. -/
def Obligations.ports : Prop :=
  ((∀ (c : Chip) (n st : Nat), n < 8 → st < 6 → (c.setPortState n st).portState n = st) ∧
   (∀ (s : State) (port : BitVec 3),
     let n := port.toNat
     let st := s.chip.portState n
     (HostUp s → s.chip.hasPort n = true →
       let c := if s.chip.fld Fld.AXL_PORT_CTL_MODE (po n) = 0 then s.chip else s.chip.regError (Reg.AXL_PORT_CTL + po n)
       Ran (.portModeWrite port 3) s (s.chip.regError (Reg.AXL_PORT_CTL + po n)) ∧
       (s.chip.portUp n = false →
         Ran (.portModeWrite port 0) s ((c.setFld Fld.AXL_PORT_CTL_MODE (po n) 0).setPortState n PortSt.off)) ∧
       (∀ m : BitVec 2, (m = 1 ∨ m = 2) → st = PortSt.off → s.chip.mgt.axlPhy = true →
         Ran (.portModeWrite port m) s
           ((c.setFld Fld.AXL_PORT_CTL_MODE (po n) m.toNat).setPortState n PortSt.training))) ∧
     (∀ w, Live s → st = PortSt.training → s.chip.firmwareRuns = true →
       let sent : Chip := s.chip.emit (.training n (s.chip.fld Fld.AXL_PORT_CTL_MODE (po n))
         (s.chip.fld Fld.AXL_DEVICE_DEVNUM) (s.chip.rg64 Reg.AXL_SERIAL_LO Reg.AXL_SERIAL_HI)
         (s.chip.flag Fld.AXL_PORT_CTL_CRYPT (po n)))
       (s.chip.trainRefused n w = true → Ran (.portTrainingDone port w) s (sent.setPortState n PortSt.refused)) ∧
       (s.chip.trainRefused n w = false → w.crypt = true → w.authentic = false → Ran (.portTrainingDone port w) s
         (((((sent.shakeHands s.nv.uds n).count Fld.SEC_LINK_AUTH_FAIL_COUNT).postEvent 0 0x0071 0
           (2 ^ 8 * n)).raiseOwner 4).setPortState n PortSt.refused)) ∧
       (s.chip.trainRefused n w = false → w.crypt = true → w.authentic = true →
         Ran (.portTrainingDone port w) s ((sent.shakeHands s.nv.uds n).portGoesUp n w)) ∧
       (s.chip.trainRefused n w = false → w.crypt = false → Ran (.portTrainingDone port w) s (sent.portGoesUp n w))) ∧
     (Live s →
       (st = PortSt.training → Ran (.portTrainingTimeout port) s (s.chip.setPortState n PortSt.down)) ∧
       (st = PortSt.down → Ran (.portRetrainTimer port) s (s.chip.setPortState n PortSt.training)) ∧
       (st = PortSt.refused → Ran (.farEndChange port) s (s.chip.setPortState n PortSt.training)) ∧
       (s.chip.portUp n = true → Ran (.portDown port) s
         ((((((s.chip.perturbLink n).setPortState n PortSt.down).setLport n {}).timeSourceLost n).failRequests
           n).dropUnreachable.unitFault .port n (s.chip.slotOwners n) .bypassed)) ∧
       (s.chip.portUp n = false → Ran (.portDown port) s s.chip)))) ∧
  (∀ (s : State) (port : BitVec 3) (lane : BitVec 4),
     let n := port.toNat
     (Live s → ∀ k : Word, k.toNat ≤ s.chip.fld Fld.AXL_PORT_CTL_SPARE_THRESH (po n) * 1024 →
       Ran (.laneFault port ⟨lane, some k⟩) s s.chip) ∧
     (∀ e : Option Word, Live s → s.chip.portUp n = true → lane.toNat < 8 →
       (e = none ∨ ∃ k, e = some k ∧ s.chip.fld Fld.AXL_PORT_CTL_SPARE_THRESH (po n) * 1024 < k.toNat) →
       (s.chip.flag Fld.AXL_PORT_STATUS_SPARE_USED (po n) = false →
         Ran (.laneFault port ⟨lane, e⟩) s (((((s.chip.spareIn n lane.toNat).count Fld.AXL_SPARE_CNT_COUNT (po n)).unitFault
           .lane lane.toNat (s.chip.slotOwners n) .replaced)).postLink 0 0x0031 0 (lane.toNat + 2 ^ 8 * n))) ∧
       (s.chip.flag Fld.AXL_PORT_STATUS_SPARE_USED (po n) = true →
         (s.chip.fld Fld.AXL_PORT_STATUS_SPARED_LANE (po n) ≠ lane.toNat →
           Ran (.laneFault port ⟨lane, e⟩) s (s.chip.leaveUp n PortSt.failed)) ∧
         (s.chip.fld Fld.AXL_PORT_STATUS_SPARED_LANE (po n) = lane.toNat →
           (s.chip.flag Fld.AXL_PORT_STATUS_LOANED (po n) = false → Ran (.laneFault port ⟨lane, e⟩) s s.chip) ∧
           (s.chip.flag Fld.AXL_PORT_STATUS_LOANED (po n) = true → Ran (.laneFault port ⟨lane, e⟩) s
             ((s.chip.setFld Fld.AXL_PORT_STATUS_LOANED (po n) 0).unitFault .lane lane.toNat [] .replaced))))) ∧
     (Live s → (s.chip.lport n).switching = false → Ran (.laneSwitchoverDone port) s s.chip) ∧
     (Live s → (s.chip.lport n).switching = true → (s.chip.lport n).retry = [] → s.chip.slotOwners n = [] →
       Ran (.laneSwitchoverDone port) s (s.chip.setLport n { s.chip.lport n with switching := false })) ∧
     (HostUp s → s.chip.hasPort n = true → ∀ failed,
       let c := if s.chip.fld Fld.AXL_PORT_CTL_MODE (po n) = 0 then s.chip else s.chip.regError (Reg.AXL_PORT_CTL + po n)
       (s.chip.flag Fld.AXL_PORT_STATUS_SPARE_USED (po n) = true →
         Ran (.laneLoan port true lane failed) s (c.regError (Reg.AXL_PORT_CTL + po n))) ∧
       (s.chip.flag Fld.AXL_PORT_STATUS_SPARE_USED (po n) = false → lane.toNat < 8 → s.chip.portUp n = true →
         Ran (.laneLoan port true lane failed) s
           ((((c.setFld Fld.AXL_PORT_CTL_LOAN (po n) 1).setFld Fld.AXL_PORT_CTL_LOAN_LANE (po n)
             lane.toNat).spareIn n lane.toNat).setFld Fld.AXL_PORT_STATUS_LOANED (po n) 1)) ∧
       (s.chip.flag Fld.AXL_PORT_STATUS_LOANED (po n) = false →
         Ran (.laneLoan port false lane failed) s (c.setFld Fld.AXL_PORT_CTL_LOAN (po n) 0))))

/-- R351, R352, R355, R474: a flit that does not open is dropped and counted; a NORMAL one in order is taken, one
received already only counted, any other dropped; IDLE and RETRY flits acknowledge and return credits, and a RETRY
resends. A flit time
sends the RETRY owed, then what is to be resent, then a new flit. R358, R359, R362: a request received is served at
this device and answered on its port; a response completes the request that waits for it, and one that none waits for
is dropped. Model's choices it rests on: assumptions 52, 53, 54. -/
def Obligations.link_traffic : Prop :=
  (∀ (s : State) (port : BitVec 3) (flit : List Byte) (ce : Half) (count : Dword), Live s →
     s.chip.portUp port.toNat = true → s.chip.flag Fld.AXL_PORT_CTL_CRYPT (po port.toNat) = false →
     let n := port.toNat
     let c1 := (s.chip.count Fld.AXL_FEC_CE_COUNT (po n) ce.toNat).countRx n
     let x := c1.lport n
     (∀ lost, (lost = true ∨ flitParse flit = none) →
       Ran (.flitReceive port flit lost ce count) s (c1.dropFlit n) ∧
       Ran (.retryFlitReceive port flit lost) s ((s.chip.countRx n).dropFlit n)) ∧
     (∀ hn slots, flitParse flit = some (hn, slots) →
       let h := FlitHdr.ofNum hn
       (h.kind = 1 → Ran (.flitReceive port flit false ce count) s (c1.setLport n ((x.acked h.ack).credited h))) ∧
       (h.kind = 0 → h.seq = x.rxNext →
         Ran (.flitReceive port flit false ce count) s (c1.normalFlit n h slots count.toNat)) ∧
       (h.kind = 0 → h.seq ≠ x.rxNext → (x.rxNext + 4096 - h.seq) % 4096 ≤ 2048 →
         Ran (.flitReceive port flit false ce count) s (c1.count Fld.AXL_CRC_ERR_COUNT (po n))) ∧
       (h.kind = 0 → h.seq ≠ x.rxNext → 2048 < (x.rxNext + 4096 - h.seq) % 4096 →
         Ran (.flitReceive port flit false ce count) s (c1.dropFlit n)) ∧
       (h.kind = 2 → Ran (.retryFlitReceive port flit false) s
         (((s.chip.countRx n).setLport n ((((s.chip.countRx n).lport n).acked h.ack).credited h)).resend n))) ∧
     ((s.chip.lport n).retry = [] → Ran (.retryTimeout port) s s.chip) ∧
     ((s.chip.lport n).retry ≠ [] → (∀ f ∈ (s.chip.lport n).retry, f.resends < 10) → s.chip.slotOwners n = [] →
       Ran (.retryTimeout port) s ((s.chip.setLport n { s.chip.lport n with
         again := (s.chip.lport n).retry.map fun f => f.hdr.seq }).count Fld.AXL_RETRY_CNT_COUNT (po n))) ∧
     ((s.chip.lport n).switching = true → Ran (.flitTime port) s s.chip) ∧
     ((s.chip.lport n).switching = false → (s.chip.lport n).oweRetry = true →
       Ran (.flitTime port) s ((s.chip.setLport n { s.chip.lport n with oweRetry := false }).sendFlit n
         { ack := (s.chip.lport n).rxNext + 4095, kind := 2 } [])) ∧
     ((s.chip.lport n).switching = false → (s.chip.lport n).oweRetry = false → (s.chip.lport n).again = [] →
       (s.chip.lport n).retry.length < 1024 → Ran (.flitTime port) s (s.chip.newFlit n))) ∧
  (∀ (s : State) (port : BitVec 3), Live s →
     let n := port.toNat
     (∀ m c1, s.chip.takeMsg n Vc.req (fun m => decide (m.op ≤ 3)) = some (m, c1) → m.vc = Vc.req →
       Ran (.inboundRequest port false) s ((c1.serve m).1.sendMsg n
         ((c1.serve m).1.responseMsg m (c1.serve m).2.1 (c1.serve m).2.2))) ∧
     (s.chip.takeMsg n Vc.req (fun m => decide (m.op ≤ 3)) = none → Ran (.inboundRequest port false) s s.chip) ∧
     (∀ m c1, s.chip.takeMsg n Vc.rsp (fun m => decide (8 ≤ m.op)) = some (m, c1) → m.vc = Vc.rsp →
       let f (r : Req) : Bool := !r.host && r.tag == m.tag && r.port == n && r.dev == m.srcDev
       (c1.reqs.find? f = none → Ran (.remoteResponse (some port) false) s c1) ∧
       (∀ r k, c1.reqs.find? f = some r → r.kind = .read k → Ran (.remoteResponse (some port) false) s
         (c1.respond r (BitVec.ofNat 16 m.status) ((slotBytes m.data).take 128))) ∧
       (∀ r bs, c1.reqs.find? f = some r → r.kind = .write bs → Ran (.remoteResponse (some port) false) s
         (c1.respond r (BitVec.ofNat 16 m.status) []))) ∧
     (∀ r st bs det, s.chip.pump.reqs.find? (fun r => r.answer.isSome) = some r → r.answer = some (st, bs) →
       Ran (.remoteResponse none det) s (s.chip.pump.respond r st bs)))

/-- R351 to R353, R474: what a device puts into a flit, another takes out of it: the header and the fifteen slots of a
flit, and the fields of a message from its header slot; and the fourteen slots of a protected flit open to what they
were, with the tag that was sealed and with no other. Model's choices it rests on: assumptions 53, 57, 58. -/
def Obligations.link_round_trip : Prop :=
  (∀ (h : Nat) (slots : List Nat), h < 2 ^ 64 → slots.length = 15 → (∀ x ∈ slots, x < 2 ^ 128) →
    flitParse (flitBytes h slots) = some (h, slots)) ∧
  (∀ h : FlitHdr, h.seq < 4096 → h.ack < 4096 → h.kind < 4 → h.cvc < 4 → h.credits < 4096 → h.first < 16 →
    FlitHdr.ofNum h.num = h ∧ h.num < 2 ^ 44) ∧
  (∀ m : Msg, m.vc < 4 → m.op < 16 → m.srcDev < 64 → m.srcPart < 16 → m.dstDev < 64 → m.dstPart < 16 →
    m.tag < 2 ^ 13 → m.data.length < 16 → m.addr < 2 ^ 39 → m.atom < 32 → m.status < 2 ^ 16 →
    Msg.ofSlots m.header m.data m.at_ = m ∧ headerSlots m.header = m.data.length ∧ m.header < 2 ^ 128) ∧
  (∀ (g : Gcm) (h : Nat) (slots : List Nat), g.stream.length = 15 → (∀ b ∈ g.stream, b < 2 ^ 128) →
    slots.length = 14 → (∀ x ∈ slots, x < 2 ^ 128) →
    gcmOpen g h (gcmSeal g h slots) = some slots ∧
    ∀ t, t ≠ g.tagSlot h (g.mix slots) → gcmOpen g h (g.mix slots ++ [t]) = none)

/-- R508: a BAR4 read of a READY partition inside its memory returns its bytes, and a write stores them; before boot step
31 a read returns zeros; an access outside the partition's memory, or of a partition that is not READY, is counted,
and its read returns ones. R509: the completion of an outstanding host request answers it: with OK where it succeeds
and its data has the length asked for, with POISONED where EP is set, with PERMISSION_FAULT otherwise, a timeout
included; the answer to a translation request sends the read at the translated address. An ATS invalidation takes the
pages it names out of the cache, and is acknowledged at once where no request that uses one of them is outstanding,
and else waits for those. R87, R502,
R504, R510, R511: unmasking a vector, a configuration write that the function supports, VF Enable, a Hot Reset, and
FLR of a virtual function. Model's choices it rests on: assumptions 119, 120, 121, 142. -/
def Obligations.host_interface : Prop :=
  (∀ (s : State) (fn : BitVec 4) (off : Dword), Live s → s.chip.fnEnabled fn.toNat = true →
     off.toNat < 2 ^ s.chip.bar4Log fn.toNat →
     let a := s.chip.bar4Base fn.toNat + off.toNat
     (s.chip.booted = false → ∀ n, Ran (.bar4Access fn off none n) s
       (s.chip.emit (.hostData (List.replicate n.toNat 0)))) ∧
     (s.chip.booted = true → s.chip.fld Fld.PWR_DEVSTATE_STATE = 0 → (s.chip.part fn.toNat).state = .ready →
       s.chip.mgt.op = none →
       (∀ n b, s.chip.readPP fn.toNat a n.toNat = .ok b →
         Ran (.bar4Access fn off none n) s (s.chip.emit (.hostData b))) ∧
       (∀ n b c, s.chip.writePP fn.toNat a b = .ok c → Ran (.bar4Access fn off (some b) n) s c)) ∧
     (s.chip.booted = true → s.chip.fld Fld.PWR_DEVSTATE_STATE = 0 → (s.chip.part fn.toNat).state ≠ .ready →
       ∀ n, Ran (.bar4Access fn off none n) s
         ((s.chip.count Fld.PCI_BAR4_ERR_COUNT (steer fn.toNat)).emit (.hostData (List.replicate n.toNat 0xFF)))) ∧
     (s.chip.booted = true → s.chip.fld Fld.PWR_DEVSTATE_STATE = 0 →
       (∀ n : Half, (s.chip.part fn.toNat).locs a n.toNat = none → Ran (.bar4Access fn off none n) s
         ((s.chip.count Fld.PCI_BAR4_ERR_COUNT (steer fn.toNat)).emit (.hostData (List.replicate n.toNat 0xFF)))) ∧
       (∀ b n, (s.chip.part fn.toNat).locs a b.length = none → Ran (.bar4Access fn off (some b) n) s
         (s.chip.count Fld.PCI_BAR4_ERR_COUNT (steer fn.toNat))))) ∧
  (∀ (s : State), Live s →
     (∀ (tag : Half) (r : Req), (s.chip.reqs.find? fun x => x.sent && x.host && x.tag == tag.toNat) = some r →
       (∀ b n, r.kind = .read n →
         (r.asks = false → b.length = n → Ran (.hostCompletion tag 0 b) s (s.chip.respond r St.ok b)) ∧
         (r.asks = true → b.length = 8 → let a := leNat b / 4096
           Ran (.hostCompletion tag 0 b) s (({ s.chip.unhold r with
             pcie := s.chip.pcie.learn r.part (r.addr / 4096) a } : Chip).sendHost
               { r with asks := false, xlat := some (4096 * a + r.addr % 4096) }))) ∧
       (∀ b, Ran (.hostCompletion tag 2 b) s (s.chip.respond r St.poisoned b)) ∧
       (∀ b, Ran (.hostCompletion tag 1 b) s (s.chip.respond r St.permissionFault b)) ∧
       Ran (.pcieCompletionTimeout tag) s (s.chip.respond r St.permissionFault [])) ∧
     (∀ (fn : BitVec 4) (tag : Byte) (page pages : BitVec 52), s.chip.fnEnabled fn.toNat = true →
       let out (x : Nat) : Bool := decide (page.toNat ≤ x) && decide (x < page.toNat + pages.toNat)
       let c : Chip := { s.chip with pcie := { s.chip.pcie with
         atc := s.chip.pcie.atc.filter fun e => !(e.1 == fn.toNat && out e.2.1) } }
       let using_ := s.chip.reqs.filter fun r =>
         r.sent && r.host && r.part == fn.toNat && r.xlat.isSome && out (r.addr / 4096)
       (using_ = [] → Ran (.atsInvalidate fn ⟨tag, page, pages⟩) s
         ((c.emit (.atsDone tag.toNat)).count Fld.PCI_ATS_INV_CNT_COUNT)) ∧
       (using_ ≠ [] → Ran (.atsInvalidate fn ⟨tag, page, pages⟩) s
         { c with pcie := { c.pcie with invals := c.pcie.invals ++ [(tag.toNat, using_.map Req.tag)] } }))) ∧
  (∀ (s : State), Live s →
     (∀ (fn : BitVec 4) (v : BitVec 11), s.chip.fnEnabled fn.toNat = true → v.toNat < vectors fn.toNat →
       let k := fn.toNat * 2048 + v.toNat
       Ran (.msixUnmask fn v) s ({ s.chip with
         msix := KMap.set k { KMap.getD s.chip.msix k {} with masked := false } s.chip.msix }.sendPending fn.toNat)) ∧
     (∀ (fn : BitVec 4) (i : CfgItem) (v : Word), s.chip.fnEnabled fn.toNat = true → cfgValid i v.toNat = true →
       (cfgPhysical i = true → fn = 0) →
       Ran (.configSpaceWrite fn i v) s ({ s.chip with pcie := s.chip.pcie.write fn.toNat i v.toNat }.sendPending
         fn.toNat)) ∧
     (∀ n : BitVec 4, s.chip.fnEnabled 0 = true → s.chip.pcie.vfEnable = false →
       Ran (.vfEnableChange true n) s { s.chip with pcie := { s.chip.pcie with vfEnable := true, numVfs := n.toNat } }) ∧
     (s.chip.perst = false →
       Ran (.hotReset false none) s (((({ s.chip with msix := [], pcie := {} } : Chip).setSpdm 0).setFld Fld.PCI_LINK_UP 0
         0).setFld Fld.PCI_LINK_SPEED 0 0 |>.setFld Fld.PCI_LINK_WIDTH 0 0)) ∧
     (∀ p : BitVec 4, p ≠ 0 → s.chip.fnEnabled p.toNat = true →
       Ran (.flr p) s ((s.chip.resetFn p.toNat).startReset p.toNat false)))

/-! ## Partitions and power (R30 to R34, R53, R116, R405 to R430, R446 to R449) -/

/-- R30 to R34, R53, R532: a PARTITION_CTL reads its configuration block once no way is changing. A deterministic CREATE
that nothing here stands against asks the link partners for its slots. Where nothing stands against it, it writes the
RESULT word and takes effect; RESET and DESTROY begin the reset and wait for its end.
Otherwise it ends with its reason in RESULT. Model's choices it rests on: assumptions 60, 130, 131, 132, 133, 134. -/
def Obligations.partition_control : Prop :=
  ∀ (s : State) (slot : BitVec 6) (e : Entry) (b : List Byte), Live s →
    Holds s.chip 0 slot.toNat Op.partitionCtl e → s.chip.flag Fld.SC_STATUS_BUSY = false →
    s.chip.readVA (s.chip.actor 0 slot.toNat) e.desc.p1.toNat 64 = .ok b →
    let f := PConf.ofBytes b
    let c := s.chip
    let stops (i : Instr) (r : Nat) : Prop := r ≠ Reason.ok → Ran i s (c.endCtl slot.toNat e f.part r)
    (e.desc.p0 = 0 → ∀ refused,
      let asked := if f.det = true ∧ c.createReason f 0 = Reason.ok then c.askSlots f else c
      (c.createReason f refused ≠ Reason.ok →
        Ran (.partitionCreate slot refused) s (asked.endCtl slot.toNat e f.part (c.createReason f refused))) ∧
      (∀ c1, c.createReason f refused = Reason.ok →
        asked.putReason slot.toNat e (leBytes 4 (2 ^ 16 * (if f.det then f.pcgs else 0))) = .ok c1 →
        Ran (.partitionCreate slot refused) s ((c1.create f).finishOk 0 slot.toNat))) ∧
    (e.desc.p0 = 1 →
      stops (.partitionSeal slot) (c.plainReason f [.opened] true) ∧
      (∀ err asid va, c.plainReason f [.opened] true = Reason.ok →
        c.sealWalk f.part = .error (.invalid err asid va) → Ran (.partitionSeal slot) s
          ((c.capture f.part err FaultUnit.sealWalk asid va e.desc.tag.toNat).endCtl slot.toNat e f.part
            Reason.tableInvalid)) ∧
      (∀ a c1, c.plainReason f [.opened] true = Reason.ok → c.sealWalk f.part = .ok a →
        c.putReason slot.toNat e (c.resultWord f.part Reason.ok) = .ok c1 →
        Ran (.partitionSeal slot) s ((c1.sealPart f.part a).finishOk 0 slot.toNat))) ∧
    (e.desc.p0 = 2 →
      stops (.partitionResize slot) (c.resizeReason f) ∧
      (∀ c1, c.resizeReason f = Reason.ok → c.putReason slot.toNat e (c.resultWord f.part Reason.ok) = .ok c1 →
        Ran (.partitionResize slot) s ((c1.resize f).finishOk 0 slot.toNat))) ∧
    (e.desc.p0 = 3 →
      stops (.partitionCtlReset slot) (c.plainReason f [.opened, .ready, .resetting] false) ∧
      (c.plainReason f [.opened, .ready, .resetting] false = Reason.ok →
        Ran (.partitionCtlReset slot) s ((c.startReset f.part false).awaitReset slot.toNat e f.part))) ∧
    (e.desc.p0 = 4 →
      stops (.partitionDestroy slot) (c.plainReason f [.opened, .ready, .resetting] false) ∧
      (c.plainReason f [.opened, .ready, .resetting] false = Reason.ok → (c.part f.part).state ≠ .resetting →
        Ran (.partitionDestroy slot) s ((c.startReset f.part true).awaitReset slot.toNat e f.part)))

/-- R446 to R448: a reset removes every command of the partition, at once where none of its transfers is moving and else
when their time is over, and erases it; at its end it is reported and the partition leaves it. R33, R55: a partition
that enters a state is in it, PART_STATUS shows its code, and no other partition changes. A reset of an OPEN or READY
partition makes it RESETTING, or DESTROYING for a DESTROY. Model's choices it rests on: assumptions 136, 137, 138,
139. -/
def Obligations.partition_resets : Prop :=
  (∀ (s : State) (p : BitVec 4), Live s → s.chip.inReset p.toNat = true →
     let gone (c : Chip) : Prop := (c.part p.toNat).resetStage = 2 ∧ (c.part p.toNat).runList = [] ∧
       ∀ kq ∈ c.queues, partOf kq.1 ≠ p.toNat
     ((s.chip.part p.toNat).resetStage = 0 →
       (∀ q slot e, partOf q = p.toNat → s.chip.stillMoving q slot e = false) →
       ∃ c, Ran (.partitionReset p) s c ∧ gone c) ∧
     ((s.chip.part p.toNat).resetStage = 1 → ∃ c, Ran (.transferStopTimeout p) s c ∧ gone c) ∧
     ((s.chip.part p.toNat).resetStage = 2 →
       Ran (.partitionResetDone p) s
         ((((s.chip.setPart p.toNat { s.chip.part p.toNat with resets := (s.chip.part p.toNat).resets + 1 }).writeReport
           p.toNat).leaveReset p.toNat).releaseCtl p.toNat (s.chip.part p.toNat).ctlWaiters))) ∧
  (∀ (c : Chip) (p : Nat) (st : PState),
     ((c.setPartState p st).part p).state = st ∧ (∀ o, o ≠ p → (c.setPartState p st).part o = c.part o) ∧
     ∀ destroy, ((c.part p).state = .opened ∨ (c.part p).state = .ready) →
       ((c.startReset p destroy).part p).state = (if destroy then .destroying else .resetting) ∧
       ((c.startReset p destroy).part p).resetFrom = c.gtc)

/-- R405 to R411, R418 to R420: a period in which no clock stops records its reasons and its energies and, unless it ends
late, splits the cap; a late one is counted. R234, R251: a stack's period ends with its external and its scan power
shown in units of 0.25 W, rounding down. R407, R411: the shares stay within the ceilings, the floors and the cap,
and the drip within 0 to 63, with a step of at most 16. R406, R417: while THROTTLE_N is asserted the effective cap is
at most PWR_EXT_CAP; its release restores it. R416: a sample at 10 degrees above Tj,max stops every clock and latches
THERMAL. Model's choices it rests on: assumptions 76, 77, 78. -/
def Obligations.power_loop : Prop :=
  ((∀ (s : State) (w : PowerSample), Live s → w.temps = [] → s.chip.hotSensors 2 = [] →
     let rs := s.chip.reasonParts w
     let c3 := ((rs.zipIdx.foldl (fun c r => c.recordReason r.2 r.1) s.chip).setFld Fld.PWR_THR_ACTIVE_REASONS 0
       (activeMask rs)).countDrip
     let c4 := ((c3.showMeasured w).attribute w).refreshCap
     let done (c : Chip) : Chip :=
       { c with pwr := { c.pwr with slope := 0, seen := [], droopHit := !c.pwr.stretched.isEmpty,
                                    droop := maskOf (c.pwr.stretched.flatMap c.groupParts) } }
     (w.late = true → Ran (.powerPeriod w) s (done ((c4.count Fld.PWR_STATUS_LATE).endStacks w))) ∧
     (w.late = false → Ran (.powerPeriod w) s (done ((c4.powerDecide w (c4.throttledBy rs)).endStacks w)))) ∧
   (∀ (c : Chip) (k ext : Nat), k < 6 → let y := KMap.getD c.stackPow k {}
     (c.endStack k ext).fld Fld.CTX_STK_POWER_EXT (steer k) = min 255 (ext / 25000) ∧
     (c.endStack k ext).fld Fld.CTX_STK_POWER_SCAN (steer k) = min 255 (y.scan / 3000000) ∧
     (KMap.getD (c.endStack k ext).stackPow k {}).scan = 0 ∧
     ∀ j, j ≠ k → KMap.getD (c.endStack k ext).stackPow j {} = KMap.getD c.stackPow j {}) ∧
   (∀ cap c0 c1 c2 f0 f1 f2 m0 m1 m2 : Nat, ∀ t : List Bool,
     ∀ o ∈ [[0, 1, 2], [0, 2, 1], [1, 0, 2], [1, 2, 0], [2, 0, 1], [2, 1, 0]], t.length = 3 →
     f0 + f1 + f2 + 40000 ≤ cap →
     let a := splitCap cap [c0, c1, c2] [f0, f1, f2] o [m0, m1, m2] t
     a.getD 0 0 ≤ c0 ∧ a.getD 1 0 ≤ c1 ∧ a.getD 2 0 ≤ c2 ∧
     min f0 c0 ≤ a.getD 0 0 ∧ min f1 c1 ≤ a.getD 1 0 ∧ min f2 c2 ≤ a.getD 2 0 ∧
     a.getD 0 0 + a.getD 1 0 + a.getD 2 0 + 40000 ≤ cap ∧
     (c0 + c1 + c2 + 40000 ≤ cap → a = [c0, c1, c2])) ∧
   (∀ d pc pe alloc : Nat, d ≤ 63 → nextDrip d pc pe alloc ≤ 63 ∧
     (pc ≤ alloc → nextDrip d pc pe alloc ≤ d) ∧ (alloc < pc → d ≤ nextDrip d pc pe alloc) ∧
     nextDrip d pc pe alloc ≤ d + 16 ∧ d ≤ nextDrip d pc pe alloc + 16)) ∧
  (∀ (s : State), Live s →
     (∃ c, Ran .throttleNAssert s c ∧ c.pwr.ext = true ∧ 8 ∈ c.pwr.seen ∧ c.effectiveCap ≤ c.fld Fld.PWR_EXT_CAP_CAP_W ∧
       c.fld Fld.PWR_EFFECTIVE_EFF_CAP = c.effectiveCap % 2 ^ 10 ∧ c.effectiveCap ≤ s.chip.effectiveCap) ∧
     (∃ c, Ran .throttleNRelease s c ∧ c.pwr.ext = false ∧ s.chip.effectiveCap ≤ c.effectiveCap) ∧
     (∀ (w : PowerSample) (t : BitVec 10), w.temps = [t] → s.chip.tjMax 0 + 40 ≤ signed 10 t.toNat →
       ∃ c, Ran (.powerPeriod w) s c ∧ c.stopped = true ∧ c.thermLevel 0 = 2 ∧ c.mem = s.chip.mem))

/-- R413 to R415: the activity of an elastic partition's cluster changes by at most 4/64 a window, and what was cut or
filled is a reason of its partition; a deterministic one's is only counted. A droop stretches the group's clock until
its end. R421, R422: a member of a power group measures, reports and keeps its report, takes another's, and at 100 µs
moves cap towards the member with the lowest wait, or reverts; clearing EN ends the shift. Of all members that
evaluate the same reports, the critical one is the first with the lowest wait. -/
def Obligations.slope_droop_and_shifts : Prop :=
  (∀ (s : State) (cl want : BitVec 7) (g : BitVec 4), Live s →
     let last := KMap.getD s.chip.pwr.activity cl.toNat 0
     let p := (s.chip.cluster cl.toNat).part
     ((s.chip.part p).det = false → ∃ c, Ran (.slopeWindow cl want) s c ∧
       let now := KMap.getD c.pwr.activity cl.toNat 0
       now ≤ last + 4 ∧ last ≤ now + 4 ∧ (last ≤ want.toNat + 4 → want.toNat ≤ last + 4 → now = want.toNat) ∧
       c.pwr.slope = (if now = want.toNat then s.chip.pwr.slope else s.chip.pwr.slope ||| 2 ^ p)) ∧
     ((s.chip.part p).det = true → ∃ c, Ran (.slopeWindow cl want) s c ∧
       KMap.getD c.pwr.activity cl.toNat 0 = want.toNat ∧ c.pwr.slope = s.chip.pwr.slope ∧
       ((last + 4 < want.toNat ∨ want.toNat + 4 < last) → c.fld Fld.PWR_SLOPE_VIOL_COUNT
         = min (s.chip.fld Fld.PWR_SLOPE_VIOL_COUNT + 1) (2 ^ 32 - 1))) ∧
     (∃ c, Ran (.droopDetect g) s c ∧ c.pwr.droopHit = true ∧ g.toNat ∈ c.pwr.stretched) ∧
     (∃ c, Ran (.droopRecover g) s c ∧ g.toNat ∉ c.pwr.stretched ∧
       ∀ o, o ≠ g.toNat → (o ∈ c.pwr.stretched ↔ o ∈ s.chip.pwr.stretched))) ∧
  ((∀ (s : State), Live s →
     (∀ t : Word, s.chip.flag Fld.PWR_SHIFT_CTL_EN = true →
       let wait := min 1023 (1024 * t.toNat / 1000000)
       let r := s.chip.shiftReport wait (s.chip.gtc.toNat / 1000000 - 1) s.chip.pwr.revertNext
       let c := (s.chip.setFld Fld.PWR_SHIFT_STATUS_WAIT 0 wait).sendReport r
       Ran (.shiftReportSend t) s { c with pwr := { c.pwr with revertNext := false } }) ∧
     (∀ port dev slot, ∃ c, Ran (.shiftReportReceive port dev slot) s c ∧
       KMap.find dev.toNat c.pwr.reports = some slot.toNat ∧
       ∀ d, d ≠ dev.toNat → KMap.find d c.pwr.reports = KMap.find d s.chip.pwr.reports) ∧
     (s.chip.flag Fld.PWR_SHIFT_CTL_EN = true →
       let own := s.chip.fld Fld.AXL_DEVICE_DEVNUM
       let w := bits (KMap.getD s.chip.pwr.reports own 0) 63 48
       (∀ d, s.chip.shiftMembers.contains d = true → s.chip.badReport w d = true →
         Ran .shiftEvaluate s ((({ s.chip.setShift 0 with pwr := { s.chip.pwr with revertNext := true } } : Chip).setFld
           Fld.PWR_SHIFT_STATUS_REVERTED 0 1).postPower 0x0053 w)) ∧
       (∀ d, s.chip.shiftMembers = [own, d] → own < d → s.chip.badReport w own = false → s.chip.badReport w d = false →
         let rep (d : Nat) : Nat := KMap.getD s.chip.pwr.reports d 0
         let n := s.chip.fld Fld.PWR_SHIFT_CTL_STEP_W
         bits (rep own) 9 0 + 64 ≤ bits (rep d) 9 0 → n ≤ bits (rep d) 29 20 → 0 < n → n ≤ bits (rep own) 19 10 →
         Ran .shiftEvaluate s (s.chip.setShift (s.chip.shiftW + n)))) ∧
     (HostUp s → s.chip.flag Fld.PWR_SHIFT_CTL_EN = true →
       let c := (s.chip.setFld Fld.PWR_SHIFT_CTL_EN 0 0).setShift 0
       Ran .shiftEnClear s (c.sendReport (c.shiftReport 0 (s.chip.gtc.toNat / 1000000) true)))) ∧
   (∀ (wait : Nat → Nat) (ds : List Nat), ds ≠ [] → ds.Pairwise (· < ·) →
     criticalOf wait ds ∈ ds ∧ ∀ d ∈ ds, wait (criticalOf wait ds) ≤ wait d ∧
       (wait d = wait (criticalOf wait ds) → criticalOf wait ds ≤ d)))

/-- R424 to R427, R440: a group with no work enters decaf; an access during the entry is latched and wakes it once it has
entered; each of its clusters keeps its state under a new epoch; a group in decaf wakes, and is ACTIVE again after a
stall that PWR_WAKE_MAX keeps. R424, R425, R427: the whole device goes to decaf on PWR_DEVSTATE.REQ, once every begun
descriptor has drained, and comes back when it wakes; a REQ that it cannot take is logged. R116: the interference of
a window of an elastic partition. Model's choices it rests on: assumptions 79, 80. -/
def Obligations.decaf : Prop :=
  (∀ (s : State) (g : BitVec 4), Live s →
     (s.chip.mayDecaf g.toNat = true → ∃ c, Ran (.groupDecafEntry g) s c ∧
       c.pwr.entering = g.toNat :: s.chip.pwr.entering ∧ c.mem = s.chip.mem) ∧
     (s.chip.pwr.entering.contains g.toNat = true → Ran (.groupWake g) s
       { s.chip with pwr := { s.chip.pwr with latched := g.toNat :: s.chip.pwr.latched } }) ∧
     (s.chip.pwr.entering.contains g.toNat = false → s.chip.groupState g.toNat = 2 →
       Ran (.groupWake g) s ((s.chip.setGroupState g.toNat 3).count Fld.PWR_WAKE_CNT_COUNT)) ∧
     (g.toNat < 12 → s.chip.pwr.entering.contains g.toNat = true → s.chip.pwr.latched.contains g.toNat = false →
       ∃ c, Ran (.decafEntryDone (some g)) s c ∧ c.groupState g.toNat = 2 ∧ c.pwr.entering.contains g.toNat = false) ∧
     (g.toNat < 12 → s.chip.pwr.entering.contains g.toNat = true → s.chip.pwr.latched.contains g.toNat = true →
       ∃ c, Ran (.decafEntryDone (some g)) s c ∧ c.groupState g.toNat = 3 ∧ c.pwr.latched.contains g.toNat = false) ∧
     (g.toNat < 12 → s.chip.groupState g.toNat = 3 → ∀ stall : Word,
       ∃ c, Ran (.decafWakeDone (some g) stall) s c ∧ c.groupState g.toNat = 0 ∧
         (c.rg Reg.PWR_WAKE_MAX).toNat = max stall.toNat (s.chip.rg Reg.PWR_WAKE_MAX).toNat) ∧
     (∀ k : Cluster, k.retain.epoch = k.epoch + 1 ∧ k.retain.restore = { k with
       epoch := k.epoch + 1, st := .inService, retained := none })) ∧
  (∀ (s : State),
     (HostUp s → s.chip.detParts = [] → s.chip.flag Fld.MGT_STATUS_BUSY = false →
       s.chip.flag Fld.LCE_PIPE_CTL_ENABLE 0 = false → s.chip.flag Fld.LCE_PIPE_CTL_ENABLE 0x100 = false →
       s.chip.fld Fld.PWR_DEVSTATE_STATE = 0 →
       Ran (.pwrDevstateWrite true) s
         ((s.chip.setFld Fld.PWR_DEVSTATE_REQ 0 1).setFld Fld.PWR_DEVSTATE_STATE 0 1)) ∧
     (HostUp s → (s.chip.detParts ≠ [] ∨ s.chip.flag Fld.MGT_STATUS_BUSY = true ∨
         s.chip.flag Fld.LCE_PIPE_CTL_ENABLE 0 = true ∨ s.chip.fld Fld.PWR_DEVSTATE_STATE = 3) →
       Ran (.pwrDevstateWrite true) s (s.chip.regError Reg.PWR_DEVSTATE)) ∧
     (HostUp s → Ran (.pwrDevstateWrite false) s ((s.chip.setFld Fld.PWR_DEVSTATE_REQ 0 0).wakeDevice)) ∧
     (Live s → s.chip.fld Fld.PWR_DEVSTATE_STATE = 1 → s.chip.queues = [] → s.chip.pwr.devLatched = false →
       ∃ c, Ran (.decafEntryDone none) s c ∧ c.fld Fld.PWR_DEVSTATE_STATE = 2 ∧
         ∀ kc ∈ c.clusters, kc.2.st ≠ .inService) ∧
     (Live s → s.chip.fld Fld.PWR_DEVSTATE_STATE = 2 →
       ∃ c, Ran .deviceWake s c ∧ c.fld Fld.PWR_DEVSTATE_STATE = 3) ∧
     (Live s → s.chip.fld Fld.PWR_DEVSTATE_STATE = 3 → s.chip.pcie.held = [] → ∀ stall,
       ∃ c, Ran (.decafWakeDone none stall) s c ∧ c.fld Fld.PWR_DEVSTATE_STATE = 0 ∧
         c.fld Fld.PWR_DEVSTATE_REQ = 0 ∧ ∀ g < 12, c.groupState g = 0) ∧
     (∀ (p : BitVec 4) (a w : Dword) (win : Half), Live s → (s.chip.part p.toNat).state ≠ .absent →
       (s.chip.part p.toNat).det = false →
       let i := if a = 0 then 0 else if a.toNat ≤ w.toNat then 0xFFFF
         else min 0xFFFF (1024 * w.toNat / (a.toNat - w.toNat))
       let c := ((s.chip.setFld Fld.INTF_IDX_INDEX (pg p.toNat) i).setFld Fld.INTF_IDX_IDLE (pg p.toNat)
         (b2n (a.toNat == 0))).setFld Fld.INTF_IDX_WINDOW (pg p.toNat) win.toNat
       (s.chip.fld Fld.INTF_THRESH_THRESHOLD (pg p.toNat) = 0 → Ran (.interferenceWindow p a w win) s c) ∧
       (0 < s.chip.fld Fld.INTF_THRESH_THRESHOLD (pg p.toNat) → s.chip.fld Fld.INTF_THRESH_THRESHOLD (pg p.toNat) < i →
         Ran (.interferenceWindow p a w win) s
           (c.postBoth p.toNat 0x0012 (p.toNat * 64) (i + 2 ^ 16 * (win.toNat % 2 ^ 16))))))

/-! ## Faults, spares and safety (R431 to R459) -/

/-- R143, R434 to R436, R439: a cluster that faults is isolated and its recovery begins; once its late writes are fenced
off, the highest-numbered healthy spare takes its identity under a new epoch; once that is prepared, the cluster is
in service again. With no spare left, the highest logical cluster is withdrawn. R442: a cluster with no item resident
lends its identity to a spare while it is tested, and takes it back; one that fails is retired. A deterministic
partition lends one only with 3.2 ms to spare. Model's choices it rests on: assumptions 81, 82, 83, 84, 85. -/
def Obligations.cluster_recovery : Prop :=
  (∀ (s : State) (cl : BitVec 7), Live s →
     let i := cl.toNat
     let k := s.chip.cluster i
     (i < s.chip.fld Fld.DET_MAP_NATURAL → k.st ≠ .isolated → s.chip.recovery i = none →
       ∃ c r, Ran (.clusterFault cl) s c ∧ (c.cluster i).st = .isolated ∧ c.recovery i = some r ∧
         r.phys = k.phys ∧ r.part = k.part ∧ r.at_ = s.chip.gtc ∧ r.fenced = false ∧ r.assigned = false) ∧
     (k.st = .isolated → Ran (.clusterFault cl) s s.chip) ∧
     (∀ (r : Recovery) (dropped : Word), s.chip.recovery i = some r → r.fenced = false →
       Ran (.epochFenceDone cl dropped) s
         ((s.chip.setRecovery { r with fenced := true }).count Fld.EPOCH_DROP_CNT_COUNT 0 dropped.toNat)) ∧
     (∀ r f, s.chip.recovery i = some r → r.fenced = true → r.assigned = false → s.chip.firmwareRuns = true →
       s.chip.freeSpares.getLast? = some f →
       Ran (.spareAssign cl) s (((((s.chip.setCluster i { k with phys := f, epoch := k.epoch + 1 }).setRecovery
         { r with assigned := true }).retirePhys r.phys)).spareGone)) ∧
     (∀ r, s.chip.recovery i = some r → r.fenced = true → r.assigned = false → s.chip.firmwareRuns = true →
       s.chip.freeSpares.getLast? = none →
       let h := s.chip.fld Fld.DET_MAP_NATURAL - 1
       let c1 := (s.chip.retirePhys r.phys).lowerMap h
       (h = i → (s.chip.part r.part).det = true →
         Ran (.spareAssign cl) s ((c1.endRecovery r .partitionReset).resetFor r.part)) ∧
       (h = i → (s.chip.part r.part).det = false →
         Ran (.spareAssign cl) s (((((c1.anywhere i).setCluster i { c1.cluster i with part := 0 }).showPart
           r.part).showPart 0).endRecovery r .withdrawn)) ∧
       (h ≠ i → Ran (.spareAssign cl) s
         ((c1.setRecovery { r with assigned := true, withdrawn := true }).takeIdentity i h))) ∧
     (∀ r, s.chip.recovery i = some r → r.assigned = true → ∃ c, Ran (.spareReady cl) s c ∧
       (c.cluster i).st = .inService ∧ (c.cluster i).crema = [] ∧ (c.cluster i).phys = k.phys ∧
       (c.cluster i).epoch = k.epoch ∧ c.recovery i = none)) ∧
  (∀ (s : State) (cl : BitVec 7), Live s →
     let k := s.chip.cluster cl.toNat
     (∀ f, s.chip.freeSpares.getLast? = some f → s.chip.flag Fld.RAS_TEST_CFG_EN = true → s.chip.firmwareRuns = true →
       cl.toNat < s.chip.fld Fld.DET_MAP_NATURAL → k.st = .inService → k.wgs = [] → s.chip.ras.tests = [] →
       ((s.chip.part k.part).det = false → Ran (.testSliceStart cl) s
         ({ s.chip.setCluster cl.toNat (k.moveTo f) with ras := { s.chip.ras with
           tests := [{ cl := cl.toNat, tested := k.phys, spare := f }] } }.count Fld.RAS_SPARES_LOANED)) ∧
       ((s.chip.part k.part).det = true → s.chip.mayLend k.part = false → Ran (.testSliceStart cl) s s.chip)) ∧
     (∀ t, s.chip.ras.tests = [t] → t.cl = cl.toNat →
       let c := ({ s.chip with ras := { s.chip.ras with tests := [] } } : Chip).setFld Fld.RAS_SPARES_LOANED 0
         (s.chip.fld Fld.RAS_SPARES_LOANED - 1)
       (k.phys = t.spare → k.st = .inService → k.wgs = [] →
         Ran (.testSliceEnd cl true) s (c.setCluster cl.toNat (k.moveTo t.tested))) ∧
       Ran (.testSliceEnd cl false) s (((c.unitFault .cluster cl.toNat [k.part] .replaced).retirePhys t.tested).spareGone)))

/-- R437, R438: the other unit faults: a group that is declared failed is degraded, for firmware that runs; a UCIe
module's traffic moves; a cached way is never used again, and a scratch way's partition is reset; a crossing is re-
centred; work that needs a shared unit finds it dead, and an error corrected in a structure without a counter of its
own is counted (R431). A die, a module, a scratch way and a crossing are logged, and
the spans that use them are broken. Model's choices it rests on: assumptions 87, 88, 89. -/
def Obligations.unit_faults : Prop :=
  ∀ (s : State), Live s →
    (∀ (stack : BitVec 3) (g : BitVec 4), s.chip.firmwareRuns = true → stack.toNat < s.chip.fld Fld.DEV_CAPS0_STACKS →
      bit (s.chip.fld Fld.CTX_STK_STATUS_DEGRADED (steer stack.toNat)) g.toNat = false →
      let ps := s.chip.holders (stack.toNat * 16 + g.toNat)
      Ran (.dieDeclaredFailed stack g) s (ps.foldl (fun c p => (c.setFld Fld.RAS_PSTATUS_DEGRADED (pg p) 1).breakSpan p)
        ((s.chip.setBit Fld.CTX_STK_STATUS_DEGRADED (steer stack.toNat) g.toNat).unitFault .stackGroup
          (stack.toNat * 16 + g.toNat) ps .bypassed))) ∧
    (∀ m : BitVec 3, Ran (.ucieModuleFault m) s (s.chip.detParts.foldl (fun c p => c.breakSpan p)
      (s.chip.unitFault .ucie m.toNat s.chip.detParts .bypassed))) ∧
    (∀ w : BitVec 4,
      (s.chip.way w.toNat = .failed → Ran (.cacheWayFault w) s s.chip) ∧
      (s.chip.way w.toNat = .cached → ∃ c, Ran (.cacheWayFault w) s c ∧ c.way w.toNat = .failed ∧
        (∀ o, o ≠ w.toNat → c.way o = s.chip.way o)) ∧
      (∀ p, s.chip.way w.toNat = .scratch p → Ran (.cacheWayFault w) s
        ((((s.chip.replaceWay p w.toNat).unitFault .way w.toNat [p] .partitionReset).breakSpan p).startReset p false))) ∧
    (∀ (index : BitVec 7) (p : BitVec 4), Ran (.crossingFault index p) s
      ((s.chip.unitFault .crossing index.toNat [p.toNat] .replaced).breakSpan p.toNat)) ∧
    (∀ (kind : BitVec 4) (index : BitVec 5) (u : SharedUnit), sharedUnits[kind.toNat]? = some u →
      (s.chip.ras.dead.contains (u, index.toNat) = true → Ran (.sharedUnitFault kind index) s s.chip) ∧
      (s.chip.ras.dead.contains (u, index.toNat) = false → ∃ c, Ran (.sharedUnitFault kind index) s c ∧
        c.ras.dead = (u, index.toNat) :: s.chip.ras.dead)) ∧
    (∀ (kind : BitVec 4) (index : BitVec 5), kind = 11 →
      Ran (.sharedUnitFault kind index) s (s.chip.count Fld.RAS_CE_CNT_COUNT))

/-- R450 to R455: the safety sequencer: a declared failure of the barista latches its cause, caps the power and pulls
FAULT_N low; its third failed attempt holds it, and RETRY allows one more; RELEASE clears what it may; the heartbeat
is kept. Model's choices it rests on: assumptions 90, 91, 92. -/
def Obligations.safety_sequencer : Prop :=
  ∀ (s : State),
    (s.chip.firmwareRuns = true → s.chip.fld Fld.RAS_SEQ_STATUS_CAUSE = 0 → ∃ c, Ran .baristaFailure s c ∧
      c.fld Fld.RAS_SEQ_STATUS_BARISTA_STATE = 1 ∧ c.faultN = true ∧ c.smbAlertN = true ∧
      bit (c.fld Fld.RAS_SEQ_STATUS_CAUSE) Cause.barista = true ∧ c.fld Fld.RAS_SEQ_STATUS_CAP = 1 ∧
      c.effectiveCap ≤ 250 ∧ c.fld Fld.PWR_DRIP_LEVEL = 63) ∧
    (∀ beats, s.chip.fld Fld.RAS_SEQ_STATUS_BARISTA_STATE = 1 → s.chip.fld Fld.RAS_SEQ_STATUS_ATTEMPTS < 2 →
      Ran (.baristaResetAttempt beats) s (s.chip.setFld Fld.RAS_SEQ_STATUS_ATTEMPTS 0
        (s.chip.fld Fld.RAS_SEQ_STATUS_ATTEMPTS + 1))) ∧
    (s.chip.fld Fld.RAS_SEQ_STATUS_BARISTA_STATE = 1 → s.chip.fld Fld.RAS_SEQ_STATUS_ATTEMPTS = 2 →
      Ran (.baristaResetAttempt false) s
        ((s.chip.setFld Fld.RAS_SEQ_STATUS_ATTEMPTS 0 3).setFld Fld.RAS_SEQ_STATUS_BARISTA_STATE 0 2)) ∧
    (HostUp s → s.chip.fld Fld.RAS_SEQ_STATUS_BARISTA_STATE = 2 →
      Ran .retry s (s.chip.setFld Fld.RAS_SEQ_STATUS_BARISTA_STATE 0 1)) ∧
    (HostUp s → s.chip.fld Fld.RAS_SEQ_STATUS_CAUSE = 0 → ∃ c, Ran .force s c ∧ c.faultN = true ∧
      c.fld Fld.RAS_SEQ_STATUS_CAUSE = 2 ^ Cause.software) ∧
    (HostUp s → s.chip.firmwareRuns = true → bit (s.chip.fld Fld.RAS_SEQ_STATUS_CAUSE) Cause.thermal = false →
      s.chip.fld Fld.LCE_PCRC_LIMIT_LIMIT = 0 → ∃ c, Ran .release s c ∧ c.faultN = false ∧ c.smbAlertN = false ∧
        c.fld Fld.RAS_SEQ_STATUS_CAUSE = 0 ∧ c.fld Fld.RAS_SEQ_STATUS_CAP = 0 ∧
        c.fld Fld.RAS_SEQ_STATUS_ATTEMPTS = 0) ∧
    (∀ v, Ran (.heartbeat v) s (s.chip.setRg Reg.RAS_HB v))

/-! ## Boot, security and management (R460 to R501, R519 to R523) -/

/-- R481, R485, R488, R519, R522, R523: a boot begins when PERST_N rises and runs up to a step that does not end, which
its time fails; a boot that failed begins again with the always-on domain as it was; firmware that verifies restarts
the barista. A rail's fault stops every clock; PERST_N, VDD_AON and the rails reset the chip, and PERST_N keeps
PCI_SUPPLY_LAST. R480, R481, R484, R485: a write of the boot ledger is what the next read finds. A required step that
passes is recorded as 1 and the boot goes on; one that fails ends the boot and counts it; an optional step never ends
it. Model's choices it rests on: assumptions 93, 98, 99, 100, 101. -/
def Obligations.boot : Prop :=
  (∀ (s : State),
     (∀ w, s.chip.powered = true → s.chip.perst = true →
       let r := runBoot w 0 s.nv { s.chip with perst := false, mgt := { s.chip.mgt with booting := true } }
       RanNv (.boot w) s r.1 r.2) ∧
     (∀ w, s.chip.powered = true → s.chip.perst = true → w.hang = some 0 →
       Ran (.boot w) s (({ s.chip with perst := false, mgt := { s.chip.mgt with booting := true } } : Chip).setFld
         Fld.MGT_STATE_STEP 0 0)) ∧
     (∀ w, (s.chip.powered = false ∨ s.chip.perst = false) → Ran (.boot w) s s.chip) ∧
     (∀ w, s.chip.mgt.booting = true → s.chip.fld Fld.MGT_STATE_STEP = 0 → s.chip.fld Fld.MGT_STATE_MODE = 0 →
       w.hang = none → ∃ nv c, RanNv (.bootStepTimeout w) s nv c ∧ c.mgt.failed = true ∧ c.mgt.booting = false ∧
         nv.ledger.failedBoots = min 3 (s.nv.ledger.failedBoots + 1)) ∧
     (∀ w, s.chip.mgt.failed = true → w.hang = some 0 → ∃ c, Ran (.internalReboot w) s c ∧ c.faultN = true ∧
       c.perst = false ∧ c.parts = [] ∧ c.queues = [] ∧ c.mem = [] ∧ c.rg Reg.RAS_HB = s.chip.rg Reg.RAS_HB ∧
       c.rg Reg.PCI_SUPPLY_LAST = s.chip.rg Reg.PCI_SUPPLY_LAST) ∧
     (s.chip.fld Fld.RAS_SEQ_STATUS_BARISTA_STATE = 1 → s.nv.verify s.nv.ledger.runSet 2 = 0 →
       s.nv.verify s.nv.ledger.runSet 0 = 0 → s.chip.mgt.op = none → ∃ nv c, RanNv .baristaRestart s nv c ∧
         c.fld Fld.RAS_SEQ_STATUS_BARISTA_STATE = 0 ∧ nv.ledger.restarts = s.nv.ledger.restarts + 1 ∧
         nv.ledger.failedBoots = s.nv.ledger.failedBoots ∧ nv.ledger.decision = s.nv.ledger.decision) ∧
     (∀ rail : BitVec 4, rail ≠ 0 → rail.toNat < 10 → ∃ c, Ran (.supplyFault rail) s c ∧ c.stopped = true ∧
       c.faultN = true ∧ c.fld Fld.PCI_SUPPLY_LAST_RAIL = rail.toNat) ∧
     (∃ c, Ran .perstNAssert s c ∧ c.perst = true ∧ c.powered = s.chip.powered ∧ c.stopped = false ∧ c.faultN = true ∧
       c.parts = [] ∧ c.queues = [] ∧ c.mem = [] ∧ c.scratch = [] ∧ c.pwr = {} ∧ c.ras = {} ∧
       c.rg Reg.PCI_SUPPLY_LAST = s.chip.rg Reg.PCI_SUPPLY_LAST ∧
       (∀ a, a ≠ Reg.PCI_SUPPLY_LAST → c.rg a = (Chip.fresh s.nv 0).rg a)) ∧
     (∃ c, Ran .vddAonLoss s c ∧ c.powered = false ∧ c.parts = [] ∧ ∀ a, c.rg a = (Chip.fresh s.nv 0).rg a) ∧
     (∃ c, Ran .powerUp s c ∧ c.powered = true ∧ c.perst = true ∧ c.faultN = true ∧
       ∀ a, c.rg a = (Chip.fresh s.nv 0).rg a)) ∧
  ((∀ (nv : NonVol) (l : Ledger), ∃ n, (nv.setLedger l).ledger = { l with seq := n } ∧ nv.ledger.seq < n) ∧
   (∀ (l : Ledger) (n v : Nat), n < 32 → v < 4 → (l.setStep n v).step n = v ∧
     ∀ m, m < 32 → m ≠ n → (l.setStep n v).step m = l.step m) ∧
   (∀ (w : BootSample) (b : Booting) (n : Nat), b.go = true → b.rescue = false → 3 < n → n < 31 →
     w.hang ≠ some (BitVec.ofNat 5 n) →
     (stepClass n = .required → stepPasses w b.nv n (bit b.nv.ledger.decision n) = true →
       (b.run w n).go = true ∧ (b.run w n).nv.ledger.step n = 1) ∧
     (stepClass n = .required → stepPasses w b.nv n (bit b.nv.ledger.decision n) = false →
       (b.run w n).go = false ∧ (b.run w n).chip.mgt.failed = true ∧ (b.run w n).nv.ledger.step n = 2 ∧
       (b.run w n).nv.ledger.failedBoots = min 3 (b.nv.ledger.failedBoots + 1)) ∧
     (stepClass n = .optional → (b.run w n).go = true ∧
       (bit b.nv.ledger.decision n = true → (b.run w n).nv.ledger.step n = 3))))

/-- R464: a burn of a rollback counter burns fuses of the lowest counter that the booted images exceed, in the step
behind those that count as burnt, while no other operation holds the mailbox (R501); with none left, or held off by
SVN_HOLD, burning is over and the mailbox is free. R476, R477: a challenge is good for one SUBMIT;
one that succeeds raises the level, one that fails is counted; the lock is set. R466 to R468: the responder answers
over DOE: the version first, then capabilities, then algorithms, and only then digests, certificates, challenges and
measurements; one that does not run answers nothing. Model's choices it rests on: assumptions 58, 96, 97. -/
def Obligations.security : Prop :=
  (∀ (s : State), Live s →
     (∀ (f : BitVec 3) (t : Nat), s.chip.mgt.burnDue = true → s.chip.flag Fld.SEC_CFG_SVN_HOLD = false →
       s.chip.firmwareRuns = true → (s.chip.opCode = 0 ∨ s.chip.opCode = 0xF1) → burnNext s.nv s.chip = some t →
       ∃ nv c, RanNv (.rollbackBurn f) s nv c ∧ nv.rootHash = s.nv.rootHash ∧ nv.revoked = s.nv.revoked ∧
         (∀ x, x ∈ nv.fuses ↔ x ∈ s.nv.fuses ∨ ∃ i < 3, f.getLsbD i = true ∧ x = t * 192 + 3 * s.nv.svnCtr t + i) ∧
         s.nv.svnCtr t ≤ nv.svnCtr t) ∧
     (∀ f : BitVec 3, s.chip.mgt.burnDue = true → s.chip.firmwareRuns = true →
       let c : Chip := { s.chip with mgt := { s.chip.mgt with burnDue := false } }
       (s.chip.flag Fld.SEC_CFG_SVN_HOLD = false → burnNext s.nv s.chip = none →
         (s.chip.opCode = 0 → Ran (.rollbackBurn f) s c) ∧
         (s.chip.opCode = 0xF1 → Ran (.rollbackBurn f) s (c.finishOp Res.done []))) ∧
       (s.chip.flag Fld.SEC_CFG_SVN_HOLD = true →
         (s.chip.opCode = 0 → Ran (.rollbackBurn f) s s.chip) ∧
         (s.chip.opCode = 0xF1 → Ran (.rollbackBurn f) s (s.chip.finishOp Res.done []))) ∧
       (s.chip.opCode ≠ 0 → s.chip.opCode ≠ 0xF1 → Ran (.rollbackBurn f) s s.chip)) ∧
     (∀ level : BitVec 2, s.chip.fld Fld.SEC_DBG_CTL_FAILS < 3 → ∃ c, Ran (.secDbgChal level) s c ∧
       c.sec.challenge = true ∧ c.fld Fld.SEC_DBG_CTL_LEVEL = level.toNat) ∧
     (∀ level : BitVec 2, s.chip.fld Fld.SEC_DBG_CTL_FAILS = 3 →
       Ran (.secDbgChal level) s (s.chip.setFld Fld.SEC_DBG_CTL_LEVEL 0 level.toNat)) ∧
     (∀ level : BitVec 2,
       let c1 : Chip := { s.chip.setFld Fld.SEC_DBG_CTL_LEVEL 0 level.toNat with
         sec := { s.chip.sec with challenge := false } }
       (s.chip.unlockOk s.nv level.toNat = true → level = 1 → Ran (.secDbgSubmit level) s
         ((c1.setFld Fld.SEC_STATUS_DEBUG_LEVEL 0 1).postSec 0x0070 1)) ∧
       (s.chip.unlockOk s.nv level.toNat = false → Ran (.secDbgSubmit level) s
         (c1.setFld Fld.SEC_DBG_CTL_FAILS 0 (min 3 (c1.fld Fld.SEC_DBG_CTL_FAILS + 1))))) ∧
     (∃ c, Ran .secLockSet s c ∧ c.fld Fld.SEC_LOCK_LOCK = 1 ∧ c.fld Fld.SEC_STATUS_LOCKED = 1)) ∧
  (∀ (s : State), Live s →
     let c := s.chip
     let answers (x : Chip) (r : List Nat) : Chip := x.emit (.response r)
     (∃ x, Ran .doeAbort s x ∧ x.sec.spdm = 0) ∧
     (c.spdmRuns = false → ∀ i ∈ [Instr.getVersion, .getCapabilities, .getDigests], Ran i s c) ∧
     (c.spdmRuns = true →
       Ran .getVersion s (answers (c.setSpdm 1) [0x04, 0x13]) ∧
       (1 ≤ c.sec.spdm → Ran .getCapabilities s (answers (c.setSpdm 2) (0x61 :: Config.crypto 0x61 []))) ∧
       (c.sec.spdm = 0 → Ran .getCapabilities s (answers c [Spdm.error, Spdm.unexpectedRequest])) ∧
       (2 ≤ c.sec.spdm →
         Ran (.negotiateAlgorithms true) s (answers (c.setSpdm 3) (0x63 :: Config.crypto 0x63 [])) ∧
         Ran (.negotiateAlgorithms false) s (answers c [Spdm.error, Spdm.invalidRequest])) ∧
       (3 ≤ c.sec.spdm →
         Ran .getDigests s (answers c (0x01 :: c.certChain s.nv 0 ++ c.certChain s.nv 1)) ∧
         (∀ slot off len, slot.toNat ≤ 1 → Ran (.getCertificate slot off len) s
           (answers c (0x02 :: Config.crypto 0x02 (off.toNat :: len.toNat :: c.certChain s.nv slot.toNat)))) ∧
         (∀ slot nonce, slot.toNat ≤ 1 → Ran (.challenge slot nonce) s (answers c
           (0x03 :: Config.crypto 0x03 (c.ctr :: beNat nonce :: c.certChain s.nv slot.toNat ++ c.sec.measured)))) ∧
         (∀ (index : Byte) nonce, index.toNat ≤ 6 → Ran (.getMeasurements index false nonce) s
           (answers c (0x60 :: c.measurements s.nv index.toNat))))))

/-- R460, R464, R480: no step takes anything back from OTP: the identity and the keys' digests stay, and fuses, key
revocations and the debug level that are burnt stay burnt. Every step keeps the image of flash in canonical form: no
erased byte is listed. Model's choices it rests on: assumption 94. -/
def Obligations.stores_kept : Prop :=
  ∀ s t : State, step s = .next t → NonVol.OtpKept s.nv t.nv ∧ (s.nv.flashWf = true → t.nv.flashWf = true)

/-- R489 to R491: a command that the mailbox serves, in a mode that allows it and with its conditions met, latches its
arguments and is the operation that runs; one that comes while an operation runs, or with the barista down, is
refused and counted; one that its mode does not allow ends at once with BAD_COMMAND. R477: SEC_LOCK stands against
PROVISION. Model's choices it rests on: assumptions 105, 106, 108, 116. -/
def Obligations.mailbox_commands : Prop :=
  ∀ (s : State), Live s → s.chip.fnEnabled 0 = true →
    let all : List Instr := [.info, .ledgerRead, .ledgerReset, .rescue, .fwBegin, .fwData, .fwEnd, .fwActivate, .fwCancel,
      .calWrite, .calExport, .calImport, .memRetrain, .testFull, .ageMeasure, .ageReplan]
    let c1 := (s.chip.setFld Fld.MGT_STATUS_REFUSED 0 0).wakeDevice
    let begins (code : Nat) : Chip := c1.beginOp { code := code, args := c1.mgtArgs }
    let arg (n : Nat) : Nat := (c1.rg (Reg.MGT_ARG + 4 * n)).toNat
    ((s.chip.mgtServed = false ∨ s.chip.flag Fld.MGT_STATUS_BUSY = true) →
      (∀ i ∈ all, Ran i s s.chip.refuseMgt) ∧ Ran .provision s s.chip.refuseMgt) ∧
    (s.chip.mgtServed = true → s.chip.flag Fld.MGT_STATUS_BUSY = false →
      Ran .info s (begins 0x01) ∧ (arg 0 ≤ 1 → Ran .ledgerRead s (begins 0x02)) ∧
      (1 < arg 0 → Ran .ledgerRead s (c1.finishOp Res.badArgument [])) ∧ Ran .ledgerReset s (begins 0x03) ∧
      (c1.mayBeginFw = true →
        Ran .fwBegin s ((begins 0x10).beginOp { code := 0x10, args := [(begins 0x10).beginSet] })) ∧
      (c1.mayBeginFw = false → Ran .fwBegin s (c1.finishOp Res.notAllowed [])) ∧
      (c1.mgtSession ≠ none → fwDataOk (arg 0) (arg 1) = true → Ran .fwData s (begins 0x11)) ∧
      (c1.mgtSession ≠ none → Ran .fwEnd s (begins 0x12)) ∧
      (c1.mgtSession = none → Ran .fwData s (c1.finishOp Res.notAllowed []) ∧
        Ran .fwEnd s (c1.finishOp Res.notAllowed [])) ∧
      (c1.mayActivate = true → Ran .fwActivate s (begins 0x13)) ∧ Ran .fwCancel s (begins 0x14) ∧
      (c1.inRescue = false →
        Ran .rescue s (begins 0x04) ∧ (calSizeOk (arg 0) = true → Ran .calWrite s (begins 0x20)) ∧
        Ran .calExport s (begins 0x21) ∧
        (96 ≤ arg 0 → calSizeOk (arg 0 - 96) = true → Ran .calImport s (begins 0x22)) ∧
        (c1.maskOk = true → c1.aloneWithZero = true → c1.zeroIdle = true →
          Ran .memRetrain s (begins 0x30).wakeAll) ∧
        Ran .testFull s (begins 0x40).wakeAll ∧ Ran .ageMeasure s (begins 0x50).wakeAll ∧
        Ran .ageReplan s ((begins 0x51).replan 0x51) ∧
        (s.chip.flag Fld.SEC_LOCK_LOCK = false → Ran .provision s (c1.finishOp Res.badCommand []))) ∧
      (c1.inRescue = true →
        (∀ i ∈ [Instr.rescue, .calWrite, .calExport, .calImport, .memRetrain, .testFull, .ageMeasure, .ageReplan],
          Ran i s (c1.finishOp Res.badCommand [])) ∧
        (s.chip.flag Fld.SEC_LOCK_LOCK = false → s.nv.keeps (s.nv.revokedWith c1) = true →
          Ran .provision s (begins 0x60)) ∧
        (s.chip.flag Fld.SEC_LOCK_LOCK = true →
          Ran .provision s ((c1.finishOp Res.notAllowed []).regError Reg.MGT_CMD))))

/-- R460, R489, R491, R493: at its end an operation has written RESULT and DONE and freed the mailbox; LEDGER_RESET and
RESCUE have changed what they are for and nothing else of the ledger; FW_BEGIN, FW_ACTIVATE and PROVISION have
changed what they are for. R492, R496 to R498: ABORT ends a running FW_DATA with its set empty, TEST_FULL and a re-
plan that waits, and leaves a CAL_WRITE; a group takes its new set points in its window; an hour in operation is
counted in the ledger; a measurement that falls due is taken and planned for. Model's choices it rests on:
assumptions 107, 113, 114, 115. -/
def Obligations.mailbox_and_ageing : Prop :=
  (∀ (s : State) (w : MgtSample) (o : MgtOp), Live s → s.chip.mgt.op = some o → s.chip.firmwareRuns = true →
     s.chip.opHeld o = false → w.flashOk = true →
     ∃ nv c, RanNv (.mgtDone w) s nv c ∧ c.mgt.op = none ∧ c.fld Fld.MGT_STATUS_BUSY = 0 ∧
       c.fld Fld.MGT_STATUS_DONE = 1 ∧ c.rg Reg.MGT_OP = 0 ∧
       (o.code = 0x01 → nv = s.nv ∧ c.fld Fld.MGT_STATUS_RESULT = 0 ∧
         c.rg Reg.MGT_RES = BitVec.ofNat 32 s.chip.mgt.fwId) ∧
       (o.code = 0x03 → c.fld Fld.MGT_STATUS_RESULT = 0 ∧
         nv.ledger = { s.nv.ledger with failedBoots := 0, decision := 0, seq := nv.ledger.seq }) ∧
       (o.code = 0x04 → c.fld Fld.MGT_STATUS_RESULT = 0 ∧
         nv.ledger = { s.nv.ledger with rescueNext := true, seq := nv.ledger.seq }) ∧
       (o.code = 0x10 → c.mgt.staging = some { set := o.args.headD 0 } ∧
         ∀ a, a / 0x1800000 = o.args.headD 0 → nv.flashByte a = 0xFF) ∧
       (∀ st, o.code = 0x13 → s.chip.mgt.staging = some st → c.mgt.staging = none ∧ nv.ledger.prefSet = st.set ∧
         nv.ledger.runSet = s.nv.ledger.runSet) ∧
       (o.code = 0x60 → c.fld Fld.MGT_STATUS_RESULT = 0 ∧
         nv.revoked = s.nv.revoked ||| bits (o.args.headD 0) 7 4 ∧ nv.dbgMax = s.nv.dbgMax ||| bits (o.args.headD 0) 1 0)) ∧
  (∀ (s : State), Live s →
     (s.chip.mgt.op = none → Ran .abort s s.chip) ∧
     (∀ o, s.chip.mgt.op = some o → s.chip.firmwareRuns = true → s.chip.fnEnabled 0 = true →
       (o.code = 0x40 → Ran .abort s (s.chip.finishOp Res.aborted [])) ∧
       (o.code = 0x51 → o.groups ≠ [] → Ran .abort s (s.chip.finishOp Res.aborted [])) ∧
       (o.code = 0x20 → o.groups = [] → Ran .abort s s.chip) ∧
       (∀ st, o.code = 0x11 → s.chip.mgt.staging = some st →
         RanNv .abort s (s.nv.eraseSet st.set) (s.chip.finishOp Res.aborted []))) ∧
     (∀ (o : MgtOp) (g : BitVec 4), s.chip.mgt.op = some o → o.groups.contains g.toNat = true →
       s.chip.hasWindow g.toNat = true → s.chip.firmwareRuns = true → g.toNat < 12 →
       ∃ c, Ran (.setpointApply g) s c ∧
         (∀ i, i < 36 → c.mgt.bands.getD i 0 = (if i / 3 = g.toNat then o.bands.getD i 0 else s.chip.mgt.bands.getD i 0)) ∧
         ∃ o', c.mgt.op = some o' ∧ o'.groups.contains g.toNat = false) ∧
     (s.chip.powered = true → s.chip.fld Fld.MGT_STATE_MODE = 1 → s.chip.fld Fld.PWR_DEVSTATE_STATE = 0 →
       ∃ nv c, RanNv .opHour s nv c ∧ nv.ledger.opHours = s.nv.ledger.opHours + 1 ∧
         nv.ledger.ageHours = s.nv.ledger.ageHours) ∧
     (∀ drift, 256 ≤ s.nv.ledger.opHours - s.nv.ledger.ageHours → s.chip.firmwareRuns = true →
       s.chip.fld Fld.MGT_STATE_MODE = 1 → s.chip.flag Fld.MGT_STATUS_BUSY = false → s.chip.awake = true →
       ∃ nv c, RanNv (.autoAgeMeasure drift) s nv c ∧ nv.ledger.ageHours = s.nv.ledger.opHours ∧
         ∃ o, c.mgt.op = some o ∧ o.code = 0xF0 ∧ o.groups = List.range 12) ∧
     (∀ band drift sens : Nat, band ≤ newBand band drift sens ∧ (band % 5 = 0 → newBand band drift sens % 5 = 0) ∧
       drift * sens ≤ 100 * newBand band drift sens))

/-- R499: the endpoint answers MCTP control messages, PLDM discovery and sensors; Set Endpoint ID stores the identifier,
and refuses the null and broadcast ones; with no endpoint nothing is answered. R493, R494: an update over PLDM: its
request empties the set that does not run; the table, the component, its pieces and the device's reports follow in
order; activation of a verified set prefers it from the next boot; a cancel closes the session with the set empty. A
mailbox session stands against it, and it against a mailbox session. Model's choices it rests on: assumptions 94,
118. -/
def Obligations.endpoint : Prop :=
  (∀ (s : State), Live s →
     let c := s.chip
     let reply (r : List Nat) : Chip := c.emit (.response r)
     (c.smbusUp = false → ∀ i ∈ [Instr.getEndpointId, .gettid, .getpldmtypes, .getstatus, .requestupdate], Ran i s c) ∧
     (c.smbusUp = true →
       (∀ eid : Byte, eid ≠ 0 → eid ≠ 0xFF → Ran (.setEndpointId eid) s
         (({ c with mgt := { c.mgt with eid := eid.toNat } } : Chip).emit (.response [0, 0, eid.toNat]))) ∧
       (∀ eid : Byte, (eid = 0 ∨ eid = 0xFF) → Ran (.setEndpointId eid) s (reply [Cc.invalidData])) ∧
       Ran .getEndpointId s (reply [0, c.mgt.eid]) ∧
       Ran .getMctpVersionSupport s (reply (0 :: Config.standard 0x0004)) ∧
       Ran .getMessageTypeSupport s (reply [0, 2, 0, 1]) ∧
       Ran .gettid s (reply (0 :: Config.standard 0x0102)) ∧ Ran .getpldmversion s (reply (0 :: Config.standard 0x0103)) ∧
       Ran .getpldmtypes s (reply [0, 0x25]) ∧ Ran .getpldmcommands s (reply (0 :: Config.standard 0x0105)) ∧
       (∀ h : Word, 0 < h.toNat → h.toNat ≤ 29 → ∃ x k, Ran (.getpdr h) s (reply [0, x, h.toNat - 1, k]) ∧
         (h.toNat < 29 → x = h.toNat + 1) ∧ (h.toNat = 29 → x = 0)) ∧
       (∀ h : Word, 29 < h.toNat → Ran (.getpdr h) s (reply [Cc.invalidData])) ∧
       (∀ id : Half, id.toNat < 19 →
         Ran (.getsensorreading id) s (reply [0, c.fld Fld.PWR_THERM_TEMP (steer id.toNat)])) ∧
       Ran (.getsensorreading 23) s (reply [0, c.fld Fld.PWR_EFFECTIVE_EFF_CAP]) ∧
       Ran (.getsensorreading 24) s (reply [Cc.invalidSensor]) ∧
       Ran (.getstatesensorreadings 25) s (reply [0, c.fld Fld.RAS_SEQ_STATUS_FAULT, c.fld Fld.RAS_SEQ_STATUS_CAUSE]) ∧
       Ran .querydeviceidentifiers s (reply [0, 0x1DF3, s.nv.part]) ∧
       Ran .getfirmwareparameters s (reply [0, c.mgt.fwId, s.nv.imageFwId s.nv.ledger.prefSet 1]) ∧
       Ran .getstatus s (reply [0, c.mgt.fd.code]))) ∧
  (∀ (s : State), Live s → s.chip.smbusUp = true → s.chip.flag Fld.MGT_STATUS_BUSY = false →
     let c := s.chip
     let ok (x : Chip) : Chip := x.emit (.response [0])
     (c.mgtSession = none → c.mgt.fd = .idle → ∃ nv x, RanNv .requestupdate s nv (ok x) ∧ x.mgt.fd = .learn ∧
       x.mayBeginFw = false ∧ nv.ledger = s.nv.ledger ∧
       (∀ a, a / 0x1800000 = 1 - c.fld Fld.MGT_STATE_RUN_SET → nv.flashByte a = 0xFF) ∧
       (∀ a, a / 0x1800000 = c.fld Fld.MGT_STATE_RUN_SET → nv.flashByte a = s.nv.flashByte a)) ∧
     (c.mgtSession ≠ none → Ran .requestupdate s (c.emit (.response [Cc.alreadyInUpdateMode]))) ∧
     (c.mgt.fd = .idle → Ran (.passcomponenttable true) s (c.emit (.response [Cc.notInUpdateMode]))) ∧
     (c.mgt.fd = .learn → Ran (.passcomponenttable true) s (ok (c.setFd .ready)) ∧
       Ran (.passcomponenttable false) s (ok c)) ∧
     (c.mgt.fd = .ready → ∀ typ : BitVec 2, typ ≠ 3 → Ran (.updatecomponent typ) s
       (ok { c with mgt := { c.mgt with fd := .download, fdTyp := typ.toNat } })) ∧
     (∀ (typ : BitVec 2) (off : Word) (piece : List Byte), c.mgt.fd = .download → c.mgt.fdTyp = typ.toNat →
       pieceOk typ.toNat off.toNat piece.length = true → Ran (.requestfirmwaredata typ off piece) s
         (c.beginOp { code := 0xF2, args := ((imageAt 0 typ.toNat).1 + off.toNat) :: piece.map BitVec.toNat })) ∧
     (c.mgt.fd = .download → ∀ good,
       Ran (.transfercomplete good) s ((c.setFd (if good then .verify else .ready)).emit (.response [3, b2n good]))) ∧
     (∀ st, c.mgt.fd = .verify → c.mgt.staging = some st → s.nv.verify st.set c.mgt.fdTyp = 0 →
       Ran .verifycomplete s ((c.setFd .apply).emit (.response [4, 1]))) ∧
     (∀ st, c.mgt.fd = .verify → c.mgt.staging = some st → s.nv.verify st.set c.mgt.fdTyp ≠ 0 →
       Ran .verifycomplete s ((c.setFd .ready).emit (.response [4, 0]))) ∧
     (c.mgt.fd = .apply → ∀ good, Ran (.applycomplete good) s ((c.setFd .ready).emit (.response [5, b2n good]))) ∧
     (∀ st, c.mgt.staging = some st → c.mgt.fd = .ready → s.nv.badImage st.set = none → s.nv.sameFwId st.set = true →
       ∃ nv x, RanNv (.activatefirmware false) s nv (ok x) ∧ nv.ledger.prefSet = st.set ∧
         nv.ledger.runSet = s.nv.ledger.runSet ∧ x.mgt.fd = .idle ∧ x.mgt.staging = none) ∧
     (∀ st, c.mgt.staging = some st → c.mgt.fd = .ready →
       Ran (.activatefirmware true) s (c.emit (.response [Cc.selfContained]))) ∧
     (c.mgt.fd = .download → Ran .cancelupdatecomponent s (ok (c.setFd .ready))) ∧
     (∀ st, c.mgt.staging = some st → c.mgt.fd ≠ .idle → RanNv .cancelupdate s (s.nv.eraseSet st.set)
       (ok { c with mgt := { c.mgt with fd := .idle, staging := none } })))

/-! ## Registers (R11, R12, R83, R85, R119, R505 to R507) -/

/-- R11: what a write and a read do to each field of a register, by the field's type: RW takes the value, RW1C clears and
RW1S sets the bits written as 1, RWL takes the value while it is not locked, RO, WO and RC keep what they hold; a
read shows 0 for WO and clears RC. What lies outside the fields stays, and reads 0. -/
def Obligations.register_fields : Prop :=
  (∀ d ∈ regTable, ∀ (locked : Bool) (old v : Word), ∀ f ∈ d.fields,
    wbits (storeWord d.fields locked old v) f.hi f.lo
      = f.ty.next locked (wbits old f.hi f.lo) (wbits v f.hi f.lo) ∧
    wbits (readWord d.fields old) f.hi f.lo = (if f.ty = .wo then 0 else wbits old f.hi f.lo) ∧
    wbits (clearRc d.fields old) f.hi f.lo = (if f.ty = .rc then 0 else wbits old f.hi f.lo)) ∧
  (∀ d ∈ regTable, ∀ (locked : Bool) (old v : Word) (i : Nat), (∀ f ∈ d.fields, i < f.lo ∨ f.hi < i) →
    (storeWord d.fields locked old v).getLsbD i = old.getLsbD i ∧
    (clearRc d.fields old).getLsbD i = old.getLsbD i ∧ (readWord d.fields old).getLsbD i = false) ∧
  (∀ (locked : Bool) (old new i : Nat),
    (FType.next .rw locked old new = new) ∧
    (FType.next .rw1c locked old new).testBit i = (old.testBit i && !new.testBit i) ∧
    (FType.next .rw1s locked old new).testBit i = (old.testBit i || new.testBit i) ∧
    (FType.next .rwl false old new = new) ∧ (FType.next .rwl true old new = old) ∧
    (FType.next .ro locked old new = old) ∧ (FType.next .wo locked old new = old) ∧
    (FType.next .rc locked old new = old))

/-- R507: an aligned access to an offset that no register has, in the view of the physical function or of a virtual one,
reads 0, and a write to it is discarded and logged. R12: a narrower or misaligned read returns all ones, a narrower
or misaligned write is discarded, and both are logged. Model's choices it rests on: assumption 127. -/
def Obligations.undefined_offsets : Prop :=
  ∀ (s : State) (fn : BitVec 4) (off : BitVec 26), Live s → s.chip.fnEnabled fn.toNat = true →
    let undefined (o : Nat) : Prop := ∀ a, physOffset fn.toNat o = some a →
      inMsix a = false ∧ inPba a = false ∧ inMgtData a = false ∧ findReg a = none
    let logged (i : Instr) (f : Chip → Chip) : Prop :=
      ∃ l : List Nat, l ≠ [] ∧ Ran i s (f (l.foldl Chip.regError s.chip))
    (s.chip.booted = true → off.toNat % 4 = 0 → undefined off.toNat →
      Ran (.counterReadClear fn ⟨false, off⟩ 4) s (s.chip.emit (.hostData (leBytes 4 0))) ∧
      ∀ v, logged (.registerWrite fn ⟨false, off⟩ 4 v) id) ∧
    (s.chip.booted = true → off.toNat % 8 = 0 → undefined off.toNat → undefined (off.toNat + 4) →
      Ran (.counterReadClear fn ⟨false, off⟩ 8) s (s.chip.emit (.hostData (leBytes 8 0))) ∧
      ∀ v, logged (.registerWrite fn ⟨false, off⟩ 8 v) id) ∧
    (∀ size : BitVec 4, ¬ (size = 4 ∧ off.toNat % 4 = 0) → ¬ (size = 8 ∧ off.toNat % 8 = 0) →
      logged (.counterReadClear fn ⟨false, off⟩ size) (fun c => c.emit (.hostData (List.replicate size.toNat 0xFF))) ∧
      ∀ v, logged (.registerWrite fn ⟨false, off⟩ size v) id)

/-- R11, R60: a read answers as many bytes as it asks for and changes no byte of memory. One of 8 bytes reads the two
words in order. A read of a register returns its fields, with WO fields and reserved bits as 0, and clears its RC fields;
a register that shows other state returns that; one that the part lacks, or of a partition that is ABSENT, reads 0. R87: a
read of a function's vectors returns the vector's word. R60: a function's doorbell page holds Q_STATE, with STATE and
HALT_STATUS, at 8 and Q_HEAD at 12; any other offset of it, or an access that is not one of 32 bits, reads 0 or is
discarded. R482: until boot step 31 the pages read 0. Model's choices it rests on: assumptions 9, 127. -/
def Obligations.register_reads : Prop :=
  (∀ (s : State) (fn : BitVec 4) (bar2 : Bool) (off : BitVec 26) (size : BitVec 4), Live s →
     s.chip.fnEnabled fn.toNat = true →
     ∃ (c : Chip) (bs : List Byte), Ran (.counterReadClear fn ⟨bar2, off⟩ size) s (c.emit (.hostData bs)) ∧
       bs.length = size.toNat ∧ c.mem = s.chip.mem ∧ c.queues = s.chip.queues) ∧
  (∀ (s : State) (fn : BitVec 4) (off : BitVec 26) (a b : Nat), Live s → s.chip.fnEnabled fn.toNat = true →
     off.toNat % 8 = 0 → physOffset fn.toNat off.toNat = some a → physOffset fn.toNat (off.toNat + 4) = some b →
     let lo := s.chip.regLoad fn.toNat a
     let hi := lo.1.regLoad fn.toNat b
     Ran (.counterReadClear fn ⟨false, off⟩ 8) s
       (hi.1.emit (.hostData (leBytes 4 lo.2.toNat ++ leBytes 4 hi.2.toNat)))) ∧
  (∀ (s : State) (fn : BitVec 4) (off : BitVec 26) (a : Nat), Live s → s.chip.fnEnabled fn.toNat = true →
     off.toNat % 4 = 0 → physOffset fn.toNat off.toNat = some a →
     let c := s.chip.wakeFor a
     let reads (c1 : Chip) (w : Word) : Prop :=
       Ran (.counterReadClear fn ⟨false, off⟩ 4) s (c1.emit (.hostData (leBytes 4 w.toNat)))
     (s.chip.booted = false → earlyWindow a = false → reads s.chip 0) ∧
     (s.chip.booted = true →
       (inMsix a = true → reads s.chip (s.chip.msixRead fn.toNat (a % 0x80000))) ∧
       (inMsix a = false → inPba a = true → reads s.chip (s.chip.pbaRead fn.toNat (a % 0x80000))) ∧
       (inMsix a = false → inPba a = false → inMgtData a = true → reads s.chip (s.chip.rg a)) ∧
       (∀ d p i, inMsix a = false → inPba a = false → inMgtData a = false → findReg a = some (d, p, i) →
         (((d.paged = true ∧ c.exists? p = false) ∨ c.regAbsent d i = true ∨ c.steered d.steer fn.toNat p = none) →
           reads c 0) ∧
         (∀ k, (d.paged = true → c.exists? p = true) → c.regAbsent d i = false →
           c.steered d.steer fn.toNat p = some k →
           let x := c.wakeSteered d k
           let old := x.rg (a + steer k)
           let after := (x.setRg (a + steer k) (clearRc d.fields old)).latchFor d.base p
           (x.derived d.base p i k = none → reads after (readWord d.fields old)) ∧
           (∀ n, x.derived d.base p i k = some n → reads after (readWord d.fields (BitVec.ofNat 32 n))))))) ∧
  (∀ (s : State) (fn : BitVec 4) (page : BitVec 6) (off : BitVec 26), Live s → s.chip.fnEnabled fn.toNat = true →
     off.toNat / 4096 = page.toNat →
     let x := s.chip.queue (fn.toNat * 64 + page.toNat)
     let reads (size : BitVec 4) (n : Nat) : Prop :=
       Ran (.counterReadClear fn ⟨true, off⟩ size) s (s.chip.emit (.hostData (leBytes size.toNat n)))
     (s.chip.booted = true →
       (off.toNat % 4096 = 8 → reads 4 (x.state.code + 2 ^ 16 * x.haltStatus.toNat)) ∧
       (off.toNat % 4096 = 12 → reads 4 x.head.toNat) ∧
       (off.toNat % 4096 ≠ 8 → off.toNat % 4096 ≠ 12 →
         reads 4 0 ∧ (off.toNat % 4096 ≠ 0 → off.toNat % 4096 ≠ 4 → ∀ v, Ran (.registerWrite fn ⟨true, off⟩ 4 v) s s.chip))) ∧
     (s.chip.booted = false → reads 4 0 ∧ ∀ v, Ran (.registerWrite fn ⟨true, off⟩ 4 v) s s.chip) ∧
     (∀ size : BitVec 4, size ≠ 4 → reads size 0 ∧ ∀ v, Ran (.registerWrite fn ⟨true, off⟩ size v) s s.chip))

/-- R11: a register with no rule of its own stores a write by its field types. R83, R85, R119: the kernel ring and the
event ring are enabled only where they fit, and lose their lock when they are disabled; EVRING_HEAD moves at most up
to the tail; EVT_CFG keeps an event's state, and its fields while it is awaited. Model's choices it rests on:
assumptions 122, 125, 126. -/
def Obligations.registers : Prop :=
  (∀ (s : State) (off : BitVec 26), Live s → s.chip.fnEnabled 0 = true →
     let a := off.toNat
     (∀ d i v, s.chip.booted = true → a % 4 = 0 → inMsix a = false → inPba a = false → inMgtData a = false →
       findReg a = some (d, 0, i) → d.paged = false → onDie a = false → s.chip.regAbsent d i = false →
       d.steer = .none → s.chip.ownWrite s.nv d 0 i 0 a (BitVec.ofNat 32 v) = none → v < 2 ^ 32 →
       Ran (.registerWrite 0 ⟨false, off⟩ 4 (BitVec.ofNat 64 v)) s (s.chip.storeReg d 0 i 0 a (BitVec.ofNat 32 v)))) ∧
  (∀ (s : State) (p : BitVec 4) (v : Word), HostUp s →
     let o := pg p.toNat
     ((s.chip.part p.toNat).state = .absent →
       Ran (.kringCtlWrite p v) s (s.chip.regError (Reg.KRING_CTL + o)) ∧
       Ran (.evringCtlWrite p v) s (s.chip.regError (Reg.EVRING_CTL + o)) ∧
       Ran (.evringHeadWrite p v) s (s.chip.regError (Reg.EVRING_HEAD + o))) ∧
     ((s.chip.part p.toNat).state ≠ .absent →
       let e := s.chip.setFld Fld.EVRING_CTL_VECTOR o (wbits v 21 16)
       let k := (s.chip.setFld Fld.KRING_CTL_VECTOR o (wbits v 21 16)).setFld Fld.KRING_CTL_IRQ_EN o (wbits v 24 24)
       (s.chip.flag Fld.EVRING_CTL_EV_ENABLE o = false → wbit v 0 = true →
         (s.chip.ringOk p.toNat (s.chip.evBase p.toNat) (wbits v 12 8) 16 = true →
           ∃ c, Ran (.evringCtlWrite p v) s c ∧ c.flag Fld.EVRING_CTL_EV_ENABLE o = true ∧
             c.fld Fld.EVRING_CTL_LOG2 o = wbits v 12 8 ∧ c.rg (Reg.EVRING_HEAD + o) = 0 ∧
             c.rg (Reg.EVRING_TAIL + o) = 0) ∧
         (s.chip.ringOk p.toNat (s.chip.evBase p.toNat) (wbits v 12 8) 16 = false →
           Ran (.evringCtlWrite p v) s ((e.setFld Fld.EVRING_CTL_LOG2 o (wbits v 12 8)).regError
             (Reg.EVRING_CTL + o)))) ∧
       (s.chip.flag Fld.EVRING_CTL_EV_ENABLE o = true → wbit v 0 = false →
         Ran (.evringCtlWrite p v) s ((e.regError (Reg.EVRING_CTL + o)).setFld Fld.EVRING_CTL_EV_ENABLE o 0)) ∧
       (s.chip.flag Fld.KRING_CTL_ENABLE o = false → wbit v 0 = false →
         Ran (.kringCtlWrite p v) s (k.setFld Fld.KRING_CTL_LOG2 o (wbits v 12 8))) ∧
       (s.chip.flag Fld.KRING_CTL_ENABLE o = false → wbit v 0 = true →
         s.chip.ringOk p.toNat (s.chip.ringBase (p.toNat * 64)) (wbits v 12 8) 96 = true →
         (s.chip.queue (p.toNat * 64)).stopping = false →
         Ran (.kringCtlWrite p v) s (((k.setFld Fld.KRING_CTL_LOG2 o (wbits v 12 8)).setFld Fld.KRING_CTL_ENABLE o
           1).startKring p.toNat)) ∧
       (s.chip.flag Fld.EVRING_CTL_EV_ENABLE o = true →
         ((v - s.chip.rg (Reg.EVRING_HEAD + o)).toNat
             ≤ (s.chip.rg (Reg.EVRING_TAIL + o) - s.chip.rg (Reg.EVRING_HEAD + o)).toNat →
           Ran (.evringHeadWrite p v) s (s.chip.setRg (Reg.EVRING_HEAD + o) v)) ∧
         ((s.chip.rg (Reg.EVRING_TAIL + o) - s.chip.rg (Reg.EVRING_HEAD + o)).toNat
             < (v - s.chip.rg (Reg.EVRING_HEAD + o)).toNat →
           Ran (.evringHeadWrite p v) s (s.chip.regError (Reg.EVRING_HEAD + o))))) ∧
     (∀ n : Byte, let a := Reg.EVT_CFG + 4 * n.toNat
       (s.chip.eventAwaited n.toNat = false → ∃ c, Ran (.evtCfgWrite n v) s c ∧
         wbits (c.rg a) 4 0 = wbits v 4 0 ∧ (wbits v 10 8 < 6 → wbits (c.rg a) 10 8 = wbits v 10 8) ∧
         (6 ≤ wbits v 10 8 → wbits (c.rg a) 10 8 = 0) ∧
         c.fld Fld.EVT_CFG_STATE (4 * n.toNat) = s.chip.fld Fld.EVT_CFG_STATE (4 * n.toNat)) ∧
       (s.chip.eventAwaited n.toNat = true → evtWord (s.chip.rg a) v ≠ s.chip.rg a →
         Ran (.evtCfgWrite n v) s (s.chip.regError a))))
end

