-- ==== Sys2Proof/Laws/Commands.lean ====
section
/-!
SUPPORT. What running a command comes to: a command on running clocks applies its effect, and the effect of a
descriptor's execution where its slot holds one that is ready.
-/

namespace Sys2Proof.Machine

theorem onChip_live {s : State} (h : Live s) (f : Chip → Chip) :
    onChip f s = .next { s with chip := (f s.chip).tick } := by
  simp [onChip, Live] at *; simp [h]

/-- While the clocks are stopped, a command outside the always-on domain has no effect (R416). -/
theorem onChip_stopped {s : State} (h : s.chip.stopped = true) (f : Chip → Chip) :
    onChip f s = .next { s with chip := s.chip.tick } := by
  simp [onChip, h]

theorem onHost_up {s : State} (h : HostUp s) (f : Chip → Chip) :
    onHost f s = .next { s with chip := (f s.chip).tick } := by
  obtain ⟨a, b, d⟩ := h
  simp [onHost, onChip, a, b, d]

theorem onHostAlways_up {s : State} (h : HostUp s) (f : Chip → Chip) :
    onHostAlways f s = .next { s with chip := (f s.chip).tick } := by
  obtain ⟨_, b, d⟩ := h
  simp [onHostAlways, onAlways, b, d]

theorem onBoth_live {s : State} (h : Live s) (f : NonVol → Chip → NonVol × Chip) :
    onBoth f s = .next { s with nv := (f s.nv s.chip).1, chip := (f s.nv s.chip).2.tick } := by
  simp [onBoth, Live] at *; simp [h]

/-- A descriptor that is ready, with its parameters at hand and no failed unit in its way, executes. -/
theorem run_ready {c : Chip} {q slot op : Nat} {e : Entry} (f : Chip → Entry → Chip)
    (h : Holds c q slot op e) : c.run q slot op f = f c e := by
  obtain ⟨h1, h2, h3, h4, h5, h6⟩ := h
  simp [Chip.run, h1, h2, h3, h4, h5, h6, Chip.loadParams, Chip.held?]

/-- The instruction that stands at a wave's program counter, if legal, has its effect: it fails, it stays at its place,
or the wave goes on behind it. -/
theorem issueAs_of {c : Chip} {cl w cls : Nat} {op : Option Nat} {a : Args} {x : WCtx} {legal : WCtx → Bool}
    (f : Chip → WCtx → Effect) (h : Issues c cl w cls op a x) (hl : legal x = true) :
    c.issueAs cl w cls op a legal f = match f c x with
      | .failed e => c.waveFailed x e
      | .stays c1 => c1
      | .done c1 wv => c.executed c1 x a wv := by
  obtain ⟨h1, i, h2, h3, h4⟩ := h
  simp only [Chip.issueAs, h1, h2, h3, h4, hl, Chip.executed, Bool.not_true, Bool.and_false, Bool.and_true,
    Bool.false_eq_true, if_false]
  all_goals (cases f c x <;> rfl)

/-- One that is not legal faults (R133). -/
theorem issueAs_illegal {c : Chip} {cl w cls : Nat} {op : Option Nat} {a : Args} {x : WCtx} {legal : WCtx → Bool}
    (f : Chip → WCtx → Effect) (h : Issues c cl w cls op a x) (hl : legal x = false) :
    c.issueAs cl w cls op a legal f = c.waveFault cl w x.wv .illegal (x.g.codeVa + x.wv.pc) := by
  obtain ⟨h1, i, h2, h3, h4⟩ := h
  simp [Chip.issueAs, h1, h2, h3, h4, hl]

theorem finish_entry {c : Chip} {q slot : Nat} {e : Entry} (h : c.entry q slot = some e) (st : Half) (d : Nat) :
    c.finish q slot st d = c.ended q slot e st d := by simp [Chip.finish, Chip.ended, h]

theorem finishOk_entry {c : Chip} {q slot : Nat} {e : Entry} (h : c.entry q slot = some e) (d : Nat) :
    c.finishOk q slot d = c.ended q slot e St.ok d := finish_entry h St.ok d

end Sys2Proof.Machine
end

