-- ==== Sys2Proof/Laws/Tables.lean ====
section
/-!
SUPPORT. Tables by number: what a lookup finds after a change, and that every change keeps the canonical form.
-/

namespace Sys2Proof.Machine

variable {α : Type}

@[simp] theorem KMap.find_nil (k : Nat) : KMap.find k ([] : KMap α) = none := rfl

@[simp] theorem KMap.find_set_self (k : Nat) (v : α) (m : KMap α) : KMap.find k (KMap.set k v m) = some v := by
  induction m with
  | nil => simp [KMap.set, KMap.find]
  | cons e t ih =>
    simp only [KMap.set]
    split
    · simp [KMap.find]
    · next h1 =>
      split
      · simp [KMap.find]
      · simp [KMap.find, h1, ih]

theorem KMap.find_set_ne {k j : Nat} (h : j ≠ k) (v : α) (m : KMap α) :
    KMap.find j (KMap.set k v m) = KMap.find j m := by
  have h' : k ≠ j := fun x => h x.symm
  induction m with
  | nil => simp [KMap.set, KMap.find, h']
  | cons e t ih =>
    simp only [KMap.set]
    split
    · next h1 => subst h1; simp [KMap.find, h']
    · split
      · simp [KMap.find, h']
      · simp [KMap.find, ih]

theorem KMap.find_set (k j : Nat) (v : α) (m : KMap α) :
    KMap.find j (KMap.set k v m) = if j = k then some v else KMap.find j m := by
  by_cases h : j = k
  · subst h; simp
  · simp [h, KMap.find_set_ne h]

@[simp] theorem KMap.set_set (k : Nat) (a b : α) (m : KMap α) : KMap.set k a (KMap.set k b m) = KMap.set k a m := by
  induction m with
  | nil => simp [KMap.set]
  | cons h t ih =>
    simp only [KMap.set]
    split
    · simp [KMap.set]
    · split
      · simp [KMap.set]
      · next h1 h2 => simp [KMap.set, h1, h2, ih]

theorem KMap.find_drop_of_not {f : Nat → Bool} {j : Nat} (h : f j = false) (m : KMap α) :
    KMap.find j (KMap.drop f m) = KMap.find j m := by
  induction m with
  | nil => rfl
  | cons e t ih =>
    by_cases hf : f e.1 = true
    · have : e.1 ≠ j := fun x => by rw [x, h] at hf; cases hf
      simp [KMap.drop, hf, KMap.find, this] at *; exact ih
    · simp [KMap.drop, hf, KMap.find] at *
      split
      · rfl
      · exact ih

theorem KMap.find_drop_of {f : Nat → Bool} {j : Nat} (h : f j = true) (m : KMap α) :
    KMap.find j (KMap.drop f m) = none := by
  induction m with
  | nil => rfl
  | cons e t ih =>
    by_cases hf : f e.1 = true
    · simp [KMap.drop, hf] at *; exact ih
    · have : e.1 ≠ j := fun x => by rw [x] at hf; exact hf h
      simp [KMap.drop, hf, KMap.find, this] at *; exact ih

@[simp] theorem KMap.find_erase_self (k : Nat) (m : KMap α) : KMap.find k (KMap.erase k m) = none :=
  KMap.find_drop_of (by simp) m

theorem KMap.find_erase_ne {k j : Nat} (h : j ≠ k) (m : KMap α) : KMap.find j (KMap.erase k m) = KMap.find j m :=
  KMap.find_drop_of_not (by simpa using h) m

@[simp] theorem KMap.getD_set_self (k : Nat) (v d : α) (m : KMap α) : KMap.getD (KMap.set k v m) k d = v := by
  simp [KMap.getD]

theorem KMap.getD_set_ne {k j : Nat} (h : j ≠ k) (v d : α) (m : KMap α) :
    KMap.getD (KMap.set k v m) j d = KMap.getD m j d := by
  simp [KMap.getD, KMap.find_set_ne h]

@[simp] theorem KMap.getD_put_self [DecidableEq α] (k : Nat) (v d : α) (m : KMap α) :
    KMap.getD (KMap.put d k v m) k d = v := by
  unfold KMap.put
  split
  · next h => simp [KMap.getD, h]
  · simp

theorem KMap.getD_put_ne [DecidableEq α] {k j : Nat} (h : j ≠ k) (v d x : α) (m : KMap α) :
    KMap.getD (KMap.put d k v m) j x = KMap.getD m j x := by
  unfold KMap.put
  split
  · simp [KMap.getD, KMap.find_erase_ne h]
  · exact KMap.getD_set_ne h v x m

/-! ## The canonical form -/

theorem KMap.wf_cons {k : Nat} {v : α} {t : KMap α} :
    KMap.wf ((k, v) :: t) = true ↔ (∀ e ∈ t, k < e.1) ∧ KMap.wf t = true := by
  simp [KMap.wf]

theorem KMap.mem_set {k : Nat} {v : α} {m : KMap α} {e : Nat × α} (h : e ∈ KMap.set k v m) : e = (k, v) ∨ e ∈ m := by
  induction m with
  | nil => simp [KMap.set] at h; exact .inl h
  | cons x t ih =>
    simp only [KMap.set] at h
    split at h
    · rcases List.mem_cons.1 h with h | h
      · exact .inl h
      · exact .inr (List.mem_cons_of_mem _ h)
    · split at h
      · rcases List.mem_cons.1 h with h | h
        · exact .inl h
        · exact .inr h
      · rcases List.mem_cons.1 h with h | h
        · exact .inr (h ▸ List.mem_cons_self ..)
        · rcases ih h with h | h
          · exact .inl h
          · exact .inr (List.mem_cons_of_mem _ h)

theorem KMap.wf_set (k : Nat) (v : α) {m : KMap α} (h : KMap.wf m = true) : KMap.wf (KMap.set k v m) = true := by
  induction m with
  | nil => rfl
  | cons x t ih =>
    obtain ⟨h1, h2⟩ := KMap.wf_cons.1 h
    simp only [KMap.set]
    split
    · next hk => exact KMap.wf_cons.2 ⟨fun e he => hk ▸ h1 e he, h2⟩
    · next hk =>
      split
      · next hlt =>
        refine KMap.wf_cons.2 ⟨fun e he => ?_, h⟩
        rcases List.mem_cons.1 he with he | he
        · rw [he]; exact hlt
        · exact Nat.lt_trans hlt (h1 e he)
      · next hlt =>
        refine KMap.wf_cons.2 ⟨fun e he => ?_, ih h2⟩
        rcases KMap.mem_set he with he | he
        · rw [he]; show x.1 < k; omega
        · exact h1 e he

theorem KMap.wf_drop (f : Nat → Bool) {m : KMap α} (h : KMap.wf m = true) : KMap.wf (KMap.drop f m) = true := by
  induction m with
  | nil => rfl
  | cons x t ih =>
    obtain ⟨h1, h2⟩ := KMap.wf_cons.1 h
    by_cases hf : f x.1 = true
    · simpa [KMap.drop, hf] using ih h2
    · have : KMap.drop f (x :: t) = x :: KMap.drop f t := by simp [KMap.drop, hf]
      rw [this]
      exact KMap.wf_cons.2 ⟨fun e he => h1 e (List.mem_filter.1 he).1, ih h2⟩

theorem KMap.wf_erase (k : Nat) {m : KMap α} (h : KMap.wf m = true) : KMap.wf (KMap.erase k m) = true :=
  KMap.wf_drop _ h

theorem KMap.wf_put [DecidableEq α] (d : α) (k : Nat) (v : α) {m : KMap α} (h : KMap.wf m = true) :
    KMap.wf (KMap.put d k v m) = true := by
  unfold KMap.put
  split
  · exact KMap.wf_erase k h
  · exact KMap.wf_set k v h

/-- A table whose unlisted entries read as `d` never comes to list `d`. -/
theorem KMap.put_ne_default [DecidableEq α] {d : α} {k : Nat} {v : α} {m : KMap α} (h : ∀ e ∈ m, e.2 ≠ d) :
    ∀ e ∈ KMap.put d k v m, e.2 ≠ d := by
  intro e he
  unfold KMap.put at he
  split at he
  · exact h e (List.mem_filter.1 he).1
  · next hv =>
    rcases KMap.mem_set he with he | he
    · rw [he]; exact hv
    · exact h e he

end Sys2Proof.Machine
end

