-- ==== Sys2Proof/Laws/Memory.lean ====
section
/-!
SUPPORT. Memory: every operation on it keeps the canonical form, and what a byte reads as after a byte is stored.
-/

namespace Sys2Proof.Machine

theorem Chip.memWf_iff (c : Chip) :
    c.memWf = true ↔ KMap.wf c.mem = true ∧ KMap.wf c.scratch = true ∧ ∀ e ∈ c.scratch, e.2 ≠ 0 := by
  simp [Chip.memWf, and_assoc]

/-- Chips that hold the same bytes have both or neither of their memories in canonical form. -/
theorem Chip.memWf_congr {c d : Chip} (hm : d.mem = c.mem) (hs : d.scratch = c.scratch) : d.memWf = c.memWf := by
  rw [Chip.memWf, Chip.memWf, hm, hs]

theorem Chip.memWf_setByte {c : Chip} (h : c.memWf = true) (l : Nat) (b : Byte) : (c.setByte l b).memWf = true := by
  rw [Chip.memWf_iff] at *
  unfold Chip.setByte
  split
  · exact ⟨h.1, KMap.wf_put 0 l b h.2.1, KMap.put_ne_default h.2.2⟩
  · exact ⟨KMap.wf_set l b h.1, h.2⟩

@[simp] theorem Chip.byteAt_setByte_self (c : Chip) (l : Nat) (b : Byte) : (c.setByte l b).byteAt l = b := by
  unfold Chip.setByte Chip.byteAt
  split <;> simp

theorem Chip.byteAt_setByte_ne (c : Chip) {l j : Nat} (h : j ≠ l) (b : Byte) : (c.setByte l b).byteAt j = c.byteAt j := by
  by_cases hl : l ≥ scratchBase <;> by_cases hj : j ≥ scratchBase <;>
    simp [Chip.setByte, Chip.byteAt, hl, hj, KMap.getD_put_ne h, KMap.find_set_ne h]

/-- Where no location is poisoned, lost or out of reach, a read within the partition's memory answers its bytes. -/
theorem Chip.readPP_clean {c : Chip} {p a n : Nat} (h : a + n ≤ (c.part p).memBytes) (hd : c.ras.dead = [])
    (hp : c.poison = []) (hl : ∀ l, c.lostLoc l = false) :
    c.readPP p a n = .ok (((rangeFrom a n).filterMap (c.part p).loc).map c.byteAt) := by
  have hdead : c.deadLoc (c.part p) = fun _ => false := funext fun l => by simp [Chip.deadLoc, hd]
  have hbad : c.badLoc = fun _ => false := funext fun l => by simp [Chip.badLoc, hp, hl]
  simp only [Chip.readPP, Part.locs, Nat.not_lt.mpr h, hdead, hbad, if_false]
  generalize (rangeFrom a n).filterMap (c.part p).loc = ls
  have hf : ls.find? (fun _ => false) = none := by simp
  simp [hf]

/-- No location is lost while no group of a stack has failed. -/
theorem Chip.lostLoc_intact {c : Chip} (h : ∀ k < 683, c.fld Fld.CTX_STK_STATUS_DEGRADED (steer k) = 0) (l : Nat) :
    c.lostLoc l = false := by
  by_cases hl : l < scratchBase
  · have hk : l / (48 * gib) < 683 := by simp only [scratchBase, gib] at *; omega
    simp [Chip.lostLoc, h _ hk, bit]
  · simp [Chip.lostLoc, hl]

@[simp] theorem Chip.memWf_touch (c : Chip) (line : Nat) : (c.touch line).memWf = c.memWf := Chip.memWf_congr rfl rfl

/-- A change of one step of a fold that keeps the form keeps it over the fold. -/
theorem Chip.memWf_foldl {β : Type} {f : Chip → β → Chip} (hf : ∀ c b, c.memWf = true → (f c b).memWf = true) :
    ∀ (l : List β) (c : Chip), c.memWf = true → (l.foldl f c).memWf = true
  | [], _, h => h
  | b :: t, c, h => Chip.memWf_foldl hf t (f c b) (hf c b h)

theorem Chip.memWf_writeLocs {c : Chip} (h : c.memWf = true) (ls : List Nat) (bs : List Byte) :
    (c.writeLocs ls bs).memWf = true := by
  have bytes := Chip.memWf_foldl (fun c (x : Nat × Byte) hc => Chip.memWf_setByte hc x.1 x.2) (ls.zip bs) c h
  unfold Chip.writeLocs
  refine Chip.memWf_foldl (fun c l hc => by simpa using hc) _ _ ?_
  exact (Chip.memWf_congr (c := (ls.zip bs).foldl (fun c x => c.setByte x.1 x.2) c) rfl rfl).trans bytes

/-- What each step of a fold keeps, the fold keeps. -/
theorem foldl_keeps {σ β : Type} {P : σ → Prop} {f : σ → β → σ} (hf : ∀ s b, P s → P (f s b)) :
    ∀ (l : List β) (s : σ), P s → P (l.foldl f s)
  | [], _, h => h
  | b :: t, s, h => foldl_keeps hf t (f s b) (hf s b h)

theorem Chip.rotateFrame_mem (c : Chip) (f : Nat) :
    (c.rotateFrame f).mem =
      (c.poison.filter fun l => l / (gib / 128) == f).foldl
        (fun m l => (rangeFrom (l * 128) 128).foldl (fun m a => KMap.set a 0 m) m)
        (KMap.drop (fun a => a / gib == f) c.mem) := rfl

theorem Chip.memWf_rotateFrame {c : Chip} (h : c.memWf = true) (f : Nat) : (c.rotateFrame f).memWf = true := by
  rw [Chip.memWf_iff] at *
  refine ⟨?_, h.2⟩
  rw [Chip.rotateFrame_mem]
  have line : ∀ (m : KMap Byte) (l : Nat), KMap.wf m = true →
      KMap.wf ((rangeFrom (l * 128) 128).foldl (fun m a => KMap.set a 0 m) m) = true := by
    intro m l hm
    generalize rangeFrom (l * 128) 128 = as
    exact foldl_keeps (P := fun m => KMap.wf m = true) (fun m a hm => KMap.wf_set a 0 hm) as m hm
  exact foldl_keeps (P := fun m => KMap.wf m = true) line _ _ (KMap.wf_drop _ h.1)

theorem Chip.memWf_rotateFrames {c : Chip} (h : c.memWf = true) (fs : List Nat) : (c.rotateFrames fs).memWf = true :=
  Chip.memWf_foldl (fun _ f hc => Chip.memWf_rotateFrame hc f) _ _ h

theorem KMap.wf_filter {m : KMap Byte} (h : KMap.wf m = true) (f : Nat → Bool) :
    KMap.wf (m.filter fun e => f e.1) = true := by
  have := KMap.wf_drop (fun k => !f k) h
  simpa [KMap.drop] using this

theorem Chip.memWf_zeroWay {c : Chip} (h : c.memWf = true) (w : Nat) : (c.zeroWay w).memWf = true := by
  rw [Chip.memWf_iff] at *
  exact ⟨h.1, KMap.wf_filter h.2.1 (fun k => (k - scratchBase) / (2048 * 128) % 16 != w),
    fun e he => h.2.2 e (List.mem_filter.1 he).1⟩

end Sys2Proof.Machine
end

