-- ==== Sys2Proof/Laws/State.lean ====
section
/-!
SUPPORT. What each update of the chip leaves in each of its fields.
-/

namespace Sys2Proof.Machine

/-! ## setRg -/

@[simp] theorem Chip.setRg_gtc (c : Chip) (a : Nat) (v : Word) : (c.setRg a v).gtc = c.gtc := rfl
@[simp] theorem Chip.setRg_ctr (c : Chip) (a : Nat) (v : Word) : (c.setRg a v).ctr = c.ctr := rfl
@[simp] theorem Chip.setRg_regs (c : Chip) (a : Nat) (v : Word) : (c.setRg a v).regs = KMap.put 0 a v c.regs := rfl
@[simp] theorem Chip.setRg_mem (c : Chip) (a : Nat) (v : Word) : (c.setRg a v).mem = c.mem := rfl
@[simp] theorem Chip.setRg_poison (c : Chip) (a : Nat) (v : Word) : (c.setRg a v).poison = c.poison := rfl
@[simp] theorem Chip.setRg_keyGen (c : Chip) (a : Nat) (v : Word) : (c.setRg a v).keyGen = c.keyGen := rfl
@[simp] theorem Chip.setRg_wseq (c : Chip) (a : Nat) (v : Word) : (c.setRg a v).wseq = c.wseq := rfl
@[simp] theorem Chip.setRg_oldWords (c : Chip) (a : Nat) (v : Word) : (c.setRg a v).oldWords = c.oldWords := rfl
@[simp] theorem Chip.setRg_scratch (c : Chip) (a : Nat) (v : Word) : (c.setRg a v).scratch = c.scratch := rfl
@[simp] theorem Chip.setRg_parts (c : Chip) (a : Nat) (v : Word) : (c.setRg a v).parts = c.parts := rfl
@[simp] theorem Chip.setRg_queues (c : Chip) (a : Nat) (v : Word) : (c.setRg a v).queues = c.queues := rfl
@[simp] theorem Chip.setRg_clusters (c : Chip) (a : Nat) (v : Word) : (c.setRg a v).clusters = c.clusters := rfl
@[simp] theorem Chip.setRg_waves (c : Chip) (a : Nat) (v : Word) : (c.setRg a v).waves = c.waves := rfl
@[simp] theorem Chip.setRg_grids (c : Chip) (a : Nat) (v : Word) : (c.setRg a v).grids = c.grids := rfl
@[simp] theorem Chip.setRg_hist (c : Chip) (a : Nat) (v : Word) : (c.setRg a v).hist = c.hist := rfl
@[simp] theorem Chip.setRg_lastStack (c : Chip) (a : Nat) (v : Word) : (c.setRg a v).lastStack = c.lastStack := rfl
@[simp] theorem Chip.setRg_fusedOff (c : Chip) (a : Nat) (v : Word) : (c.setRg a v).fusedOff = c.fusedOff := rfl
@[simp] theorem Chip.setRg_ras (c : Chip) (a : Nat) (v : Word) : (c.setRg a v).ras = c.ras := rfl
@[simp] theorem Chip.setRg_waitCtr (c : Chip) (a : Nat) (v : Word) : (c.setRg a v).waitCtr = c.waitCtr := rfl
@[simp] theorem Chip.setRg_reqs (c : Chip) (a : Nat) (v : Word) : (c.setRg a v).reqs = c.reqs := rfl
@[simp] theorem Chip.setRg_inbuf (c : Chip) (a : Nat) (v : Word) : (c.setRg a v).inbuf = c.inbuf := rfl
@[simp] theorem Chip.setRg_slices (c : Chip) (a : Nat) (v : Word) : (c.setRg a v).slices = c.slices := rfl
@[simp] theorem Chip.setRg_ways (c : Chip) (a : Nat) (v : Word) : (c.setRg a v).ways = c.ways := rfl
@[simp] theorem Chip.setRg_msix (c : Chip) (a : Nat) (v : Word) : (c.setRg a v).msix = c.msix := rfl
@[simp] theorem Chip.setRg_outbox (c : Chip) (a : Nat) (v : Word) : (c.setRg a v).outbox = c.outbox := rfl
@[simp] theorem Chip.setRg_timeIn (c : Chip) (a : Nat) (v : Word) : (c.setRg a v).timeIn = c.timeIn := rfl
@[simp] theorem Chip.setRg_lockRun (c : Chip) (a : Nat) (v : Word) : (c.setRg a v).lockRun = c.lockRun := rfl
@[simp] theorem Chip.setRg_gtcLatch (c : Chip) (a : Nat) (v : Word) : (c.setRg a v).gtcLatch = c.gtcLatch := rfl
@[simp] theorem Chip.setRg_bslots (c : Chip) (a : Nat) (v : Word) : (c.setRg a v).bslots = c.bslots := rfl
@[simp] theorem Chip.setRg_scans (c : Chip) (a : Nat) (v : Word) : (c.setRg a v).scans = c.scans := rfl
@[simp] theorem Chip.setRg_frameSlot (c : Chip) (a : Nat) (v : Word) : (c.setRg a v).frameSlot = c.frameSlot := rfl
@[simp] theorem Chip.setRg_elasticScan (c : Chip) (a : Nat) (v : Word) : (c.setRg a v).elasticScan = c.elasticScan := rfl
@[simp] theorem Chip.setRg_lastServed (c : Chip) (a : Nat) (v : Word) : (c.setRg a v).lastServed = c.lastServed := rfl
@[simp] theorem Chip.setRg_scanDebt (c : Chip) (a : Nat) (v : Word) : (c.setRg a v).scanDebt = c.scanDebt := rfl
@[simp] theorem Chip.setRg_chains (c : Chip) (a : Nat) (v : Word) : (c.setRg a v).chains = c.chains := rfl
@[simp] theorem Chip.setRg_tileRuns (c : Chip) (a : Nat) (v : Word) : (c.setRg a v).tileRuns = c.tileRuns := rfl
@[simp] theorem Chip.setRg_pipes (c : Chip) (a : Nat) (v : Word) : (c.setRg a v).pipes = c.pipes := rfl
@[simp] theorem Chip.setRg_windows (c : Chip) (a : Nat) (v : Word) : (c.setRg a v).windows = c.windows := rfl
@[simp] theorem Chip.setRg_lanes (c : Chip) (a : Nat) (v : Word) : (c.setRg a v).lanes = c.lanes := rfl
@[simp] theorem Chip.setRg_lanePart (c : Chip) (a : Nat) (v : Word) : (c.setRg a v).lanePart = c.lanePart := rfl
@[simp] theorem Chip.setRg_laneQueue (c : Chip) (a : Nat) (v : Word) : (c.setRg a v).laneQueue = c.laneQueue := rfl
@[simp] theorem Chip.setRg_sigs (c : Chip) (a : Nat) (v : Word) : (c.setRg a v).sigs = c.sigs := rfl
@[simp] theorem Chip.setRg_pwr (c : Chip) (a : Nat) (v : Word) : (c.setRg a v).pwr = c.pwr := rfl
@[simp] theorem Chip.setRg_stopped (c : Chip) (a : Nat) (v : Word) : (c.setRg a v).stopped = c.stopped := rfl
@[simp] theorem Chip.setRg_ports (c : Chip) (a : Nat) (v : Word) : (c.setRg a v).ports = c.ports := rfl
@[simp] theorem Chip.setRg_colls (c : Chip) (a : Nat) (v : Word) : (c.setRg a v).colls = c.colls := rfl
@[simp] theorem Chip.setRg_collHeld (c : Chip) (a : Nat) (v : Word) : (c.setRg a v).collHeld = c.collHeld := rfl
@[simp] theorem Chip.setRg_swaps (c : Chip) (a : Nat) (v : Word) : (c.setRg a v).swaps = c.swaps := rfl
@[simp] theorem Chip.setRg_sigIn (c : Chip) (a : Nat) (v : Word) : (c.setRg a v).sigIn = c.sigIn := rfl
@[simp] theorem Chip.setRg_pcie (c : Chip) (a : Nat) (v : Word) : (c.setRg a v).pcie = c.pcie := rfl
@[simp] theorem Chip.setRg_mgt (c : Chip) (a : Nat) (v : Word) : (c.setRg a v).mgt = c.mgt := rfl
@[simp] theorem Chip.setRg_sec (c : Chip) (a : Nat) (v : Word) : (c.setRg a v).sec = c.sec := rfl
@[simp] theorem Chip.setRg_powered (c : Chip) (a : Nat) (v : Word) : (c.setRg a v).powered = c.powered := rfl
@[simp] theorem Chip.setRg_perst (c : Chip) (a : Nat) (v : Word) : (c.setRg a v).perst = c.perst := rfl
@[simp] theorem Chip.setRg_faultN (c : Chip) (a : Nat) (v : Word) : (c.setRg a v).faultN = c.faultN := rfl
@[simp] theorem Chip.setRg_smbAlertN (c : Chip) (a : Nat) (v : Word) : (c.setRg a v).smbAlertN = c.smbAlertN := rfl
@[simp] theorem Chip.setRg_scanQueue (c : Chip) (a : Nat) (v : Word) : (c.setRg a v).scanQueue = c.scanQueue := rfl
@[simp] theorem Chip.setRg_stackPow (c : Chip) (a : Nat) (v : Word) : (c.setRg a v).stackPow = c.stackPow := rfl
@[simp] theorem Chip.setRg_engineLast (c : Chip) (a : Nat) (v : Word) : (c.setRg a v).engineLast = c.engineLast := rfl

/-! ## setFld -/

@[simp] theorem Chip.setFld_gtc (c : Chip) (f : Fld) (o v : Nat) : (c.setFld f o v).gtc = c.gtc := rfl
@[simp] theorem Chip.setFld_ctr (c : Chip) (f : Fld) (o v : Nat) : (c.setFld f o v).ctr = c.ctr := rfl
@[simp] theorem Chip.setFld_mem (c : Chip) (f : Fld) (o v : Nat) : (c.setFld f o v).mem = c.mem := rfl
@[simp] theorem Chip.setFld_poison (c : Chip) (f : Fld) (o v : Nat) : (c.setFld f o v).poison = c.poison := rfl
@[simp] theorem Chip.setFld_keyGen (c : Chip) (f : Fld) (o v : Nat) : (c.setFld f o v).keyGen = c.keyGen := rfl
@[simp] theorem Chip.setFld_wseq (c : Chip) (f : Fld) (o v : Nat) : (c.setFld f o v).wseq = c.wseq := rfl
@[simp] theorem Chip.setFld_oldWords (c : Chip) (f : Fld) (o v : Nat) : (c.setFld f o v).oldWords = c.oldWords := rfl
@[simp] theorem Chip.setFld_scratch (c : Chip) (f : Fld) (o v : Nat) : (c.setFld f o v).scratch = c.scratch := rfl
@[simp] theorem Chip.setFld_parts (c : Chip) (f : Fld) (o v : Nat) : (c.setFld f o v).parts = c.parts := rfl
@[simp] theorem Chip.setFld_queues (c : Chip) (f : Fld) (o v : Nat) : (c.setFld f o v).queues = c.queues := rfl
@[simp] theorem Chip.setFld_clusters (c : Chip) (f : Fld) (o v : Nat) : (c.setFld f o v).clusters = c.clusters := rfl
@[simp] theorem Chip.setFld_waves (c : Chip) (f : Fld) (o v : Nat) : (c.setFld f o v).waves = c.waves := rfl
@[simp] theorem Chip.setFld_grids (c : Chip) (f : Fld) (o v : Nat) : (c.setFld f o v).grids = c.grids := rfl
@[simp] theorem Chip.setFld_hist (c : Chip) (f : Fld) (o v : Nat) : (c.setFld f o v).hist = c.hist := rfl
@[simp] theorem Chip.setFld_lastStack (c : Chip) (f : Fld) (o v : Nat) : (c.setFld f o v).lastStack = c.lastStack := rfl
@[simp] theorem Chip.setFld_fusedOff (c : Chip) (f : Fld) (o v : Nat) : (c.setFld f o v).fusedOff = c.fusedOff := rfl
@[simp] theorem Chip.setFld_ras (c : Chip) (f : Fld) (o v : Nat) : (c.setFld f o v).ras = c.ras := rfl
@[simp] theorem Chip.setFld_waitCtr (c : Chip) (f : Fld) (o v : Nat) : (c.setFld f o v).waitCtr = c.waitCtr := rfl
@[simp] theorem Chip.setFld_reqs (c : Chip) (f : Fld) (o v : Nat) : (c.setFld f o v).reqs = c.reqs := rfl
@[simp] theorem Chip.setFld_inbuf (c : Chip) (f : Fld) (o v : Nat) : (c.setFld f o v).inbuf = c.inbuf := rfl
@[simp] theorem Chip.setFld_slices (c : Chip) (f : Fld) (o v : Nat) : (c.setFld f o v).slices = c.slices := rfl
@[simp] theorem Chip.setFld_ways (c : Chip) (f : Fld) (o v : Nat) : (c.setFld f o v).ways = c.ways := rfl
@[simp] theorem Chip.setFld_msix (c : Chip) (f : Fld) (o v : Nat) : (c.setFld f o v).msix = c.msix := rfl
@[simp] theorem Chip.setFld_outbox (c : Chip) (f : Fld) (o v : Nat) : (c.setFld f o v).outbox = c.outbox := rfl
@[simp] theorem Chip.setFld_timeIn (c : Chip) (f : Fld) (o v : Nat) : (c.setFld f o v).timeIn = c.timeIn := rfl
@[simp] theorem Chip.setFld_lockRun (c : Chip) (f : Fld) (o v : Nat) : (c.setFld f o v).lockRun = c.lockRun := rfl
@[simp] theorem Chip.setFld_gtcLatch (c : Chip) (f : Fld) (o v : Nat) : (c.setFld f o v).gtcLatch = c.gtcLatch := rfl
@[simp] theorem Chip.setFld_bslots (c : Chip) (f : Fld) (o v : Nat) : (c.setFld f o v).bslots = c.bslots := rfl
@[simp] theorem Chip.setFld_scans (c : Chip) (f : Fld) (o v : Nat) : (c.setFld f o v).scans = c.scans := rfl
@[simp] theorem Chip.setFld_frameSlot (c : Chip) (f : Fld) (o v : Nat) : (c.setFld f o v).frameSlot = c.frameSlot := rfl
@[simp] theorem Chip.setFld_elasticScan (c : Chip) (f : Fld) (o v : Nat) : (c.setFld f o v).elasticScan = c.elasticScan := rfl
@[simp] theorem Chip.setFld_lastServed (c : Chip) (f : Fld) (o v : Nat) : (c.setFld f o v).lastServed = c.lastServed := rfl
@[simp] theorem Chip.setFld_scanDebt (c : Chip) (f : Fld) (o v : Nat) : (c.setFld f o v).scanDebt = c.scanDebt := rfl
@[simp] theorem Chip.setFld_chains (c : Chip) (f : Fld) (o v : Nat) : (c.setFld f o v).chains = c.chains := rfl
@[simp] theorem Chip.setFld_tileRuns (c : Chip) (f : Fld) (o v : Nat) : (c.setFld f o v).tileRuns = c.tileRuns := rfl
@[simp] theorem Chip.setFld_pipes (c : Chip) (f : Fld) (o v : Nat) : (c.setFld f o v).pipes = c.pipes := rfl
@[simp] theorem Chip.setFld_windows (c : Chip) (f : Fld) (o v : Nat) : (c.setFld f o v).windows = c.windows := rfl
@[simp] theorem Chip.setFld_lanes (c : Chip) (f : Fld) (o v : Nat) : (c.setFld f o v).lanes = c.lanes := rfl
@[simp] theorem Chip.setFld_lanePart (c : Chip) (f : Fld) (o v : Nat) : (c.setFld f o v).lanePart = c.lanePart := rfl
@[simp] theorem Chip.setFld_laneQueue (c : Chip) (f : Fld) (o v : Nat) : (c.setFld f o v).laneQueue = c.laneQueue := rfl
@[simp] theorem Chip.setFld_sigs (c : Chip) (f : Fld) (o v : Nat) : (c.setFld f o v).sigs = c.sigs := rfl
@[simp] theorem Chip.setFld_pwr (c : Chip) (f : Fld) (o v : Nat) : (c.setFld f o v).pwr = c.pwr := rfl
@[simp] theorem Chip.setFld_stopped (c : Chip) (f : Fld) (o v : Nat) : (c.setFld f o v).stopped = c.stopped := rfl
@[simp] theorem Chip.setFld_ports (c : Chip) (f : Fld) (o v : Nat) : (c.setFld f o v).ports = c.ports := rfl
@[simp] theorem Chip.setFld_colls (c : Chip) (f : Fld) (o v : Nat) : (c.setFld f o v).colls = c.colls := rfl
@[simp] theorem Chip.setFld_collHeld (c : Chip) (f : Fld) (o v : Nat) : (c.setFld f o v).collHeld = c.collHeld := rfl
@[simp] theorem Chip.setFld_swaps (c : Chip) (f : Fld) (o v : Nat) : (c.setFld f o v).swaps = c.swaps := rfl
@[simp] theorem Chip.setFld_sigIn (c : Chip) (f : Fld) (o v : Nat) : (c.setFld f o v).sigIn = c.sigIn := rfl
@[simp] theorem Chip.setFld_pcie (c : Chip) (f : Fld) (o v : Nat) : (c.setFld f o v).pcie = c.pcie := rfl
@[simp] theorem Chip.setFld_mgt (c : Chip) (f : Fld) (o v : Nat) : (c.setFld f o v).mgt = c.mgt := rfl
@[simp] theorem Chip.setFld_sec (c : Chip) (f : Fld) (o v : Nat) : (c.setFld f o v).sec = c.sec := rfl
@[simp] theorem Chip.setFld_powered (c : Chip) (f : Fld) (o v : Nat) : (c.setFld f o v).powered = c.powered := rfl
@[simp] theorem Chip.setFld_perst (c : Chip) (f : Fld) (o v : Nat) : (c.setFld f o v).perst = c.perst := rfl
@[simp] theorem Chip.setFld_faultN (c : Chip) (f : Fld) (o v : Nat) : (c.setFld f o v).faultN = c.faultN := rfl
@[simp] theorem Chip.setFld_smbAlertN (c : Chip) (f : Fld) (o v : Nat) : (c.setFld f o v).smbAlertN = c.smbAlertN := rfl
@[simp] theorem Chip.setFld_scanQueue (c : Chip) (f : Fld) (o v : Nat) : (c.setFld f o v).scanQueue = c.scanQueue := rfl
@[simp] theorem Chip.setFld_stackPow (c : Chip) (f : Fld) (o v : Nat) : (c.setFld f o v).stackPow = c.stackPow := rfl
@[simp] theorem Chip.setFld_engineLast (c : Chip) (f : Fld) (o v : Nat) : (c.setFld f o v).engineLast = c.engineLast := rfl

/-! ## setQueue -/

@[simp] theorem Chip.setQueue_gtc (c : Chip) (q : Nat) (x : Queue) : (c.setQueue q x).gtc = c.gtc := rfl
@[simp] theorem Chip.setQueue_ctr (c : Chip) (q : Nat) (x : Queue) : (c.setQueue q x).ctr = c.ctr := rfl
@[simp] theorem Chip.setQueue_regs (c : Chip) (q : Nat) (x : Queue) : (c.setQueue q x).regs = c.regs := rfl
@[simp] theorem Chip.setQueue_mem (c : Chip) (q : Nat) (x : Queue) : (c.setQueue q x).mem = c.mem := rfl
@[simp] theorem Chip.setQueue_poison (c : Chip) (q : Nat) (x : Queue) : (c.setQueue q x).poison = c.poison := rfl
@[simp] theorem Chip.setQueue_keyGen (c : Chip) (q : Nat) (x : Queue) : (c.setQueue q x).keyGen = c.keyGen := rfl
@[simp] theorem Chip.setQueue_wseq (c : Chip) (q : Nat) (x : Queue) : (c.setQueue q x).wseq = c.wseq := rfl
@[simp] theorem Chip.setQueue_oldWords (c : Chip) (q : Nat) (x : Queue) : (c.setQueue q x).oldWords = c.oldWords := rfl
@[simp] theorem Chip.setQueue_scratch (c : Chip) (q : Nat) (x : Queue) : (c.setQueue q x).scratch = c.scratch := rfl
@[simp] theorem Chip.setQueue_parts (c : Chip) (q : Nat) (x : Queue) : (c.setQueue q x).parts = c.parts := rfl
@[simp] theorem Chip.setQueue_queues (c : Chip) (q : Nat) (x : Queue) : (c.setQueue q x).queues = KMap.set q x c.queues := rfl
@[simp] theorem Chip.setQueue_clusters (c : Chip) (q : Nat) (x : Queue) : (c.setQueue q x).clusters = c.clusters := rfl
@[simp] theorem Chip.setQueue_waves (c : Chip) (q : Nat) (x : Queue) : (c.setQueue q x).waves = c.waves := rfl
@[simp] theorem Chip.setQueue_grids (c : Chip) (q : Nat) (x : Queue) : (c.setQueue q x).grids = c.grids := rfl
@[simp] theorem Chip.setQueue_hist (c : Chip) (q : Nat) (x : Queue) : (c.setQueue q x).hist = c.hist := rfl
@[simp] theorem Chip.setQueue_lastStack (c : Chip) (q : Nat) (x : Queue) : (c.setQueue q x).lastStack = c.lastStack := rfl
@[simp] theorem Chip.setQueue_fusedOff (c : Chip) (q : Nat) (x : Queue) : (c.setQueue q x).fusedOff = c.fusedOff := rfl
@[simp] theorem Chip.setQueue_ras (c : Chip) (q : Nat) (x : Queue) : (c.setQueue q x).ras = c.ras := rfl
@[simp] theorem Chip.setQueue_waitCtr (c : Chip) (q : Nat) (x : Queue) : (c.setQueue q x).waitCtr = c.waitCtr := rfl
@[simp] theorem Chip.setQueue_reqs (c : Chip) (q : Nat) (x : Queue) : (c.setQueue q x).reqs = c.reqs := rfl
@[simp] theorem Chip.setQueue_inbuf (c : Chip) (q : Nat) (x : Queue) : (c.setQueue q x).inbuf = c.inbuf := rfl
@[simp] theorem Chip.setQueue_slices (c : Chip) (q : Nat) (x : Queue) : (c.setQueue q x).slices = c.slices := rfl
@[simp] theorem Chip.setQueue_ways (c : Chip) (q : Nat) (x : Queue) : (c.setQueue q x).ways = c.ways := rfl
@[simp] theorem Chip.setQueue_msix (c : Chip) (q : Nat) (x : Queue) : (c.setQueue q x).msix = c.msix := rfl
@[simp] theorem Chip.setQueue_outbox (c : Chip) (q : Nat) (x : Queue) : (c.setQueue q x).outbox = c.outbox := rfl
@[simp] theorem Chip.setQueue_timeIn (c : Chip) (q : Nat) (x : Queue) : (c.setQueue q x).timeIn = c.timeIn := rfl
@[simp] theorem Chip.setQueue_lockRun (c : Chip) (q : Nat) (x : Queue) : (c.setQueue q x).lockRun = c.lockRun := rfl
@[simp] theorem Chip.setQueue_gtcLatch (c : Chip) (q : Nat) (x : Queue) : (c.setQueue q x).gtcLatch = c.gtcLatch := rfl
@[simp] theorem Chip.setQueue_bslots (c : Chip) (q : Nat) (x : Queue) : (c.setQueue q x).bslots = c.bslots := rfl
@[simp] theorem Chip.setQueue_scans (c : Chip) (q : Nat) (x : Queue) : (c.setQueue q x).scans = c.scans := rfl
@[simp] theorem Chip.setQueue_frameSlot (c : Chip) (q : Nat) (x : Queue) : (c.setQueue q x).frameSlot = c.frameSlot := rfl
@[simp] theorem Chip.setQueue_elasticScan (c : Chip) (q : Nat) (x : Queue) : (c.setQueue q x).elasticScan = c.elasticScan := rfl
@[simp] theorem Chip.setQueue_lastServed (c : Chip) (q : Nat) (x : Queue) : (c.setQueue q x).lastServed = c.lastServed := rfl
@[simp] theorem Chip.setQueue_scanDebt (c : Chip) (q : Nat) (x : Queue) : (c.setQueue q x).scanDebt = c.scanDebt := rfl
@[simp] theorem Chip.setQueue_chains (c : Chip) (q : Nat) (x : Queue) : (c.setQueue q x).chains = c.chains := rfl
@[simp] theorem Chip.setQueue_tileRuns (c : Chip) (q : Nat) (x : Queue) : (c.setQueue q x).tileRuns = c.tileRuns := rfl
@[simp] theorem Chip.setQueue_pipes (c : Chip) (q : Nat) (x : Queue) : (c.setQueue q x).pipes = c.pipes := rfl
@[simp] theorem Chip.setQueue_windows (c : Chip) (q : Nat) (x : Queue) : (c.setQueue q x).windows = c.windows := rfl
@[simp] theorem Chip.setQueue_lanes (c : Chip) (q : Nat) (x : Queue) : (c.setQueue q x).lanes = c.lanes := rfl
@[simp] theorem Chip.setQueue_lanePart (c : Chip) (q : Nat) (x : Queue) : (c.setQueue q x).lanePart = c.lanePart := rfl
@[simp] theorem Chip.setQueue_laneQueue (c : Chip) (q : Nat) (x : Queue) : (c.setQueue q x).laneQueue = c.laneQueue := rfl
@[simp] theorem Chip.setQueue_sigs (c : Chip) (q : Nat) (x : Queue) : (c.setQueue q x).sigs = c.sigs := rfl
@[simp] theorem Chip.setQueue_pwr (c : Chip) (q : Nat) (x : Queue) : (c.setQueue q x).pwr = c.pwr := rfl
@[simp] theorem Chip.setQueue_stopped (c : Chip) (q : Nat) (x : Queue) : (c.setQueue q x).stopped = c.stopped := rfl
@[simp] theorem Chip.setQueue_ports (c : Chip) (q : Nat) (x : Queue) : (c.setQueue q x).ports = c.ports := rfl
@[simp] theorem Chip.setQueue_colls (c : Chip) (q : Nat) (x : Queue) : (c.setQueue q x).colls = c.colls := rfl
@[simp] theorem Chip.setQueue_collHeld (c : Chip) (q : Nat) (x : Queue) : (c.setQueue q x).collHeld = c.collHeld := rfl
@[simp] theorem Chip.setQueue_swaps (c : Chip) (q : Nat) (x : Queue) : (c.setQueue q x).swaps = c.swaps := rfl
@[simp] theorem Chip.setQueue_sigIn (c : Chip) (q : Nat) (x : Queue) : (c.setQueue q x).sigIn = c.sigIn := rfl
@[simp] theorem Chip.setQueue_pcie (c : Chip) (q : Nat) (x : Queue) : (c.setQueue q x).pcie = c.pcie := rfl
@[simp] theorem Chip.setQueue_mgt (c : Chip) (q : Nat) (x : Queue) : (c.setQueue q x).mgt = c.mgt := rfl
@[simp] theorem Chip.setQueue_sec (c : Chip) (q : Nat) (x : Queue) : (c.setQueue q x).sec = c.sec := rfl
@[simp] theorem Chip.setQueue_powered (c : Chip) (q : Nat) (x : Queue) : (c.setQueue q x).powered = c.powered := rfl
@[simp] theorem Chip.setQueue_perst (c : Chip) (q : Nat) (x : Queue) : (c.setQueue q x).perst = c.perst := rfl
@[simp] theorem Chip.setQueue_faultN (c : Chip) (q : Nat) (x : Queue) : (c.setQueue q x).faultN = c.faultN := rfl
@[simp] theorem Chip.setQueue_smbAlertN (c : Chip) (q : Nat) (x : Queue) : (c.setQueue q x).smbAlertN = c.smbAlertN := rfl
@[simp] theorem Chip.setQueue_scanQueue (c : Chip) (q : Nat) (x : Queue) : (c.setQueue q x).scanQueue = c.scanQueue := rfl
@[simp] theorem Chip.setQueue_stackPow (c : Chip) (q : Nat) (x : Queue) : (c.setQueue q x).stackPow = c.stackPow := rfl
@[simp] theorem Chip.setQueue_engineLast (c : Chip) (q : Nat) (x : Queue) : (c.setQueue q x).engineLast = c.engineLast := rfl

/-! ## setPart -/

@[simp] theorem Chip.setPart_gtc (c : Chip) (p : Nat) (x : Part) : (c.setPart p x).gtc = c.gtc := rfl
@[simp] theorem Chip.setPart_ctr (c : Chip) (p : Nat) (x : Part) : (c.setPart p x).ctr = c.ctr := rfl
@[simp] theorem Chip.setPart_regs (c : Chip) (p : Nat) (x : Part) : (c.setPart p x).regs = c.regs := rfl
@[simp] theorem Chip.setPart_mem (c : Chip) (p : Nat) (x : Part) : (c.setPart p x).mem = c.mem := rfl
@[simp] theorem Chip.setPart_poison (c : Chip) (p : Nat) (x : Part) : (c.setPart p x).poison = c.poison := rfl
@[simp] theorem Chip.setPart_keyGen (c : Chip) (p : Nat) (x : Part) : (c.setPart p x).keyGen = c.keyGen := rfl
@[simp] theorem Chip.setPart_wseq (c : Chip) (p : Nat) (x : Part) : (c.setPart p x).wseq = c.wseq := rfl
@[simp] theorem Chip.setPart_oldWords (c : Chip) (p : Nat) (x : Part) : (c.setPart p x).oldWords = c.oldWords := rfl
@[simp] theorem Chip.setPart_scratch (c : Chip) (p : Nat) (x : Part) : (c.setPart p x).scratch = c.scratch := rfl
@[simp] theorem Chip.setPart_parts (c : Chip) (p : Nat) (x : Part) : (c.setPart p x).parts = KMap.set p x c.parts := rfl
@[simp] theorem Chip.setPart_queues (c : Chip) (p : Nat) (x : Part) : (c.setPart p x).queues = c.queues := rfl
@[simp] theorem Chip.setPart_clusters (c : Chip) (p : Nat) (x : Part) : (c.setPart p x).clusters = c.clusters := rfl
@[simp] theorem Chip.setPart_waves (c : Chip) (p : Nat) (x : Part) : (c.setPart p x).waves = c.waves := rfl
@[simp] theorem Chip.setPart_grids (c : Chip) (p : Nat) (x : Part) : (c.setPart p x).grids = c.grids := rfl
@[simp] theorem Chip.setPart_hist (c : Chip) (p : Nat) (x : Part) : (c.setPart p x).hist = c.hist := rfl
@[simp] theorem Chip.setPart_lastStack (c : Chip) (p : Nat) (x : Part) : (c.setPart p x).lastStack = c.lastStack := rfl
@[simp] theorem Chip.setPart_fusedOff (c : Chip) (p : Nat) (x : Part) : (c.setPart p x).fusedOff = c.fusedOff := rfl
@[simp] theorem Chip.setPart_ras (c : Chip) (p : Nat) (x : Part) : (c.setPart p x).ras = c.ras := rfl
@[simp] theorem Chip.setPart_waitCtr (c : Chip) (p : Nat) (x : Part) : (c.setPart p x).waitCtr = c.waitCtr := rfl
@[simp] theorem Chip.setPart_reqs (c : Chip) (p : Nat) (x : Part) : (c.setPart p x).reqs = c.reqs := rfl
@[simp] theorem Chip.setPart_inbuf (c : Chip) (p : Nat) (x : Part) : (c.setPart p x).inbuf = c.inbuf := rfl
@[simp] theorem Chip.setPart_slices (c : Chip) (p : Nat) (x : Part) : (c.setPart p x).slices = c.slices := rfl
@[simp] theorem Chip.setPart_ways (c : Chip) (p : Nat) (x : Part) : (c.setPart p x).ways = c.ways := rfl
@[simp] theorem Chip.setPart_msix (c : Chip) (p : Nat) (x : Part) : (c.setPart p x).msix = c.msix := rfl
@[simp] theorem Chip.setPart_outbox (c : Chip) (p : Nat) (x : Part) : (c.setPart p x).outbox = c.outbox := rfl
@[simp] theorem Chip.setPart_timeIn (c : Chip) (p : Nat) (x : Part) : (c.setPart p x).timeIn = c.timeIn := rfl
@[simp] theorem Chip.setPart_lockRun (c : Chip) (p : Nat) (x : Part) : (c.setPart p x).lockRun = c.lockRun := rfl
@[simp] theorem Chip.setPart_gtcLatch (c : Chip) (p : Nat) (x : Part) : (c.setPart p x).gtcLatch = c.gtcLatch := rfl
@[simp] theorem Chip.setPart_bslots (c : Chip) (p : Nat) (x : Part) : (c.setPart p x).bslots = c.bslots := rfl
@[simp] theorem Chip.setPart_scans (c : Chip) (p : Nat) (x : Part) : (c.setPart p x).scans = c.scans := rfl
@[simp] theorem Chip.setPart_frameSlot (c : Chip) (p : Nat) (x : Part) : (c.setPart p x).frameSlot = c.frameSlot := rfl
@[simp] theorem Chip.setPart_elasticScan (c : Chip) (p : Nat) (x : Part) : (c.setPart p x).elasticScan = c.elasticScan := rfl
@[simp] theorem Chip.setPart_lastServed (c : Chip) (p : Nat) (x : Part) : (c.setPart p x).lastServed = c.lastServed := rfl
@[simp] theorem Chip.setPart_scanDebt (c : Chip) (p : Nat) (x : Part) : (c.setPart p x).scanDebt = c.scanDebt := rfl
@[simp] theorem Chip.setPart_chains (c : Chip) (p : Nat) (x : Part) : (c.setPart p x).chains = c.chains := rfl
@[simp] theorem Chip.setPart_tileRuns (c : Chip) (p : Nat) (x : Part) : (c.setPart p x).tileRuns = c.tileRuns := rfl
@[simp] theorem Chip.setPart_pipes (c : Chip) (p : Nat) (x : Part) : (c.setPart p x).pipes = c.pipes := rfl
@[simp] theorem Chip.setPart_windows (c : Chip) (p : Nat) (x : Part) : (c.setPart p x).windows = c.windows := rfl
@[simp] theorem Chip.setPart_lanes (c : Chip) (p : Nat) (x : Part) : (c.setPart p x).lanes = c.lanes := rfl
@[simp] theorem Chip.setPart_lanePart (c : Chip) (p : Nat) (x : Part) : (c.setPart p x).lanePart = c.lanePart := rfl
@[simp] theorem Chip.setPart_laneQueue (c : Chip) (p : Nat) (x : Part) : (c.setPart p x).laneQueue = c.laneQueue := rfl
@[simp] theorem Chip.setPart_sigs (c : Chip) (p : Nat) (x : Part) : (c.setPart p x).sigs = c.sigs := rfl
@[simp] theorem Chip.setPart_pwr (c : Chip) (p : Nat) (x : Part) : (c.setPart p x).pwr = c.pwr := rfl
@[simp] theorem Chip.setPart_stopped (c : Chip) (p : Nat) (x : Part) : (c.setPart p x).stopped = c.stopped := rfl
@[simp] theorem Chip.setPart_ports (c : Chip) (p : Nat) (x : Part) : (c.setPart p x).ports = c.ports := rfl
@[simp] theorem Chip.setPart_colls (c : Chip) (p : Nat) (x : Part) : (c.setPart p x).colls = c.colls := rfl
@[simp] theorem Chip.setPart_collHeld (c : Chip) (p : Nat) (x : Part) : (c.setPart p x).collHeld = c.collHeld := rfl
@[simp] theorem Chip.setPart_swaps (c : Chip) (p : Nat) (x : Part) : (c.setPart p x).swaps = c.swaps := rfl
@[simp] theorem Chip.setPart_sigIn (c : Chip) (p : Nat) (x : Part) : (c.setPart p x).sigIn = c.sigIn := rfl
@[simp] theorem Chip.setPart_pcie (c : Chip) (p : Nat) (x : Part) : (c.setPart p x).pcie = c.pcie := rfl
@[simp] theorem Chip.setPart_mgt (c : Chip) (p : Nat) (x : Part) : (c.setPart p x).mgt = c.mgt := rfl
@[simp] theorem Chip.setPart_sec (c : Chip) (p : Nat) (x : Part) : (c.setPart p x).sec = c.sec := rfl
@[simp] theorem Chip.setPart_powered (c : Chip) (p : Nat) (x : Part) : (c.setPart p x).powered = c.powered := rfl
@[simp] theorem Chip.setPart_perst (c : Chip) (p : Nat) (x : Part) : (c.setPart p x).perst = c.perst := rfl
@[simp] theorem Chip.setPart_faultN (c : Chip) (p : Nat) (x : Part) : (c.setPart p x).faultN = c.faultN := rfl
@[simp] theorem Chip.setPart_smbAlertN (c : Chip) (p : Nat) (x : Part) : (c.setPart p x).smbAlertN = c.smbAlertN := rfl
@[simp] theorem Chip.setPart_scanQueue (c : Chip) (p : Nat) (x : Part) : (c.setPart p x).scanQueue = c.scanQueue := rfl
@[simp] theorem Chip.setPart_stackPow (c : Chip) (p : Nat) (x : Part) : (c.setPart p x).stackPow = c.stackPow := rfl
@[simp] theorem Chip.setPart_engineLast (c : Chip) (p : Nat) (x : Part) : (c.setPart p x).engineLast = c.engineLast := rfl

/-! ## setCluster -/

@[simp] theorem Chip.setCluster_gtc (c : Chip) (i : Nat) (x : Cluster) : (c.setCluster i x).gtc = c.gtc := rfl
@[simp] theorem Chip.setCluster_ctr (c : Chip) (i : Nat) (x : Cluster) : (c.setCluster i x).ctr = c.ctr := rfl
@[simp] theorem Chip.setCluster_regs (c : Chip) (i : Nat) (x : Cluster) : (c.setCluster i x).regs = c.regs := rfl
@[simp] theorem Chip.setCluster_mem (c : Chip) (i : Nat) (x : Cluster) : (c.setCluster i x).mem = c.mem := rfl
@[simp] theorem Chip.setCluster_poison (c : Chip) (i : Nat) (x : Cluster) : (c.setCluster i x).poison = c.poison := rfl
@[simp] theorem Chip.setCluster_keyGen (c : Chip) (i : Nat) (x : Cluster) : (c.setCluster i x).keyGen = c.keyGen := rfl
@[simp] theorem Chip.setCluster_wseq (c : Chip) (i : Nat) (x : Cluster) : (c.setCluster i x).wseq = c.wseq := rfl
@[simp] theorem Chip.setCluster_oldWords (c : Chip) (i : Nat) (x : Cluster) : (c.setCluster i x).oldWords = c.oldWords := rfl
@[simp] theorem Chip.setCluster_scratch (c : Chip) (i : Nat) (x : Cluster) : (c.setCluster i x).scratch = c.scratch := rfl
@[simp] theorem Chip.setCluster_parts (c : Chip) (i : Nat) (x : Cluster) : (c.setCluster i x).parts = c.parts := rfl
@[simp] theorem Chip.setCluster_queues (c : Chip) (i : Nat) (x : Cluster) : (c.setCluster i x).queues = c.queues := rfl
@[simp] theorem Chip.setCluster_clusters (c : Chip) (i : Nat) (x : Cluster) : (c.setCluster i x).clusters = KMap.set i x c.clusters := rfl
@[simp] theorem Chip.setCluster_waves (c : Chip) (i : Nat) (x : Cluster) : (c.setCluster i x).waves = c.waves := rfl
@[simp] theorem Chip.setCluster_grids (c : Chip) (i : Nat) (x : Cluster) : (c.setCluster i x).grids = c.grids := rfl
@[simp] theorem Chip.setCluster_hist (c : Chip) (i : Nat) (x : Cluster) : (c.setCluster i x).hist = c.hist := rfl
@[simp] theorem Chip.setCluster_lastStack (c : Chip) (i : Nat) (x : Cluster) : (c.setCluster i x).lastStack = c.lastStack := rfl
@[simp] theorem Chip.setCluster_fusedOff (c : Chip) (i : Nat) (x : Cluster) : (c.setCluster i x).fusedOff = c.fusedOff := rfl
@[simp] theorem Chip.setCluster_ras (c : Chip) (i : Nat) (x : Cluster) : (c.setCluster i x).ras = c.ras := rfl
@[simp] theorem Chip.setCluster_waitCtr (c : Chip) (i : Nat) (x : Cluster) : (c.setCluster i x).waitCtr = c.waitCtr := rfl
@[simp] theorem Chip.setCluster_reqs (c : Chip) (i : Nat) (x : Cluster) : (c.setCluster i x).reqs = c.reqs := rfl
@[simp] theorem Chip.setCluster_inbuf (c : Chip) (i : Nat) (x : Cluster) : (c.setCluster i x).inbuf = c.inbuf := rfl
@[simp] theorem Chip.setCluster_slices (c : Chip) (i : Nat) (x : Cluster) : (c.setCluster i x).slices = c.slices := rfl
@[simp] theorem Chip.setCluster_ways (c : Chip) (i : Nat) (x : Cluster) : (c.setCluster i x).ways = c.ways := rfl
@[simp] theorem Chip.setCluster_msix (c : Chip) (i : Nat) (x : Cluster) : (c.setCluster i x).msix = c.msix := rfl
@[simp] theorem Chip.setCluster_outbox (c : Chip) (i : Nat) (x : Cluster) : (c.setCluster i x).outbox = c.outbox := rfl
@[simp] theorem Chip.setCluster_timeIn (c : Chip) (i : Nat) (x : Cluster) : (c.setCluster i x).timeIn = c.timeIn := rfl
@[simp] theorem Chip.setCluster_lockRun (c : Chip) (i : Nat) (x : Cluster) : (c.setCluster i x).lockRun = c.lockRun := rfl
@[simp] theorem Chip.setCluster_gtcLatch (c : Chip) (i : Nat) (x : Cluster) : (c.setCluster i x).gtcLatch = c.gtcLatch := rfl
@[simp] theorem Chip.setCluster_bslots (c : Chip) (i : Nat) (x : Cluster) : (c.setCluster i x).bslots = c.bslots := rfl
@[simp] theorem Chip.setCluster_scans (c : Chip) (i : Nat) (x : Cluster) : (c.setCluster i x).scans = c.scans := rfl
@[simp] theorem Chip.setCluster_frameSlot (c : Chip) (i : Nat) (x : Cluster) : (c.setCluster i x).frameSlot = c.frameSlot := rfl
@[simp] theorem Chip.setCluster_elasticScan (c : Chip) (i : Nat) (x : Cluster) : (c.setCluster i x).elasticScan = c.elasticScan := rfl
@[simp] theorem Chip.setCluster_lastServed (c : Chip) (i : Nat) (x : Cluster) : (c.setCluster i x).lastServed = c.lastServed := rfl
@[simp] theorem Chip.setCluster_scanDebt (c : Chip) (i : Nat) (x : Cluster) : (c.setCluster i x).scanDebt = c.scanDebt := rfl
@[simp] theorem Chip.setCluster_chains (c : Chip) (i : Nat) (x : Cluster) : (c.setCluster i x).chains = c.chains := rfl
@[simp] theorem Chip.setCluster_tileRuns (c : Chip) (i : Nat) (x : Cluster) : (c.setCluster i x).tileRuns = c.tileRuns := rfl
@[simp] theorem Chip.setCluster_pipes (c : Chip) (i : Nat) (x : Cluster) : (c.setCluster i x).pipes = c.pipes := rfl
@[simp] theorem Chip.setCluster_windows (c : Chip) (i : Nat) (x : Cluster) : (c.setCluster i x).windows = c.windows := rfl
@[simp] theorem Chip.setCluster_lanes (c : Chip) (i : Nat) (x : Cluster) : (c.setCluster i x).lanes = c.lanes := rfl
@[simp] theorem Chip.setCluster_lanePart (c : Chip) (i : Nat) (x : Cluster) : (c.setCluster i x).lanePart = c.lanePart := rfl
@[simp] theorem Chip.setCluster_laneQueue (c : Chip) (i : Nat) (x : Cluster) : (c.setCluster i x).laneQueue = c.laneQueue := rfl
@[simp] theorem Chip.setCluster_sigs (c : Chip) (i : Nat) (x : Cluster) : (c.setCluster i x).sigs = c.sigs := rfl
@[simp] theorem Chip.setCluster_pwr (c : Chip) (i : Nat) (x : Cluster) : (c.setCluster i x).pwr = c.pwr := rfl
@[simp] theorem Chip.setCluster_stopped (c : Chip) (i : Nat) (x : Cluster) : (c.setCluster i x).stopped = c.stopped := rfl
@[simp] theorem Chip.setCluster_ports (c : Chip) (i : Nat) (x : Cluster) : (c.setCluster i x).ports = c.ports := rfl
@[simp] theorem Chip.setCluster_colls (c : Chip) (i : Nat) (x : Cluster) : (c.setCluster i x).colls = c.colls := rfl
@[simp] theorem Chip.setCluster_collHeld (c : Chip) (i : Nat) (x : Cluster) : (c.setCluster i x).collHeld = c.collHeld := rfl
@[simp] theorem Chip.setCluster_swaps (c : Chip) (i : Nat) (x : Cluster) : (c.setCluster i x).swaps = c.swaps := rfl
@[simp] theorem Chip.setCluster_sigIn (c : Chip) (i : Nat) (x : Cluster) : (c.setCluster i x).sigIn = c.sigIn := rfl
@[simp] theorem Chip.setCluster_pcie (c : Chip) (i : Nat) (x : Cluster) : (c.setCluster i x).pcie = c.pcie := rfl
@[simp] theorem Chip.setCluster_mgt (c : Chip) (i : Nat) (x : Cluster) : (c.setCluster i x).mgt = c.mgt := rfl
@[simp] theorem Chip.setCluster_sec (c : Chip) (i : Nat) (x : Cluster) : (c.setCluster i x).sec = c.sec := rfl
@[simp] theorem Chip.setCluster_powered (c : Chip) (i : Nat) (x : Cluster) : (c.setCluster i x).powered = c.powered := rfl
@[simp] theorem Chip.setCluster_perst (c : Chip) (i : Nat) (x : Cluster) : (c.setCluster i x).perst = c.perst := rfl
@[simp] theorem Chip.setCluster_faultN (c : Chip) (i : Nat) (x : Cluster) : (c.setCluster i x).faultN = c.faultN := rfl
@[simp] theorem Chip.setCluster_smbAlertN (c : Chip) (i : Nat) (x : Cluster) : (c.setCluster i x).smbAlertN = c.smbAlertN := rfl
@[simp] theorem Chip.setCluster_scanQueue (c : Chip) (i : Nat) (x : Cluster) : (c.setCluster i x).scanQueue = c.scanQueue := rfl
@[simp] theorem Chip.setCluster_stackPow (c : Chip) (i : Nat) (x : Cluster) : (c.setCluster i x).stackPow = c.stackPow := rfl
@[simp] theorem Chip.setCluster_engineLast (c : Chip) (i : Nat) (x : Cluster) : (c.setCluster i x).engineLast = c.engineLast := rfl

/-! ## setWave -/

@[simp] theorem Chip.setWave_gtc (c : Chip) (k : Nat) (w : Wave) : (c.setWave k w).gtc = c.gtc := rfl
@[simp] theorem Chip.setWave_ctr (c : Chip) (k : Nat) (w : Wave) : (c.setWave k w).ctr = c.ctr := rfl
@[simp] theorem Chip.setWave_regs (c : Chip) (k : Nat) (w : Wave) : (c.setWave k w).regs = c.regs := rfl
@[simp] theorem Chip.setWave_mem (c : Chip) (k : Nat) (w : Wave) : (c.setWave k w).mem = c.mem := rfl
@[simp] theorem Chip.setWave_poison (c : Chip) (k : Nat) (w : Wave) : (c.setWave k w).poison = c.poison := rfl
@[simp] theorem Chip.setWave_keyGen (c : Chip) (k : Nat) (w : Wave) : (c.setWave k w).keyGen = c.keyGen := rfl
@[simp] theorem Chip.setWave_wseq (c : Chip) (k : Nat) (w : Wave) : (c.setWave k w).wseq = c.wseq := rfl
@[simp] theorem Chip.setWave_oldWords (c : Chip) (k : Nat) (w : Wave) : (c.setWave k w).oldWords = c.oldWords := rfl
@[simp] theorem Chip.setWave_scratch (c : Chip) (k : Nat) (w : Wave) : (c.setWave k w).scratch = c.scratch := rfl
@[simp] theorem Chip.setWave_parts (c : Chip) (k : Nat) (w : Wave) : (c.setWave k w).parts = c.parts := rfl
@[simp] theorem Chip.setWave_queues (c : Chip) (k : Nat) (w : Wave) : (c.setWave k w).queues = c.queues := rfl
@[simp] theorem Chip.setWave_clusters (c : Chip) (k : Nat) (w : Wave) : (c.setWave k w).clusters = c.clusters := rfl
@[simp] theorem Chip.setWave_waves (c : Chip) (k : Nat) (w : Wave) : (c.setWave k w).waves = KMap.set k w c.waves := rfl
@[simp] theorem Chip.setWave_grids (c : Chip) (k : Nat) (w : Wave) : (c.setWave k w).grids = c.grids := rfl
@[simp] theorem Chip.setWave_hist (c : Chip) (k : Nat) (w : Wave) : (c.setWave k w).hist = c.hist := rfl
@[simp] theorem Chip.setWave_lastStack (c : Chip) (k : Nat) (w : Wave) : (c.setWave k w).lastStack = c.lastStack := rfl
@[simp] theorem Chip.setWave_fusedOff (c : Chip) (k : Nat) (w : Wave) : (c.setWave k w).fusedOff = c.fusedOff := rfl
@[simp] theorem Chip.setWave_ras (c : Chip) (k : Nat) (w : Wave) : (c.setWave k w).ras = c.ras := rfl
@[simp] theorem Chip.setWave_waitCtr (c : Chip) (k : Nat) (w : Wave) : (c.setWave k w).waitCtr = c.waitCtr := rfl
@[simp] theorem Chip.setWave_reqs (c : Chip) (k : Nat) (w : Wave) : (c.setWave k w).reqs = c.reqs := rfl
@[simp] theorem Chip.setWave_inbuf (c : Chip) (k : Nat) (w : Wave) : (c.setWave k w).inbuf = c.inbuf := rfl
@[simp] theorem Chip.setWave_slices (c : Chip) (k : Nat) (w : Wave) : (c.setWave k w).slices = c.slices := rfl
@[simp] theorem Chip.setWave_ways (c : Chip) (k : Nat) (w : Wave) : (c.setWave k w).ways = c.ways := rfl
@[simp] theorem Chip.setWave_msix (c : Chip) (k : Nat) (w : Wave) : (c.setWave k w).msix = c.msix := rfl
@[simp] theorem Chip.setWave_outbox (c : Chip) (k : Nat) (w : Wave) : (c.setWave k w).outbox = c.outbox := rfl
@[simp] theorem Chip.setWave_timeIn (c : Chip) (k : Nat) (w : Wave) : (c.setWave k w).timeIn = c.timeIn := rfl
@[simp] theorem Chip.setWave_lockRun (c : Chip) (k : Nat) (w : Wave) : (c.setWave k w).lockRun = c.lockRun := rfl
@[simp] theorem Chip.setWave_gtcLatch (c : Chip) (k : Nat) (w : Wave) : (c.setWave k w).gtcLatch = c.gtcLatch := rfl
@[simp] theorem Chip.setWave_bslots (c : Chip) (k : Nat) (w : Wave) : (c.setWave k w).bslots = c.bslots := rfl
@[simp] theorem Chip.setWave_scans (c : Chip) (k : Nat) (w : Wave) : (c.setWave k w).scans = c.scans := rfl
@[simp] theorem Chip.setWave_frameSlot (c : Chip) (k : Nat) (w : Wave) : (c.setWave k w).frameSlot = c.frameSlot := rfl
@[simp] theorem Chip.setWave_elasticScan (c : Chip) (k : Nat) (w : Wave) : (c.setWave k w).elasticScan = c.elasticScan := rfl
@[simp] theorem Chip.setWave_lastServed (c : Chip) (k : Nat) (w : Wave) : (c.setWave k w).lastServed = c.lastServed := rfl
@[simp] theorem Chip.setWave_scanDebt (c : Chip) (k : Nat) (w : Wave) : (c.setWave k w).scanDebt = c.scanDebt := rfl
@[simp] theorem Chip.setWave_chains (c : Chip) (k : Nat) (w : Wave) : (c.setWave k w).chains = c.chains := rfl
@[simp] theorem Chip.setWave_tileRuns (c : Chip) (k : Nat) (w : Wave) : (c.setWave k w).tileRuns = c.tileRuns := rfl
@[simp] theorem Chip.setWave_pipes (c : Chip) (k : Nat) (w : Wave) : (c.setWave k w).pipes = c.pipes := rfl
@[simp] theorem Chip.setWave_windows (c : Chip) (k : Nat) (w : Wave) : (c.setWave k w).windows = c.windows := rfl
@[simp] theorem Chip.setWave_lanes (c : Chip) (k : Nat) (w : Wave) : (c.setWave k w).lanes = c.lanes := rfl
@[simp] theorem Chip.setWave_lanePart (c : Chip) (k : Nat) (w : Wave) : (c.setWave k w).lanePart = c.lanePart := rfl
@[simp] theorem Chip.setWave_laneQueue (c : Chip) (k : Nat) (w : Wave) : (c.setWave k w).laneQueue = c.laneQueue := rfl
@[simp] theorem Chip.setWave_sigs (c : Chip) (k : Nat) (w : Wave) : (c.setWave k w).sigs = c.sigs := rfl
@[simp] theorem Chip.setWave_pwr (c : Chip) (k : Nat) (w : Wave) : (c.setWave k w).pwr = c.pwr := rfl
@[simp] theorem Chip.setWave_stopped (c : Chip) (k : Nat) (w : Wave) : (c.setWave k w).stopped = c.stopped := rfl
@[simp] theorem Chip.setWave_ports (c : Chip) (k : Nat) (w : Wave) : (c.setWave k w).ports = c.ports := rfl
@[simp] theorem Chip.setWave_colls (c : Chip) (k : Nat) (w : Wave) : (c.setWave k w).colls = c.colls := rfl
@[simp] theorem Chip.setWave_collHeld (c : Chip) (k : Nat) (w : Wave) : (c.setWave k w).collHeld = c.collHeld := rfl
@[simp] theorem Chip.setWave_swaps (c : Chip) (k : Nat) (w : Wave) : (c.setWave k w).swaps = c.swaps := rfl
@[simp] theorem Chip.setWave_sigIn (c : Chip) (k : Nat) (w : Wave) : (c.setWave k w).sigIn = c.sigIn := rfl
@[simp] theorem Chip.setWave_pcie (c : Chip) (k : Nat) (w : Wave) : (c.setWave k w).pcie = c.pcie := rfl
@[simp] theorem Chip.setWave_mgt (c : Chip) (k : Nat) (w : Wave) : (c.setWave k w).mgt = c.mgt := rfl
@[simp] theorem Chip.setWave_sec (c : Chip) (k : Nat) (w : Wave) : (c.setWave k w).sec = c.sec := rfl
@[simp] theorem Chip.setWave_powered (c : Chip) (k : Nat) (w : Wave) : (c.setWave k w).powered = c.powered := rfl
@[simp] theorem Chip.setWave_perst (c : Chip) (k : Nat) (w : Wave) : (c.setWave k w).perst = c.perst := rfl
@[simp] theorem Chip.setWave_faultN (c : Chip) (k : Nat) (w : Wave) : (c.setWave k w).faultN = c.faultN := rfl
@[simp] theorem Chip.setWave_smbAlertN (c : Chip) (k : Nat) (w : Wave) : (c.setWave k w).smbAlertN = c.smbAlertN := rfl
@[simp] theorem Chip.setWave_scanQueue (c : Chip) (k : Nat) (w : Wave) : (c.setWave k w).scanQueue = c.scanQueue := rfl
@[simp] theorem Chip.setWave_stackPow (c : Chip) (k : Nat) (w : Wave) : (c.setWave k w).stackPow = c.stackPow := rfl
@[simp] theorem Chip.setWave_engineLast (c : Chip) (k : Nat) (w : Wave) : (c.setWave k w).engineLast = c.engineLast := rfl

/-! ## emit -/

@[simp] theorem Chip.emit_gtc (c : Chip) (o : Out) : (c.emit o).gtc = c.gtc := rfl
@[simp] theorem Chip.emit_ctr (c : Chip) (o : Out) : (c.emit o).ctr = c.ctr := rfl
@[simp] theorem Chip.emit_regs (c : Chip) (o : Out) : (c.emit o).regs = c.regs := rfl
@[simp] theorem Chip.emit_mem (c : Chip) (o : Out) : (c.emit o).mem = c.mem := rfl
@[simp] theorem Chip.emit_poison (c : Chip) (o : Out) : (c.emit o).poison = c.poison := rfl
@[simp] theorem Chip.emit_keyGen (c : Chip) (o : Out) : (c.emit o).keyGen = c.keyGen := rfl
@[simp] theorem Chip.emit_wseq (c : Chip) (o : Out) : (c.emit o).wseq = c.wseq := rfl
@[simp] theorem Chip.emit_oldWords (c : Chip) (o : Out) : (c.emit o).oldWords = c.oldWords := rfl
@[simp] theorem Chip.emit_scratch (c : Chip) (o : Out) : (c.emit o).scratch = c.scratch := rfl
@[simp] theorem Chip.emit_parts (c : Chip) (o : Out) : (c.emit o).parts = c.parts := rfl
@[simp] theorem Chip.emit_queues (c : Chip) (o : Out) : (c.emit o).queues = c.queues := rfl
@[simp] theorem Chip.emit_clusters (c : Chip) (o : Out) : (c.emit o).clusters = c.clusters := rfl
@[simp] theorem Chip.emit_waves (c : Chip) (o : Out) : (c.emit o).waves = c.waves := rfl
@[simp] theorem Chip.emit_grids (c : Chip) (o : Out) : (c.emit o).grids = c.grids := rfl
@[simp] theorem Chip.emit_hist (c : Chip) (o : Out) : (c.emit o).hist = c.hist := rfl
@[simp] theorem Chip.emit_lastStack (c : Chip) (o : Out) : (c.emit o).lastStack = c.lastStack := rfl
@[simp] theorem Chip.emit_fusedOff (c : Chip) (o : Out) : (c.emit o).fusedOff = c.fusedOff := rfl
@[simp] theorem Chip.emit_ras (c : Chip) (o : Out) : (c.emit o).ras = c.ras := rfl
@[simp] theorem Chip.emit_waitCtr (c : Chip) (o : Out) : (c.emit o).waitCtr = c.waitCtr := rfl
@[simp] theorem Chip.emit_reqs (c : Chip) (o : Out) : (c.emit o).reqs = c.reqs := rfl
@[simp] theorem Chip.emit_inbuf (c : Chip) (o : Out) : (c.emit o).inbuf = c.inbuf := rfl
@[simp] theorem Chip.emit_slices (c : Chip) (o : Out) : (c.emit o).slices = c.slices := rfl
@[simp] theorem Chip.emit_ways (c : Chip) (o : Out) : (c.emit o).ways = c.ways := rfl
@[simp] theorem Chip.emit_msix (c : Chip) (o : Out) : (c.emit o).msix = c.msix := rfl
@[simp] theorem Chip.emit_outbox (c : Chip) (o : Out) : (c.emit o).outbox = c.outbox ++ [o] := rfl
@[simp] theorem Chip.emit_timeIn (c : Chip) (o : Out) : (c.emit o).timeIn = c.timeIn := rfl
@[simp] theorem Chip.emit_lockRun (c : Chip) (o : Out) : (c.emit o).lockRun = c.lockRun := rfl
@[simp] theorem Chip.emit_gtcLatch (c : Chip) (o : Out) : (c.emit o).gtcLatch = c.gtcLatch := rfl
@[simp] theorem Chip.emit_bslots (c : Chip) (o : Out) : (c.emit o).bslots = c.bslots := rfl
@[simp] theorem Chip.emit_scans (c : Chip) (o : Out) : (c.emit o).scans = c.scans := rfl
@[simp] theorem Chip.emit_frameSlot (c : Chip) (o : Out) : (c.emit o).frameSlot = c.frameSlot := rfl
@[simp] theorem Chip.emit_elasticScan (c : Chip) (o : Out) : (c.emit o).elasticScan = c.elasticScan := rfl
@[simp] theorem Chip.emit_lastServed (c : Chip) (o : Out) : (c.emit o).lastServed = c.lastServed := rfl
@[simp] theorem Chip.emit_scanDebt (c : Chip) (o : Out) : (c.emit o).scanDebt = c.scanDebt := rfl
@[simp] theorem Chip.emit_chains (c : Chip) (o : Out) : (c.emit o).chains = c.chains := rfl
@[simp] theorem Chip.emit_tileRuns (c : Chip) (o : Out) : (c.emit o).tileRuns = c.tileRuns := rfl
@[simp] theorem Chip.emit_pipes (c : Chip) (o : Out) : (c.emit o).pipes = c.pipes := rfl
@[simp] theorem Chip.emit_windows (c : Chip) (o : Out) : (c.emit o).windows = c.windows := rfl
@[simp] theorem Chip.emit_lanes (c : Chip) (o : Out) : (c.emit o).lanes = c.lanes := rfl
@[simp] theorem Chip.emit_lanePart (c : Chip) (o : Out) : (c.emit o).lanePart = c.lanePart := rfl
@[simp] theorem Chip.emit_laneQueue (c : Chip) (o : Out) : (c.emit o).laneQueue = c.laneQueue := rfl
@[simp] theorem Chip.emit_sigs (c : Chip) (o : Out) : (c.emit o).sigs = c.sigs := rfl
@[simp] theorem Chip.emit_pwr (c : Chip) (o : Out) : (c.emit o).pwr = c.pwr := rfl
@[simp] theorem Chip.emit_stopped (c : Chip) (o : Out) : (c.emit o).stopped = c.stopped := rfl
@[simp] theorem Chip.emit_ports (c : Chip) (o : Out) : (c.emit o).ports = c.ports := rfl
@[simp] theorem Chip.emit_colls (c : Chip) (o : Out) : (c.emit o).colls = c.colls := rfl
@[simp] theorem Chip.emit_collHeld (c : Chip) (o : Out) : (c.emit o).collHeld = c.collHeld := rfl
@[simp] theorem Chip.emit_swaps (c : Chip) (o : Out) : (c.emit o).swaps = c.swaps := rfl
@[simp] theorem Chip.emit_sigIn (c : Chip) (o : Out) : (c.emit o).sigIn = c.sigIn := rfl
@[simp] theorem Chip.emit_pcie (c : Chip) (o : Out) : (c.emit o).pcie = c.pcie := rfl
@[simp] theorem Chip.emit_mgt (c : Chip) (o : Out) : (c.emit o).mgt = c.mgt := rfl
@[simp] theorem Chip.emit_sec (c : Chip) (o : Out) : (c.emit o).sec = c.sec := rfl
@[simp] theorem Chip.emit_powered (c : Chip) (o : Out) : (c.emit o).powered = c.powered := rfl
@[simp] theorem Chip.emit_perst (c : Chip) (o : Out) : (c.emit o).perst = c.perst := rfl
@[simp] theorem Chip.emit_faultN (c : Chip) (o : Out) : (c.emit o).faultN = c.faultN := rfl
@[simp] theorem Chip.emit_smbAlertN (c : Chip) (o : Out) : (c.emit o).smbAlertN = c.smbAlertN := rfl
@[simp] theorem Chip.emit_scanQueue (c : Chip) (o : Out) : (c.emit o).scanQueue = c.scanQueue := rfl
@[simp] theorem Chip.emit_stackPow (c : Chip) (o : Out) : (c.emit o).stackPow = c.stackPow := rfl
@[simp] theorem Chip.emit_engineLast (c : Chip) (o : Out) : (c.emit o).engineLast = c.engineLast := rfl

/-! ## tick -/

@[simp] theorem Chip.tick_gtc (c : Chip) : (c.tick).gtc = c.gtc := rfl
@[simp] theorem Chip.tick_ctr (c : Chip) : (c.tick).ctr = c.ctr + 1 := rfl
@[simp] theorem Chip.tick_regs (c : Chip) : (c.tick).regs = c.regs := rfl
@[simp] theorem Chip.tick_mem (c : Chip) : (c.tick).mem = c.mem := rfl
@[simp] theorem Chip.tick_poison (c : Chip) : (c.tick).poison = c.poison := rfl
@[simp] theorem Chip.tick_keyGen (c : Chip) : (c.tick).keyGen = c.keyGen := rfl
@[simp] theorem Chip.tick_wseq (c : Chip) : (c.tick).wseq = c.wseq := rfl
@[simp] theorem Chip.tick_oldWords (c : Chip) : (c.tick).oldWords = c.oldWords := rfl
@[simp] theorem Chip.tick_scratch (c : Chip) : (c.tick).scratch = c.scratch := rfl
@[simp] theorem Chip.tick_parts (c : Chip) : (c.tick).parts = c.parts := rfl
@[simp] theorem Chip.tick_queues (c : Chip) : (c.tick).queues = c.queues := rfl
@[simp] theorem Chip.tick_clusters (c : Chip) : (c.tick).clusters = c.clusters := rfl
@[simp] theorem Chip.tick_waves (c : Chip) : (c.tick).waves = c.waves := rfl
@[simp] theorem Chip.tick_grids (c : Chip) : (c.tick).grids = c.grids := rfl
@[simp] theorem Chip.tick_hist (c : Chip) : (c.tick).hist = c.hist := rfl
@[simp] theorem Chip.tick_lastStack (c : Chip) : (c.tick).lastStack = c.lastStack := rfl
@[simp] theorem Chip.tick_fusedOff (c : Chip) : (c.tick).fusedOff = c.fusedOff := rfl
@[simp] theorem Chip.tick_ras (c : Chip) : (c.tick).ras = c.ras := rfl
@[simp] theorem Chip.tick_waitCtr (c : Chip) : (c.tick).waitCtr = c.waitCtr := rfl
@[simp] theorem Chip.tick_reqs (c : Chip) : (c.tick).reqs = c.reqs := rfl
@[simp] theorem Chip.tick_inbuf (c : Chip) : (c.tick).inbuf = c.inbuf := rfl
@[simp] theorem Chip.tick_slices (c : Chip) : (c.tick).slices = c.slices := rfl
@[simp] theorem Chip.tick_ways (c : Chip) : (c.tick).ways = c.ways := rfl
@[simp] theorem Chip.tick_msix (c : Chip) : (c.tick).msix = c.msix := rfl
@[simp] theorem Chip.tick_outbox (c : Chip) : (c.tick).outbox = c.outbox := rfl
@[simp] theorem Chip.tick_timeIn (c : Chip) : (c.tick).timeIn = c.timeIn := rfl
@[simp] theorem Chip.tick_lockRun (c : Chip) : (c.tick).lockRun = c.lockRun := rfl
@[simp] theorem Chip.tick_gtcLatch (c : Chip) : (c.tick).gtcLatch = c.gtcLatch := rfl
@[simp] theorem Chip.tick_bslots (c : Chip) : (c.tick).bslots = c.bslots := rfl
@[simp] theorem Chip.tick_scans (c : Chip) : (c.tick).scans = c.scans := rfl
@[simp] theorem Chip.tick_frameSlot (c : Chip) : (c.tick).frameSlot = c.frameSlot := rfl
@[simp] theorem Chip.tick_elasticScan (c : Chip) : (c.tick).elasticScan = c.elasticScan := rfl
@[simp] theorem Chip.tick_lastServed (c : Chip) : (c.tick).lastServed = c.lastServed := rfl
@[simp] theorem Chip.tick_scanDebt (c : Chip) : (c.tick).scanDebt = c.scanDebt := rfl
@[simp] theorem Chip.tick_chains (c : Chip) : (c.tick).chains = c.chains := rfl
@[simp] theorem Chip.tick_tileRuns (c : Chip) : (c.tick).tileRuns = c.tileRuns := rfl
@[simp] theorem Chip.tick_pipes (c : Chip) : (c.tick).pipes = c.pipes := rfl
@[simp] theorem Chip.tick_windows (c : Chip) : (c.tick).windows = c.windows := rfl
@[simp] theorem Chip.tick_lanes (c : Chip) : (c.tick).lanes = c.lanes := rfl
@[simp] theorem Chip.tick_lanePart (c : Chip) : (c.tick).lanePart = c.lanePart := rfl
@[simp] theorem Chip.tick_laneQueue (c : Chip) : (c.tick).laneQueue = c.laneQueue := rfl
@[simp] theorem Chip.tick_sigs (c : Chip) : (c.tick).sigs = c.sigs := rfl
@[simp] theorem Chip.tick_pwr (c : Chip) : (c.tick).pwr = c.pwr := rfl
@[simp] theorem Chip.tick_stopped (c : Chip) : (c.tick).stopped = c.stopped := rfl
@[simp] theorem Chip.tick_ports (c : Chip) : (c.tick).ports = c.ports := rfl
@[simp] theorem Chip.tick_colls (c : Chip) : (c.tick).colls = c.colls := rfl
@[simp] theorem Chip.tick_collHeld (c : Chip) : (c.tick).collHeld = c.collHeld := rfl
@[simp] theorem Chip.tick_swaps (c : Chip) : (c.tick).swaps = c.swaps := rfl
@[simp] theorem Chip.tick_sigIn (c : Chip) : (c.tick).sigIn = c.sigIn := rfl
@[simp] theorem Chip.tick_pcie (c : Chip) : (c.tick).pcie = c.pcie := rfl
@[simp] theorem Chip.tick_mgt (c : Chip) : (c.tick).mgt = c.mgt := rfl
@[simp] theorem Chip.tick_sec (c : Chip) : (c.tick).sec = c.sec := rfl
@[simp] theorem Chip.tick_powered (c : Chip) : (c.tick).powered = c.powered := rfl
@[simp] theorem Chip.tick_perst (c : Chip) : (c.tick).perst = c.perst := rfl
@[simp] theorem Chip.tick_faultN (c : Chip) : (c.tick).faultN = c.faultN := rfl
@[simp] theorem Chip.tick_smbAlertN (c : Chip) : (c.tick).smbAlertN = c.smbAlertN := rfl
@[simp] theorem Chip.tick_scanQueue (c : Chip) : (c.tick).scanQueue = c.scanQueue := rfl
@[simp] theorem Chip.tick_stackPow (c : Chip) : (c.tick).stackPow = c.stackPow := rfl
@[simp] theorem Chip.tick_engineLast (c : Chip) : (c.tick).engineLast = c.engineLast := rfl

end Sys2Proof.Machine
end

