-- ==== Sys2Proof/Laws/Registers.lean ====
section
/-!
SUPPORT. Registers, fields and the tables of the chip: what is read after a change.
-/

namespace Sys2Proof.Machine

@[simp] theorem Chip.rg_setRg_self (c : Chip) (a : Nat) (v : Word) : (c.setRg a v).rg a = v := by
  simp [Chip.rg]

theorem Chip.rg_setRg_ne (c : Chip) {a b : Nat} (h : b ≠ a) (v : Word) : (c.setRg a v).rg b = c.rg b := by
  simp [Chip.rg, KMap.getD_put_ne h]

theorem Chip.rg_setFld_ne (c : Chip) (f : Fld) (o v : Nat) {b : Nat} (h : b ≠ f.base + o) :
    (c.setFld f o v).rg b = c.rg b := Chip.rg_setRg_ne c h _

theorem Chip.fld_setRg_ne (c : Chip) (f : Fld) (o : Nat) {a : Nat} (h : f.base + o ≠ a) (v : Word) :
    (c.setRg a v).fld f o = c.fld f o := by
  simp [Chip.fld, Chip.rg_setRg_ne c h]

theorem Chip.fld_setFld_ne (c : Chip) (f g : Fld) (o p v : Nat) (h : f.base + o ≠ g.base + p) :
    (c.setFld g p v).fld f o = c.fld f o := Chip.fld_setRg_ne c f o h _

/-- The field of a word just stored in it, whatever the word held before. -/
theorem wbits_wset (w : Word) (hi lo v : Nat) (h1 : lo ≤ hi) (h2 : hi < 32) :
    wbits (wset w hi lo v) hi lo = v % 2 ^ (hi + 1 - lo) := by
  apply Nat.eq_of_testBit_eq
  intro i
  simp only [wbits, bits, Nat.testBit_mod_two_pow, Nat.testBit_shiftRight]
  by_cases hi' : i < hi + 1 - lo
  · have h32 : lo + i < 32 := by omega
    have e1 : ((2 ^ (hi + 1 - lo) - 1) * 2 ^ lo).testBit (lo + i) = true := by
      rw [Nat.testBit_mul_two_pow]; simp [Nat.testBit_two_pow_sub_one, hi']
    have e2 : (v * 2 ^ lo).testBit (lo + i) = v.testBit i := by
      rw [Nat.testBit_mul_two_pow]; simp
    rw [← BitVec.getLsbD, wset]
    simp only [BitVec.getLsbD_or, BitVec.getLsbD_and, BitVec.getLsbD_not, BitVec.getLsbD_ofNat, h32, e1, e2, hi']
    simp
  · simp [hi']

theorem Chip.fld_setFld_self (c : Chip) (f : Fld) (o v : Nat) (h1 : f.lo ≤ f.hi) (h2 : f.hi < 32) :
    (c.setFld f o v).fld f o = v % 2 ^ (f.hi + 1 - f.lo) := by
  simp [Chip.fld, Chip.setFld, wbits_wset _ _ _ _ h1 h2]

@[simp] theorem Chip.part_setPart_self (c : Chip) (p : Nat) (x : Part) : (c.setPart p x).part p = x := by
  simp [Chip.part]

theorem Chip.part_setPart_ne (c : Chip) {p o : Nat} (h : o ≠ p) (x : Part) : (c.setPart p x).part o = c.part o := by
  simp [Chip.part, KMap.getD_set_ne h]

@[simp] theorem Chip.queue_setQueue_self (c : Chip) (q : Nat) (x : Queue) : (c.setQueue q x).queue q = x := by
  simp [Chip.queue]

theorem Chip.queue_setQueue_ne (c : Chip) {q o : Nat} (h : o ≠ q) (x : Queue) :
    (c.setQueue q x).queue o = c.queue o := by
  simp [Chip.queue, KMap.getD_set_ne h]

@[simp] theorem Chip.cluster_setCluster_self (c : Chip) (i : Nat) (x : Cluster) :
    (c.setCluster i x).cluster i = x := by
  simp [Chip.cluster]

theorem Chip.cluster_setCluster_ne (c : Chip) {i j : Nat} (h : j ≠ i) (x : Cluster) :
    (c.setCluster i x).cluster j = c.cluster j := by
  simp [Chip.cluster, KMap.getD_set_ne h]

@[simp] theorem Chip.part_setRg (c : Chip) (a : Nat) (v : Word) (p : Nat) : (c.setRg a v).part p = c.part p := rfl
@[simp] theorem Chip.part_setFld (c : Chip) (f : Fld) (o v p : Nat) : (c.setFld f o v).part p = c.part p := rfl
@[simp] theorem Chip.part_setQueue (c : Chip) (q : Nat) (x : Queue) (p : Nat) : (c.setQueue q x).part p = c.part p := rfl
@[simp] theorem Chip.queue_setRg (c : Chip) (a : Nat) (v : Word) (q : Nat) : (c.setRg a v).queue q = c.queue q := rfl
@[simp] theorem Chip.queue_setFld (c : Chip) (f : Fld) (o v q : Nat) : (c.setFld f o v).queue q = c.queue q := rfl
@[simp] theorem Chip.queue_setPart (c : Chip) (p : Nat) (x : Part) (q : Nat) : (c.setPart p x).queue q = c.queue q := rfl

end Sys2Proof.Machine
end

