-- ==== Sys2Proof/WellFormed.lean ====
section
/-!
DEFINITION. The commands that can be sent: those whose operands name a unit that the device has, and whose data has the
form that its carrier gives it. A command of another form has a meaning too (each is total), but nothing sends it.
-/

namespace Sys2Proof

/-- A logical cluster of the largest part (R3). -/
def isCluster (c : BitVec 7) : Bool := decide (c.toNat < 88)

/-- One of the six context stacks (R6). -/
def isStack (s : BitVec 3) : Bool := decide (s.toNat < 6)

/-- One of the 24 slices of the shared cache (R197). -/
def isSlice (s : BitVec 5) : Bool := decide (s.toNat < 24)

/-- One of the twelve cluster groups with a clock and a supply of their own (R415, R424). -/
def isPowerGroup (g : BitVec 4) : Bool := decide (g.toNat < 12)

/-- A size of a host access to BAR0, in bytes (R12). -/
def isSize (n : BitVec 4) : Bool := decide (n = 1 ∨ n = 2 ∨ n = 4 ∨ n = 8)

/-- A length of a host access through BAR4: some bytes, and no more than a PCIe request carries. -/
def isBurst (n : Nat) : Bool := decide (1 ≤ n) && decide (n ≤ 4096)

/-- A unit of R437 that cannot be recovered, by its kind and number: slices, memory controllers and context engines go
by number, the others are single, as is the corrected error of R431. -/
def isSharedUnit (kind : BitVec 4) (index : BitVec 5) : Bool :=
  decide (index.toNat < [24, 6, 1, 6, 1, 1, 1, 1, 1, 1, 1, 1].getD kind.toNat 0)

/-- The integer widths of R171; the other formats have one width each. -/
def NumFmt.wellFormed : NumFmt → Bool
  | .fp64 | .fp32 | .fp16 | .bf16 | .e4m3 | .e5m2 => true
  | .int w _ => decide (w = 4 ∨ w = 8 ∨ w = 32 ∨ w = 64)

/-- A VALU operation on formats that the device has (R171, R179). -/
def ValuOp.wellFormed : ValuOp → Bool
  | .add f | .sub f | .mul f | .div f | .fma f | .neg f | .abs f | .copysign f => f.wellFormed
  | .cmp f _ => f.wellFormed
  | .cvt d s | .clampInt d s => d.wellFormed && s.wellFormed
  | .mov _ | .select _ | .and _ | .or _ | .xor _ | .not _ | .other _ => true

/-- Speeds 1 to 5 and the widths of a PCIe link (R526). -/
def LinkUp.wellFormed (u : LinkUp) : Bool :=
  decide (1 ≤ u.speed.toNat ∧ u.speed.toNat ≤ 5) && decide (u.width.toNat = 1 ∨ u.width.toNat = 2 ∨ u.width.toNat = 4
    ∨ u.width.toNat = 8 ∨ u.width.toNat = 16)

/-- One drift for each cluster group where any was measured, and a link that can be (R481, R496, R526). -/
def BootSample.wellFormed (w : BootSample) : Bool :=
  decide (w.drift.length = 0 ∨ w.drift.length = 12) && (⟨w.speed, w.width⟩ : LinkUp).wellFormed

/-- Clusters that the device has, and one drift for each cluster group where any was measured (R491, R496). -/
def MgtSample.wellFormed (w : MgtSample) : Bool :=
  w.clusters.all isCluster && decide (w.drift.length = 0 ∨ w.drift.length = 12)

/-- The commands that can be sent. (DESIGN CHOICE, assumption 5.) -/
def Instr.wellFormed : Instr → Bool
  | .dbTailWrite .. | .cplHeadWrite .. | .descriptorFetch .. | .descriptorBegin .. | .descriptorComplete ..
  | .coalesceTimeout .. | .nop .. | .dispatch .. | .draw .. | .copy .. | .fill .. | .fenceSignal ..
  | .fenceWait .. | .fenceWake .. | .semAcquire .. | .semRetry .. | .semRelease .. | .timestamp .. | .step ..
  | .seqJoin .. | .seqLeave .. | .seqPark .. | .slotRelease .. | .ctxScan .. | .ctxGather .. | .ctxAppend .. => true
  | .engineFrameSlot stack _ => isStack stack
  | .compress .. | .decompress .. | .compressionLaneStart | .collective .. | .collectiveTimeout ..
  | .remoteCopy .. | .displayFlip .. | .protectedFlip .. | .launchAt .. | .launchRelease .. | .checkpoint ..
  | .eventSet .. | .eventReset .. | .eventWait .. | .ptInvalidate .. | .regulatorSet .. | .partitionCreate ..
  | .partitionSeal .. | .partitionResize .. | .partitionCtlReset .. | .partitionDestroy .. | .memAccount ..
  | .queueCreate .. | .queueDestroy .. | .queueResume .. | .queueFlush .. | .queueModify .. | .ctxQuery ..
  | .sliceExpiry .. | .preemptStalled .. | .displayLate .. => true
  | .workgroupLaunch _ _ c => isCluster c
  | .tileAssign _ _ c => isCluster c
  | .tileWriteOut c _ _ => isCluster c
  | .primitiveSetup .. => true
  | .ld c _ _ _ _ => isCluster c
  | .st c _ _ _ _ => isCluster c
  | .atom c _ _ _ _ => isCluster c
  | .ldc c _ _ _ _ => isCluster c
  | .stc c _ _ _ _ => isCluster c
  | .atomc c _ _ _ _ => isCluster c
  | .lds c _ _ _ _ => isCluster c
  | .fence c _ _ => isCluster c
  | .barSync c _ _ => isCluster c
  | .barrierPass c _ => isCluster c
  | .waitMem c _ _ => isCluster c
  | .gtcRead c _ _ => isCluster c
  | .endWave c _ _ => isCluster c
  | .ctrlBranch c _ _ _ => isCluster c
  | .saluOp c _ _ _ => isCluster c
  | .valuOp c _ op _ => isCluster c && op.wellFormed
  | .min c _ f _ => isCluster c && f.wellFormed
  | .max c _ f _ => isCluster c && f.wellFormed
  | .qmx c _ _ => isCluster c
  | .dqmx c _ _ => isCluster c
  | .rcp c _ f _ => isCluster c && f.wellFormed
  | .sqrt c _ f _ => isCluster c && f.wellFormed
  | .rsqrt c _ f _ => isCluster c && f.wellFormed
  | .exp2 c _ f _ => isCluster c && f.wellFormed
  | .log2 c _ f _ => isCluster c && f.wellFormed
  | .sinpi c _ f _ => isCluster c && f.wellFormed
  | .cospi c _ f _ => isCluster c && f.wellFormed
  | .tanh c _ f _ => isCluster c && f.wellFormed
  | .erf c _ f _ => isCluster c && f.wellFormed
  | .tmma c _ _ _ _ => isCluster c
  | .tzero c _ _ _ _ => isCluster c
  | .tdrain c _ _ _ _ => isCluster c
  | .tstoreRaw c _ _ _ _ => isCluster c
  | .taccRaw c _ _ _ _ => isCluster c
  | .tstat c _ _ _ _ => isCluster c
  | .drainPathStart c => isCluster c
  | .cacheRequest _ _ _ => true
  | .missFill slice _ => isSlice slice
  | .missQueueGrant slice _ => isSlice slice
  | .refreshWindow stack _ => isStack stack
  | .rfmExtraWindow stack _ _ => isStack stack
  | .vblankLatch .. | .flipRelease .. | .scanoutLine .. | .displayLinkTrained .. => true
  | .displayHotplug .. | .timeFlitSend .. | .timeFlitReceive .. | .gtcCompare .. | .gtcPpsEdge | .roleChange
  | .swapMessage .. | .portTrainingDone .. | .portTrainingTimeout .. | .portRetrainTimer .. | .portDown .. => true
  | .laneFault _ r => decide (r.lane.toNat ≤ 8)
  | .flitReceive _ flit _ _ _ => decide (flit.length = 256)
  | .retryFlitReceive _ flit _ => decide (flit.length = 256)
  | .retryTimeout .. | .inboundRequest .. | .remoteResponse .. | .collMessage .. | .signatureMessage ..
  | .shiftReportSend .. | .shiftReportReceive .. | .shiftEvaluate | .interferenceWindow .. => true
  | .powerPeriod w => decide (w.temps.length ≤ 19)
  | .slopeWindow cl want => isCluster cl && decide (want.toNat ≤ 64)
  | .droopDetect g => isPowerGroup g
  | .droopRecover g => isPowerGroup g
  | .throttleNAssert | .throttleNRelease => true
  | .groupDecafEntry g => isPowerGroup g
  | .groupWake g => isPowerGroup g
  | .deviceWake => true
  | .decafEntryDone g => g.all isPowerGroup
  | .bar4Access _ _ w n => isBurst ((w.map List.length).getD n.toNat)
  | .hostCompletion _ outcome _ => decide (outcome ≠ 3)
  | .atsInvalidate .. => true
  | .hotReset _ up => up.all LinkUp.wellFormed
  | .vfEnableChange .. | .flr .. | .partitionReset .. | .transferStopTimeout .. | .partitionResetDone .. => true
  | .clusterFault cl => isCluster cl
  | .epochFenceDone cl _ => isCluster cl
  | .spareAssign cl => isCluster cl
  | .spareReady cl => isCluster cl
  | .dieDeclaredFailed stack _ => isStack stack
  | .ucieModuleFault .. | .cacheWayFault .. | .crossingFault .. => true
  | .testSliceStart cl => isCluster cl
  | .testSliceEnd cl _ => isCluster cl
  | .baristaFailure | .baristaResetAttempt .. | .baristaRestart => true
  | .supplyFault rail => decide (1 ≤ rail.toNat) && decide (rail.toNat ≤ 9)
  | .vddAonLoss | .perstNAssert => true
  | .boot w => w.wellFormed
  | .bootStepTimeout w => w.wellFormed
  | .internalReboot w => w.wellFormed
  | .rollbackBurn .. | .opHour => true
  | .autoAgeMeasure drift => decide (drift.length = 12)
  | .setpointApply g => isPowerGroup g
  | .kringCtlWrite .. | .evringCtlWrite .. | .evringHeadWrite .. | .evtCfgWrite .. | .batchRangeWrite ..
  | .batchTokmaxWrite .. | .ctxPoolPush .. | .ctxNextDetWrite .. | .scWayoffWrite .. | .mapForce ..
  | .gtcSet .. | .resync | .gtcLoRead .. | .tswapGo | .pswapGo .. | .portModeWrite .. => true
  | .laneLoan _ _ lane _ => decide (lane.toNat ≤ 7)
  | .pipeEnableWrite .. | .pipeOwnerWrite .. | .pwrDevstateWrite .. | .shiftEnClear | .release | .force
  | .retry | .heartbeat .. | .secDbgChal .. | .secDbgSubmit .. | .secLockSet | .msixUnmask .. => true
  | .counterReadClear _ r size => isSize size && (!r.bar2 || decide (r.off.toNat < 2 ^ 18))
  | .registerWrite _ r size _ => isSize size && (!r.bar2 || decide (r.off.toNat < 2 ^ 18))
  | .info | .ledgerRead | .ledgerReset | .rescue | .fwBegin | .fwData | .fwEnd | .fwActivate | .fwCancel
  | .calWrite | .calExport | .calImport | .memRetrain | .testFull | .ageMeasure | .ageReplan | .provision
  | .abort | .getVersion | .getCapabilities | .negotiateAlgorithms .. | .getDigests | .getCertificate .. => true
  | .challenge _ nonce => decide (nonce.length = 32)
  | .getMeasurements _ sign nonce => decide (nonce.length = if sign then 32 else 0)
  | .doeAbort | .setEndpointId .. | .getEndpointId | .getMctpVersionSupport | .getMessageTypeSupport | .gettid
  | .getpldmversion | .getpldmtypes | .getpldmcommands | .getpdr .. | .getsensorreading ..
  | .getstatesensorreadings .. | .querydeviceidentifiers | .getfirmwareparameters | .requestupdate
  | .passcomponenttable .. => true
  | .updatecomponent typ => decide (typ ≠ 3)
  | .requestfirmwaredata typ _ piece => decide (typ ≠ 3) && decide (piece ≠ [])
  | .transfercomplete .. | .verifycomplete | .applycomplete .. | .activatefirmware .. | .getstatus
  | .cancelupdatecomponent | .cancelupdate => true
  | .tokenBucketFill _ _ which _ => decide (which ≠ 3)
  | .stackScrub _ found => decide (found ≠ 3)
  | .sharedUnitFault kind index => isSharedUnit kind index
  | .compressionLaneReturn .. | .laneSwitchoverDone .. | .wayModeChangeDone => true
  | .decafWakeDone g _ => g.all isPowerGroup
  | .farEndChange .. | .swapDeadline | .partnerResetting .. => true
  | .mgtDone w => w.wellFormed
  | .powerUp | .pcieCompletionTimeout .. | .flitTime .. | .configSpaceWrite .. => true

end Sys2Proof
end

