-- ==== Sys2Proof/Tests/Slice0.lean ====
section
/-!
SUPPORT. Tests: an ill-formed command for each check of the form of commands; for each statement about the device a
state and operands that meet what it asks; and worked examples of the manual.
-/

open Sys2Proof Sys2Proof.Machine

namespace Sys2Proof.Tests

set_option Elab.async false

/-! ## Small states -/

/-- A leaf that maps the first GiB of addresses to the partition's memory, for every kind of access. -/
def leaf : Leaf := { asid := 0, va := 0, size := 2 ^ 30, entry := 0x1D }

/-- A READY elastic partition with one GiB and one pinned translation. -/
def part1 : Part := { state := .ready, memGib := 1, frames := [0], asidCount := 1, sealed := true, pinned := [leaf] }

/-- The same without pinned translations. -/
def open1 : Part := { state := .ready, memGib := 1, frames := [0], asidCount := 1 }

/-- A booted device with the PCIe link up and partitions 0 and 1. -/
def dev : Chip :=
  { (({} : Chip).setFld Fld.PCI_LINK_UP 0 1).setFld Fld.MGT_STATE_MODE 0 1 with
    parts := [(0, part1), (1, part1)], pcie := { vfEnable := true, numVfs := 15, bme := 0xFFFF } }

/-- Bytes at a location, above those already there. -/
def poke (a : Nat) (bs : List Byte) (c : Chip) : Chip :=
  { c with mem := c.mem ++ bs.zipIdx.map fun x => (a + x.2, x.1) }

/-- A descriptor. -/
def desc (op : Nat) (p0 p1 p2 p3 p4 : Nat) : Desc :=
  { opcode := BitVec.ofNat 8 op, indirect := false, waitPrior := false, signalAfter := false, priv := false, rsv := 0,
    tag := 7, w1 := 0, sigAddr := 0, sigVal := 0, p0 := BitVec.ofNat 64 p0, p1 := BitVec.ofNat 64 p1,
    p2 := BitVec.ofNat 64 p2, p3 := BitVec.ofNat 64 p3, p4 := BitVec.ofNat 64 p4 }

/-- A begun descriptor. -/
def begun (d : Desc) : Entry := { index := 0, desc := d, loaded := true }

/-- The device with one begun descriptor in slot 0 of queue `q`. -/
def holding (q : Nat) (e : Entry) (c : Chip) : Chip :=
  c.setQueue q { state := .running, log2 := 6, ring := 0x10000, next := 1, entries := [(0, e)] }

/-- A state of a chip. -/
def st (c : Chip) : State := { chip := c }

/-- Whether an access succeeds. -/
def ok {ε α : Type} : Except ε α → Bool
  | .ok _ => true
  | .error _ => false

/-- Whether a command completes and leaves the chip `c`. -/
def ran (i : Instr) (c0 c : Chip) : Bool :=
  match exec i (st c0) with
  | .next t => decide (t = { st c with chip := c.tick })
  | _ => false

/-- Nothing used. -/
def noUse : Usage :=
  { cycles := 0, clusterCycles := 0, tensorCycles := 0, engineNs := 0, linkBytes := 0 }

/-- The chip that a succeeding access leaves. -/
def got {ε : Type} (x : Except ε Chip) : Chip :=
  match x with
  | .ok c => c
  | .error _ => {}


/-! ## Doorbells, descriptors and their completion -/

theorem meets_doorbells :
    let c := holding 65 (begun (desc 0 0 0 0 0 0)) dev
    HostUp (st c) ∧ c.fnEnabled 1 = true ∧ c.queueExists 65 = true ∧ (c.part 1).state = .ready
      ∧ c.tailOk 65 64 = true ∧ c.tailOk 65 65 = false ∧ c.exists? 1 = true ∧ c.cplOk 65 0 = true
      ∧ c.cplOk 65 1 = false ∧ c.queueExists 66 = false
      ∧ ran (.dbTailWrite 1 1 64) c (c.wakeDevice.setQueue 65 { c.queue 65 with tail := 64 })
      ∧ ran (.cplHeadWrite 1 1 0) c (c.setQueue 65 { c.queue 65 with cplHead := 0 })
      ∧ ran (.dbTailWrite 1 1 65) c ((c.count Fld.DB_DISCARD_COUNT (pg 1)).postEvent 1 0x0004 65 65) := by
  simp only [HostUp]; decide +kernel

theorem meets_doorbell_resetting :
    let c := (holding 65 (begun (desc 0 0 0 0 0 0)) dev).setPart 1 { part1 with state := .resetting }
    HostUp (st c) ∧ c.fnEnabled 1 = true ∧ c.exists? 1 = true ∧ (c.part 1).state = .resetting
      ∧ ran (.dbTailWrite 1 1 1) c ((c.count Fld.DB_DISCARD_COUNT (pg 1)).postEvent 1 0x0004 65 1) := by
  simp only [HostUp]; decide +kernel

/-- A NOP stands at the head of the ring: the descriptor of 64 zero bytes. -/
theorem meets_fetch :
    let c := poke 0x10000 (List.replicate 64 0) (dev.setQueue 65 { state := .running, log2 := 6, ring := 0x10000, tail := 1 })
    Live (st c) ∧ c.mayFetch 65 = true
      ∧ c.readPP 1 (c.ringBase 65 + 64 * ((c.queue 65).head.toNat % 2 ^ c.ringLog2 65)) 64 = .ok (List.replicate 64 0)
      ∧ ran (.descriptorFetch 65) c (c.setQueue 65 { c.queue 65 with
          head := 1, fetched := [.ok (Desc.ofBytes (List.replicate 64 0))] }) := by
  simp only [Live]; decide +kernel

theorem meets_begin :
    let d (op : Nat) := desc op 0 0 0 0 0
    let x (op : Nat) : Queue :=
      { state := .running, log2 := 6, ring := 0x10000, tail := 1, head := 1, fetched := [.ok (d op)] }
    let c (op : Nat) := dev.setQueue 65 (x op)
    let t (op : Nat) := { c op with waitCtr := 1 }.setQueue 65 { x op with
      fetched := [], next := 1, entries := [(0, { index := 0, desc := d op, loaded := true })] }
    (∀ op ∈ [0, 0xFF], Live (st (c op)) ∧ ((c op).queue 65).fetched = [.ok (d op)] ∧ (c op).mayBegin 65 (.ok (d op)) = true
      ∧ ((c op).queue 65).lateLeft = 0)
      ∧ (c 0).decodeCheck 65 (d 0) = none ∧ (c 255).decodeCheck 65 (d 255) = some (St.illegalOpcode, true)
      ∧ ran (.descriptorBegin 65) (c 0) (t 0)
      ∧ ran (.descriptorBegin 65) (c 255) ((t 255).finish 65 0 St.illegalOpcode 0 true) := by
  simp only [Live]; decide +kernel

theorem meets_completion :
    let e : Entry := { begun (desc 0 0 0 0 0 0) with phase := .done 0 0 false }
    let c := holding 65 e dev
    Live (st c) ∧ c.entry 65 0 = some e ∧ c.inReset 1 = false ∧ c.acknowledged 65 0 = true
      ∧ c.lateTurn 65 0 e 0 = true ∧ e.desc.signalAfter = false := by
  simp only [Live]; decide +kernel

theorem meets_coalesced :
    let c := dev.setQueue 65 { state := .running, irqMode := 2, coalSeen := 1 }
    Live (st c) ∧ (c.queue 65).irqMode = 2 ∧ 0 < (c.queue 65).coalSeen
      ∧ ran (.coalesceTimeout 65) c ((c.setQueue 65 { c.queue 65 with coalSeen := 0 }).raiseVector 1 0) := by
  simp only [Live]; decide +kernel

/-- QUEUE_CTL of queue 64 on queue 65: CREATE of a ring of 64 entries at 64 KiB, and DESTROY, RESUME, FLUSH, MODIFY. -/
theorem meets_queue_control :
    let e (op : Nat) := begun (desc Op.queueCtl (op + 2 ^ 8) (6 + 0x10000) 0 0 0)
    let c (op : Nat) := (holding 64 (e op) dev).setPart 1 { part1 with wqueues := 2 } |>.setFld Fld.SAVE_BASE_LO_SAVE_EN (pg 1) 1
    let bound (op : Nat) (st : QState) := (c op).setQueue 65 { state := st, tail := 5, next := 5 }
    let nop := begun (desc 0 0 0 0 0 0)
    Live (st (c 0)) ∧ Holds (holding 64 nop dev) 64 0 Op.nop nop ∧
    ran (.nop 64 0) (holding 64 nop dev) ((holding 64 nop dev).ended 64 0 nop St.ok 0) ∧
    (Holds (c 0) 64 0 Op.queueCtl (e 0) ∧ dbits (e 0).desc.p0 2 0 = 0 ∧ (c 0).createBad 1 65 (e 0).desc = false
      ∧ (c 0).asidOk 1 0 = true ∧ ran (.queueCreate 64 0) (c 0) (((c 0).createQueue 65 (e 0).desc).finishOk 64 0)) ∧
    (Holds (bound 2 .halted) 64 0 Op.queueCtl (e 2) ∧ ((bound 2 .halted).queue 65).state = .halted
      ∧ ran (.queueResume 64 0) (bound 2 .halted) (((bound 2 .halted).setQState 65 .running 0).finishOk 64 0)) ∧
    (Holds (bound 3 .halted) 64 0 Op.queueCtl (e 3) ∧ ((bound 3 .halted).queue 65).state = .halted
      ∧ ((bound 3 .halted).queue 65).tail = ((bound 3 .halted).queue 65).next ∧ indexOf 65 ≠ 0
      ∧ ran (.queueFlush 64 0) (bound 3 .halted) (((bound 3 .halted).setQueue 65 { (bound 3 .halted).queue 65 with
          state := .running, haltStatus := 0 }).finishOk 64 0)) ∧
    (Holds (bound 4 .running) 64 0 Op.queueCtl (e 4) ∧ (bound 4 .running).queueExists 65 = true
      ∧ ran (.queueModify 64 0) (bound 4 .running) (((bound 4 .running).setQueue 65 { (bound 4 .running).queue 65 with
          vector := 0, irqMode := 0, coalCount := 0, coalUs := 0, sliceUs := 0 }).finishOk 64 0)) := by
  simp only [Live, Holds]; decide +kernel

/-- DESTROY of queue 65, which holds no descriptor, or one. -/
theorem meets_queue_destroy :
    let e := begun (desc Op.queueCtl (1 + 2 ^ 8) (6 + 0x10000) 0 0 0)
    let c (es : List (Nat × Entry)) := (holding 64 e dev).setQueue 65 { state := .running, tail := 5, next := 5, entries := es }
    let w (es : List (Nat × Entry)) := (c es).setEntry 64 0 { e with phase := .running, watch := .unbound 65 }
    let some_ := [(3, begun (desc 0 0 0 0 0 0))]
    (∀ es ∈ [[], some_], Live (st (c es)) ∧ Holds (c es) 64 0 Op.queueCtl e ∧ (c es).queueExists 65 = true)
      ∧ ((w []).queue 65).entries = [] ∧ ran (.queueDestroy 64 0) (c []) ((w []).unbind 65)
      ∧ ((w some_).queue 65).entries ≠ []
      ∧ ran (.queueDestroy 64 0) (c some_) ((w some_).setQueue 65 { ((w some_).queue 65).endWaits with
          stopping := true, fetched := [] }) := by
  simp only [Live, Holds]; decide +kernel

/-! ## Descriptors -/

/-- A program header with its code at 2 MiB: 256 bytes, entered at its start, 16 vector registers. -/
def header : List Byte :=
  leBytes 4 0x31495346 ++ leBytes 4 1 ++ leBytes 8 0x200000 ++ leBytes 4 256 ++ leBytes 4 0 ++ leBytes 4 16
    ++ leBytes 4 0 ++ leBytes 8 0 ++ leBytes 4 1 ++ leBytes 4 1 ++ leBytes 208 0

/-- A DISPATCH of queue 65 with its header at 1 MiB: a grid of `gx` workgroups of one wave. -/
def dispatches (gx : Nat) : Entry := begun (desc Op.dispatch 0x100000 0 (gx + 2 ^ 32) (1 + 2 ^ 32) 0)

/-- Partition 1 holds cluster 0, the only one of the map; the firmware is version 1. -/
def devC : Chip :=
  { (dev.setFld Fld.DET_MAP_CLUSTERS 0 1).setFld Fld.DET_FW_ID_FW_ID 0 1 with clusters := [(0, { part := 1 })] }

theorem meets_dispatch :
    let e := dispatches
    let c (gx : Nat) := poke 0x100000 header (holding 65 (e gx) devC)
    let h := Header.ofBytes header
    (c 3).readVA ((c 3).actor 65 0) 0x100000 256 = .ok header
      ∧ (∀ gx ∈ [0, 3], Live (st (c gx)) ∧ Holds (c gx) 65 0 Op.dispatch (e gx)
          ∧ h.ok = true ∧ (Geometry.of (e gx).desc).ok h = true ∧ (c gx).capsOk h = true ∧ (c gx).keyWhy 1 h = 0) := by
  simp only [Live, Holds]; decide +kernel

/-- The grid of three workgroups in queue 65's slot 0, its header and its geometry. -/
def grid3 : Grid := gridOf (dispatches 3).desc (Header.ofBytes header) (Geometry.of (dispatches 3).desc) 0 0

theorem meets_launch :
    let c := ((holding 65 { dispatches 3 with phase := .running } devC).setGrid 65 0 grid3).joinRunList 65
    let ch := c.claimDisplay 65 0
    Live (st c) ∧ c.grid 65 0 = some grid3 ∧ grid3.saved = false ∧ ch.launchChoice 65 0 grid3 = some 0 ∧ grid3.run = none
      ∧ ran (.workgroupLaunch 65 0 0) c ((ch.launch 65 0 0 0 grid3).setGrid 65 0 (grid3.launched 0 0)) := by
  simp only [Live]; decide +kernel

/-- A pipeline block of zeros. -/
def pipe0 : Pipe :=
  { vs := 0, fs := 0, nvar := 0, cull := 0, frontCw := false, dfunc := 0, dwrite := false, dtest := false, stest := false,
    flat := 0, rmask := 0, wmask := 0, ref := 0, front := 0, back := 0, outBase := 0, dout := false, earlyZ := false,
    blend := [], rsvOk := true }

/-- A DRAW of 33 vertices, one to a lane: its second batch holds one. -/
theorem meets_vertex_launch :
    let d : DrawRun := { no := 0, last := false, psVa := 0, fargs := 0, vargs := 0, topology := 0, index := 0, indexVa := 0,
                         restart := false, baseVertex := 0, count := 33, instances := 1, pipe := pipe0, vbase := 0 }
    let g : Grid := { grid3 with draw := true, total := 2, next := 1, run := some d }
    let c := ((holding 65 { dispatches 3 with phase := .running } devC).setGrid 65 0 g).joinRunList 65
    let ks := (rangeFrom (1 % ceilDiv d.count 32 * 32) 32).filter fun k => decide (k < d.count)
    let ch := c.claimDisplay 65 0
    Live (st c) ∧ c.grid 65 0 = some g ∧ g.saved = false ∧ ch.launchChoice 65 0 g = some 1 ∧ g.run = some d
      ∧ 1 < d.batches ∧ ks = [32] ∧ ch.batchIndices (ch.actor 65 0) d ks = .ok [(32, 32, false)]
      ∧ ran (.workgroupLaunch 65 0 0) c (((ch.launch 65 0 0 1 (g.shape 1)).setWave (waveKey 0 ((ch.pickSlots 0 1).headD 0))
           (vertexWave g d (ch.cluster 0).nextWg 1 32 0 [(32, 32, false)] fun _ => 0)).setGrid 65 0
             (g.launched 0 1)) := by
  simp only [Live]; decide +kernel

theorem meets_launch_at :
    let e := begun (desc Op.launchAt 50000 0 0 0 0)
    let late := begun (desc Op.launchAt 49999 0 0 0 0)
    let w : Entry := { e with phase := .waiting, watch := .launch 7 }
    let c (e : Entry) (t : Dword) := { holding 65 e dev with gtc := t }
    Live (st (c e 0)) ∧ Holds (c e 0) 65 0 Op.launchAt e ∧ e.decodedAt.toNat + 50000 ≤ e.desc.p0.toNat
      ∧ e.began.toNat ≤ e.desc.p0.toNat
      ∧ ran (.launchAt 65 0) (c e 0) ((c e 0).setEntry 65 0 { e with phase := .waiting, watch := .launch 50000 })
      ∧ Holds (c late 0) 65 0 Op.launchAt late ∧ late.desc.p0.toNat < late.decodedAt.toNat + 50000
      ∧ ran (.launchAt 65 0) (c late 0) (((c late 0).setQueue 65 { (c late 0).queue 65 with
           lateLeft := (((c late 0).queue 65).tail - ((c late 0).queue 65).next).toNat }).ended 65 0 late St.launchLate 0)
      ∧ (c w 6).entry 65 0 = some w ∧ (c w 6).gtc.toNat < 7 ∧ ran (.launchRelease 65 0) (c w 6) (c w 6)
      ∧ (c w 7).entry 65 0 = some w ∧ 7 ≤ (c w 7).gtc.toNat ∧ ((c w 7).part 1).det = false
      ∧ (c w 7).flag Fld.RAS_PSTATUS_DEGRADED (pg 1) = false := by
  simp only [Live, Holds]; decide +kernel

theorem meets_checkpoint :
    let e := begun (desc Op.checkpoint 5 0 0 0 0)
    let c := holding 65 e dev
    let paired := c.setPart 1 { part1 with pairEn := true }
    let a : SigArgs := { s0 := 1, s1 := 2, cnt := 3, commit := 5, reasons := 0, count := 9, port := 0 }
    let m : SigMsg := { sig := { s0 := 1, s1 := 2, cnt := 3 }, commit := 5, reasons := 0, release := 0 }
    let w : Entry := { e with phase := .waiting, watch := .partner m.sig }
    let due := { (holding 65 w dev).setPart 1 { part1 with pairEn := true } with sigIn := [(65, m)] }
    Live (st c) ∧ Holds c 65 0 Op.checkpoint e ∧ c.mayCommit 65 0 e = true ∧ (c.part 1).pairEn = false
      ∧ due.errorPending 65 w.index = false ∧ m.reasons = 0
      ∧ ran (.checkpoint 65 0) c (c.commit 65 0 e)
      ∧ (paired.part 1).pairEn = true ∧ paired.gtc.toNat < (a.count + BitVec.ofNat 64 (paired.hopDelay 0)).toNat
      ∧ (paired.dropMsg 0 Vc.det (·.op == MOp.coll)).gtc = paired.gtc
      ∧ ran (.signatureMessage 65 (some a)) paired { paired.dropMsg 0 Vc.det (·.op == MOp.coll) with
          sigIn := [(65, { m with release := 9 + BitVec.ofNat 64 (paired.hopDelay 0) })] }
      ∧ KMap.find 65 due.sigIn = some m ∧ m.release.toNat ≤ due.gtc.toNat ∧ (due.queue 65).entries = [(0, w)]
      ∧ m.commit.toNat = dbits w.desc.p0 31 0
      ∧ ran (.signatureMessage 65 none) due ({ due with sigIn := [] }.commit 65 0 w) := by
  simp only [Live, Holds]; decide +kernel

theorem meets_fences :
    let e (op v : Nat) := begun (desc op 0x5000 v 0 0 0)
    let c (op v : Nat) := poke 0x5000 (leBytes 8 7) (holding 65 (e op v) dev)
    let here (c : Chip) := c.translate (c.actor 65 0) .atomic 0x5000 = .ok (.here 0x5000)
      ∧ c.translate (c.actor 65 0) .read 0x5000 = .ok (.here 0x5000) ∧ c.inWindow 1 0x5000 8 = false
      ∧ c.readPP 1 0x5000 8 = .ok (leBytes 8 7) ∧ (c.part 1).loc 0x5000 = some 0x5000
    let w : Entry := { e Op.fenceWait 8 with phase := .waiting, watch := .fence 0x5000 8 true }
    Live (st (c Op.fenceSignal 6)) ∧ Holds (c Op.fenceSignal 6) 65 0 Op.fenceSignal (e Op.fenceSignal 6)
      ∧ here (c Op.fenceSignal 6)
      ∧ ran (.fenceSignal 65 0) (c Op.fenceSignal 6) (((c Op.fenceSignal 6).regression 65 0x5000).finishOk 65 0)
      ∧ (∀ v ∈ [7, 8], Holds (c Op.fenceSignal v) 65 0 Op.fenceSignal (e Op.fenceSignal v) ∧ here (c Op.fenceSignal v)
          ∧ ok ((c Op.fenceSignal v).writePP 1 0x5000 (leBytes 8 v)) = true)
      ∧ (∀ v ∈ [7, 8], Holds (c Op.fenceWait v) 65 0 Op.fenceWait (e Op.fenceWait v) ∧ here (c Op.fenceWait v))
      ∧ ran (.fenceWait 65 0) (c Op.fenceWait 7) ((c Op.fenceWait 7).ended 65 0 (e Op.fenceWait 7) St.ok 0)
      ∧ ran (.fenceWait 65 0) (c Op.fenceWait 8) { (c Op.fenceWait 8).setEntry 65 0
          { e Op.fenceWait 8 with phase := .waiting, watch := .fence 0x5000 8 false } with waitCtr := 1 }
      ∧ (holding 65 w dev).entry 65 0 = some w
      ∧ ran (.fenceWake 65 0) (holding 65 w dev) ((holding 65 w dev).ended 65 0 w St.ok 0) := by
  simp only [Live, Holds]; decide +kernel

theorem meets_fence_stopping :
    let e := begun (desc Op.fenceWait 0x5000 8 0 0 0)
    let c := (poke 0x5000 (leBytes 8 7) (holding 65 e dev)).setQueue 65
      { state := .running, log2 := 6, ring := 0x10000, next := 1, stopping := true, entries := [(0, e)] }
    Live (st c) ∧ Holds c 65 0 Op.fenceWait e ∧ c.translate (c.actor 65 0) .read 0x5000 = .ok (.here 0x5000)
      ∧ c.inWindow 1 0x5000 8 = false
      ∧ c.readPP 1 0x5000 8 = .ok (leBytes 8 7) ∧ (c.part 1).loc 0x5000 = some 0x5000 ∧ (c.queue 65).stopping = true
      ∧ ran (.fenceWait 65 0) c (c.ended 65 0 e St.queueFaulted 0) := by
  simp only [Live, Holds]; decide +kernel

theorem meets_semaphores :
    let e (op n : Nat) := begun (desc op 0x5000 n 0 0 0)
    let c (op n v : Nat) := poke 0x5000 (leBytes 8 v) (holding 65 (e op n) dev)
    let here (c : Chip) (v : Nat) := c.translate (c.actor 65 0) .atomic 0x5000 = .ok (.here 0x5000)
      ∧ c.inWindow 1 0x5000 8 = false ∧ c.readPP 1 0x5000 8 = .ok (leBytes 8 v) ∧ (c.part 1).loc 0x5000 = some 0x5000
    let w : Entry := { e Op.semAcquire 2 with phase := .waiting, watch := .sem 0x5000 2 }
    let cw := poke 0x5000 (leBytes 8 2) (holding 65 w dev)
    Live (st cw)
      ∧ (Holds (c Op.semAcquire 2 2) 65 0 Op.semAcquire (e Op.semAcquire 2) ∧ here (c Op.semAcquire 2 2) 2
          ∧ 2 ≤ semCount (leNat (leBytes 8 2)) ∧ ok ((c Op.semAcquire 2 2).writePP 1 0x5000 (leBytes 8 (7 * 2 ^ 48))) = true)
      ∧ (Holds (c Op.semAcquire 2 1) 65 0 Op.semAcquire (e Op.semAcquire 2) ∧ here (c Op.semAcquire 2 1) 1
          ∧ semCount (leNat (leBytes 8 1)) < 2)
      ∧ (let full := 2 ^ 48 - 3 + 7 * 2 ^ 48
         Holds (c Op.semRelease 2 full) 65 0 Op.semRelease (e Op.semRelease 2) ∧ here (c Op.semRelease 2 full) full
          ∧ semCount full + 2 = 2 ^ 48 - 1 ∧ semOwner full = 7
          ∧ ok ((c Op.semRelease 2 full).writePP 1 0x5000 (leBytes 8 (2 ^ 48 - 1))) = true)
      ∧ cw.entry 65 0 = some w ∧ cw.semWaiters = [(0, 65, 0)] ∧ cw.badLoc 0x5000 = false
      ∧ cw.syncWord (cw.actor 65 0) .atomic 0x5000 = .ok 0x5000 ∧ (cw.part 1).pairEn = false ∧ 2 ≤ semCount (cw.dwordLoc 0x5000).toNat := by
  simp only [Live, Holds]; decide +kernel

theorem meets_events :
    let e (op : Nat) := begun (desc op 3 0 0 0 0)
    let c (op own mode state : Nat) :=
      (((holding 65 (e op) dev).setFld Fld.EVT_CFG_OWNER 12 own).setFld Fld.EVT_CFG_MODE 12 mode).setFld Fld.EVT_CFG_STATE 12 state
    let w : Entry := { e Op.eventWait with phase := .waiting, watch := .event 3 }
    let cw (mode : Nat) := (c Op.eventSet 1 mode 0).setQueue 66 { state := .running, entries := [(1, w)] }
    (∀ op ∈ [Op.eventSet, Op.eventReset, Op.eventWait], Live (st (c op 0 0 0)) ∧ Holds (c op 0 0 0) 65 0 op (e op)
        ∧ (c op 0 0 0).fld Fld.EVT_CFG_OWNER (4 * 3) ≠ 1 ∧ Holds (c op 1 0 0) 65 0 op (e op)
        ∧ (c op 1 0 0).fld Fld.EVT_CFG_OWNER (4 * 3) = 1)
      ∧ (c Op.eventSet 1 0 0).eventWaiters 3 = []
      ∧ ran (.eventSet 65 0) (c Op.eventSet 1 0 0)
          (((c Op.eventSet 1 0 0).setFld Fld.EVT_CFG_STATE 12 1).ended 65 0 (e Op.eventSet) St.ok 0)
      ∧ (∀ m ∈ [0, 1], (cw m).eventWaiters 3 = [(0, 66, 1)] ∧ (cw m).flag Fld.EVT_CFG_MODE 12 = decide (m = 1)
          ∧ earliest ((cw m).eventWaiters 3) = some (0, 66, 1))
      ∧ ran (.eventSet 65 0) (cw 0) (((cw 0).finishOk 66 1).finishOk 65 0)
      ∧ (c Op.eventWait 1 0 1).flag Fld.EVT_CFG_STATE 12 = true
      ∧ ran (.eventWait 65 0) (c Op.eventWait 1 0 1)
          (((c Op.eventWait 1 0 1).setFld Fld.EVT_CFG_STATE 12 0).ended 65 0 (e Op.eventWait) St.ok 0)
      ∧ (c Op.eventWait 1 0 0).flag Fld.EVT_CFG_STATE 12 = false := by
  simp only [Live, Holds]; decide +kernel

/-- A source named by one event, 255, of partition 1. -/
theorem meets_source :
    let c (mode : Nat) := ((dev.setFld Fld.EVT_CFG_SOURCE 1020 5).setFld Fld.EVT_CFG_OWNER 1020 1).setFld Fld.EVT_CFG_MODE 1020 mode
    let w : Entry := { begun (desc Op.eventWait 255 0 0 0 0) with phase := .waiting, watch := .event 255 }
    let cw := (c 0).setQueue 66 { state := .running, entries := [(1, w)] }
    (∀ m ∈ [0, 1], (c m).fld Fld.EVT_CFG_SOURCE (4 * 255) = 5 ∧ (c m).fld Fld.EVT_CFG_OWNER (4 * 255) = 1
        ∧ (c m).exists? 1 = true ∧ (c m).eventWaiters 255 = [])
      ∧ (∀ m < 256, m ≠ 255 → (c 0).fld Fld.EVT_CFG_SOURCE (4 * m) ≠ 5)
      ∧ (c 0).flag Fld.EVT_CFG_MODE (4 * 255) = false ∧ (c 1).flag Fld.EVT_CFG_MODE (4 * 255) = true
      ∧ earliest (cw.eventWaiters 255) = some (0, 66, 1)
      ∧ (c 0).sourceSignal 5 1 = (c 0).setFld Fld.EVT_CFG_STATE 1020 1
      ∧ cw.sourceSignal 5 1 = cw.finishOk 66 1 := by decide +kernel

theorem meets_copy :
    let cp (op n dst : Nat) := begun (desc op 0x5000 dst n 0 0)
    let fl (n : Nat) := begun (desc Op.fill 0x6FF8 n 0x0807060504030201 0 0)
    let ts := begun (desc Op.timestamp 0x6000 0 0 0 0)
    let c (e : Entry) := poke 0x5000 (leBytes 8 7) (holding 65 e dev)
    let a := (c ts).actor 65 0
    let moved (op : Nat) := got ((c (cp op 8 0x6FF8)).writeVA a 65 (.entry 65 0) 0x6FF8 (leBytes 8 7))
    Live (st (c ts))
      ∧ Holds (c (cp Op.copy 0 0x6000)) 65 0 Op.copy (cp Op.copy 0 0x6000)
      ∧ ran (.copy 65 0) (c (cp Op.copy 0 0x6000)) ((c (cp Op.copy 0 0x6000)).ended 65 0 (cp Op.copy 0 0x6000) St.ok 0)
      ∧ Holds (c (cp Op.copy 8 0x5007)) 65 0 Op.copy (cp Op.copy 8 0x5007) ∧ overlaps 0x5000 0x5007 8 = true
      ∧ ran (.copy 65 0) (c (cp Op.copy 8 0x5007)) ((c (cp Op.copy 8 0x5007)).finishMalformed 65 0)
      ∧ (∀ op ∈ [Op.copy, Op.remoteCopy], Holds (c (cp op 8 0x6FF8)) 65 0 op (cp op 8 0x6FF8)
          ∧ (c (cp op 8 0x6FF8)).engineTurn (b2n (op == Op.remoteCopy)) = some 65
          ∧ (c (cp op 8 0x6FF8)).readVA a 0x5000 8 = .ok (leBytes 8 7)
          ∧ ok ((c (cp op 8 0x6FF8)).writeVA a 65 (.entry 65 0) 0x6FF8 (leBytes 8 7)) = true
          ∧ (c (cp op 8 0x6FF8)).writesOut 65 0 = false ∧ (moved op).writesOut 65 0 = false)
      ∧ overlaps 0x5000 0x6FF8 8 = false ∧ overlaps 0x5000 0x5008 8 = false ∧ 0x6FF8 % 4096 + 8 = 4096  ∧ Holds (c (fl 0)) 65 0 Op.fill (fl 0) ∧ ran (.fill 65 0) (c (fl 0)) ((c (fl 0)).ended 65 0 (fl 0) St.ok 0)
      ∧ Holds (c (fl 8)) 65 0 Op.fill (fl 8)
      ∧ ok ((c (fl 8)).writeVA a 65 (.entry 65 0) 0x6FF8 [1, 2, 3, 4, 5, 6, 7, 8]) = true ∧ Holds (c ts) 65 0 Op.timestamp ts ∧ ok ((c ts).writeVA a 65 (.entry 65 0) 0x6000 (leBytes 8 0)) = true := by
  simp only [Live, Holds]; decide +kernel

/-- A copy of 5,000 bytes writes its first block, up to the end of a 4 KiB page, and goes on behind it. -/
theorem meets_copy_blocks :
    let e := begun (desc Op.copy 0x8000 0x5FF8 5000 0 0)
    let c := poke 0x8000 (leBytes 8 7) (holding 65 e dev)
    let d := got (c.writeVA (c.actor 65 0) 65 (.entry 65 0) 0x5FF8 (leBytes 8 7))
    let moved (c : Chip) (eng n : Nat) := { c.engineTake 1 (eng == 1) n with engineLast := KMap.set eng 65 c.engineLast }
    let far := begun (desc Op.copy 0x8000 0x5FF8 8 0 0)
    let o := (holding 65 far dev).setQueue 66 { state := .running, entries := [(0, { far with beginSeq := 1 })] }
    let o1 := { o with engineLast := [(0, 65)] }
    Live (st c) ∧ Holds c 65 0 Op.copy e ∧ overlaps 0x8000 0x5FF8 5000 = false ∧ c.engineTurn 0 = some 65
      ∧ c.readVA (c.actor 65 0) 0x8000 8 = .ok (leBytes 8 7)
      ∧ ok (c.writeVA (c.actor 65 0) 65 (.entry 65 0) 0x5FF8 (leBytes 8 7)) = true
      ∧ (moved d 0 8).stopping 65 = false
      ∧ Holds o1 65 0 Op.copy far ∧ o1.engineTurn 0 ≠ some 65 ∧ ran (.copy 65 0) o1 o1 := by
  simp only [Live, Holds]; decide +kernel

theorem meets_upkeep :
    let inv := begun (desc Op.ptInvalidate 2 0 0 0 0)
    let c := (holding 65 inv dev).setPart 1 open1
    let reg := begun (desc Op.regulatorSet 1 (0x10 + 0x20 * 2 ^ 16) (0x30 + 0x40 * 2 ^ 16) 0 0)
    let r := holding 0 reg dev
    let f (n : Nat) := dev.setPart 1 { part1 with memRate := 10, memBucket := { tokens := 5 }, burst := n }
    Live (st c) ∧ Holds c 65 0 Op.ptInvalidate inv ∧ (c.part 1).sealed = false ∧ dbits inv.desc.p0 1 0 = 2
      ∧ (c.reqs.any fun r => r.part == 1) = false
      ∧ ran (.ptInvalidate 65 0) c ((((c.setPart 1 { c.part 1 with
           invals := invalScope inv.desc c.wseq :: (c.part 1).invals }).refreshLayers 1 (invalScope inv.desc c.wseq)).setRg
             (Reg.PART_INVAL_CNT + pg 1) 1).finishOk 65 0)
      ∧ Holds r 0 0 Op.regulatorSet reg ∧ (r.part 1).det = false ∧ (r.part 1).state = .ready
      ∧ ran (.regulatorSet 0) r ((r.setPart 1 { part1 with meshRate := 0x10, memRate := 0x20, linkRate := 0x30,
                                                             burst := 0x40 }).finishOk 0 0)
      ∧ ((f 0).part 1).state ≠ .absent ∧ ((f 0).part 1).memRate ≠ 0 ∧ 4096 ≤ min (4 * 1024) (5 + 10 * 410)
      ∧ ran (.tokenBucketFill 1 410 1 4096) (f 0) ((f 0).setPart 1 { (f 0).part 1 with
          meshBucket := { tokens := 4096 }, memBucket := { tokens := 0 }, linkBucket := { tokens := 4096 } }) := by
  simp only [Live, Holds]; decide +kernel

/-- The accounts of partition 1 at 4 MiB; the tag of the queries is 1. -/
def accounts (en : Nat) (c : Chip) : Chip :=
  (c.setFld Fld.ACCT_BASE_LO_BASE_LO (pg 1) 1).setFld Fld.ACCT_BASE_LO_ACCT_EN (pg 1) en

theorem meets_ctx_query :
    let e := begun (desc Op.ctxQuery 1 0x6000 0 0 0)
    let c (en : Nat) := accounts en (poke 0x400040 (List.replicate 64 1) (holding 65 e dev))
    let a := (c 0).actor 65 0
    (∀ en ∈ [0, 1], Live (st (c en)) ∧ Holds (c en) 65 0 Op.ctxQuery e
        ∧ (c en).flag Fld.ACCT_BASE_LO_ACCT_EN (pg 1) = decide (en = 1))
      ∧ (c 1).acctAddr 1 1 = 0x400040 ∧ (c 1).readPP 1 0x400040 64 = .ok (List.replicate 64 1)
      ∧ ok ((c 1).writeVA a 65 (.entry 65 0) 0x6000 (snapshot (List.replicate 64 1) noUse)) = true
      ∧ ok ((c 0).writeVA a 65 (.entry 65 0) 0x6000 (List.replicate 64 0)) = true := by
  simp only [Live, Holds]; decide +kernel

/-- The three ranges of the sum: below 0, within, above; each at its edge. -/
theorem meets_mem_account :
    let e (d : Nat) := begun (desc Op.memAccount 1 d 0 0 0)
    let c (en d v : Nat) := accounts en (poke 0x400078 (leBytes 8 v) (holding 65 (e d) dev))
    (∀ x ∈ [(2 ^ 64 - 8, 7), (2 ^ 64 - 7, 7), (0, 7), (2 ^ 63 - 8, 7), (2 ^ 63 - 7, 7)],
        Live (st (c 1 x.1 x.2)) ∧ Holds (c 1 x.1 x.2) 65 0 Op.memAccount (e x.1)
        ∧ (c 1 x.1 x.2).flag Fld.ACCT_BASE_LO_ACCT_EN (pg 1) = true
        ∧ (c 1 x.1 x.2).readPP 1 ((c 1 x.1 x.2).acctAddr 1 1 + 0x38) 8 = .ok (leBytes 8 7))
      ∧ Holds (c 0 1 7) 65 0 Op.memAccount (e 1) ∧ (c 0 1 7).flag Fld.ACCT_BASE_LO_ACCT_EN (pg 1) = false
      ∧ ran (.memAccount 65 0) (c 0 1 7) ((c 0 1 7).ended 65 0 (e 1) St.ok 1)
      ∧ ok ((c 1 (2 ^ 64 - 8) 7).writePP 1 0x400078 (leBytes 8 (2 ^ 63))) = true := by
  simp only [Live, Holds]; decide +kernel

/-! ## The step scheduler and the context engine -/

/-- Partition 1 holds the whole batch table; its slot 0 is `b`. -/
def slots (b : BSlot) (c : Chip) : Chip :=
  (c.setFld Fld.BATCH_RANGE_BASE 8 0).setFld Fld.BATCH_RANGE_COUNT 8 4096 |>.setBslot 0 b

theorem meets_batch_slots :
    let e (op : Nat) := begun (desc op 0 0 0 0 0)
    let c (op : Nat) (b : BSlot) := slots b (holding 65 (e op) dev)
    (∀ op ∈ [Op.seqJoin, Op.seqLeave, Op.seqPark], ∀ st ∈ [SlotState.free, .joining, .active, .leaving, .parked],
        (c op { state := st }).stopped = false ∧ Holds (c op { state := st }) 65 0 op (e op)
        ∧ (c op { state := st }).batchTurn 65 0 (e op) = true ∧ (c op { state := st }).deviceSlot 1 0 = some 0
        ∧ ((c op { state := st }).bslot 0).state = st)
      ∧ (c 0x10 { state := .active, parkPend := true }).bslot 0 = { state := .active, parkPend := true }
      ∧ ran (.seqJoin 65 0) (c Op.seqJoin {}) (((c Op.seqJoin {}).setBslot 0 { state := .joining, tag := 7 }).finishOk 65 0)
      ∧ ran (.seqJoin 65 0) (c Op.seqJoin { state := .leaving })
          ((c Op.seqJoin { state := .leaving }).ended 65 0 (e Op.seqJoin) St.slotStateInvalid 0)
      ∧ ran (.seqLeave 65 0) (c Op.seqLeave { state := .active })
          (((c Op.seqLeave { state := .active }).setBslot 0 { state := .leaving }).finishOk 65 0)
      ∧ ran (.seqLeave 65 0) (c Op.seqLeave { state := .joining })
          (((c Op.seqLeave { state := .joining }).setBslot 0 {}).finishOk 65 0)
      ∧ ran (.seqPark 65 0) (c Op.seqPark { state := .active })
          (((c Op.seqPark { state := .active }).setBslot 0 { state := .active, parkPend := true }).finishOk 65 0)
      ∧ ran (.seqPark 65 0) (c Op.seqPark { state := .parked })
          ((c Op.seqPark { state := .parked }).finishOk 65 0) := by
  simp only [Holds]; decide +kernel

theorem meets_batch_registers :
    let r := slots { state := .leaving, releasing := true } dev
    let v : Word := 4096 * 2 ^ 16
    Live (st r) ∧ (r.bslot 0).state = .leaving ∧ (r.bslot 0).releasing = true ∧ (r.bslot 0).table = 0
      ∧ r.slotBusy 1 0 0 (fun op => isCtxOp op || isJobOp op) = false
      ∧ r.flag Fld.ACCT_BASE_LO_ACCT_EN (pg 1) = false ∧ ran (.slotRelease 1 0) r (r.setBslot 0 {})
      ∧ HostUp (st dev) ∧ 4096 < wbits (v + 1) 11 0 + wbits (v + 1) 28 16
      ∧ ran (.batchRangeWrite 1 (v + 1)) dev (dev.regError (Reg.BATCH_RANGE + 8 * 1))
      ∧ wbits v 11 0 + wbits v 28 16 = 4096 ∧ dev.bslots = []
      ∧ (∀ o < 16, o ≠ 1 → rangesMeet (wbits v 11 0, wbits v 28 16) (dev.slotRange o) = false)
      ∧ ran (.batchRangeWrite 1 v) dev
          ((dev.setFld Fld.BATCH_RANGE_BASE 8 0).setFld Fld.BATCH_RANGE_COUNT 8 4096)
      ∧ (∀ w ∈ [1, 65536], 1 ≤ wbits (BitVec.ofNat 32 w) 16 0 ∧ wbits (BitVec.ofNat 32 w) 16 0 ≤ 65536)
      ∧ (∀ w ∈ [0, 65537], wbits (BitVec.ofNat 32 w) 16 0 = 0 ∨ 65536 < wbits (BitVec.ofNat 32 w) 16 0)
      ∧ ran (.batchTokmaxWrite 1 65536) dev (dev.setFld Fld.BATCH_TOKMAX_TOKENS_MAX 8 65536)
      ∧ ran (.batchTokmaxWrite 1 65537) dev dev := by
  simp only [Live, HostUp]; decide +kernel

/-- One request, of slot 0 and 3 tokens; its block at 12 KiB, its list at 16 KiB, its manifest at 24 KiB. -/
theorem meets_step :
    let e := begun (desc Op.step 0x3000 3 0 0 0)
    let b := leBytes 8 0x4000 ++ leBytes 8 1 ++ leBytes 8 0x6000 ++ leBytes 40 0
    let rb := leBytes 8 (3 * 2 ^ 32)
    let c := (slots { state := .active } (poke 0x4000 rb (poke 0x3000 b (holding 65 e dev)))).setFld
      Fld.BATCH_TOKMAX_TOKENS_MAX 8 3
    let x := StepBlk.ofBytes b
    let c1 := c.boundary 1
    Live (st c) ∧ Holds c 65 0 Op.step e ∧ c.batchTurn 65 0 e = true
      ∧ c.readVA (c.actor 65 0) 0x3000 64 = .ok b ∧ x.ok = true ∧ x.nreq = 1
      ∧ c.readVA (c.actor 65 0) x.reqVa 8 = .ok rb ∧ [fieldLE rb 0 8].map stepReq = [(0, 3)]
      ∧ reqsOk [fieldLE rb 0 8] 3 (c.fld Fld.BATCH_TOKMAX_TOKENS_MAX 8) = true
      ∧ firstFailing (c.stepSlotOk 1) [(0, 3)] 0 = none ∧ firstFailing (c.stepPosOk 1) [(0, 3)] 0 = none
      ∧ c.namedSlots 1 [(0, 3)] = [c.bslot 0] ∧ c.stepLengths 1 (65 * 64) (c.namedSlots 1 [(0, 3)]) = .ok [0]
      ∧ c.tableSlots 1 = [] ∧ c.stepLengths 1 (65 * 64) [] = .ok []
      ∧ (Chip.writeManifest 65 0 0x6000 (manifestHead x 1 3 :: c1.manifestEntries 1 [(0, 3)] [0] 0) c1).2.isNone = true := by
  simp only [Live, Holds]; decide +kernel

/-- A table of one head at 256 KiB with INT8 keys and values of 32 bytes: `n` positions, and pages at 1 MiB. -/
def tableOf (n : Nat) (c : Chip) : Chip :=
  poke 0x40000 (leBytes 4 1 ++ leBytes 4 2 ++ leBytes 4 n ++ leBytes 52 0 ++ leBytes 8 0x100001 ++ leBytes 8 0x110001) c

theorem meets_append :
    let e := begun (desc Op.ctxAppend 0x3000 0x6000 0 0 0)
    let blk := leBytes 4 0 ++ leBytes 4 1 ++ leBytes 8 0x7000 ++ leBytes 48 0
    let c := slots { state := .active, table := 0x40000 }
      (tableOf 2047 (poke 0x7000 (leBytes 32 2) (poke 0x6000 (leBytes 32 1) (poke 0x3000 blk (holding 65 e dev)))))
    Live (st c) ∧ Holds c 65 0 Op.ctxAppend e
      ∧ (match c.ctxCmd 65 0 e (fun op => op == Op.ctxAppend || isJobOp op) appendBlockOk with
        | .error _ => false
        | .ok x => appendOk x.h.kfmt x.blk && decide (x.h.length + 1 = x.h.holds)
          && (match c.ctxEntries x.w x.b.table (x.h.entriesFor x.h.length 1) with
            | .error _ => false
            | .ok ents => badEntry ents == none && (ents.filter fun en => en.2 == .absent) == []
              && c.peekPool 1 0 (c.poolHead 1) (c.poolCount 1) == ([], c.poolHead 1, .enough)
              && (let w := Chip.appendRows 65 0 x 0x6000 0x7000 [(0, 0x100000), (1, 0x110000)] [(0, 0)] c
                  w.2.isNone && ok (w.1.writeVA x.w 65 (.entry 65 0) (x.b.table + 8) (leBytes 4 2048))))) = true := by
  simp only [Live, Holds]; decide +kernel

/-- The first position of an empty table, with the two pages that it takes from the pool. -/
theorem meets_append_pages :
    let e := begun (desc Op.ctxAppend 0x3000 0x6000 0 0 0)
    let blk := leBytes 4 0 ++ leBytes 4 1 ++ leBytes 8 0x7000 ++ leBytes 48 0
    let table := leBytes 4 1 ++ leBytes 4 2 ++ leBytes 4 0 ++ leBytes 52 0 ++ leBytes 16 0
    let c := (slots { state := .active, table := 0x40000 } (poke 0x110000 (leBytes 8 0x120001) (poke 0x100000
      (leBytes 8 0x110001) (poke 0x40000 table (poke 0x7000 (leBytes 32 2) (poke 0x6000 (leBytes 32 1)
        (poke 0x3000 blk (holding 65 e dev)))))))).setPool 1 0x100000 2 |>.setFld Fld.CTX_POOL_HEAD_LO_POOL_EN (pg 1) 1
    Live (st c) ∧ Holds c 65 0 Op.ctxAppend e
      ∧ (match c.ctxCmd 65 0 e (fun op => op == Op.ctxAppend || isJobOp op) appendBlockOk with
        | .error _ => false
        | .ok x => appendOk x.h.kfmt x.blk && decide (x.h.length + 1 ≤ x.h.holds)
          && (match c.ctxEntries x.w x.b.table (x.h.entriesFor x.h.length 1) with
            | .error _ => false
            | .ok ents => badEntry ents == none && ((ents.filter fun en => en.2 == .absent).map Prod.fst) == [0, 1]
              && decide (2 ≤ c.poolCount 1) && c.peekPool 1 2 (c.poolHead 1) (c.poolCount 1) == ([0x100000, 0x110000], 0x120000, .enough)
              && (let taken := [(0, 0x100000, 0x110000), (1, 0x110000, 0x120000)]
                  let t := Chip.writeEntries 65 x (.entry 65 0) taken 0 c
                  let w := Chip.appendRows 65 0 x 0x6000 0x7000 [(0, 0x100000), (1, 0x110000)] [(0, 0)] t.1
                  t.2.1 == 2 && t.2.2.isNone && w.2.isNone
                    && ok (w.1.writeVA x.w 65 (.entry 65 0) (x.b.table + 8) (leBytes 4 1))))) = true := by
  simp only [Live, Holds]; decide +kernel

/-- A gather of position 0's value row and of a row of zeros. -/
theorem meets_gather :
    let e := begun (desc Op.ctxGather 0x3000 0x6000 0 0 0)
    let blk := leBytes 4 0 ++ leBytes 4 2 ++ leBytes 8 0x5000 ++ leBytes 48 0
    let ib := leBytes 8 0 ++ leBytes 8 0xFFFFFFFF
    let c := slots { state := .active, table := 0x40000 }
      (poke 0x110000 (leBytes 32 5) (tableOf 1 (poke 0x5000 ib (poke 0x3000 blk (holding 65 e dev)))))
    Live (st c) ∧ Holds c 65 0 Op.ctxGather e
      ∧ (match c.ctxCmd 65 0 e isJobOp gatherOk with
        | .error _ => false
        | .ok x => decide (0 < x.h.heads) && x.h.vrow == 32
          && decide (c.readVA (c.actor 65 0) 0x5000 16 = .ok ib) && decide (0 < x.h.length)
          && (match c.ctxEntries x.w x.b.table (gatherEntries x.h 0 0 [0, 0xFFFFFFFF]) with
            | .error _ => false
            | .ok ents => notResident ents == none
              && (let w := Chip.gatherRows 65 0 1 x.h 0 0 32 0x6000 32 ents [0, 0xFFFFFFFF] 0 c
                  w.2.1 == 2 && w.2.2.isNone))) = true := by
  simp only [Live, Holds]; decide +kernel

/-- A scan of one query over one position. -/
theorem meets_scan :
    let e := begun (desc Op.ctxScan 0x3000 0x6000 0 0 0)
    let blk := leBytes 12 0 ++ leBytes 4 1 ++ leBytes 8 0x5000 ++ leBytes 40 0
    let c := slots { state := .active, table := 0x40000 }
      (tableOf 1 (poke 0x5000 (leBytes 32 1) (poke 0x3000 blk (holding 65 e dev))))
    Live (st c) ∧ Holds c 65 0 Op.ctxScan e ∧ (c.part 1).det = false
      ∧ (match c.scanSetup 65 0 e with
        | .error _ => false
        | .ok (x, b, r) => (b.considered r.limits) == [0]
          && !c.rowRebuilt 1 (rowPpa x.h b (residentPages r.entries) 0)
          && c.rowStack 1 (rowPpa x.h b (residentPages r.entries) 0) == 0) = true := by
  simp only [Live, Holds]; decide +kernel

theorem meets_pool :
    let c := ((dev.setFld Fld.DEV_CAPS0_CTX_ENGINE 0 1).setFld Fld.DEV_CAPS0_STACKS 0 6).setFld
      Fld.CTX_POOL_HEAD_LO_POOL_EN (pg 1) 1
    let d := (c.setFld Fld.CTX_FREE_SLOTS 0 16).setFld Fld.CTX_FREE_WATTS 0 19
    Live (st c) ∧ 5 < c.fld Fld.DEV_CAPS0_STACKS ∧ c.flag Fld.DEV_CAPS0_CTX_ENGINE = true ∧ c.scans = []
      ∧ c.detParts = []
      ∧ ran (.engineFrameSlot 5 3) c { c with frameSlot := KMap.set 5 1 c.frameSlot, elasticScan := [] }
      ∧ HostUp (st c) ∧ c.exists? 1 = true ∧ c.flag Fld.CTX_POOL_HEAD_LO_POOL_EN (pg 1) = true
      ∧ (c.part 1).pageOk 0 = true ∧ c.poolCount 1 < 0x7FFFFF
      ∧ ok (c.writePP 1 0 (leBytes 8 (c.poolHead 1 + 1))) = true ∧ ran (.ctxNextDetWrite (16 + 19 * 2 ^ 8)) d
          ((d.setFld Fld.CTX_NEXT_DET_SLOTS 0 16).setFld Fld.CTX_NEXT_DET_WATTS 0 19)
      ∧ ran (.ctxNextDetWrite (17 + 19 * 2 ^ 8)) d (d.regError Reg.CTX_NEXT_DET) := by
  simp only [Live, HostUp]; decide +kernel

/-! ## Waves -/

/-- Operands of an instruction: a VGPR `n` is 0x100 + n, none is 0x80. -/
def args (len dst s0 s1 s2 mod ext : Nat) : Args :=
  { len := BitVec.ofNat 2 len, dst := BitVec.ofNat 9 dst, src0 := BitVec.ofNat 9 s0, src1 := BitVec.ofNat 9 s1,
    src2 := BitVec.ofNat 9 s2, mod := BitVec.ofNat 5 mod, rsv := 0, ext := BitVec.ofNat 32 ext }

/-- Wave 0 of cluster 0: the one wave of a workgroup of queue 65 with 24 granules of crema and tile 0. -/
def waving (wv : Wave) : Chip :=
  let g : WGroup := { q := 65, slot := 0, index := 0, granules := List.range 24, tileBase := [0], vregs := 16,
                      waves := 1, live := [0] }
  { ((holding 65 { dispatches 3 with phase := .running } devC).setFld Fld.DEV_CAPS1_TFMT 0 0xFFF).setGrid 65 0 grid3 with
    clusters := [(0, { part := 1, wgs := [(0, g)], tableOk := true })], waves := [(0, wv)] }

/-- A wave whose only active lane is 5. -/
def lane5 (s v : KMap Word) : Wave := { wg := 0, k := 0, exec := 0x20, sregs := s, vregs := v }

/-- The bytes of an instruction of class `cls` and operation `op` (R129), and a device with them at the start of the
program's code. -/
def code (cls op : Nat) (a : Args) : List Byte :=
  leBytes (argBytes a) (a.len.toNat + 2 ^ 2 * cls + 2 ^ 5 * op + 2 ^ 15 * a.dst.toNat + 2 ^ 24 * a.src0.toNat
    + 2 ^ 33 * a.src1.toNat + 2 ^ 42 * a.src2.toNat + 2 ^ 51 * a.mod.toNat + 2 ^ 56 * a.rsv.toNat + 2 ^ 64 * a.ext.toNat)

def coded (cls op : Nat) (a : Args) (c : Chip) : Chip := poke 0x200000 (code cls op a) c

/-- At the wave's program counter stands `a` (`Issues c 0 0 cls op a x`), and its context `x` meets `f`. -/
def issuing (c : Chip) (cls : Nat) (op : Option Nat) (a : Args) (f : WCtx → Bool) : Bool :=
  match c.wctx 0 0 with
  | some x => (match c.fetchInsn x with | .ok i => i.defined && i.is cls op a | .error _ => false) && f x
  | none => false

/-- v0 := v1 + v2 in lane 5, wrapping; an ADD on FP64, which is illegal on an odd register; MIN. -/
theorem meets_valu :
    let wv := lane5 [] [(37, 0xFFFFFFFF), (69, 2)]
    let a := args 0 0x100 0x101 0x102 0x80 0 0
    let c := coded Cls.valu 0 a (waving wv)
    Live (st c) ∧ Operand.of a.dst = .v 0 ∧ valuWords (.add (.int 32 false)) = (1, 1) ∧ arithFloat .fp32 = some fp32
      ∧ issuing c Cls.valu (ValuOp.field (.add (.int 32 false))) a (fun x => valuLegal false (.add (.int 32 false)) a x.wg.vregs
          && !valuLegal false (.add .fp64) a x.wg.vregs && minMaxLegal false .fp32 a x.wg.vregs) = true
      ∧ (match exec (.valuOp 0 0 (.add (.int 32 false)) a) (st c) with
        | .next t => t.chip.wave 0 == some { wv with vregs := [(5, 1), (37, 0xFFFFFFFF), (69, 2)], pc := 8 }
        | _ => false) = true := by
  simp only [Live]; decide +kernel

/-- A QMX; an SFU instruction; a scalar operation and a branch with no destination. -/
theorem meets_vector :
    let c (cls : Nat) (a : Args) := coded cls 3 a (waving (lane5 [] [(37, 0x3F800000)]))
    let mx := args 0 0x100 0x101 0x80 0x80 4 0
    let one := args 0 0x100 0x101 0x80 0x80 0 0
    let none_ := args 0 0x80 0x80 0x80 0x80 0 0
    Live (st (c Cls.valu mx)) ∧ issuing (c Cls.valu mx) Cls.valu none mx (fun x => mxLegal mx x.wg.vregs) = true
      ∧ Live (st (c Cls.sfu one)) ∧ issuing (c Cls.sfu one) Cls.sfu none one (fun x => sfuLegal .fp32 one x.wg.vregs) = true
      ∧ (∀ k ∈ [Cls.salu, Cls.ctrl], Live (st (c k none_))
          ∧ issuing (c k none_) k (some (3 : BitVec 10).toNat) none_ (fun x => plainLegal none_ x.wg.vregs) = true) := by
  simp only [Live]; decide +kernel

/-- LD, ST and LDS of 4 bytes at 20 KiB, and an atomic add there. -/
theorem meets_wave_memory :
    let wv := lane5 [(2, 0x5000)] [(69, 0x5000), (165, 9)]
    let ld := args 0 0x100 0x102 0x80 0x80 0 0
    let sto := args 0 0x80 0x102 0x105 0x80 0 0
    let lds := args 0 4 2 0x80 0x80 0 0
    let at_ := args 0 0x100 0x102 0x105 0x80 0 0
    let c (kind : Nat) (a : Args) := coded Cls.mem (memOp kind 2 (if kind = 2 then 2 else 0)) a (poke 0x5000 (leBytes 4 7) (waving wv))
    let op (kind : Nat) := some (memOp kind 2 0)
    sizeBytes (2 : BitVec 3).toNat = some 4 ∧ Live (st (c 0 ld)) ∧ Live (st (c 1 sto)) ∧ Live (st (c 6 lds)) ∧ Live (st (c 2 at_))
      ∧ issuing (c 0 ld) Cls.mem (op 0) ld (fun x => memLegal 0 2 0 ld x.wg.vregs
          && ok ((c 0 ld).laneReads x ld 4 x.wv.lanes)) = true
      ∧ issuing (c 1 sto) Cls.mem (op 1) sto (fun x => memLegal 1 2 0 sto x.wg.vregs && !(c 1 sto).releaseWaits x sto
          && ok (laneWrites x sto 4 x.wv.lanes (c 1 sto))) = true
      ∧ issuing (c 6 lds) Cls.mem (op 6) lds (fun x => memLegal 6 2 0 lds x.wg.vregs
          && decide ((c 6 lds).readVA x.act (laneVa x lds 0) 4 = .ok (leBytes 4 7))) = true
      ∧ issuing (c 2 at_) Cls.mem (some (memOp 2 2 2)) at_ (fun x => atomLegal false 2 2 2 at_ x.wg.vregs
          && !(c 2 at_).waveAsking (waveKey x.cl x.w) && !(c 2 at_).releaseWaits x at_
          && ((c 2 at_).unanswered x at_ 4).isEmpty && ok (doAtomics x at_ 2 4 x.wv.lanes (c 2 at_))) = true
      ∧ (match exec (.ld 0 0 2 0 ld) (st (c 0 ld)) with
        | .next t => (t.chip.wave 0).map (fun w => w.v 0 5) == some 7
        | _ => false) = true
      ∧ (match exec (.lds 0 0 2 0 lds) (st (c 6 lds)) with
        | .next t => (t.chip.wave 0).map (fun w => w.s 4) == some 7
        | _ => false) = true := by
  simp only [Live]; decide +kernel

/-- LDC, STC and ATOMC of 4 bytes at offset 16, with a corrected error. -/
theorem meets_crema :
    let wv := lane5 [] [(69, 16), (165, 9)]
    let ld := args 0 0x100 0x102 0x80 0x80 0 0
    let sto := args 0 0x80 0x102 0x105 0x80 0 0
    let at_ := args 0 0x100 0x102 0x105 0x80 0 0
    let c (kind : Nat) (a : Args) := coded Cls.mem (memOp kind 2 0) a (waving wv)
    let op (kind : Nat) := some (memOp kind 2 0)
    let e (c : Chip) := c.cremaErrors 0 { corrected := 1 }
    sizeBytes (2 : BitVec 3).toNat = some 4 ∧ (lane5 [] []).lanes = [5]
      ∧ Live (st (c 3 ld)) ∧ Live (st (c 4 sto)) ∧ Live (st (c 5 at_))
      ∧ issuing (e (c 3 ld)) Cls.mem (op 3) ld (fun x => memLegal 3 2 0 ld x.wg.vregs && laneOff x ld 5 == 16
          && ok (((e (c 3 ld)).cluster 0).cremaRead x.wg.granules 16 4)) = true
      ∧ issuing (c 4 sto) Cls.mem (op 4) sto (fun x => memLegal 4 2 0 sto x.wg.vregs
          && decide (16 + 4 ≤ x.wg.granules.length * 4096)) = true
      ∧ issuing (e (c 5 at_)) Cls.mem (op 5) at_ (fun x => atomLegal false 5 2 0 at_ x.wg.vregs
          && ok (((e (c 5 at_)).cluster 0).cremaRead x.wg.granules 16 4)) = true := by
  simp only [Live]; decide +kernel

theorem meets_sync :
    let a (dst mod : Nat) := args 0 dst 0x80 0x80 0x80 mod 0
    let c (o : Nat) (a : Args) := coded Cls.sync o a (waving (lane5 [] []))
    (∀ x ∈ [(0, a 0x80 8), (1, a 0x80 0), (2, a 0x80 0), (3, a 126 0)], Live (st (c x.1 x.2))
        ∧ (c x.1 x.2).waveOutstanding (waveKey 0 0) = false
        ∧ issuing (c x.1 x.2) Cls.sync (some x.1) x.2 (fun _ => syncLegal x.1 x.2) = true)
      ∧ (match exec (.barSync 0 0 (a 0x80 0)) (st (c 1 (a 0x80 0))) with
        | .next t => (t.chip.wave 0).map Wave.atBarrier == some true
            && (KMap.find 0 (t.chip.cluster 0).wgs).map WGroup.arrived == some [0]
        | _ => false) = true := by
  simp only [Live]; decide +kernel

/-- Every live wave of the workgroup has arrived. -/
theorem meets_barrier :
    let c := waving { lane5 [] [] with atBarrier := true }
    let g : WGroup := { q := 65, slot := 0, index := 0, granules := [], tileBase := [], vregs := 16, waves := 1,
                        live := [0], arrived := [0] }
    let k := { c with clusters := [(0, { part := 1, wgs := [(0, g)] })] }
    Live (st k) ∧ KMap.find 0 (k.cluster 0).wgs = some g ∧ g.arrived ≠ [] ∧ (∀ v ∈ g.live, v ∈ g.arrived)
      ∧ (match exec (.barrierPass 0 0) (st k) with
        | .next t => (t.chip.wave 0).map Wave.atBarrier == some false
        | _ => false) = true := by
  simp only [Live]; decide +kernel

/-- TMMA of INT8 panels with KCOUNT 1; TZERO in both modes; TACC_RAW. -/
theorem meets_tensor :
    let wv := lane5 [(0, 0), (1, 0), (2, 1), (3, 128)] []
    let c (top : Nat) (a : Args) := coded Cls.tensor (tensorOp top 0 0) a (waving wv)
    let op (top : Nat) := some (tensorOp top 0 0)
    let mma := args 1 0x80 0 1 2 0 0
    let zero (m : Nat) := args 0 0x80 0x80 0x80 0x80 m 0
    let raw := args 0 0x80 0 0x80 0x80 0 0
    Live (st (c 0 mma)) ∧ Live (st (c 4 raw))
      ∧ issuing (c 0 mma) Cls.tensor (op 0) mma (fun x => tileOf x.wg 0 == some 0
          && (let k := ((c 0 mma).cluster 0).accept 0
              match tmmaArgs (c 0 mma) x 0 (k.tile 0).f64 mma with
              | some m => ok (k.areaOk x.wg.granules m.offA (panelBytes m.fa m.kcount) 16)
                  && ok (k.areaOk x.wg.granules m.offB (panelBytes m.fb m.kcount) 16)
              | none => false)) = true
      ∧ (∀ m ∈ [0, 1], Live (st (c 1 (zero m))) ∧ issuing (c 1 (zero m)) Cls.tensor (op 1) (zero m)
          (fun _ => tensorShape (zero m) false false false false false) = true)
      ∧ bit ((c 1 (zero 1)).fld Fld.DEV_CAPS1_TFMT) 11 = true
      ∧ issuing (c 4 raw) Cls.tensor (op 4) raw (fun x => tensorShape raw false false true false false
          && x.sc raw.src0 == 0 && !(((c 4 raw).cluster 0).tile 0).f64
          && ok (((c 4 raw).cluster 0).areaOk x.wg.granules 0 98304 16)) = true := by
  simp only [Live]; decide +kernel

/-- TDRAIN to FP32; TSTORE_RAW; TSTAT, with and without CLEAR. -/
theorem meets_drain :
    let wv := lane5 [(0, 0), (3, 128)] []
    let c (top : Nat) (a : Args) := coded Cls.tensor (tensorOp top 0 0) a (waving wv)
    let op (top : Nat) := some (tensorOp top 0 0)
    let raw := args 0 0x80 0 0x80 0x80 0 0
    let drain := args 1 4 0 3 0x80 0 0
    let stat (m : Nat) := args 0 4 0x80 0x80 0x80 m 0
    Live (st (c 2 drain)) ∧ Live (st (c 3 raw))
      ∧ issuing (c 2 drain) Cls.tensor (op 2) drain (fun x => tileOf x.wg 0 == some 0 && drainLegal x false drain
          && x.sc drain.src0 == 0 && x.sc drain.src1 == 128 && x.wg.granules.length * 4096 == 98304) = true
      ∧ issuing (c 3 raw) Cls.tensor (op 3) raw (fun x => tensorShape raw false false true false false
          && x.sc raw.src0 == 0 && x.wg.granules.length * 4096 == 98304) = true
      ∧ (∀ m ∈ [0, 1], issuing (c 5 (stat m)) Cls.tensor (op 5) (stat m) (fun _ =>
          tensorShape (stat m) false true false false false && (Operand.of (stat m).dst).regOk 0 2) = true) := by
  simp only [Live]; decide +kernel

theorem meets_drain_path :
    let d : DrainItem := { tile := 0, kind := 0, start := 44, cycles := 32 }
    let u : TensorTimes := { queue := [d] }
    let c := { dev with clusters := [(0, { part := 1, tensor := u })] }
    Live (st c) ∧ (c.cluster 0).tensor.queue = [d]
      ∧ ran (.drainPathStart 0) c (c.setCluster 0 { c.cluster 0 with tensor := { u with queue := [], running := some d } }) := by
  simp only [Live]; decide +kernel

theorem meets_wave_end :
    let a := args 0 0x80 0x80 0x80 0x80 0 0
    let c := coded Cls.ctrl 0 a (waving (lane5 [] []))
    Live (st c) ∧ issuing c Cls.ctrl none a (fun x => plainLegal a x.wg.vregs && x.g.run.isNone) = true
      ∧ c.waveOutstanding (waveKey 0 0) = false ∧ KMap.find (tileKey 0 0) c.tileRuns = none
      ∧ (match exec (.endWave 0 0 a) (st c) with
        | .next t => t.chip.waves == [] && (t.chip.cluster 0).wgs == []
        | _ => false) = true := by
  simp only [Live]; decide +kernel

theorem meets_scheduling :
    let c (used : Nat) := ((holding 66 (dispatches 3) (holding 65 (dispatches 3) dev)).setPart 1
      { part1 with runList := [65, 66], sliceUsed := [(65, used)] }).setFld Fld.SCHED_CFG_DEFAULT_SLICE_US (pg 1) 50
    let d := dev.setQueue 67 { state := .running, cls := true }
    (∀ n ∈ [49999, 50000], Live (st (c n)) ∧ (c n).runList 1 = [65, 66] ∧ (c n).sliceKey 65 = 65 ∧ (c n).sliceNs 65 = 50000)
      ∧ ran (.sliceExpiry 1) (c 49999) (c 49999)
      ∧ ran (.sliceExpiry 1) (c 50000) ((c 50000).setPart 1 { (c 50000).part 1 with runList := [66, 65], sliceUsed := [] })
      ∧ d.displayQueue 1 = some 67
      ∧ ran (.displayLate 1 1001) d ((d.count Fld.DISP_LATE_CNT_COUNT (pg 1)).postEvent 1 0x0010 67 2) := by
  simp only [Live]; decide +kernel

/-- A position's count of terms at its greatest, 2^25 − 1. -/
theorem meets_image : (2 ^ 25 - 1 : Nat) < 2 ^ 25 := by decide

/-! ## Graphics -/

/-- A render pass of one tile without attachments: 4 KiB of vertices, one chunk. -/
def passBlk : List Byte := leBytes 4 (64 + 64 * 2 ^ 16) ++ leBytes 4 0 ++ leBytes 4 4 ++ leBytes 4 1 ++ leBytes 48 0

/-- A draw block of triangles without indices. -/
def drawBlk (first last : Bool) : List Byte := leBytes 4 (b2n first + 2 * b2n last + 2 * 4) ++ leBytes 60 0

/-- A pipeline state whose vertex program's header is at 1 MiB; it has no fragment program. -/
def pipeBlk : List Byte := leBytes 8 0x100000 ++ leBytes 56 0

/-- A DRAW of `n` vertices: pipeline state at 12 KiB, draw block, render pass; bin stream at 128 KiB. -/
def drawE (n : Nat) : Entry := begun (desc Op.draw 0x3000 0x3100 (n + 2 ^ 32) 0x3200 0x20000)

/-- The blocks of a DRAW in memory. -/
def drawing (first last : Bool) (c : Chip) : Chip :=
  poke 0x3200 passBlk (poke 0x3100 (drawBlk first last) (poke 0x3000 pipeBlk c))

/-- The chain that the DRAW joins. -/
def chain1 : Chain := { rpVa := 0x3200, bsVa := 0x20000, draws := 1, pass := RPass.ofBytes passBlk }

theorem meets_draw_malformed :
    let c := drawing false false (holding 65 (drawE 3) devC)
    Live (st c) ∧ Holds c 65 0 Op.draw (drawE 3) ∧ c.drawTurn 65 0 (drawE 3) = true
      ∧ (drawE 3).desc.p1.toNat % 8 = 0 ∧ c.readVA (c.actor 65 0) 0x3100 64 = .ok (drawBlk false false) ∧ c.chain 65 = none
      ∧ (DrawBlk.ofBytes (drawBlk false false)).first = false := by
  simp only [Live, Holds]; decide +kernel

theorem meets_draw_first :
    let e := drawE 3
    let c := poke 0x100000 header (drawing true false (holding 65 e devC))
    let b := DrawBlk.ofBytes (drawBlk true false)
    let x : Chain := { rpVa := 0x3200, bsVa := 0x20000, pass := RPass.ofBytes passBlk }
    let c1 := (c.setChain 65 x).chainedDraw 65 0 e b x
    Live (st c) ∧ Holds c 65 0 Op.draw e ∧ c.drawTurn 65 0 e = true ∧ c.chain 65 = none ∧ b.first = true
      ∧ passBytes passBlk = 64 ∧ e.desc.p1.toNat % 8 = 0 ∧ e.desc.p3.toNat % 64 = 0 ∧ e.desc.p4.toNat % 4096 = 0
      ∧ c.readVA (c.actor 65 0) 0x3100 64 = .ok (drawBlk true false) ∧ c.readVA (c.actor 65 0) 0x3200 64 = .ok passBlk ∧ x.pass.ok = true
      ∧ (c1.entry 65 0).map Entry.phase = some .running := by
  simp only [Live, Holds]; decide +kernel

/-- The vertex records of 1365 vertices fill the 4 KiB that are left exactly; those of 1366 do not fit. -/
theorem meets_draw_next :
    let b := DrawBlk.ofBytes (drawBlk false true)
    let s := Pipe.ofBytes pipeBlk
    let x := chain1
    let room := 64 * x.pass.vtxKib
    let used (n : Nat) := { x with vtxUsed := room - n * (1 + s.nvar) }
    let c (n k : Nat) := (poke 0x100000 header (drawing false true (holding 65 (drawE n) devC))).setChain 65 (used k)
    ∀ n ∈ [3, 4], Live (st (c n 3)) ∧ Holds (c n 3) 65 0 Op.draw (drawE n) ∧ (c n 3).drawTurn 65 0 (drawE n) = true
      ∧ (c n 3).readVA ((c n 3).actor 65 0) 0x3100 64 = .ok (drawBlk false true)
      ∧ (c n 3).chain 65 = some (used 3) ∧ b.first = false ∧ b.ok = true ∧ (drawE n).desc.p0.toNat % 8 = 0
      ∧ (drawE n).desc.p3.toNat = x.rpVa ∧ (drawE n).desc.p4.toNat = x.bsVa ∧ x.draws ≠ 0 ∧ x.draws < 65536
      ∧ x.failed = none ∧ (c n 3).readVA ((c n 3).actor 65 0) 0x3000 64 = .ok pipeBlk ∧ s.ok x.pass = true
      ∧ (match (c n 3).drawPrograms 65 0 s x.pass b.last with
        | .ok (c1, _) => c1.entry 65 0 == some (drawE n)
        | .error _ => false) = true
      ∧ ((used 3).vtxUsed + n * (1 + s.nvar) ≤ room ↔ n = 3) := by
  simp only [Live, Holds]; decide +kernel

/-- A DRAW of one triangle in its geometry phase, its one batch written: (−1, −1), (1, −1), (−1, 1) at z = 0, w = 1. -/
def run3 : DrawRun :=
  { no := 0, last := false, psVa := 0x3000, fargs := 0, vargs := 0, topology := 2, index := 0, indexVa := 0,
    restart := false, baseVertex := 0, count := 3, instances := 1, pipe := Pipe.ofBytes pipeBlk, vbase := 0,
    doneBatches := [0] }

/-- The grid of a DRAW. -/
def drawGrid (d : DrawRun) : Grid := { grid3 with draw := true, total := 1, next := 1, completed := 1, run := some d }

theorem meets_primitives :
    let x := { chain1 with vtxUsed := 3 }
    let v (a b : Nat) := leBytes 4 a ++ leBytes 4 b ++ leBytes 4 0 ++ leBytes 4 0x3F800000
    let c (d : DrawRun) := ((poke 0x21000 (v 0xBF800000 0xBF800000 ++ v 0x3F800000 0xBF800000 ++ v 0xBF800000 0x3F800000)
      (holding 65 { drawE 3 with phase := .running } devC)).setChain 65 x).setGrid 65 0 (drawGrid d)
    let passed : DrawRun := { run3 with inst := 1 }
    let off : DrawRun := { run3 with pos := 3 }
    (∀ d ∈ [run3, passed, { passed with last := true }, off],
        Live (st (c d)) ∧ (c d).grid 65 0 = some (drawGrid d) ∧ (c d).chain 65 = some x ∧ x.failed = none
          ∧ (c d).setupReady 65 0 (drawGrid d) d = true ∧ (c d).setupTurn 65 0 d = true)
      ∧ (match passed.next with | .done => true | _ => false) = true ∧ passed.last = false
      ∧ ok ((c passed).grind 65 0 x.bsVa x.header) = true
      ∧ (match Chip.endTiles 65 0 (x.heads.map Prod.fst) (c { passed with last := true }) x with
        | .ok (c1, x1) => ok (c1.grind 65 0 x.bsVa x1.header)
        | .error _ => false) = true
      ∧ (match off.next with | .skip d2 => d2 == { off with inst := 1, pos := 0 } | _ => false) = true
      ∧ (match run3.next with | .prim ks d1 => ks == [0, 1, 2] && d1 == { run3 with pos := 3 } | _ => false) = true
      ∧ (match (c run3).readVtxs ((c run3).actor 65 0) run3 x [0, 1, 2] with
        | .error _ => false
        | .ok vs =>
          match (c run3).setupPrim 65 0 run3 x vs with
          | .error _ => false
          | .ok (c1, x1, b) => b == 1 && ok (c1.grind 65 0 x.bsVa x1.header)) = true := by
  simp only [Live]; decide +kernel

/-- The tile phase of a LAST DRAW: the one tile's stream is empty. -/
theorem meets_tiles :
    let d := { run3 with last := true, tiles := true }
    let g := { drawGrid d with total := 2, cremaKib := 16 }
    let c := ((poke 0x20100 (leBytes 4 0xFFFFFFFF ++ leBytes 4 0)
      (holding 65 { drawE 3 with phase := .running } devC)).setChain 65 chain1).setGrid 65 0 g
    let r := (c.joinRunList 65)
    let ch := r.claimDisplay 65 0
    Live (st r) ∧ r.grid 65 0 = some g ∧ r.chainOf 65 0 = some chain1 ∧ g.run = some d ∧ d.tiles = true ∧ g.saved = false
      ∧ ch.launchChoice 65 0 g = some 1 ∧ d.batches ≤ 1
      ∧ (match Chip.placeTile 65 0 0 chain1 d ch g 1 with | .ok _ => true | .error _ => false) = true := by
  simp only [Live]; decide +kernel

theorem meets_tile_write_out :
    let d := { run3 with last := true, tiles := true }
    let c := ((holding 65 { drawE 3 with phase := .running } devC).setChain 65 chain1).setGrid 65 0
      { drawGrid d with total := 2, cremaKib := 16 }
    let wg : WGroup := { q := 65, slot := 0, index := 1, granules := [0], tileBase := [], vregs := 0, waves := 1,
                         live := [] }
    let t : TileRun := { q := 65, slot := 0, tile := 0, atts := [] }
    let k := { c with clusters := [(0, { part := 1, wgs := [(0, wg)] })], tileRuns := [(tileKey 0 0, t)] }
    Live (st k) ∧ KMap.find (tileKey 0 0) k.tileRuns = some t ∧ KMap.find 0 (k.cluster 0).wgs = some wg ∧ t.cur = none
      ∧ t.jobs = [] ∧ k.chainOf t.q t.slot = some chain1
      ∧ ok (Chip.writeSurfs (k.actor 65 0) 65 (.entry 65 0) (chain1.pass.rect 0) (writes chain1.pass []) k) = true := by
  simp only [Live]; decide +kernel

/-! ## Compression -/

/-- Queue 65's job in slot 0 holds lane 0; its block at 20 KiB. -/
def onLane (op : Nat) (blk : List Byte) (c : Chip) : Chip :=
  { poke 0x5000 blk (holding 65 (begun (desc op 0x5000 0 0 0 0)) c) with lanes := [(0, 65 * 64)] }

/-- A job block. -/
def jobBlk (w dst n m : Nat) : List Byte :=
  leBytes 4 w ++ leBytes 4 0 ++ leBytes 8 0x8000 ++ leBytes 8 dst ++ leBytes 4 n ++ leBytes 4 m ++ leBytes 32 0

/-- What a job continues. -/
def history (c : Chip) (e : Entry) (j : Job) : Chip × HistRead :=
  match c.jobHistory 65 0 e j with
  | .ok x => x
  | .error c1 => (c1, { check := [] })

/-- A whole Zstandard stream of no input, into 16 bytes and into 1 byte: only headers and an empty raw block. -/
theorem meets_compress :
    let w := 3 + 8 + 16 + 2 ^ 10 + 10 * 2 ^ 24
    let e := begun (desc Op.compress 0x5000 0 0 0 0)
    let c (m : Nat) := onLane Op.compress (jobBlk w 0x9000 0 m) dev
    let j (m : Nat) := Job.ofBytes (jobBlk w 0x9000 0 m)
    let c1 (m : Nat) := (history (c m) e (j m)).1
    let x : StreamJob := { fmt := 3, first := true, last := true, checksum := false, lazy := false,
                           depth := 1, wlog := 10, window := [], bytes := 0, check := checkInit 3, repeats := [1, 4, 8] }
    let out (m : Nat) := (c1 m).putOutput 65 0 [(0x9000, m)] ((x.output []).take m)
    (∀ m ∈ [1, 16], Live (st (c m)) ∧ (c m).laneOf 65 0 = some 0 ∧ Holds (c m) 65 0 Op.compress e ∧ e.ending = none
        ∧ (c m).readVA ((c m).actor 65 0) 0x5000 64 = .ok (jobBlk w 0x9000 0 m)
        ∧ (j m).ctx = false ∧ (j m).last = true
        ∧ (match (c m).jobBuffers 65 0 0x5000 (j m) true with
          | .ok l => l == ([(0x8000, 0)], [(0x9000, m)])
          | .error _ => false) = true
        ∧ (match (c m).jobHistory 65 0 e (j m) with | .ok y => (j m).stream y.2 == x | .error _ => false) = true
        ∧ (c1 m).readFar ((c1 m).actor 65 0) (bufPieces [(0x8000, 0)]) = ([], none)
        ∧ (out m).2.isNone = true ∧ (out m).1.acknowledged 65 0 = true)
      ∧ x.output [] = [0x28, 0xB5, 0x2F, 0xFD, 0, 0, 1, 0, 0] := by
  simp only [Live, Holds]; decide +kernel

theorem meets_compress_words :
    let w := 3 + 8 + 16 + 2 ^ 10 + 10 * 2 ^ 24
    let e := begun (desc Op.compress 0x5000 0 0 0 0)
    let c := onLane Op.compress (jobBlk w 0x9000 0 16) dev
    let j := Job.ofBytes (jobBlk w 0x9000 0 16)
    let out := ((history c e j).1.putOutput 65 0 [(0x9000, 16)] [0x28, 0xB5, 0x2F, 0xFD, 0, 0, 1, 0, 0]).1
    let r := out.writeVA (out.actor 65 0) 65 (.entry 65 0) 0x5030 (leBytes 8 9 ++ leBytes 4 0
      ++ leBytes 4 (checkVal 3 (checkMore 3 (checkInit 3) [])))
    ok r = true ∧ (got r).acknowledged 65 0 = true := by
  decide +kernel

theorem meets_ending :
    let e (op : Nat) : Entry := { begun (desc op 0x5000 0 0 0 0) with ending := some (.ok 9, []) }
    let c (op : Nat) := { holding 65 (e op) dev with lanes := [(0, 65 * 64)] }
    ∀ op ∈ [Op.compress, Op.decompress], Live (st (c op)) ∧ (c op).laneOf 65 0 = some 0 ∧ Holds (c op) 65 0 op (e op) := by
  simp only [Live, Holds]; decide +kernel

/-- A raw stream of RFC 1951 that decodes to one byte, and one whose block type is invalid. -/
theorem meets_decompress :
    let e := begun (desc Op.decompress 0x5000 0 0 0 0)
    let blk (n : Nat) := jobBlk (8 + 16) 0x9000 n 4
    let c (i : List Byte) := poke 0x8000 i (onLane Op.decompress (blk i.length) dev)
    let d (i : List Byte) := decodeFmt 0 i
    let out (i : List Byte) := (c i).putOutput 65 0 [(0x9000, 4)] ((d i).out.take 4)
    (∀ i ∈ [[0x4B, 0x04, 0x00], [0x07]], Live (st (c i)) ∧ (c i).laneOf 65 0 = some 0
        ∧ Holds (c i) 65 0 Op.decompress e ∧ e.ending = none
        ∧ (c i).readVA ((c i).actor 65 0) 0x5000 64 = .ok (blk i.length) ∧ (Job.ofBytes (blk i.length)).ctx = false
        ∧ (match (c i).jobBuffers 65 0 0x5000 (Job.ofBytes (blk i.length)) false with
          | .ok l => l == ([(0x8000, i.length)], [(0x9000, 4)])
          | .error _ => false) = true
        ∧ (c i).readFar ((c i).actor 65 0) (bufPieces [(0x8000, i.length)]) = (i, none)
        ∧ (out i).2.isNone = true ∧ (out i).1.acknowledged 65 0 = true)
      ∧ (d [0x4B, 0x04, 0x00]).out = [0x61] ∧ (d [0x4B, 0x04, 0x00]).ok = true ∧ (d [0x07]).ok = false
      ∧ (d [0x07]).out = [] := by
  simp only [Live, Holds]; decide +kernel

/-- The result words of those two streams. -/
theorem meets_decompress_words :
    let blk (n : Nat) := jobBlk (8 + 16) 0x9000 n 4
    let c (i : List Byte) := poke 0x8000 i (onLane Op.decompress (blk i.length) dev)
    let d (i : List Byte) := decodeFmt 0 i
    let out (i : List Byte) := ((c i).putOutput 65 0 [(0x9000, 4)] ((d i).out.take 4)).1
    let r (i : List Byte) := (out i).writeVA ((out i).actor 65 0) 65 (.entry 65 0) 0x5030
      (leBytes 8 (d i).out.length ++ leBytes 4 (d i).used ++ leBytes 4 (checkVal 0 (checkMore 0 (checkInit 0) (d i).out)))
    ∀ i ∈ [[0x4B, 0x04, 0x00], [0x07]], ok (r i) = true ∧ (got (r i)).acknowledged 65 0 = true := by
  decide +kernel

/-- The first page, for a page whose object area would end past the partition's memory, and for one whose object lies
within it. -/
theorem meets_tier :
    let t := begun (desc Op.compress 0x5000 0 0 0 0)
    let tier (dst : Nat) := (jobBlk (4 + 2 ^ 10) dst 0 0).set 9 0
    let k (dst : Nat) := slots { state := .active, table := 0x40000 }
      (tableOf 64 (onLane Op.compress (tier dst) (dev.setFld Fld.DEV_CAPS0_CTX_ENGINE 0 1)))
    (∀ dst ∈ [0x3FFF0200, 0x200000], Live (st (k dst)) ∧ Holds (k dst) 65 0 Op.compress t ∧ t.ending = none
        ∧ (k dst).laneOf 65 0 = some 0 ∧ (Job.ofBytes (tier dst)).ctx = true ∧ (Job.ofBytes (tier dst)).dst = dst
        ∧ (k dst).readVA ((k dst).actor 65 0) 0x5000 64 = .ok (tier dst)
        ∧ (match (k dst).tier 65 0 t (Job.ofBytes (tier dst)) true with
          | .ok x => x.entry == .resident 0x100000
          | .error _ => false) = true
        ∧ (k dst).stopping 65 = false ∧ ((k dst).part 1).scratchBytes ≤ dst)
      ∧ ((k 0x3FFF0200).part 1).memBytes < 0x3FFF0200 + 65280
      ∧ 0x200000 + 65280 ≤ ((k 0x200000).part 1).memBytes := by
  simp only [Live, Holds]; decide +kernel

/-- The page of that job can be read. -/
theorem meets_tier_page :
    let k := slots { state := .active, table := 0x40000 }
      (tableOf 64 (onLane Op.compress ((jobBlk (4 + 2 ^ 10) 0x200000 0 0).set 9 0) (dev.setFld Fld.DEV_CAPS0_CTX_ENGINE 0 1)))
    ∃ bs, k.readPP 1 0x100000 65536 = .ok bs :=
  ⟨_, Chip.readPP_clean (by decide +kernel) (by decide +kernel) (by decide +kernel)
    (Chip.lostLoc_intact (by decide +kernel))⟩

theorem meets_lanes :
    let c := holding 65 (begun (desc Op.compress 0x5000 0 0 0 0)) dev
    let o := dev.setFld Fld.CDE_LANE_STATUS_OUT 0 5
    Live (st c) ∧ c.lanes = [] ∧ c.fld Fld.CDE_LANE_STATUS_OUT = 0 ∧ c.waitingJobs 1 = [(65, 0, 0)]
      ∧ (∀ p < 16, p ≠ 1 → c.waitingJobs p = []) ∧ c.lanePart < 16
      ∧ ran .compressionLaneStart c (({ c with
          lanes := [(0, 65 * 64)], lanePart := 1, laneQueue := KMap.set 1 1 c.laneQueue } : Chip).setBit Fld.CDE_LANE_STATUS_BUSY 0 0)
      ∧ bit (o.fld Fld.CDE_LANE_STATUS_OUT) 2 = true
      ∧ ran (.compressionLaneReturn 2) o (o.setFld Fld.CDE_LANE_STATUS_OUT 0 1) := by
  simp only [Live]; decide +kernel

/-! ## Collectives and display -/

/-- A collective of two ranks, partitions 0 and 1 of device 0, of which this is rank 1. -/
def coll2 : Coll :=
  { q := 65, slot := 0, op := 0, exact := false, dtype := 0, redop := 0, outFmt := 0, rmode := 0, satf := false,
    nrank := 2, myRank := 1, root := 0, ranks := [(0, 0), (0, 1)], src := 0x7000, dst := 0x8000, count := 1, group := 5,
    seq := 6, timeout := 1, began := 0, digest := 9, digests := [(1, 9)] }

theorem meets_collectives :
    let e := begun (desc Op.collective 0x5000 0 0 0 0)
    let blk := leBytes 4 0 ++ leBytes 4 1 ++ leBytes 8 0x6000 ++ leBytes 8 0x7000 ++ leBytes 8 0x8000 ++ leBytes 4 1
      ++ leBytes 28 0
    let c := poke 0x7000 (leBytes 4 0x3F800000) (poke 0x6000 (leBytes 4 0x100) (poke 0x5000 blk (holding 65 e dev)))
    let x0 := Coll.ofBlock 65 0 blk 0
    let x : Coll := { x0 with ranks := [(0, 1)] }
    let m : CollMsg := { part := 1, srcDev := 0, srcPart := 0, group := 5, seq := 6, body := .digest 9 }
    let h := holding 65 { e with phase := .running } dev
    let k := { h with collHeld := [m], colls := [coll2] }
    let t := { h with colls := [coll2], gtc := 1000 }
    let w : Entry := { begun (desc Op.checkpoint 0 0 0 0 0) with phase := .waiting, watch := .partner {} }
    let p := (holding 65 w dev).setPart 1 { part1 with pairEn := true, pairDev := 3, pairPart := 2 }
    Live (st c) ∧ Holds c 65 0 Op.collective e ∧ c.readVA (c.actor 65 0) 0x5000 64 = .ok blk
      ∧ e.desc.p0.toNat % 8 = 0 ∧ collRsvOk blk = true
      ∧ x0.fieldsOk = true ∧ c.readVA (c.actor 65 0) 0x6000 4 = .ok (leBytes 4 0x100)
      ∧ x0.nrank = 1 ∧ rankList (leBytes 4 0x100) 1 = some [(0, 1)] ∧ noRepeat [(0, 1)] = true
      ∧ c.fld Fld.AXL_DEVICE_DEVNUM = 0 ∧ partOf 65 = 1 ∧ x0.myRank = 0 ∧ x0.dtype = 0 ∧ c.collRoom 1 = true
      ∧ c.readVA (c.actor 65 0) x.src (x.inputs x.myRank * x.inSize) = .ok (leBytes 4 0x3F800000)
      ∧ Live (st k) ∧ k.collHeld = [m] ∧ k.collFor m = some coll2 ∧ (coll2.ranksWith fun _ r => r == (0, 0)) = [0]
      ∧ Live (st t) ∧ t.coll 65 0 = some coll2 ∧ coll2.timeout ≠ 0 ∧ coll2.began + 1000 * coll2.timeout ≤ t.gtc.toNat
      ∧ ((List.range coll2.nrank).find? fun k => !coll2.heard k) = some 0
      ∧ Live (st p) ∧ p.colls = [] ∧ p.queues.length = 1 ∧ p.entry 65 0 = some w ∧ (p.part 1).pairEn = true
      ∧ (p.part 1).pairDev = 3 ∧ (p.part 1).pairPart = 2 := by
  simp only [Live, Holds]; decide +kernel

/-- A pipe 0 of partition 1 that runs: 640 × 480 within 800 × 525 at 25.2 MHz. -/
def piped (c : Chip) : Chip :=
  [(Fld.LCE_PIPE_CTL_ENABLE, 1), (Fld.LCE_PIPE_CTL_OWNER, 1), (Fld.LCE_H_HACTIVE, 640), (Fld.LCE_H_HTOTAL, 800),
   (Fld.LCE_V_VACTIVE, 480), (Fld.LCE_V_VTOTAL, 525), (Fld.LCE_PCLK_KHZ, 25200), (Fld.DEV_CAPS0_DISP_OUT, 2)].foldl
    (fun c f => c.setFld f.1 0 f.2) c

/-- A layer of 8 × 4 texels, linear. -/
def layerBlk (galpha : Nat) : List Byte :=
  leBytes 4 (1 + galpha * 256) ++ leBytes 4 0 ++ leBytes 2 8 ++ leBytes 2 4 ++ leBytes 4 0 ++ leBytes 2 8 ++ leBytes 2 4
    ++ leBytes 4 64 ++ leBytes 8 0x10000 ++ leBytes 32 0

/-- A flip of partition 1 committed to pipe 0. -/
def flip1 : Flip :=
  { q := 65, slot := 0, asid := 0, prot := false, layers := [(0, Layer.ofBytes (layerBlk 255))], relVa := 0x9000,
    relVal := 3, crcEn := false, expect := 0, fallback := 0 }

/-- A flip of one layer, protected or not, in queue 65's slot 0: its opcode, header, block and device. -/
def flipOp (p : Bool) : Nat := if p then Op.protectedFlip else Op.displayFlip
def flipE (p : Bool) : Entry := begun (desc (flipOp p) 0x5000 0 0 0 0)
def flipHead (p : Bool) : List Byte := leBytes 4 (if p then 0x8000 else 0x100) ++ leBytes 60 0
def flipDev (p : Bool) : Chip :=
  poke 0x5000 (flipHead p ++ layerBlk 255) (holding 65 (flipE p) (piped (dev.setPart 1 { part1 with safety := p })))

theorem meets_flips :
    let b (p : Bool) := flipHead p ++ layerBlk 255
    ∀ p ∈ [false, true], Live (st (flipDev p)) ∧ Holds (flipDev p) 65 0 (flipOp p) (flipE p)
      ∧ (flipDev p).readVA ((flipDev p).actor 65 0) 0x5000 64 = .ok (flipHead p)
      ∧ (flipDev p).readVA ((flipDev p).actor 65 0) 0x5000 128 = .ok (b p)
      ∧ flipHeadOk (b p) p 0x5000 = true ∧ (flipDev p).pipeOn 0 = true := by
  simp only [Live, Holds]; decide +kernel

theorem meets_flip_layers :
    let b (p : Bool) := flipHead p ++ layerBlk 255
    let n (p : Bool) := if p then 7 else 0
    let x := Layer.ofBytes (layerBlk 255)
    (∀ p ∈ [false, true], layerNums (bits (fieldLE (b p) 0 4) 15 8) = [n p]
        ∧ Layer.ofBytes (((b p).drop 64).take 64) = x ∧ x.formOk = true
        ∧ x.fits (n p) ((flipDev p).fld Fld.LCE_H_HACTIVE 0) ((flipDev p).fld Fld.LCE_V_VACTIVE 0) = true
        ∧ (match (flipDev p).translateLayers ((flipDev p).actor 65 0) ((flipDev p).part 1).scratchBytes [(n p, x)] with
          | .ok m => (flipDev p).rateOk 0 m
          | .error _ => false) = true)
      ∧ bits (fieldLE (b true) 0 4) 15 8 = 0x80 ∧ (flipDev false).fld Fld.LCE_PIPE_CTL_OWNER 0 = 1 := by
  decide +kernel

/-- Its release fence lies in a carve-out's group in which a refresh window is open. -/
def inWindow (c : Chip) : Chip :=
  { c with
    parts := [(1, { part1 with memGib := 3, det := true, pcgs := [35], pinned := [{ leaf with size := 2 ^ 30 }] })]
    windows := [(35, 256)] }

theorem meets_latch :
    let h := piped (holding 65 { flipE false with phase := .running } dev)
    let l (f : Flip) := h.setPipe 0 { committed := [f] }
    let r := h.setPipe 0 { toRelease := [flip1] }
    let unreleased : Flip := { flip1 with relVa := 0, stale := true }
    (∀ f ∈ [flip1, unreleased], Live (st (l f)) ∧ (l f).pipeOn 0 = true ∧ ((l f).pipe 0).committed = [f]
        ∧ f.layers ≠ [] ∧ ((l f).pipe 0).ownerOff = false ∧ ((l f).pipe 0).protOff = false)
      ∧ Live (st r) ∧ (r.pipe 0).toRelease = [flip1] := by
  simp only [Live]; decide +kernel

/-- A flip without a release fence is released at once; one whose fence lies in a group with an open window waits. -/
theorem meets_release :
    let r (f : Flip) := (piped (holding 65 { flipE false with phase := .running } dev)).setPipe 0 { toRelease := [f] }
    let plain : Flip := { flip1 with relVa := 0 }
    Live (st (r plain)) ∧ ((r plain).pipe 0).toRelease = [plain]
      ∧ ((r plain).setPipe 0 { (r plain).pipe 0 with toRelease := [] }).releaseFlip plain =
          some ((r plain).setPipe 0 { (r plain).pipe 0 with toRelease := [] })
      ∧ Live (st (inWindow (r flip1))) ∧ ((inWindow (r flip1)).pipe 0).toRelease = [flip1]
      ∧ ((inWindow (r flip1)).setPipe 0 { (inWindow (r flip1)).pipe 0 with toRelease := [] }).releaseFlip flip1 = none := by
  simp only [Live]; decide +kernel

theorem meets_scanout :
    let c := ((piped dev).setFld Fld.LCE_H_HACTIVE 0 2).setFld Fld.LCE_PIPE_STATUS_STATE 0 2
    Live (st c) ∧ c.pipeOn 0 = true ∧ (c.pipe 0).line < c.fld Fld.LCE_V_VACTIVE 0 ∧ KMap.find 7 (c.pipe 0).layers = none
      ∧ c.composeLine 0 (c.pipe 0) [] 0 (List.range 2) [] = ([], [0, 0]) ∧ c.fld Fld.LCE_PIPE_STATUS_STATE 0 = 2
      ∧ ran (.scanoutLine 0 []) c ((c.setPipe 0 { c.pipe 0 with line := 1 }).emit (.video 0 0 [0, 0])) := by
  simp only [Live]; decide +kernel

theorem meets_pipes :
    let c := (piped dev).setFld Fld.LCE_PIPE_STATUS_STATE 0 2
    let off := (piped dev).setFld Fld.LCE_PIPE_CTL_ENABLE 0 0
    let ready := { off with mgt := { off.mgt with dispPhy := true } }
    let bad := ready.setFld Fld.LCE_PCLK_KHZ 0 24999
    let logged := c.regError Reg.LCE_PIPE_CTL
    HostUp (st ready) ∧ ready.pipeExists 0 = true ∧ ready.flag Fld.LCE_PIPE_CTL_ENABLE 0 = false
      ∧ ready.timingOk 0 = true ∧ ready.mgt.dispPhy = true ∧ bad.timingOk 0 = false
      ∧ bad.flag Fld.LCE_PIPE_CTL_ENABLE 0 = false
      ∧ ran (.pipeEnableWrite 0 true) ready ((ready.setFld Fld.LCE_PIPE_CTL_ENABLE 0 1).trainDisplay 0)
      ∧ ran (.pipeEnableWrite 0 true) bad (bad.regError Reg.LCE_PIPE_CTL)
      ∧ HostUp (st c) ∧ c.flag Fld.LCE_PIPE_CTL_ENABLE 0 = true ∧ (c.pipe 0).committed = []
      ∧ ran (.pipeEnableWrite 0 false) c (((logged.setFld Fld.LCE_PIPE_CTL_ENABLE 0 0).setFld
          Fld.LCE_PIPE_STATUS_STATE 0 0).setPipe 0 { c.pipe 0 with committed := [], line := 0, trainWait := false })
      ∧ ran (.pipeOwnerWrite 0 2) c ((logged.setFld Fld.LCE_PIPE_CTL_OWNER 0 2).setPipe 0
          { c.pipe 0 with ownerOff := true }) := by
  simp only [HostUp]; decide +kernel

theorem meets_display_pins :
    let off := (piped dev).setFld Fld.LCE_PIPE_CTL_ENABLE 0 0
    let t := (piped dev).setFld Fld.LCE_PIPE_STATUS_STATE 0 1
    Live (st off) ∧ off.pipeExists 0 = true ∧ off.pipeOn 0 = false
      ∧ ran (.displayHotplug 0 true) off (off.setFld Fld.LCE_PIPE_STATUS_HPD 0 1)
      ∧ Live (st t) ∧ t.firmwareRuns = true ∧ t.fld Fld.LCE_PIPE_STATUS_STATE 0 = 1
      ∧ (linkModes (t.flag Fld.LCE_PIPE_CTL_OUT_EDP 0)).find? (fun m => decide
          (33 * t.fld Fld.LCE_PCLK_KHZ 0 * (3 * t.depthBits 0) ≤ m.1 * laneRate m.2)) = some (1, 0)
      ∧ ran (.displayLinkTrained 0 1 0) t (((t.setFld Fld.LCE_PIPE_STATUS_STATE 0 2).setFld
          Fld.LCE_PIPE_STATUS_LANES 0 1).setFld Fld.LCE_PIPE_STATUS_RATE 0 0)
      ∧ ran (.displayLinkTrained 0 2 0) t t := by
  simp only [Live]; decide +kernel

/-! ## The memory side -/

/-- Two partitions of one frame each, with one scratch way of the second. -/
def two : Chip :=
  { dev with parts := [(1, open1), (2, { open1 with frames := [1] })] }

/-- The same with some bytes of each. -/
def two3 : Chip := poke 0x40000010 [9] (poke 0x6000 [1, 2] two)

theorem meets_laid : (two3.part 1).laid ∧ (two3.part 2).laid := by
  simp only [Part.laid]; decide +kernel

theorem meets_memory :
    let bs := leBytes 8 0x0807060504030201
    let c := two3
    ok (c.writePP 1 0x6FFC bs) = true ∧ ok (c.writePP 1 0x5000 bs) = true
      ∧ c.memWf = true
      ∧ (match (c.part 1).locs 0x6FFC 8 with
        | some ls => ls == (List.range 8).map (0x6FFC + ·) && ls.all fun l => !c.badLoc l
        | none => false) = true
      ∧ c.readPP 1 0x6000 2 = .ok [1, 2] ∧ 0x6000 + 2 ≤ 0x6FFC ∧ c.readPP 2 0x10 1 = .ok [9]
      ∧ (∀ f ∈ (c.part 1).frames, f ∉ (c.part 2).frames) ∧ (∀ w ∈ (c.part 1).ways, w ∉ (c.part 2).ways)
      ∧ (got (c.writePP 1 0x6FFC bs)).readPP 1 0x6FFC 8 = .ok bs := by
  decide +kernel

/-- Line 0x12345 of partition 1, and its slice: with that line in way 3; with a miss register that fetches it, alone and
before another line that waits. -/
def lineAccess : CacheSource := .phys 1 0x91A280
def missing : MissReg := { line := 0x12345, primary := { mt := 0, kind := .read }, secondary := [] }
def sliceHit : Slice :=
  { lines := [(homeSet 0x12345 * 16 + 3, { tag := homeTag 0x12345, dirty := false, first := false })] }
def sliceMiss : Slice := { miss := [(7, missing)] }
def sliceQueue : Slice := { sliceMiss with queue := [{ line := 0x777, req := { mt := 0, kind := .read } }] }
def sliced (x : Slice) : Chip := dev.setSlice (homeSlice 0x12345) x

theorem meets_line :
    ∀ x ∈ [sliceHit, sliceMiss, sliceQueue, {}], Live (st (sliced x))
      ∧ (sliced x).accessOf lineAccess = some (1, 0x91A280, 0) ∧ ((sliced x).part 1).det = false
      ∧ ((sliced x).part 1).loc 0x91A280 = some (0x12345 * 128)
      ∧ (sliced x).deadLoc ((sliced x).part 1) (0x12345 * 128) = false := by
  simp only [Live]; decide +kernel

theorem meets_cache :
    let i := homeSlice 0x12345
    let x := sliceHit
    let y : Slice := {}
    ((sliced x).slice i).lookup 0x12345 = some 3 ∧ x.queue = []
      ∧ ran (.cacheRequest lineAccess 1 .none) (sliced x)
          (((sliced x).setSlice i (x.use 0x12345 3 { mt := 0, kind := CReq.of 1 })).count Fld.SC_HIT_CNT_COUNT (steer i))
      ∧ ((sliced y).slice i).lookup 0x12345 = none ∧ y.queue = []
      ∧ (y.victim.find? fun v => v.line == 0x12345) = none ∧ y.fetching 0x12345 = none ∧ y.freeMiss = some 0
      ∧ ran (.cacheRequest lineAccess 0 .none) (sliced y)
          (((sliced y).setSlice i { miss := [(0, missing)] }).count Fld.SC_MISS_CNT_COUNT (steer i)) := by
  decide +kernel

theorem meets_miss :
    let i := homeSlice 0x12345
    let y := sliceMiss
    let z := sliceQueue
    ((sliced y).slice i).lookup 0x12345 = none ∧ y.queue = [] ∧ (y.victim.find? fun v => v.line == 0x12345) = none
      ∧ y.fetching 0x12345 = some (7, missing) ∧ missing.secondary = []
      ∧ ran (.cacheRequest lineAccess 0 .none) (sliced y) (((sliced y).setSlice i
          { y with miss := [(7, { missing with secondary := [{ mt := 0, kind := .read }] })] }).count
            Fld.SC_MERGE_CNT_COUNT (steer i))
      ∧ KMap.find 7 ((sliced y).slice i).miss = some missing ∧ missing.discard = false ∧ missing.primary.mt = 0
      ∧ bit ((sliced y).fld Fld.CTX_STK_STATUS_DEGRADED (steer (stackOf 0x12345))) (0x12345 * 128 / (3 * gib) % 16) = false
      ∧ ran (.missFill (BitVec.ofNat 5 i) ⟨7, .none⟩) (sliced y)
          ((sliced y).setSlice i (({ y with miss := [] } : Slice).place (sliced y).cachedWays 0x12345 false))
      ∧ Live (st (sliced z)) ∧ z.queue = { line := 0x777, req := { mt := 0, kind := .read } } :: []
      ∧ z.fetching 0x777 = none ∧ z.freeMiss = some 0
      ∧ ran (.missQueueGrant (BitVec.ofNat 5 i) 90) (sliced z) ((Chip.mergeWaiters i 0x777 []
          (((sliced z).setSlice i { z with queue := [] }).serveLine i 0x777 { mt := 0, kind := .read } true) []).count
            Fld.SC_MRFULL_CNT_COUNT (steer i) 90) := by
  simp only [Live]; decide +kernel

theorem meets_ways :
    let busy := dev.setFld Fld.SC_STATUS_BUSY 0 1
    let t := { dev with ways := [(15, .toOff)] }
    HostUp (st busy) ∧ busy.flag Fld.SC_STATUS_BUSY = true
      ∧ ran (.scWayoffWrite 0) busy (busy.regError Reg.SC_WAYOFF)
      ∧ HostUp (st dev) ∧ dev.flag Fld.SC_STATUS_BUSY = false ∧ dev.ways = []
      ∧ ((0x8000 : Word).toNat % 2 ^ 16 = 2 ^ 15) ∧ ((0x7FFF : Word).toNat % 2 ^ 16 = 2 ^ 15 - 1)
      ∧ ran (.scWayoffWrite 0x7FFF) dev (dev.regError Reg.SC_WAYOFF)
      ∧ (match exec (.scWayoffWrite 0x8000) (st dev) with
        | .next u => u.chip.way 15 == .toOff && (List.range 15).all (fun w => u.chip.way w == .cached)
            && u.chip.fld Fld.SC_STATUS_BUSY == 1
        | _ => false) = true
      ∧ Live (st t) ∧ t.way 15 = .toOff
      ∧ (match exec .wayModeChangeDone (st t) with
        | .next u => u.chip.way 15 == .off && !u.chip.waysBusy
        | _ => false) = true := by
  simp only [Live, HostUp]; decide +kernel

/-- Group 3 of stack 2 is held by the deterministic partition 5; its window starts at 384 ns. -/
theorem meets_stacks :
    let c := { holding 321 (begun (desc Op.copy 0 0 0 0 0)) dev with
      parts := [(5, { part1 with det := true, pcgs := [35], memGib := 3 })], gtc := 2048 + 384 }
    let w := KMap.set 35 (2048 + 384 + 256) c.liveWindows
    let line : BitVec 32 := BitVec.ofNat 32 (35 * 3 * gib / 128)
    Live (st c) ∧ c.carveOwner 35 = some 5 ∧ c.gtc.toNat % 2048 = 128 * 3 ∧ partOf 321 = 5 ∧ (c.entry 321 0).isSome = true
      ∧ ran (.refreshWindow 2 3) c { c with windows := w }
      ∧ ran (.rfmExtraWindow 2 3 []) c { c.count Fld.CTX_RFM_EXTRA_COUNT (steer 2) with windows := w }
      ∧ ran (.rfmExtraWindow 2 3 [(321, 0)]) c ({ c.count Fld.CTX_RFM_EXTRA_COUNT (steer 2) with windows := w }.perturbOnly
          5 4 fun o j => o == 321 && j == 0)
      ∧ c.carveOwner (9 * 128 / (3 * gib)) = none
      ∧ ran (.stackScrub 9 1) c (c.count Fld.CTX_ECC_CE_COUNT (steer (stackOf 9)))
      ∧ ran (.stackScrub 9 2) c ((c.count Fld.CTX_ECC_UE_COUNT (steer (stackOf 9))).addPoison 9)
      ∧ line.toNat * 128 / (3 * gib) = 35 ∧ KMap.find 35 c.liveWindows = none ∧ ran (.stackScrub line 2) c c := by
  simp only [Live]; decide +kernel

/-! ## Time and roles -/

/-- Partition 0 alone. -/
def alone : Chip := { dev with parts := [(0, part1)] }

/-- A device in a state of its time, with port 2 UP or not. -/
def timed (st : Nat) (port : Nat) : Chip :=
  (dev.setFld Fld.GTC_CTL_STATE 0 st).setFld Fld.AXL_PORT_STATUS_STATE (po 2) port

/-- A TIME flit: count 1000 of a master one hop away, received 60 ticks after it was sent. -/
def tflit : TimeFlit :=
  { tx := 5000, echoTx := 100, echoRx := 130, count := 1000, srcDev := 3, masterDev := 3, hops := 1, masterSerial := 77,
    arrival := 5060 }

theorem meets_time :
    let m := (alone.setFld Fld.GTC_CTL_STATE 0 TimeState.master).setRg Reg.GTC_SET_LO 7
    let l := { timed TimeState.locked 0 with gtc := 0x1200000034 }
    let on := l.setFld Fld.AXL_PORT_CTL_MODE (5 * 0x40) 1
    HostUp (st alone) ∧ alone.aloneWithZero = true ∧ wbits 8 6 0 = 8 ∧ wbits 7 6 0 = 7
      ∧ ran (.mapForce 8) alone ((((alone.setFld Fld.DET_MAP_FORCE_CLUSTERS 0 8).applyMap 8).settlePart 0).showPart 0)
      ∧ ran (.mapForce 7) alone (alone.regError Reg.DET_MAP_FORCE)
      ∧ HostUp (st m) ∧ m.timeState = TimeState.master ∧ m.aloneWithZero = true ∧ m.queues = []
      ∧ ran (.gtcSet 2) m { m with gtc := 0x200000007 }
      ∧ HostUp (st l) ∧ l.timeState ≠ TimeState.master ∧ l.exists? 1 = true
      ∧ ran (.gtcSet 2) l (l.regError Reg.GTC_SET_HI)
      ∧ (∀ n < 8, l.fld Fld.AXL_PORT_CTL_MODE (n * 0x40) = 0)
      ∧ ran .resync l ({ l with lockRun := 0 }.setTimeState TimeState.unlocked 63)
      ∧ on.fld Fld.AXL_PORT_CTL_MODE (5 * 0x40) = 1
      ∧ ran .resync on ({ on.regError Reg.GTC_CTL with lockRun := 0 }.setTimeState TimeState.unlocked 63)
      ∧ ran (.gtcLoRead none) l ({ l with gtcLatch := [(0, 0x12)] }.emit (.hostData [0x34, 0, 0, 0]))
      ∧ ran (.gtcLoRead (some 1)) l ({ l with gtcLatch := [(2, 0x12)] }.emit (.hostData [0x34, 0, 0, 0]))
      ∧ ran .gtcPpsEdge l ((l.setRg64 Reg.GTC_PPS_LO Reg.GTC_PPS_HI 0x1200000034).sourceSignal 4 0)
      ∧ ran (.gtcCompare false) l l
      ∧ ran (.gtcCompare true) l (l.detParts.foldl Chip.breakSpan (l.unitFault .timeBase 0 l.detParts .replaced)) := by
  simp only [HostUp]; decide +kernel

theorem meets_time_flits :
    let u := timed TimeState.unlocked PortSt.up
    let c := (u.countRx 2).setLport 2 (((u.countRx 2).lport 2).heard { kind := 3, ack := tflit.ack.toNat, cvc := tflit.cvc.toNat, credits := tflit.credits.toNat })
    let d := timed TimeState.unlocked PortSt.down
    let w := u.setLport 2 { switching := true }
    Live (st d) ∧ d.portUp 2 = false ∧ ran (.timeFlitReceive 2 tflit) d d
      ∧ Live (st u) ∧ u.portUp 2 = true ∧ (u.lport 2).switching = false ∧ (w.lport 2).switching = true
      ∧ ran (.timeFlitSend 2 9) w w ∧ u.timeIn = [] ∧ u.timeState = TimeState.unlocked ∧ tflit.hops.toNat < 63
      ∧ ran (.timeFlitReceive 2 tflit) u (Chip.setTimeState { ((({ c with timeIn := [(2,
            { tx := 5000, rx := 5060, hops := 1, masterDev := 3, serial := 77 })] } : Chip).setFld Fld.GTC_CTL_SRC_PORT 0
              2).stepCounter (BitVec.ofNat 64 (wrapN 64 (1000 + delayOf tflit / 256)))) with lockRun := 0 }
            TimeState.acquiring 1) := by
  simp only [Live]; decide +kernel

/-- The pair of partition 1 with partition 2 of device 3, and this device's time role: a swap at count `t`. -/
def swapping (t : Nat) : Chip :=
  ((dev.setPart 1 { part1 with pairEn := true, pairDev := 3, pairPart := 2 }).setRg64 (Reg.AXL_PSWAP_AT_LO + pg 1)
    (Reg.AXL_PSWAP_AT_HI + pg 1) t).setRg64 Reg.AXL_TSWAP_AT_LO Reg.AXL_TSWAP_AT_HI t |>.setFld Fld.AXL_TSWAP_CTL_PEER 0 3

theorem meets_swaps :
    let w (t : Nat) (role : Bool) : Swap :=
      { timeRole := role, part := if role then 0 else 1, own := true, count := 0, at_ := t, serial := dev.serial, dev := 3,
        peerPart := if role then 0 else 2 }
    let same := (swapping 50000).setFld Fld.AXL_TSWAP_CTL_PEER 0 0
    let nopair := (swapping 50000).setPart 1 part1
    let late := { dev with swaps := [w 10000 false] }
    let due := { dev with swaps := [{ w 10000 false with granted := true }], gtc := 10000 }
    HostUp (st (swapping 50000)) ∧ (swapping 50000).exists? 1 = true
      ∧ (swapping 50000).rg64 (Reg.AXL_PSWAP_AT_LO + pg 1) (Reg.AXL_PSWAP_AT_HI + pg 1) = 50000
      ∧ (swapping 49999).rg64 Reg.AXL_TSWAP_AT_LO Reg.AXL_TSWAP_AT_HI = 49999
      ∧ (swapping 50000).flag Fld.AXL_PSWAP_CTL_BUSY (pg 1) = false ∧ (swapping 50000).flag Fld.AXL_TSWAP_CTL_BUSY = false
      ∧ ((swapping 50000).part 1).pairEn = true ∧ (nopair.part 1).pairEn = false
      ∧ (swapping 50000).fld Fld.AXL_TSWAP_CTL_PEER ≠ (swapping 50000).fld Fld.AXL_DEVICE_DEVNUM
      ∧ same.fld Fld.AXL_TSWAP_CTL_PEER = same.fld Fld.AXL_DEVICE_DEVNUM
      ∧ Live (st late) ∧ late.swaps = [w 10000 false] ∧ (w 10000 false).at_ ≤ late.gtc.toNat + 10000
      ∧ Live (st due) ∧ due.swaps = [{ w 10000 false with granted := true }] ∧ (w 10000 false).at_ ≤ due.gtc.toNat := by
  simp only [Live, HostUp]; decide +kernel

/-! ## Ports and the link -/

/-- Port 2 of eight, in a state, its physical layer working. -/
def ported (s : Nat) (c : Chip) : Chip :=
  { (c.setFld Fld.DEV_CAPS0_LINK_PORTS 0 8).setFld Fld.AXL_PORT_STATUS_STATE (po 2) s with
    mgt := { c.mgt with axlPhy := true } }

/-- What a far end sends at training. -/
def peer (crypt auth : Bool) : PeerArgs :=
  { mode := 1, dev := 3, serial := 9, crypt := crypt, authentic := auth, numberTaken := false, slotsRefused := 0 }

theorem meets_port_modes :
    let c (s : Nat) := ported s dev
    let on := (c PortSt.down).setFld Fld.AXL_PORT_CTL_MODE (po 2) 1
    let logged := on.regError (Reg.AXL_PORT_CTL + po 2)
    HostUp (st (c 0)) ∧ (c 0).hasPort 2 = true ∧ (c 0).portUp 2 = false ∧ (c 0).portState 2 = PortSt.off
      ∧ (c 0).fld Fld.AXL_PORT_CTL_MODE (po 2) = 0 ∧ (c 0).mgt.axlPhy = true
      ∧ ran (.portModeWrite 2 3) (c 0) ((c 0).regError (Reg.AXL_PORT_CTL + po 2))
      ∧ on.portUp 2 = false ∧ on.fld Fld.AXL_PORT_CTL_MODE (po 2) ≠ 0
      ∧ ran (.portModeWrite 2 0) on ((logged.setFld Fld.AXL_PORT_CTL_MODE (po 2) 0).setPortState 2 PortSt.off)
      ∧ (∀ m ∈ [1, 2], ran (.portModeWrite 2 (BitVec.ofNat 2 m)) (c 0)
          (((c 0).setFld Fld.AXL_PORT_CTL_MODE (po 2) m).setPortState 2 PortSt.training)) := by
  simp only [HostUp]; decide +kernel

theorem meets_training :
    let t := (ported PortSt.training dev).setFld Fld.AXL_PORT_CTL_MODE (po 2) 1
    let k := t.setFld Fld.AXL_PORT_CTL_CRYPT (po 2) 1
    let sent := t.emit (.training 2 1 0 (t.rg64 Reg.AXL_SERIAL_LO Reg.AXL_SERIAL_HI) false)
    Live (st t) ∧ t.portState 2 = PortSt.training ∧ t.firmwareRuns = true ∧ t.trainRefused 2 (peer false true) = false
      ∧ t.trainRefused 2 (peer true true) = true ∧ (peer true false).authentic = false
      ∧ k.portState 2 = PortSt.training ∧ k.firmwareRuns = true
      ∧ (∀ auth ∈ [false, true], k.trainRefused 2 (peer true auth) = false ∧ (peer true auth).crypt = true)
      ∧ ran (.portTrainingDone 2 (peer true true)) t (sent.setPortState 2 PortSt.refused)
      ∧ ran (.portTrainingDone 2 (peer false true)) t (sent.portGoesUp 2 (peer false true))
      ∧ ran (.portTrainingTimeout 2) t (t.setPortState 2 PortSt.down) := by
  simp only [Live]; decide +kernel

theorem meets_port_timers :
    let c (s : Nat) := ported s dev
    (∀ s < 6, Live (st (c s)) ∧ (c s).portState 2 = s)
      ∧ ran (.portRetrainTimer 2) (c 3) ((c 3).setPortState 2 PortSt.training)
      ∧ ran (.farEndChange 2) (c 4) ((c 4).setPortState 2 PortSt.training)
      ∧ (c 2).portUp 2 = true ∧ (c 3).portUp 2 = false
      ∧ ran (.portDown 2) (c 2) ((((((((c 2).perturbLink 2).setPortState 2 PortSt.down).setLport 2 {}).timeSourceLost
          2).failRequests 2).dropUnreachable).unitFault .port 2 ((c 2).slotOwners 2) .bypassed)
      ∧ ran (.portDown 2) (c 3) (c 3) := by
  simp only [Live]; decide +kernel

/-- Port 2 UP with the spare in use for lane 5, out for test or not. -/
def sparing (loaned : Nat) : Chip :=
  (((ported 2 dev).setFld Fld.AXL_PORT_STATUS_SPARE_USED (po 2) 1).setFld Fld.AXL_PORT_STATUS_SPARED_LANE (po 2) 5).setFld
    Fld.AXL_PORT_STATUS_LOANED (po 2) loaned

theorem meets_lanes_of_a_port :
    let c := (ported 2 dev).setFld Fld.AXL_PORT_CTL_SPARE_THRESH (po 2) 3
    let f := ((((c.spareIn 2 7).count Fld.AXL_SPARE_CNT_COUNT (po 2)).unitFault .lane 7 (c.slotOwners 2)
      .replaced)).postLink 0 0x0031 0 0x207
    Live (st c) ∧ c.portUp 2 = true ∧ c.fld Fld.AXL_PORT_CTL_SPARE_THRESH (po 2) = 3
      ∧ c.flag Fld.AXL_PORT_STATUS_SPARE_USED (po 2) = false
      ∧ ran (.laneFault 2 ⟨7, (some 3072)⟩) c c ∧ ran (.laneFault 2 ⟨7, none⟩) c f ∧ ran (.laneFault 2 ⟨7, (some 3073)⟩) c f := by
  simp only [Live]; decide +kernel

theorem meets_lanes_replaced :
    let u := sparing 0
    let l := sparing 1
    Live (st u) ∧ u.portUp 2 = true ∧ u.flag Fld.AXL_PORT_STATUS_SPARE_USED (po 2) = true
      ∧ u.fld Fld.AXL_PORT_STATUS_SPARED_LANE (po 2) = 5 ∧ u.flag Fld.AXL_PORT_STATUS_LOANED (po 2) = false
      ∧ ran (.laneFault 2 ⟨7, none⟩) u (u.leaveUp 2 PortSt.failed) ∧ ran (.laneFault 2 ⟨5, none⟩) u u
      ∧ Live (st l) ∧ l.portUp 2 = true ∧ l.flag Fld.AXL_PORT_STATUS_SPARE_USED (po 2) = true
      ∧ l.fld Fld.AXL_PORT_STATUS_SPARED_LANE (po 2) = 5 ∧ l.flag Fld.AXL_PORT_STATUS_LOANED (po 2) = true
      ∧ ran (.laneFault 2 ⟨5, none⟩) l ((l.setFld Fld.AXL_PORT_STATUS_LOANED (po 2) 0).unitFault .lane 5 [] .replaced) := by
  simp only [Live]; decide +kernel

theorem meets_switchover :
    let c := ported 2 dev
    let w := c.setLport 2 { switching := true }
    Live (st c) ∧ (c.lport 2).switching = false ∧ ran (.laneSwitchoverDone 2) c c
      ∧ Live (st w) ∧ (w.lport 2).switching = true ∧ (w.lport 2).retry = [] ∧ w.slotOwners 2 = []
      ∧ ran (.laneSwitchoverDone 2) w (w.setLport 2 {}) := by
  simp only [Live]; decide +kernel

theorem meets_loans :
    let c := (ported 2 dev).setFld Fld.AXL_PORT_CTL_MODE (po 2) 1
    let u := sparing 0
    let logged := c.regError (Reg.AXL_PORT_CTL + po 2)
    HostUp (st c) ∧ c.hasPort 2 = true ∧ c.portUp 2 = true ∧ c.fld Fld.AXL_PORT_CTL_MODE (po 2) ≠ 0
      ∧ c.flag Fld.AXL_PORT_STATUS_SPARE_USED (po 2) = false ∧ c.flag Fld.AXL_PORT_STATUS_LOANED (po 2) = false
      ∧ HostUp (st u) ∧ u.hasPort 2 = true ∧ u.flag Fld.AXL_PORT_STATUS_SPARE_USED (po 2) = true
      ∧ u.fld Fld.AXL_PORT_CTL_MODE (po 2) = 0
      ∧ ran (.laneLoan 2 true 7 false) u (u.regError (Reg.AXL_PORT_CTL + po 2))
      ∧ ran (.laneLoan 2 true 7 false) c ((((logged.setFld Fld.AXL_PORT_CTL_LOAN (po 2) 1).setFld
          Fld.AXL_PORT_CTL_LOAN_LANE (po 2) 7).spareIn 2 7).setFld Fld.AXL_PORT_STATUS_LOANED (po 2) 1)
      ∧ ran (.laneLoan 2 false 7 false) c (logged.setFld Fld.AXL_PORT_CTL_LOAN (po 2) 0) := by
  simp only [HostUp]; decide +kernel

/-- A flit without messages. -/
def flitOf (h : FlitHdr) : List Byte := flitBytes h.num (List.replicate 15 0)

/-- A header of each kind; NORMAL ones in order, seen already, and out of order. -/
def hdrs : List FlitHdr :=
  [{ ack := 0, kind := 1 }, { ack := 0, kind := 0 }, { seq := 4095, ack := 0, kind := 0 },
   { seq := 1, ack := 0, kind := 0 }, { ack := 0, kind := 2 }]

theorem meets_flits :
    let c := ported 2 dev
    let c1 := (c.count Fld.AXL_FEC_CE_COUNT (po 2) 3).countRx 2
    let x := c1.lport 2
    let r (l : LPort) := c.setLport 2 l
    let rec1 : FlitRec := { hdr := { ack := 4095, kind := 0 }, slots := [], resends := 9 }
    let h (i : Nat) := hdrs.getD i { ack := 0, kind := 0 }
    Live (st c) ∧ c.portUp 2 = true ∧ c.flag Fld.AXL_PORT_CTL_CRYPT (po 2) = false ∧ flitParse [] = none
      ∧ (∀ i ∈ [0, 1, 2, 3, 4], flitParse (flitOf (h i)) = some ((h i).num, List.replicate 15 0)
          ∧ FlitHdr.ofNum (h i).num = h i)
      ∧ x.rxNext = 0 ∧ (0 + 4096 - 4095) % 4096 ≤ 2048 ∧ 2048 < (0 + 4096 - 1) % 4096
      ∧ ran (.flitReceive 2 [] false 3 0) c (c1.dropFlit 2) ∧ ran (.retryFlitReceive 2 [] false) c ((c.countRx 2).dropFlit 2)
      ∧ ran (.flitReceive 2 (flitOf (h 0)) false 3 0) c (c1.setLport 2 ((x.acked 0).credited (h 0)))
      ∧ ran (.flitReceive 2 (flitOf (h 1)) false 3 0) c (c1.normalFlit 2 (h 1) (List.replicate 15 0) 0)
      ∧ ran (.flitReceive 2 (flitOf (h 2)) false 3 0) c (c1.count Fld.AXL_CRC_ERR_COUNT (po 2))
      ∧ ran (.flitReceive 2 (flitOf (h 3)) false 3 0) c (c1.dropFlit 2)
      ∧ ran (.retryFlitReceive 2 (flitOf (h 4)) false) c
          (((c.countRx 2).setLport 2 ((((c.countRx 2).lport 2).acked 0).credited (h 4))).resend 2)
      ∧ (c.lport 2).retry = [] ∧ c.slotOwners 2 = [] ∧ ran (.retryTimeout 2) c c
      ∧ ran (.retryTimeout 2) (r { retry := [rec1] }) ((r { retry := [rec1], again := [0] }).count
          Fld.AXL_RETRY_CNT_COUNT (po 2))
      ∧ ran (.flitTime 2) (r { switching := true }) (r { switching := true })
      ∧ ((r { oweRetry := true }).lport 2).switching = false ∧ ((r { oweRetry := true }).lport 2).oweRetry = true
      ∧ (c.lport 2).switching = false ∧ (c.lport 2).oweRetry = false ∧ (c.lport 2).again = []
      ∧ (∀ f ∈ ((r { retry := [rec1] }).lport 2).retry, f.resends < 10) ∧ (r { retry := [rec1] }).slotOwners 2 = []
      ∧ ran (.flitTime 2) c (c.newFlit 2) := by
  simp only [Live]; decide +kernel

/-- A read of a line of partition 1 arrives from device 3; answers to a read and to a write arrive. -/
theorem meets_messages :
    let m : Msg := { vc := Vc.req, op := MOp.read, srcDev := 3, srcPart := 2, dstDev := 0, dstPart := 1, tag := 5,
                     addr := 0x5000 }
    let a (status : Nat) : Msg := { vc := Vc.rsp, op := 8, srcDev := 3, srcPart := 2, dstDev := 0, dstPart := 1, tag := 5,
                                    status := status }
    let q (k : ReqKind) : Req := { tag := 5, host := false, dev := 3, addr := 0, kind := k, part := 1, queue := 65,
                                   port := 2, who := .none }
    let c (vc : Nat) (m : Msg) (rs : List Req) :=
      { (ported 2 dev).setLport 2 { rxq := [(vc, [m])] } with reqs := rs }
    let own := { ported 2 dev with reqs := [{ q (.read 8) with answer := some (7, []) }] }
    Live (st (c Vc.req m [])) ∧ ((c Vc.req m []).takeMsg 2 Vc.req (fun m => decide (m.op ≤ 3))).map Prod.fst = some m
      ∧ (dev.takeMsg 2 Vc.req (fun m => decide (m.op ≤ 3))).isNone = true ∧ ran (.inboundRequest 2 false) dev dev
      ∧ ((c Vc.rsp (a 0) []).takeMsg 2 Vc.rsp (fun m => decide (8 ≤ m.op))).map Prod.fst = some (a 0)
      ∧ own.pump.reqs.find? (fun r => r.answer.isSome) = some { q (.read 8) with answer := some (7, []) } := by
  simp only [Live]; decide +kernel

/-- A full message header and a cipher. -/
theorem meets_round_trip :
    let m : Msg := { vc := 3, op := 15, srcDev := 63, srcPart := 15, dstDev := 63, dstPart := 15, tag := 2 ^ 13 - 1,
                     addr := 2 ^ 39 - 1, atom := 31, status := 65535, data := List.replicate 15 1, at_ := 9 }
    let g : Gcm := { h := 5, stream := List.replicate 15 (2 ^ 128 - 1) }
    let slots := List.replicate 14 (2 ^ 128 - 2)
    Msg.ofSlots m.header m.data m.at_ = m ∧ m.data.length < 16 ∧ headerSlots m.header = 15 ∧ m.header < 2 ^ 128
      ∧ g.stream.length = 15 ∧ (∀ b ∈ g.stream, b < 2 ^ 128) ∧ slots.length = 14 ∧ (∀ x ∈ slots, x < 2 ^ 128)
      ∧ gcmOpen g 7 (gcmSeal g 7 slots) = some slots ∧ 0 ≠ g.tagSlot 7 (g.mix slots)
      ∧ gcmOpen g 7 (g.mix slots ++ [0]) = none := by
  decide +kernel

/-! ## The host -/

theorem meets_bar4 :
    let c := poke 0x5000 [1, 2] { dev with pcie := { dev.pcie with vfBar4 := 32 } }
    let e := c.setPart 1 { part1 with state := .opened }
    HostUp (st c) ∧ c.fnEnabled 1 = true ∧ 0x40000000 < 2 ^ c.bar4Log 1 ∧ c.bar4Base 1 = 0
      ∧ c.booted = true ∧ c.fld Fld.PWR_DEVSTATE_STATE = 0 ∧ (c.part 1).state = .ready ∧ c.mgt.op = none
      ∧ (e.part 1).state ≠ .ready
      ∧ c.readPP 1 0x5000 2 = .ok [1, 2] ∧ ran (.bar4Access 1 0x5000 none 2) c (c.emit (.hostData [1, 2]))
      ∧ ok (c.writePP 1 0x5000 [3, 4]) = true ∧ ran (.bar4Access 1 0 none 2) e ((e.count Fld.PCI_BAR4_ERR_COUNT (steer 1)).emit (.hostData [0xFF, 0xFF]))
      ∧ (c.part 1).locs 0x3FFFFFFF 2 = none
      ∧ ran (.bar4Access 1 0x3FFFFFFF none 2) c ((c.count Fld.PCI_BAR4_ERR_COUNT (steer 1)).emit (.hostData [0xFF, 0xFF]))
      ∧ ran (.bar4Access 1 0x3FFFFFFF (some [1, 2]) 0) c (c.count Fld.PCI_BAR4_ERR_COUNT (steer 1)) := by
  simp only [HostUp]; decide +kernel

/-- Before boot, with the link up, a window reads as zeros. -/
theorem meets_bar4_early :
    let c := ({} : Chip).setFld Fld.PCI_LINK_UP 0 1
    Live (st c) ∧ c.fnEnabled 0 = true ∧ 0 < 2 ^ c.bar4Log 0 ∧ c.booted = false
      ∧ ran (.bar4Access 0 0 none 2) c (c.emit (.hostData [0, 0])) := by
  simp only [Live]; decide +kernel

theorem meets_host_requests :
    let r : Req := { tag := 5, host := true, dev := 0, addr := 0x9010, kind := .read 2, part := 1, queue := 65, port := 0,
                     who := .none, sent := true }
    let ask : Req := { r with asks := true }
    let c (r : Req) := { dev with reqs := [r] }
    let a := leNat (leBytes 8 0x77003) / 4096
    let found (r : Req) := (c r).reqs.find? fun x => x.sent && x.host && x.tag == 5
    Live (st (c r)) ∧ Live (st (c ask)) ∧ found r = some r ∧ found ask = some ask
      ∧ ran (.hostCompletion 5 0 [1, 2]) (c r) ((c r).respond r St.ok [1, 2])
      ∧ ran (.hostCompletion 5 2 []) (c r) ((c r).respond r St.poisoned [])
      ∧ ran (.hostCompletion 5 1 []) (c r) ((c r).respond r St.permissionFault [])
      ∧ ran (.pcieCompletionTimeout 5) (c r) ((c r).respond r St.permissionFault [])
      ∧ ran (.hostCompletion 5 0 (leBytes 8 0x77003)) (c ask) (({ (c ask).unhold ask with
          pcie := (c ask).pcie.learn 1 9 a } : Chip).sendHost { ask with asks := false, xlat := some 0x77010 }) := by
  simp only [Live]; decide +kernel

/-- Function 1 holds a translation of page 9 that a request uses, and one of page 10 that none uses. -/
theorem meets_ats :
    let r : Req := { tag := 5, host := true, dev := 0, addr := 0x9010, kind := .read 2, part := 1, queue := 65, port := 0,
                     who := .none, sent := true, xlat := some 0x77010 }
    let c := { dev with reqs := [r], pcie := { dev.pcie with atc := [(1, 9, 0x77), (1, 10, 0x78)] } }
    let left (l : List (Nat × Nat × Nat)) : Chip := { c with pcie := { c.pcie with atc := l } }
    let used (page : Nat) := c.reqs.filter fun r =>
      r.sent && r.host && r.part == 1 && r.xlat.isSome && decide (page ≤ r.addr / 4096) && decide (r.addr / 4096 < page + 1)
    Live (st c) ∧ c.fnEnabled 1 = true ∧ used 10 = [] ∧ used 9 = [r]
      ∧ ran (.atsInvalidate 1 ⟨9, 10, 1⟩) c (((left [(1, 9, 0x77)]).emit (.atsDone 9)).count Fld.PCI_ATS_INV_CNT_COUNT)
      ∧ ran (.atsInvalidate 1 ⟨9, 9, 1⟩) c { c with
          pcie := { c.pcie with atc := [(1, 10, 0x78)], invals := [(9, [5])] } } := by
  simp only [Live]; decide +kernel

theorem meets_configuration :
    let d := { dev with perst := false }
    let n := { dev with pcie := { dev.pcie with vfEnable := false } }
    Live (st dev) ∧ dev.fnEnabled 1 = true ∧ 63 < vectors 1 ∧ Live (st d) ∧ d.perst = false
      ∧ ran (.msixUnmask 1 63) dev ({ dev with msix := [(2048 + 63, { KMap.getD dev.msix (2048 + 63) {} with
          masked := false })] }.sendPending 1)
      ∧ cfgValid .bar4Size 39 = true ∧ cfgPhysical .bar4Size = true ∧ cfgValid .busMaster 0 = true
      ∧ cfgPhysical .busMaster = false ∧ dev.fnEnabled 0 = true
      ∧ ran (.configSpaceWrite 0 .bar4Size 39) dev ({ dev with pcie := { dev.pcie with bar4 := 39 } }.sendPending 0)
      ∧ ran (.configSpaceWrite 1 .busMaster 0) dev ({ dev with pcie := { dev.pcie with bme := 0xFFFD } }.sendPending 1)
      ∧ n.fnEnabled 0 = true ∧ n.pcie.vfEnable = false
      ∧ ran (.vfEnableChange true 3) n { n with pcie := { n.pcie with vfEnable := true, numVfs := 3 } }
      ∧ ran (.hotReset false none) d (((({ d with msix := [], pcie := {} } : Chip).setSpdm 0).setFld Fld.PCI_LINK_UP
          0 0).setFld Fld.PCI_LINK_SPEED 0 0 |>.setFld Fld.PCI_LINK_WIDTH 0 0)
      ∧ ran (.flr 1) dev ((dev.resetFn 1).startReset 1 false) := by
  simp only [Live]; decide +kernel

/-! ## Partitions -/

/-- A PARTITION_CTL with operation `op` and its block at 20 KiB; eight clusters, all of partition 0, and three stacks. -/
def ctlE (op : Nat) : Entry := begun (desc Op.partitionCtl op 0x5000 0 0 0)
def ctlDev (op : Nat) (blk : List Byte) (p3 : Part) : Chip :=
  { ((poke 0x5000 blk (holding 0 (ctlE op) ((dev.setFld Fld.DET_MAP_CLUSTERS 0 8).setFld Fld.DEV_CAPS0_STACKS 0
      3))).setPart 3 p3).setFld Fld.PART_ASIDT_LO_BASE_LO (pg 3) 6 with
    clusters := (List.range 8).map fun i => (i, { phys := i }) }

/-- A block for partition 3: one cluster, one GiB, one ASID. -/
def conf (clusters : Nat) : List Byte :=
  leBytes 4 (3 + clusters * 2 ^ 12) ++ leBytes 4 (1 + 100 * 2 ^ 16) ++ leBytes 4 1 ++ leBytes 52 0

/-- Partition 3, OPEN, its ASID table at 24 KiB. -/
def open3 : Part :=
  { state := .opened, memGib := 1, frames := [0], asidBase := 100, asidCount := 1 }

theorem meets_create :
    let c := ctlDev 0 (conf 1) {}
    let f := PConf.ofBytes (conf 1)
    Live (st c) ∧ Holds c 0 0 Op.partitionCtl (ctlE 0) ∧ c.flag Fld.SC_STATUS_BUSY = false
      ∧ c.readVA (c.actor 0 0) 0x5000 64 = .ok (conf 1)
      ∧ c.createReason f 0 = Reason.ok ∧ ok (c.putReason 0 (ctlE 0) (leBytes 4 0)) = true
      ∧ c.createReason (PConf.ofBytes (conf 0)) 0 = Reason.fieldInvalid := by
  simp only [Live, Holds]; decide +kernel

theorem meets_seal :
    let e := ctlE 1
    let c (n : Nat) := poke 0x6000 (leBytes 8 n) (ctlDev 1 (conf 1) open3)
    let f := PConf.ofBytes (conf 1)
    Live (st (c 0)) ∧ Holds (c 0) 0 0 Op.partitionCtl e ∧ (c 0).readVA ((c 0).actor 0 0) 0x5000 64 = .ok (conf 1)
      ∧ (c 0).plainReason f [.opened] true = Reason.ok
      ∧ (match (c 0).sealWalk 3 with | .ok a => a.count == 0 | _ => false) = true
      ∧ ok ((c 0).putReason 0 e ((c 0).resultWord 3 Reason.ok)) = true
      ∧ (match (c 3).sealWalk 3 with | .error (.invalid .xlate 100 0) => true | _ => false) = true
      ∧ dev.plainReason f [.opened] true = Reason.wrongState := by
  simp only [Live, Holds]; decide +kernel

theorem meets_resize :
    let c (p : Part) := ctlDev 2 (conf 1) p
    let r := { open3 with state := .ready }
    let f := PConf.ofBytes (conf 1)
    Live (st (c r)) ∧ Holds (c r) 0 0 Op.partitionCtl (ctlE 2) ∧ (c r).readVA ((c r).actor 0 0) 0x5000 64 = .ok (conf 1)
      ∧ (c r).resizeReason f = Reason.ok ∧ ok ((c r).putReason 0 (ctlE 2) ((c r).resultWord 3 Reason.ok)) = true
      ∧ (c open3).resizeReason f = Reason.wrongState := by
  simp only [Live, Holds]; decide +kernel

theorem meets_reset_and_destroy :
    let c (op : Nat) (p : Part) := ctlDev op (conf 1) p
    let f := PConf.ofBytes (conf 1)
    let any := [PState.opened, .ready, .resetting]
    (∀ op ∈ [3, 4], Live (st (c op open3)) ∧ Holds (c op open3) 0 0 Op.partitionCtl (ctlE op)
        ∧ (c op open3).readVA ((c op open3).actor 0 0) 0x5000 64 = .ok (conf 1)
        ∧ (c op open3).plainReason f any false = Reason.ok ∧ (c op {}).plainReason f any false = Reason.wrongState)
      ∧ ((c 4 open3).part 3).state ≠ .resetting := by
  simp only [Live, Holds]; decide +kernel

theorem meets_partition_resets :
    let p (n : Nat) : Part := { part1 with state := .resetting, resetStage := n }
    let c (n : Nat) := (holding 65 (begun (desc Op.nop 0 0 0 0 0)) dev).setPart 1 (p n)
    let i (n : Nat) := dev.setPart 1 (p n)
    let gone (x : Host.Outcome State Fault Refusal) := match x with
      | .next u => (u.chip.part 1).resetStage == 2 && (u.chip.part 1).runList == []
          && u.chip.queues.all fun kq => partOf kq.1 != 1
      | _ => false
    (∀ n ∈ [0, 1, 2], Live (st (c n)) ∧ (c n).inReset 1 = true ∧ ((c n).part 1).resetStage = n)
      ∧ (i 0).queues = [] ∧ gone (exec (.partitionReset 1) (st (c 0))) = true
      ∧ gone (exec (.transferStopTimeout 1) (st (c 1))) = true
      ∧ (dev.part 1).state = .ready ∧ (({ dev with parts := [(1, open3)] } : Chip).part 1).state = .opened := by
  simp only [Live]; decide +kernel

/-! ## Power -/

/-- A sample of a period. -/
def sample (late : Bool) (temps : List (BitVec 10)) : PowerSample :=
  { late := late, compute := 200000, memBase := 20000, ext := [50000, 30000], link := 1000, pkg := 400000,
    elastic := 250000, detCompute := 0, detMemory := 0, detLink := 0, waitMem := 0, waitLink := 0, temps := temps,
    energy := [], unattributed := 0 }

/-- The next chip's field of an outcome. -/
def after (x : Host.Outcome State Fault Refusal) (f : Chip → Bool) : Bool :=
  match x with
  | .next u => f u.chip
  | _ => false

theorem meets_power :
    let c := (dev.setFld Fld.PWR_CAP_CAP_W 0 600).setFld Fld.PWR_EXT_CAP_CAP_W 0 300
    Live (st c) ∧ c.hotSensors 2 = [] ∧ ([false, true, false] : List Bool).length = 3 ∧ 60000 + 50000 + 10000 + 40000 ≤ 160000
      ∧ nextDrip 63 100 90 10 ≤ 63 ∧ c.tjMax 0 + 40 ≤ signed 10 (500 : BitVec 10).toNat
      ∧ after (exec .throttleNAssert (st c)) (fun d => d.pwr.ext && decide (d.effectiveCap ≤ 300)) = true
      ∧ after (exec .throttleNRelease (st c)) (fun d => !d.pwr.ext) = true
      ∧ after (exec (.powerPeriod (sample false [500])) (st c)) (fun d => d.stopped && d.thermLevel 0 == 2) = true := by
  simp only [Live]; decide +kernel

theorem meets_slope :
    let c (d : Bool) := { devC with parts := [(0, part1), (1, { part1 with det := d })],
                                    pwr := { devC.pwr with activity := [(0, 10)] } }
    Live (st (c false)) ∧ ((c false).part ((c false).cluster 0).part).det = false
      ∧ ((c true).part ((c true).cluster 0).part).det = true
      ∧ (∀ x ∈ [(0, 6, 2), (6, 6, 0), (14, 14, 0), (64, 14, 2)],
          after (exec (.slopeWindow 0 (BitVec.ofNat 7 x.1)) (st (c false))) (fun d =>
            KMap.getD d.pwr.activity 0 0 == x.2.1 && d.pwr.slope == x.2.2) = true)
      ∧ (∀ x ∈ [(14, 0), (15, 1)], after (exec (.slopeWindow 0 (BitVec.ofNat 7 x.1)) (st (c true))) (fun d =>
            KMap.getD d.pwr.activity 0 0 == x.1 && d.pwr.slope == 0 && d.fld Fld.PWR_SLOPE_VIOL_COUNT == x.2) = true)
      ∧ after (exec (.droopDetect 3) (st dev)) (fun d => d.pwr.droopHit && d.pwr.stretched.contains 3) = true
      ∧ after (exec (.droopRecover 3) (st { dev with pwr := { dev.pwr with stretched := [3, 4] } }))
          (fun d => d.pwr.stretched == [4]) = true := by
  simp only [Live]; decide +kernel

/-- Devices 0 and 1 share a power group with a step of 10 W; their reports of window 5. -/
def grouped (own far : Nat) : Chip :=
  let c := ([(Fld.PWR_SHIFT_CTL_EN, 1), (Fld.PWR_SHIFT_CTL_STEP_W, 10), (Fld.PWR_CAP_CAP_W, 500),
    (Fld.PWR_CAP_CAP_MAX_W, 600)].foldl (fun c f => c.setFld f.1 0 f.2) dev).setRg64 Reg.PWR_SHIFT_MEMBERS_LO
      Reg.PWR_SHIFT_MEMBERS_HI 3
  { c with pwr := { c.pwr with reports := [(0, own), (1, far)] } }

theorem meets_shift :
    let r (wait up down w : Nat) := wait + 2 ^ 10 * up + 2 ^ 20 * down + 2 ^ 30 * 10 + 2 ^ 48 * w
    let c := grouped (r 0 100 250 5) (r 64 100 250 5)
    let b := grouped (r 0 100 250 5) (r 64 100 250 6)
    Live (st c) ∧ c.flag Fld.PWR_SHIFT_CTL_EN = true ∧ HostUp (st c) ∧ c.fld Fld.AXL_DEVICE_DEVNUM = 0
      ∧ c.shiftMembers = [0, 1] ∧ c.badReport 5 0 = false ∧ c.badReport 5 1 = false ∧ b.badReport 5 1 = true
      ∧ bits (r 0 100 250 5) 9 0 + 64 ≤ bits (r 64 100 250 5) 9 0 ∧ c.fld Fld.PWR_SHIFT_CTL_STEP_W = 10
      ∧ 10 ≤ bits (r 64 100 250 5) 29 20 ∧ 10 ≤ bits (r 0 100 250 5) 19 10
      ∧ ([1, 4] : List Nat).Pairwise (· < ·) ∧ criticalOf (fun d => d % 4) [1, 4] = 4
      ∧ ran .shiftEvaluate c (c.setShift (c.shiftW + 10))
      ∧ ran .shiftEvaluate b ((({ b.setShift 0 with pwr := { b.pwr with revertNext := true } } : Chip).setFld
          Fld.PWR_SHIFT_STATUS_REVERTED 0 1).postPower 0x0053 5) ∧ after (exec (.shiftReportReceive 0 1 99) (st c)) (fun d => KMap.find 1 d.pwr.reports == some 99) = true := by
  simp only [Live, HostUp]; decide +kernel

theorem meets_decaf :
    let w := { dev.setFld Fld.PWR_AUTO_AUTO_DECAF 0 1 with clusters := [(0, { phys := 0 }), (8, { phys := 8 })] }
    let n (l : List Nat) := { w with pwr := { w.pwr with entering := [1], latched := l } }
    let g (v : Nat) := w.setGroupState 1 v
    Live (st w) ∧ w.mayDecaf 1 = true ∧ (n []).pwr.entering.contains 1 = true ∧ (g 2).pwr.entering.contains 1 = false
      ∧ (g 2).groupState 1 = 2 ∧ (g 3).groupState 1 = 3 ∧ (n [1]).pwr.latched.contains 1 = true
      ∧ after (exec (.groupDecafEntry 1) (st w)) (fun d => d.pwr.entering == [1]) = true
      ∧ ran (.groupWake 1) (n []) { n [] with pwr := { (n []).pwr with latched := [1] } }
      ∧ ran (.groupWake 1) (g 2) (((g 2).setGroupState 1 3).count Fld.PWR_WAKE_CNT_COUNT)
      ∧ after (exec (.decafEntryDone (some 1)) (st (n []))) (fun d => d.groupState 1 == 2 && d.pwr.entering == []) = true
      ∧ after (exec (.decafEntryDone (some 1)) (st (n [1]))) (fun d => d.groupState 1 == 3 && d.pwr.latched == []) = true
      ∧ after (exec (.decafWakeDone (some 1) 77) (st (g 3))) (fun d =>
          d.groupState 1 == 0 && d.rg Reg.PWR_WAKE_MAX == 77) = true := by
  simp only [Live]; decide +kernel

theorem meets_device_decaf :
    let c (n : Nat) := { dev.setFld Fld.PWR_DEVSTATE_STATE 0 n with clusters := [(0, {})] }
    let i (n : Nat) := (dev.setFld Fld.INTF_THRESH_THRESHOLD (pg 1) n)
    let o (v idle : Nat) (c : Chip) := ((c.setFld Fld.INTF_IDX_INDEX (pg 1) v).setFld Fld.INTF_IDX_IDLE (pg 1)
      idle).setFld Fld.INTF_IDX_WINDOW (pg 1) 3
    HostUp (st (c 0)) ∧ (c 0).detParts = [] ∧ (c 0).flag Fld.MGT_STATUS_BUSY = false
      ∧ (c 0).flag Fld.LCE_PIPE_CTL_ENABLE 0 = false ∧ (c 0).flag Fld.LCE_PIPE_CTL_ENABLE 0x100 = false
      ∧ (c 0).fld Fld.PWR_DEVSTATE_STATE = 0 ∧ (c 3).fld Fld.PWR_DEVSTATE_STATE = 3 ∧ HostUp (st (c 3))
      ∧ ran (.pwrDevstateWrite true) (c 0) (((c 0).setFld Fld.PWR_DEVSTATE_REQ 0 1).setFld Fld.PWR_DEVSTATE_STATE 0 1)
      ∧ ran (.pwrDevstateWrite true) (c 3) ((c 3).regError Reg.PWR_DEVSTATE)
      ∧ ran (.pwrDevstateWrite false) (c 2) (((c 2).setFld Fld.PWR_DEVSTATE_REQ 0 0).wakeDevice)
      ∧ Live (st (c 1)) ∧ (c 1).fld Fld.PWR_DEVSTATE_STATE = 1 ∧ (c 1).queues = [] ∧ (c 1).pwr.devLatched = false
      ∧ after (exec (.decafEntryDone none) (st (c 1))) (fun d => d.fld Fld.PWR_DEVSTATE_STATE == 2
          && d.clusters.all fun k => k.2.st != .inService) = true
      ∧ (c 2).fld Fld.PWR_DEVSTATE_STATE = 2
      ∧ after (exec .deviceWake (st (c 2))) (fun d => d.fld Fld.PWR_DEVSTATE_STATE == 3) = true
      ∧ (c 3).pcie.held = []
      ∧ after (exec (.decafWakeDone none 5) (st (c 3))) (fun d => d.fld Fld.PWR_DEVSTATE_STATE == 0
          && (List.range 12).all fun g => d.groupState g == 0) = true
      ∧ ((i 0).part 1).state ≠ .absent ∧ ((i 0).part 1).det = false ∧ (i 1023).fld Fld.INTF_THRESH_THRESHOLD (pg 1) = 1023
      ∧ ran (.interferenceWindow 1 2000 1000 3) (i 0) (o 1024 0 (i 0))
      ∧ ran (.interferenceWindow 1 0 0 3) (i 0) (o 0 1 (i 0))
      ∧ ran (.interferenceWindow 1 2000 1000 3) (i 1023) ((o 1024 0 (i 1023)).postBoth 1 0x0012 64 (1024 + 3 * 2 ^ 16)) := by
  simp only [Live, HostUp]; decide +kernel

/-! ## Faults, spares and safety -/

/-- Eight clusters of partition 1, each on its physical cluster; `det` says of what kind the partition is. -/
def ras8 (det : Bool) : Chip :=
  { (dev.setFld Fld.DET_MAP_NATURAL 0 8).setFld Fld.DET_MAP_CLUSTERS 0 8 with
    parts := [(0, part1), (1, { part1 with det := det })],
    clusters := (List.range 8).map fun i => (i, { part := 1, phys := i }) }

/-- Cluster `i` isolated and in recovery. -/
def recovering (det fenced assigned : Bool) (i : Nat) (retired : List Nat) : Chip :=
  let c := ras8 det
  { c with clusters := KMap.set i { part := 1, phys := i, st := .isolated } c.clusters,
           ras := { c.ras with retired := retired,
                               recov := [{ cl := i, phys := i, part := 1, at_ := 0, log := 0, fenced := fenced,
                                           assigned := assigned }] } }

theorem meets_recovery :
    let c := ras8 false
    let i (f a : Bool) := recovering false f a 2 []
    let n (k : Nat) := recovering true true false k (List.range 96)
    let elastic := recovering false true false 7 (List.range 96)
    let r (c : Chip) := (c.recovery 2).getD { cl := 9, phys := 9, part := 9, at_ := 9, log := 9 }
    Live (st c) ∧ 2 < c.fld Fld.DET_MAP_NATURAL ∧ (c.cluster 2).st ≠ .isolated ∧ c.recovery 2 = none
      ∧ after (exec (.clusterFault 2) (st c)) (fun d => (d.cluster 2).st == .isolated
          && d.recovery 2 == some { cl := 2, phys := 2, part := 1, at_ := 0, log := (r d).log }) = true
      ∧ Live (st (i false false)) ∧ ((i false false).cluster 2).st = .isolated
      ∧ ran (.clusterFault 2) (i false false) (i false false)
      ∧ (r (i false false)).fenced = false ∧ (r (i true false)).fenced = true ∧ (r (i true false)).assigned = false
      ∧ (i true false).firmwareRuns = true ∧ (i true false).freeSpares.getLast? = some 95
      ∧ ran (.epochFenceDone 2 9) (i false false) (((i false false).setRecovery { r (i false false) with
          fenced := true }).count Fld.EPOCH_DROP_CNT_COUNT 0 9)
      ∧ ran (.spareAssign 2) (i true false) ((((((i true false).setCluster 2 { (i true false).cluster 2 with phys := 95, epoch := 1 }).setRecovery
          { r (i true false) with assigned := true }).retirePhys 2)).spareGone)
      ∧ (n 2).freeSpares.getLast? = none ∧ (n 7).freeSpares.getLast? = none ∧ (n 2).fld Fld.DET_MAP_NATURAL - 1 = 7
      ∧ ((n 7).part 1).det = true ∧ ((n 7).recovery 7).isSome = true
      ∧ (elastic.part 1).det = false ∧ (elastic.recovery 7).isSome = true ∧ elastic.freeSpares.getLast? = none
      ∧ elastic.firmwareRuns = true
      ∧ after (exec (.spareReady 2) (st (i true true))) (fun d => (d.cluster 2).st == .inService && (d.cluster 2).crema == []
          && d.recovery 2 == none) = true := by
  simp only [Live]; decide +kernel

theorem meets_test_slices :
    let c := (ras8 false).setFld Fld.RAS_TEST_CFG_EN 0 1
    let d := { (ras8 true).setFld Fld.RAS_TEST_CFG_EN 0 1 with gtc := 1, queues := [(65, { state := .running, entries :=
      [(0, { begun (desc Op.launchAt 1000 0 0 0 0) with phase := .waiting, watch := .launch 1000 })] })] }
    let t : TestSlice := { cl := 2, tested := 2, spare := 95 }
    let m := c.setCluster 2 (((c.cluster 2).moveTo 95))
    let l := { m.setFld Fld.RAS_SPARES_LOANED 0 1 with ras := { c.ras with tests := [t] } }
    let e := ({ l with ras := c.ras } : Chip).setFld Fld.RAS_SPARES_LOANED 0 0
    Live (st c) ∧ c.freeSpares.getLast? = some 95 ∧ c.flag Fld.RAS_TEST_CFG_EN = true ∧ c.firmwareRuns = true
      ∧ 2 < c.fld Fld.DET_MAP_NATURAL ∧ (c.cluster 2).st = .inService ∧ (c.cluster 2).wgs = [] ∧ c.ras.tests = []
      ∧ (c.part (c.cluster 2).part).det = false
      ∧ ran (.testSliceStart 2) c ({ m with ras := { c.ras with tests := [t] } }.count Fld.RAS_SPARES_LOANED)
      ∧ (d.part (d.cluster 2).part).det = true ∧ d.mayLend 1 = false ∧ ran (.testSliceStart 2) d d
      ∧ Live (st l) ∧ l.ras.tests = [t] ∧ (l.cluster 2).phys = 95 ∧ (l.cluster 2).st = .inService ∧ (l.cluster 2).wgs = []
      ∧ ran (.testSliceEnd 2 true) l (e.setCluster 2 ((l.cluster 2).moveTo 2))
      ∧ ran (.testSliceEnd 2 false) l (((e.unitFault .cluster 2 [1] .replaced).retirePhys 2).spareGone) := by
  simp only [Live]; decide +kernel

theorem meets_unit_faults :
    let c := { dev.setFld Fld.DEV_CAPS0_STACKS 0 6 with ways := [(3, .scratch 1), (4, .failed)] }
    let d := { dev with ras := { dev.ras with dead := [(.slice, 5)] } }
    Live (st c) ∧ c.firmwareRuns = true ∧ (2 : Nat) < c.fld Fld.DEV_CAPS0_STACKS
      ∧ bit (c.fld Fld.CTX_STK_STATUS_DEGRADED (steer 2)) 3 = false
      ∧ (let ps := c.holders 35
         ran (.dieDeclaredFailed 2 3) c (ps.foldl (fun c p => (c.setFld Fld.RAS_PSTATUS_DEGRADED (pg p) 1).breakSpan p)
           ((c.setBit Fld.CTX_STK_STATUS_DEGRADED (steer 2) 3).unitFault .stackGroup 35 ps .bypassed)))
      ∧ ran (.ucieModuleFault 2) c (c.detParts.foldl (fun c p => c.breakSpan p) (c.unitFault .ucie 2 c.detParts .bypassed))
      ∧ c.way 4 = .failed ∧ ran (.cacheWayFault 4) c c ∧ c.way 5 = .cached ∧ c.way 3 = .scratch 1
      ∧ after (exec (.cacheWayFault 5) (st c)) (fun d => d.way 5 == .failed && d.way 6 == .cached) = true
      ∧ ran (.crossingFault 5 1) c ((c.unitFault .crossing 5 [1] .replaced).breakSpan 1)
      ∧ sharedUnits[0]? = some .slice ∧ d.ras.dead.contains (SharedUnit.slice, 5) = true
      ∧ c.ras.dead.contains (SharedUnit.slice, 5) = false ∧ ran (.sharedUnitFault 0 5) d d
      ∧ ran (.sharedUnitFault 11 5) c (c.count Fld.RAS_CE_CNT_COUNT) := by
  simp only [Live]; decide +kernel

theorem meets_safety :
    let b (s n : Nat) := (dev.setFld Fld.RAS_SEQ_STATUS_BARISTA_STATE 0 s).setFld Fld.RAS_SEQ_STATUS_ATTEMPTS 0 n
    let k := dev.setFld Fld.RAS_SEQ_STATUS_CAUSE 0 8
    dev.firmwareRuns = true ∧ dev.fld Fld.RAS_SEQ_STATUS_CAUSE = 0
      ∧ after (exec .baristaFailure (st dev)) (fun d => d.faultN && d.smbAlertN
          && d.fld Fld.RAS_SEQ_STATUS_BARISTA_STATE == 1 && d.fld Fld.PWR_DRIP_LEVEL == 63) = true
      ∧ (b 1 1).fld Fld.RAS_SEQ_STATUS_BARISTA_STATE = 1 ∧ (b 1 1).fld Fld.RAS_SEQ_STATUS_ATTEMPTS < 2
      ∧ ran (.baristaResetAttempt true) (b 1 1) ((b 1 1).setFld Fld.RAS_SEQ_STATUS_ATTEMPTS 0 2)
      ∧ ran (.baristaResetAttempt false) (b 1 2) (((b 1 2).setFld Fld.RAS_SEQ_STATUS_ATTEMPTS 0 3).setFld
          Fld.RAS_SEQ_STATUS_BARISTA_STATE 0 2)
      ∧ HostUp (st (b 2 3)) ∧ (b 2 3).fld Fld.RAS_SEQ_STATUS_BARISTA_STATE = 2
      ∧ ran .retry (b 2 3) ((b 2 3).setFld Fld.RAS_SEQ_STATUS_BARISTA_STATE 0 1)
      ∧ HostUp (st dev) ∧ after (exec .force (st dev)) (fun d => d.faultN
          && d.fld Fld.RAS_SEQ_STATUS_CAUSE == 2 ^ Cause.software) = true
      ∧ HostUp (st k) ∧ k.firmwareRuns = true ∧ bit (k.fld Fld.RAS_SEQ_STATUS_CAUSE) Cause.thermal = false
      ∧ k.fld Fld.LCE_PCRC_LIMIT_LIMIT = 0
      ∧ after (exec .release (st k)) (fun d => !d.faultN && d.fld Fld.RAS_SEQ_STATUS_CAUSE == 0) = true
      ∧ ran (.heartbeat 7) dev (dev.setRg Reg.RAS_HB 7) := by
  simp only [HostUp]; decide +kernel

/-! ## Boot -/

/-- A signing key, and its signatures of images without payload by TYPE; made outside the model. -/
def signKey : Nat := 0x7ae9e1db1160794c70c1ef071be5191f6c66240f4608fbe8a44ecd36c3ed5db97500f2e4d84e3fb45850fd6f4303302bd8ac21444cd80d241538d8034b399a0dee3636eb5cb00b9499d061a571db0f14bb47ed79453948ed63f3a6ccbbf6e74f
def signatures : List Nat :=
  [0x5d5a958a9e4958faa01cf6de32626845e2e0b417228c6d80fd0b341c601efb979f720a37c39801efdbdee37a95f3d14b7d2c193b936704205fab8c67a923eea2dc8787898e69cc453371205d8d25c273637e3e03d39b9ba41bd4632cbfa3f116,
   0x8568a35a879b0d506132993c6d911d3136a731409ab8c5d26fd7a01e81425281453a6c6adf4cd2f38c77a5042815ea48d72948200a5b1cc1d74f2bfdde0f4f092ac93ca926a123534557a95ad13bd6b7db1e161e8bb181a617421d92a45fa1a7,
   0x8568a35a879b0d506132993c6d911d3136a731409ab8c5d26fd7a01e81425281453a6c6adf4cd2f38c77a5042815ea480900b9977cb1ca1a87e4ebeb46046f4d288b31f2fe3fd56cc19d8d219a2631d336a9e9c41fb920ce168090f193396cee]

/-- The header of an image of FW_ID 1 without payload (R461); the digest is SHA-384 of no bytes. -/
def signed (typ : Nat) : List Byte :=
  leBytes 4 0x47465846 ++ leBytes 12 typ ++ leBytes 4 1 ++ leBytes 44 0 ++ beBytes 96 signKey
    ++ beBytes 48 0x38b060a751ac96384cd9327eb1b1e36a21fdb71114be07434c0cc7bf63f6e1da274edebfe76f65fbd51ad2f14898b95b
    ++ beBytes 96 (signatures.getD typ 0) ++ leBytes 208 0

/-- Bytes of flash from an offset. -/
def flashAt (a : Nat) : List Byte → KMap Byte
  | [] => []
  | b :: t => (a, b) :: flashAt (a + 1) t

/-- A device whose set 0 holds the three images, with their key fused and a calibration store. -/
def flashed : NonVol :=
  { rootHash := [0x4938b309efca0e50cab9f949ab849d045c5a676ac0163690ab822a7a4e19d90650792c29353c5bf4461f331495630270, 0, 0, 0]
    flash := flashAt 0 (signed 2) ++ (flashAt 0x200000 (signed 0) ++ (flashAt 0x800000 (signed 1) ++ []))
    cal := some { image := List.replicate 64 0, bands := List.replicate 36 10 } }

theorem length_leBytes (n v : Nat) : (leBytes n v).length = n := by
  induction n generalizing v with
  | zero => rfl
  | succ n ih => simp [leBytes, ih]

theorem find_flashAt (m : KMap Byte) (bs : List Byte) :
    ∀ a i, i < bs.length → KMap.find (a + i) (flashAt a bs ++ m) = bs[i]? := by
  induction bs with
  | nil => intro a i h; simp at h
  | cons b t ih =>
    intro a i h
    cases i with
    | zero => simp [flashAt, KMap.find]
    | succ i =>
      have := ih (a + 1) i (by simpa using h)
      simp only [flashAt, List.cons_append, KMap.find, List.getElem?_cons_succ]
      rw [if_neg (by omega), ← this]; congr 1; omega

theorem find_flashAt_above (m : KMap Byte) (bs : List Byte) :
    ∀ a k, a + bs.length ≤ k → KMap.find k (flashAt a bs ++ m) = KMap.find k m := by
  induction bs with
  | nil => intro a k _; rfl
  | cons b t ih =>
    intro a k h
    simp only [List.length_cons] at h
    simp only [flashAt, List.cons_append, KMap.find]
    rw [if_neg (by omega), ih (a + 1) k (by omega)]

theorem length_signed (t : Nat) : (signed t).length = 512 := by
  simp only [signed, beBytes, List.length_append, List.length_reverse, length_leBytes]

theorem flash_signed {t i : Nat} (ht : t < 3) (hi : i < 512) :
    flashed.flashByte ((imageAt 0 t).1 + i) = (signed t).getD i 0xFF := by
  simp only [NonVol.flashByte, KMap.getD, flashed]
  match t, ht with
  | 2, _ => rw [show (imageAt 0 2).1 = 0 from rfl, find_flashAt _ _ _ _ (by rw [length_signed]; exact hi)]; simp
  | 0, _ =>
    rw [show (imageAt 0 0).1 = 0x200000 from rfl, find_flashAt_above _ _ _ _ (by rw [length_signed]; omega),
      find_flashAt _ _ _ _ (by rw [length_signed]; exact hi)]; simp
  | 1, _ =>
    rw [show (imageAt 0 1).1 = 0x800000 from rfl, find_flashAt_above _ _ _ _ (by rw [length_signed]; omega),
      find_flashAt_above _ _ _ _ (by rw [length_signed]; omega), find_flashAt _ _ _ _ (by rw [length_signed]; exact hi)]; simp

theorem hdr_signed {t o n : Nat} (ht : t < 3) (h : o + n ≤ 512) :
    flashed.hdr (imageAt 0 t).1 o n = ((signed t).drop o).take n := by
  have l := length_signed t
  simp only [NonVol.hdr, NonVol.flashRead, rangeFrom, List.map_map]
  refine List.ext_getElem (by simp [l]; omega) fun i hi _ => ?_
  simp only [List.length_map, List.length_range] at hi
  simp only [List.getElem_map, List.getElem_range, Function.comp_apply, List.getElem_take, List.getElem_drop]
  rw [show i + ((imageAt 0 t).1 + o) = (imageAt 0 t).1 + (o + i) by omega, flash_signed ht (by omega)]
  simp [List.getD, l, show o + i < 512 by omega]

theorem verify_signed {t : Nat} (ht : t < 3)
    (h : ((signed t).zipIdx.all fun x => headerBytes.any (fun f => decide (f.1 ≤ x.2) && decide (x.2 < f.1 + f.2))
      || x.1 == 0) = true)
    (k : let f (o n : Nat) := ((signed t).drop o).take n
      leNat (f 0 4) = 0x47465846 ∧ leNat (f 4 1) = t ∧ leNat (f 5 1) = 0 ∧ leNat (f 6 1) = 0 ∧ leNat (f 8 8) = 0
        ∧ sha384 (f 0x40 96) = flashed.rootHash.getD 0 0 ∧ flashed.rootHash.getD 0 0 ≠ 0 ∧ sha384 [] = beNat (f 0xA0 48)
        ∧ flashed.svnCtr t = 0 ∧ ecdsaOk (beNat (f 0x40 96)) (sha384 (f 0 0xD0)) (beNat (f 0xD0 96)) = true) :
    flashed.verify 0 t = 0 := by
  have p := (show ∀ t < 3, ¬ (imageAt 0 t).2 < 512 by decide) t ht
  have r : flashed.rsvOk (imageAt 0 t).1 = true := by
    rw [NonVol.rsvOk, List.all_eq_true]
    intro o ho
    have ho := List.mem_range.1 ho
    rw [flash_signed ht ho]
    have := List.all_eq_true.1 h ((signed t).getD o 0xFF, o) (by
      rw [List.mem_zipIdx_iff_getElem?]; simp [List.getD, length_signed, ho])
    exact this
  obtain ⟨k0, k1, k2, k3, k4, k5, k6, k7, k8, k9⟩ := k
  simp only [NonVol.verify, NonVol.imageSvn, NonVol.payloadHash, hdr_signed ht (show 0 + 4 ≤ 512 by omega),
    hdr_signed ht (show 4 + 1 ≤ 512 by omega), hdr_signed ht (show 5 + 1 ≤ 512 by omega),
    hdr_signed ht (show 6 + 1 ≤ 512 by omega), hdr_signed ht (show 8 + 8 ≤ 512 by omega),
    hdr_signed ht (show 0x40 + 96 ≤ 512 by omega), hdr_signed ht (show 0xA0 + 48 ≤ 512 by omega),
    hdr_signed ht (show 0 + 0xD0 ≤ 512 by omega), hdr_signed ht (show 0xD0 + 96 ≤ 512 by omega),
    k0, k1, k2, k3, k4, k5, k8, k9, r, NonVol.flashRead, show ∀ n, rangeFrom n 0 = [] from fun _ => rfl, List.map_nil, k7]
  simp only [List.getD_eq_getElem?_getD] at k6
  simp [show bit flashed.revoked 0 = false by decide, p, k6]

theorem test_verify0 : flashed.verify 0 0 = 0 := verify_signed (by decide) (by decide +kernel) (by decide +kernel)
theorem test_verify1 : flashed.verify 0 1 = 0 := verify_signed (by decide) (by decide +kernel) (by decide +kernel)
theorem test_verify2 : flashed.verify 0 2 = 0 := verify_signed (by decide) (by decide +kernel) (by decide +kernel)

/-- A state with these stores. -/
def stN (nv : NonVol) (c : Chip) : State := { chip := c, nv := nv }

/-- Whether a command completes and leaves these stores and this chip. -/
def ranN (i : Instr) (nv0 : NonVol) (c0 : Chip) (nv : NonVol) (c : Chip) : Bool :=
  match exec i (stN nv0 c0) with
  | .next t => decide (t = stN nv c.tick)
  | _ => false

/-- What a command that completes leaves satisfies `f`. -/
def afterN (x : Host.Outcome State Fault Refusal) (f : NonVol → Chip → Bool) : Bool :=
  match x with
  | .next u => f u.nv u.chip
  | _ => false

/-- A boot at which everything works. -/
def fine : BootSample :=
  { fails := 0, hang := none, clusters := [], lanes := 0, engines := 0x3F, drift := [], speed := 4, width := 16 }

theorem meets_boot :
    let off : Chip := { dev with powered := true, perst := true }
    let at0 : Chip := { dev.setFld Fld.MGT_STATE_MODE 0 0 with perst := false, mgt := { dev.mgt with booting := true } }
    let bad := { dev with mgt := { dev.mgt with failed := true } }
    let down := dev.setFld Fld.RAS_SEQ_STATUS_BARISTA_STATE 0 1
    off.powered = true ∧ off.perst = true
      ∧ ran (.boot { fine with hang := some 0 }) off
          (({ off with perst := false, mgt := { off.mgt with booting := true } } : Chip).setFld Fld.MGT_STATE_STEP 0 0)
      ∧ at0.perst = false ∧ ran (.boot fine) at0 at0
      ∧ at0.mgt.booting = true ∧ at0.fld Fld.MGT_STATE_STEP = 0 ∧ at0.fld Fld.MGT_STATE_MODE = 0 ∧ fine.hang = none
      ∧ afterN (exec (.bootStepTimeout fine) (stN {} at0)) (fun nv d => d.mgt.failed && nv.ledger.failedBoots == 1) = true
      ∧ bad.mgt.failed = true
      ∧ afterN (exec (.internalReboot { fine with hang := some 0 }) (stN {} bad)) (fun _ d => d.faultN && d.parts == []) = true
      ∧ down.fld Fld.RAS_SEQ_STATUS_BARISTA_STATE = 1 ∧ flashed.ledger.runSet = 0 ∧ down.mgt.op = none ∧ after (exec (.supplyFault 9) (st dev)) (fun d => d.stopped && d.fld Fld.PCI_SUPPLY_LAST_RAIL == 9) = true
      ∧ after (exec .perstNAssert (st dev)) (fun d => d.perst && d.powered == dev.powered && d.queues == []) = true
      ∧ after (exec .vddAonLoss (st dev)) (fun d => !d.powered) = true
      ∧ after (exec .powerUp (st dev)) (fun d => d.powered && d.perst) = true := by
  decide +kernel

theorem meets_boot_steps :
    let b : Booting := { nv := {}, chip := dev }
    let f : Booting := { b with nv := { ledger0 := some { decision := 2 ^ 24 } } }
    let w (n : Nat) : BootSample := { fine with fails := BitVec.ofNat 32 (2 ^ n) }
    b.go = true ∧ b.rescue = false ∧ fine.hang ≠ some (BitVec.ofNat 5 4) ∧ stepClass 4 = .required ∧ stepClass 24 = .optional
      ∧ stepPasses fine b.nv 4 (bit b.nv.ledger.decision 4) = true ∧ (b.run fine 4).go = true
      ∧ (b.run fine 4).nv.ledger.step 4 = 1
      ∧ stepPasses (w 30) b.nv 30 (bit b.nv.ledger.decision 30) = false ∧ stepClass 30 = .required
      ∧ (b.run (w 30) 30).go = false ∧ (b.run (w 30) 30).nv.ledger.step 30 = 2
      ∧ bit f.nv.ledger.decision 24 = true ∧ (f.run fine 24).go = true ∧ (f.run fine 24).nv.ledger.step 24 = 3 := by
  decide +kernel

theorem meets_boot_restart :
    let down := dev.setFld Fld.RAS_SEQ_STATUS_BARISTA_STATE 0 1
    (down.fld Fld.RAS_SEQ_STATUS_BARISTA_STATE = 1 ∧ flashed.ledger.runSet = 0 ∧ down.mgt.op = none)
      ∧ flashed.verify 0 2 = 0 ∧ flashed.verify 0 0 = 0 :=
  ⟨by decide +kernel, test_verify2, test_verify0⟩

/-! ## Security -/

/-- A key of a debug unlock, and its signature of the challenge of zeros, level 1 and serial 0; made outside the model. -/
def unlockKey : Nat := 0x26f5d23fb4e588a3af767e9ebc38a28b03536027230121d1a1bb730f9fc72bcf9c6aef841361550b9ba46c8958358e520fc1321d3db561c8b38bf1db7c9f85bc9d4809086173b89e558f218d0e10c03815ddd336ba80a48d0e5b19e91dc886ff
def unlockSig : Nat := 0x15e6acf4c32394bbfb50c74bf97132823caabc5eb0595f9dd8dc37659a0ed22982263a53279a60c05772f466a78edbd4c3c557543abf42f3abdb990fa775ed652c0978ecd7985bd1f151e880983e55a44ded4a7d7f65765a189582a9780f284d

/-- A value in the registers from `a`, as they take its bytes. -/
def inWords (a v : Nat) (c : Chip) : Chip :=
  (List.range 24).foldl (fun c i => c.setRg (a + 4 * i) (BitVec.ofNat 32 (leNat (((beBytes 96 v).drop (4 * i)).take 4)))) c

/-- Stores that permit a debug unlock to level 1. -/
def unlockable : NonVol :=
  { dbgHash := 0x2e647617884a8f14a2ce5e9492cec5e08094cad99cc2b4a9cb1e76c0ac216db341573f87c54d28592f852ce84077c28d
    dbgMax := 1 }

/-- The device with a live challenge. -/
def challenged : Chip := { dev with sec := { challenge := true } }

theorem meets_unlock :
    let c := inWords Reg.SEC_DBG_RESP unlockSig (inWords Reg.SEC_DBG_KEY unlockKey challenged)
    Live (stN unlockable c) ∧ c.unlockOk unlockable (1 : BitVec 2).toNat = true
      ∧ c.unlockOk unlockable (2 : BitVec 2).toNat = false
      ∧ afterN (exec (.secDbgSubmit 1) (stN unlockable c)) (fun _ d => d.fld Fld.SEC_STATUS_DEBUG_LEVEL == 1) = true
      ∧ afterN (exec (.secDbgSubmit 2) (stN unlockable c)) (fun _ d => d.fld Fld.SEC_DBG_CTL_FAILS == 1) = true := by
  simp only [Live]; decide +kernel

/-- A rollback burn is due: of image type 1 or of none, held or not, while an operation runs. -/
def burning (svn hold op : Nat) : Chip :=
  let c := dev.setFld Fld.SEC_CFG_SVN_HOLD 0 hold
  { c with mgt := { c.mgt with burnDue := true, svns := [0, svn, 0],
                               op := if op = 0 then none else some { code := op, args := [] } } }

theorem meets_security :
    (∀ op ∈ [0, 0xF1], Live (stN {} (burning 1 0 op)) ∧ (burning 1 0 op).mgt.burnDue = true
        ∧ (burning 1 0 op).flag Fld.SEC_CFG_SVN_HOLD = false ∧ (burning 1 0 op).firmwareRuns = true
        ∧ (burning 1 0 op).opCode = op ∧ burnNext {} (burning 1 0 op) = some 1
        ∧ afterN (exec (.rollbackBurn 5) (stN {} (burning 1 0 op))) (fun nv _ =>
            nv.fuses == [192, 194] && nv.svnCtr 1 == 1) = true) := by
  simp only [Live]; decide +kernel

theorem meets_no_burn :
    let n (op : Nat) := burning 0 0 op
    let h (op : Nat) := burning 1 1 op
    let ended (c : Chip) : Chip := { c with mgt := { c.mgt with burnDue := false } }
    burnNext {} (n 0) = none ∧ burnNext {} (n 0xF1) = none ∧ (h 0).flag Fld.SEC_CFG_SVN_HOLD = true
      ∧ ran (.rollbackBurn 7) (n 0) (ended (n 0))
      ∧ ran (.rollbackBurn 7) (n 0xF1) ((ended (n 0xF1)).finishOp Res.done [])
      ∧ ran (.rollbackBurn 7) (h 0) (h 0) ∧ ran (.rollbackBurn 7) (h 0xF1) ((h 0xF1).finishOp Res.done [])
      ∧ (n 0x10).opCode = 0x10 ∧ ran (.rollbackBurn 7) (n 0x10) (n 0x10) := by
  decide +kernel

theorem meets_challenge :
    let f := dev.setFld Fld.SEC_DBG_CTL_FAILS 0 3
    Live (st dev) ∧ Live (st f) ∧ dev.fld Fld.SEC_DBG_CTL_FAILS < 3 ∧ f.fld Fld.SEC_DBG_CTL_FAILS = 3 ∧ ran (.secDbgChal 1) f (f.setFld Fld.SEC_DBG_CTL_LEVEL 0 1)
      ∧ after (exec .secLockSet (st dev)) (fun d => d.fld Fld.SEC_LOCK_LOCK == 1 && d.fld Fld.SEC_STATUS_LOCKED == 1) = true := by
  simp only [Live]; decide +kernel

theorem meets_attestation :
    let c (n : Nat) : Chip := { dev.setFld Fld.SEC_CFG_DOE_EN 0 1 with sec := { measured := [1, 2, 3, 4, 5], spdm := n } }
    let off := (c 0).setFld Fld.SEC_CFG_DOE_EN 0 0
    let answers (x : Chip) (r : List Nat) : Chip := x.emit (.response r)
    Live (st (c 3)) ∧ after (exec .doeAbort (st (c 3))) (fun d => d.sec.spdm == 0) = true
      ∧ off.spdmRuns = false ∧ ran .getDigests off off ∧ (∀ n ∈ [0, 1, 2, 3], (c n).spdmRuns = true ∧ (c n).sec.spdm = n)
      ∧ ran .getVersion (c 0) (answers ((c 0).setSpdm 1) [0x04, 0x13])
      ∧ ran .getCapabilities (c 0) (answers (c 0) [Spdm.error, Spdm.unexpectedRequest])
      ∧ ran (.negotiateAlgorithms false) (c 2) (answers (c 2) [Spdm.error, Spdm.invalidRequest])
      ∧ (1 : BitVec 3).toNat ≤ 1 ∧ (6 : Byte).toNat ≤ 6
      ∧ ran (.getMeasurements 1 false []) (c 3) (answers (c 3) (0x60 :: (c 3).measurements {} 1)) := by
  simp only [Live]; decide +kernel

theorem meets_stores_kept : (∃ t, step (st dev) = .next t) ∧ (st dev).nv.flashWf = true := ⟨⟨_, rfl⟩, by decide⟩

/-! ## The mailbox -/

/-- The chip at the start of a command that is served, and as an operation begins. -/
def served (c : Chip) : Chip := (c.setFld Fld.MGT_STATUS_REFUSED 0 0).wakeDevice
def opens (code : Nat) (c : Chip) : Chip := (served c).beginOp { code := code, args := (served c).mgtArgs }

/-- The device with a staging session. -/
def staged (x : Staging) : Chip := { dev with mgt := { dev.mgt with staging := some x } }

theorem meets_mailbox_commands :
    let busy := dev.setFld Fld.MGT_STATUS_BUSY 0 1
    let two := dev.setRg Reg.MGT_ARG 2
    let data := (staged { set := 1 }).setRg (Reg.MGT_ARG + 4) 4096
    let ver := staged { set := 1, verified := true }
    let ends (c : Chip) (r : Nat) := (served c).finishOp r []
    Live (st dev) ∧ (∀ c ∈ [dev, busy, two, data, ver], c.fnEnabled 0 = true ∧ c.mgtServed = true)
      ∧ busy.flag Fld.MGT_STATUS_BUSY = true ∧ (∀ c ∈ [dev, two, data, ver], c.flag Fld.MGT_STATUS_BUSY = false)
      ∧ ran .info busy busy.refuseMgt ∧ ran .provision busy busy.refuseMgt
      ∧ ran .info dev (opens 0x01 dev) ∧ ran .ledgerRead dev (opens 0x02 dev) ∧ ran .ledgerRead two (ends two Res.badArgument)
      ∧ ran .ledgerReset dev (opens 0x03 dev)
      ∧ (served dev).mayBeginFw = true
      ∧ ran .fwBegin dev ((opens 0x10 dev).beginOp { code := 0x10, args := [(opens 0x10 dev).beginSet] })
      ∧ (served data).mayBeginFw = false ∧ ran .fwBegin data (ends data Res.notAllowed)
      ∧ (served data).mgtSession ≠ none ∧ fwDataOk 0 4096 = true ∧ ran .fwData data (opens 0x11 data)
      ∧ ran .fwEnd data (opens 0x12 data) ∧ (served dev).mgtSession = none ∧ ran .fwData dev (ends dev Res.notAllowed)
      ∧ ran .fwEnd dev (ends dev Res.notAllowed) ∧ (served ver).mayActivate = true ∧ ran .fwActivate ver (opens 0x13 ver)
      ∧ ran .fwCancel dev (opens 0x14 dev) := by
  simp only [Live]; decide +kernel

theorem meets_mailbox_modes :
    let small : Chip := { dev.setFld Fld.DEV_CAPS0_STACKS 0 6 with parts := [(0, part1)] }
    let cal := dev.setRg Reg.MGT_ARG 160
    let resc := dev.setFld Fld.MGT_STATE_MODE 0 2
    let lock := resc.setFld Fld.SEC_LOCK_LOCK 0 1
    let ends (c : Chip) (r : Nat) := (served c).finishOp r []
    (∀ c ∈ [small, cal], (served c).inRescue = false ∧ c.fnEnabled 0 = true ∧ c.mgtServed = true)
      ∧ (∀ c ∈ [resc, lock], (served c).inRescue = true ∧ c.fnEnabled 0 = true ∧ c.mgtServed = true)
      ∧ ran .rescue dev (opens 0x04 dev) ∧ calSizeOk 160 = true ∧ ran .calWrite cal (opens 0x20 cal)
      ∧ ran .calExport dev (opens 0x21 dev) ∧ 96 ≤ ((served cal).rg (Reg.MGT_ARG + 4 * 0)).toNat ∧ calSizeOk 64 = true
      ∧ ran .calImport cal (opens 0x22 cal)
      ∧ (served small).maskOk = true ∧ (served small).aloneWithZero = true ∧ (served small).zeroIdle = true
      ∧ ran .memRetrain small (opens 0x30 small).wakeAll ∧ ran .testFull dev (opens 0x40 dev).wakeAll
      ∧ ran .ageMeasure dev (opens 0x50 dev).wakeAll
      ∧ dev.flag Fld.SEC_LOCK_LOCK = false ∧ ran .provision dev (ends dev Res.badCommand)
      ∧ ran .calWrite resc (ends resc Res.badCommand) ∧ resc.flag Fld.SEC_LOCK_LOCK = false
      ∧ (stN flashed resc).nv.keeps (flashed.revokedWith (served resc)) = true
      ∧ afterN (exec .provision (stN flashed resc)) (fun _ d => decide (d = (opens 0x60 resc).tick)) = true
      ∧ lock.flag Fld.SEC_LOCK_LOCK = true ∧ ran .provision lock ((ends lock Res.notAllowed).regError Reg.MGT_CMD) := by
  decide +kernel

/-- What the work of an operation finds where everything works. -/
def found : MgtSample := { flashOk := true, untrained := 0, clusters := [], ways := [], lanes := [], drift := [] }

/-- The device with an operation under way. -/
def working (o : MgtOp) (c : Chip) : Chip := { c with mgt := { c.mgt with op := some o } }

theorem meets_mailbox_ends :
    let w (code : Nat) (args : List Nat) (c : Chip) := working { code := code, args := args } c
    Live (st (w 1 [] dev)) ∧ (w 1 [] dev).mgt.op = some { code := 1, args := [] } ∧ (w 1 [] dev).firmwareRuns = true
      ∧ (w 1 [] dev).opHeld { code := 1, args := [] } = false ∧ found.flashOk = true
      ∧ (∀ x ∈ [w 1 [] dev, w 3 [] dev, w 4 [] dev, w 0x10 [1] dev, w 0x13 [] (staged { set := 1, verified := true }), w 0x60 [0x11] dev],
          afterN (exec (.mgtDone found) (stN {} x)) (fun _ d => d.mgt.op == none && d.fld Fld.MGT_STATUS_DONE == 1) = true)
      ∧ (staged { set := 1, verified := true }).mgt.staging = some { set := 1, verified := true }
      ∧ afterN (exec (.mgtDone found) (stN {} (w 0x60 [0x11] dev))) (fun nv _ => nv.revoked == 1 && nv.dbgMax == 1) = true
      ∧ afterN (exec (.mgtDone found) (stN {} (w 4 [] dev))) (fun nv _ => nv.ledger.rescueNext) = true
      ∧ afterN (exec (.mgtDone found) (stN {} (w 0x13 [] (staged { set := 1, verified := true })))) (fun nv d =>
          nv.ledger.prefSet == 1 && d.mgt.staging == none) = true := by
  simp only [Live]; decide +kernel

theorem meets_abort :
    let w (code : Nat) (g : List Nat) (c : Chip) := working { code := code, args := [], groups := g } c
    dev.mgt.op = none ∧ ran .abort dev dev ∧ dev.firmwareRuns = true ∧ dev.fnEnabled 0 = true
      ∧ (w 0x40 [] dev).mgt.op = some { code := 0x40, args := [], groups := [] }
      ∧ (w 0x51 [1] dev).mgt.op = some { code := 0x51, args := [], groups := [1] }
      ∧ (w 0x40 [] dev).firmwareRuns = true ∧ (w 0x40 [] dev).fnEnabled 0 = true
      ∧ ran .abort (w 0x40 [] dev) ((w 0x40 [] dev).finishOp Res.aborted [])
      ∧ ran .abort (w 0x51 [1] dev) ((w 0x51 [1] dev).finishOp Res.aborted [])
      ∧ ran .abort (w 0x20 [] dev) (w 0x20 [] dev)
      ∧ (w 0x11 [] (staged { set := 1 })).mgt.staging = some { set := 1 }
      ∧ ranN .abort {} (w 0x11 [] (staged { set := 1 })) (NonVol.eraseSet {} 1) ((w 0x11 [] (staged { set := 1 })).finishOp Res.aborted []) := by
  decide +kernel

theorem meets_ageing :
    let p := working { code := 0x51, args := [], groups := [3, 4], bands := List.replicate 36 20 } dev
    let old : NonVol := { ledger0 := some { opHours := 300, ageHours := 40 } }
    Live (st p) ∧ p.mgt.op = some { code := 0x51, args := [], groups := [3, 4], bands := List.replicate 36 20 }
      ∧ [3, 4].contains (3 : BitVec 4).toNat = true ∧ p.hasWindow 3 = true ∧ p.firmwareRuns = true ∧ (3 : BitVec 4).toNat < 12
      ∧ after (exec (.setpointApply 3) (st p)) (fun d => d.mgt.bands.getD 9 0 == 20 && d.mgt.bands.getD 8 0 == 0) = true
      ∧ dev.powered = true ∧ dev.fld Fld.MGT_STATE_MODE = 1 ∧ dev.fld Fld.PWR_DEVSTATE_STATE = 0
      ∧ afterN (exec .opHour (stN {} dev)) (fun nv _ => nv.ledger.opHours == 1) = true
      ∧ 256 ≤ old.ledger.opHours - old.ledger.ageHours ∧ dev.flag Fld.MGT_STATUS_BUSY = false ∧ dev.awake = true
      ∧ (0 : Nat) % 5 = 0 ∧ newBand 0 3 7 = 5 := by
  simp only [Live]; decide +kernel

/-! ## The endpoint -/

/-- The device with its SMBus endpoint up, and with an update session of PLDM in a state. -/
def bused : Chip := { dev with mgt := { dev.mgt with smbus := true } }
def updating (f : FdState) (typ : Nat) : Chip :=
  { bused with mgt := { bused.mgt with staging := some { set := 0, pldm := true }, fd := f, fdTyp := typ } }

theorem meets_endpoint :
    let reply (r : List Nat) : Chip := bused.emit (.response r)
    dev.smbusUp = false ∧ bused.smbusUp = true ∧ ran .getEndpointId dev dev ∧ Live (st dev) ∧ Live (st bused)
      ∧ (0x12 : Byte) ≠ 0 ∧ (0x12 : Byte) ≠ 0xFF
      ∧ ran (.setEndpointId 0x12) bused (({ bused with mgt := { bused.mgt with eid := 0x12 } } : Chip).emit (.response [0, 0, 0x12]))
      ∧ ran (.setEndpointId 0) bused (reply [Cc.invalidData]) ∧ ran (.setEndpointId 0xFF) bused (reply [Cc.invalidData])
      ∧ ran .getEndpointId bused (reply [0, bused.mgt.eid]) ∧ ran .getMessageTypeSupport bused (reply [0, 2, 0, 1])
      ∧ ran .getpldmtypes bused (reply [0, 0x25]) ∧ 0 < (29 : Word).toNat ∧ (29 : Word).toNat ≤ 29 ∧ 29 < (30 : Word).toNat
      ∧ ran (.getpdr 30) bused (reply [Cc.invalidData]) ∧ (18 : Half).toNat < 19
      ∧ ran (.getsensorreading 18) bused (reply [0, bused.fld Fld.PWR_THERM_TEMP (steer 18)])
      ∧ ran (.getsensorreading 24) bused (reply [Cc.invalidSensor])
      ∧ ran .querydeviceidentifiers bused (reply [0, 0x1DF3, 0x960])
      ∧ ran .getstatus bused (reply [0, bused.mgt.fd.code]) := by
  simp only [Live]; decide +kernel

theorem meets_update :
    let ok (x : Chip) : Chip := x.emit (.response [0])
    let u := updating
    (∀ f ∈ [FdState.learn, .ready, .download, .verify, .apply], (u f 2).smbusUp = true ∧ (u f 2).flag Fld.MGT_STATUS_BUSY = false)
      ∧ bused.flag Fld.MGT_STATUS_BUSY = false ∧ bused.mgtSession = none ∧ bused.mgt.fd = .idle
      ∧ after (exec .requestupdate (st bused)) (fun d => d.mgt.fd == .learn && !d.mayBeginFw) = true
      ∧ ran (.passcomponenttable true) bused (bused.emit (.response [Cc.notInUpdateMode]))
      ∧ (u .learn 2).mgt.fd = .learn ∧ ran (.passcomponenttable true) (u .learn 2) (ok ((u .learn 2).setFd .ready))
      ∧ ran (.passcomponenttable false) (u .learn 2) (ok (u .learn 2))
      ∧ (u .ready 2).mgt.fd = .ready ∧ (1 : BitVec 2) ≠ 3
      ∧ ran (.updatecomponent 1) (u .ready 2) (ok (u .download 1))
      ∧ (u .download 1).mgt.fdTyp = (1 : BitVec 2).toNat ∧ pieceOk 1 64 4 = true
      ∧ ran (.requestfirmwaredata 1 64 [1, 2, 3, 4]) (u .download 1) ((u .download 1).beginOp
          { code := 0xF2, args := ((imageAt 0 1).1 + 64) :: [1, 2, 3, 4] })
      ∧ ran (.transfercomplete true) (u .download 1) (((u .download 1).setFd .verify).emit (.response [3, 1]))
      ∧ ran (.transfercomplete false) (u .download 1) (((u .download 1).setFd .ready).emit (.response [3, 0]))
      ∧ ran (.applycomplete true) (u .apply 1) (((u .apply 1).setFd .ready).emit (.response [5, 1]))
      ∧ ran (.activatefirmware true) (u .ready 1) ((u .ready 1).emit (.response [Cc.selfContained]))
      ∧ ran .cancelupdatecomponent (u .download 1) (ok ((u .download 1).setFd .ready)) := by
  decide +kernel

theorem meets_update_ends :
    let ok (x : Chip) : Chip := x.emit (.response [0])
    let u := updating
    let m := { bused with mgt := { bused.mgt with staging := some { set := 1 } } }
    m.mgtSession ≠ none ∧ ran .requestupdate m (m.emit (.response [Cc.alreadyInUpdateMode]))
      ∧ (u .verify 2).mgt.fd = .verify ∧ (u .verify 2).mgt.staging = some { set := 0, pldm := true }
      ∧ NonVol.verify {} 0 (u .verify 2).mgt.fdTyp ≠ 0
      ∧ ran .verifycomplete (u .verify 2) (((u .verify 2).setFd .ready).emit (.response [4, 0]))
      ∧ (u .verify 2).mgt.fd ≠ .idle
      ∧ ranN .cancelupdate {} (u .verify 2) (NonVol.eraseSet {} 0)
          (ok { u .verify 2 with mgt := { (u .verify 2).mgt with fd := .idle, staging := none } }) := by
  decide +kernel

theorem same_fw_id : flashed.sameFwId 0 = true := by
  simp only [NonVol.sameFwId, NonVol.imageFwId, hdr_signed (show 0 < 3 by omega) (show 0x10 + 4 ≤ 512 by omega),
    hdr_signed (show 1 < 3 by omega) (show 0x10 + 4 ≤ 512 by omega), hdr_signed (show 2 < 3 by omega) (show 0x10 + 4 ≤ 512 by omega)]
  decide +kernel

theorem meets_activation :
    ((updating .verify 2).mgt.fd = .verify ∧ (updating .verify 2).mgt.staging = some { set := 0, pldm := true }
      ∧ (updating .ready 2).mgt.fd = .ready ∧ (updating .ready 2).mgt.staging = some { set := 0, pldm := true })
      ∧ flashed.verify 0 (updating .verify 2).mgt.fdTyp = 0 ∧ flashed.badImage 0 = none ∧ flashed.sameFwId 0 = true :=
  ⟨by decide, test_verify2, by
    simp [NonVol.badImage, show List.range 3 = [0, 1, 2] from rfl, test_verify0, test_verify1, test_verify2], same_fw_id⟩

/-! ## Registers, and the frames -/

theorem meets_register_fields : (regTable.any fun d => d.fields.all fun f => decide (31 < f.lo ∨ f.hi < 31)) = true := by
  decide +kernel

theorem meets_undefined_offsets :
    (let undefined (fn o : Nat) : Bool := match physOffset fn o with
      | some a => !inMsix a && !inPba a && !inMgtData a && (findReg a).isNone
      | none => true
    undefined 0 0xFFC = true ∧ undefined 0 0xFF8 = true ∧ undefined 3 0xFF8 = true)
      ∧ Live (st dev) ∧ dev.fnEnabled 0 = true ∧ dev.booted = true ∧ 0xFF8 % 8 = 0
      ∧ ran (.counterReadClear 0 ⟨false, 0xFFC⟩ 4) dev (dev.emit (.hostData (leBytes 4 0)))
      ∧ ran (.registerWrite 0 ⟨false, 0xFFC⟩ 4 7) dev (dev.regError 0xFFC)
      ∧ ran (.counterReadClear 0 ⟨false, 0xFF8⟩ 8) dev (dev.emit (.hostData (leBytes 8 0)))
      ∧ ran (.registerWrite 0 ⟨false, 0xFF8⟩ 8 7) dev ((dev.regError 0xFF8).regError 0xFFC)
      ∧ ¬ ((2 : BitVec 4) = 4 ∧ 0xFFC % 4 = 0) ∧ ¬ ((2 : BitVec 4) = 8 ∧ 0xFFC % 8 = 0)
      ∧ ran (.counterReadClear 0 ⟨false, 0xFFC⟩ 2) dev ((dev.regError 0xFFC).emit (.hostData [0xFF, 0xFF]))
      ∧ ran (.registerWrite 0 ⟨false, 0xFFC⟩ 2 7) dev (dev.regError 0xFFC) := by
  simp only [Live]; decide +kernel

theorem meets_plain_register :
    let a := 0xB0002C
    (match findReg a with
      | some (d, p, i) => p == 0 && i == 0 && !d.paged && d.steer == .none && !dev.regAbsent d 0
          && (dev.ownWrite {} d 0 0 0 a 1).isNone
      | none => false) = true
      ∧ dev.booted = true ∧ onDie a = false ∧ inMsix a = false ∧ inPba a = false ∧ inMgtData a = false ∧ a % 4 = 0
      ∧ ran (.registerWrite 0 ⟨false, (BitVec.ofNat 26 a)⟩ 4 1) dev (dev.setRg a 1) := by
  decide +kernel

/-- What a read of a word finds: what the register shows instead of its bits, where it shows something. -/
def found? (c : Chip) (a : Nat) : Option (Bool × Bool × Option Nat) :=
  match findReg a with
  | none => none
  | some (d, p, i) =>
    some (d.paged && !c.exists? p || c.regAbsent d i, (c.steered d.steer 0 p).isNone,
      (c.steered d.steer 0 p).bind fun k => c.derived d.base p i k)

/-- An RC counter of partition 1, the same of the ABSENT partition 2, a steered register that selects no cluster, and the
counter's low half, which shows the count and latches the high half. -/
theorem meets_register_reads :
    let n (p : Nat) := Reg.DB_DISCARD + pg p
    let c := dev.setFld Fld.DB_DISCARD_COUNT (pg 1) 7
    let far := dev.setFld Fld.CLU_SEL_LCLUSTER 0 127
    let t := { dev with gtc := 0x1200000034 }
    let at_ (a : Nat) : BitVec 26 := BitVec.ofNat 26 a
    Live (st c) ∧ c.fnEnabled 0 = true ∧ c.booted = true
      ∧ (∀ a ∈ [n 1, n 2, Reg.CLU_QLOSS, Reg.GTC_LO], a % 4 = 0 ∧ physOffset 0 a = some a ∧ (at_ a).toNat = a
          ∧ inMsix a = false ∧ inPba a = false ∧ inMgtData a = false)
      ∧ found? c (n 1) = some (false, false, none) ∧ found? c (n 2) = some (true, false, none)
      ∧ found? far Reg.CLU_QLOSS = some (false, true, none) ∧ found? t Reg.GTC_LO = some (false, false, some 0x34)
      ∧ ran (.counterReadClear 0 ⟨false, (at_ (n 1))⟩ 4) c
          ((c.setFld Fld.DB_DISCARD_COUNT (pg 1) 0).emit (.hostData [7, 0, 0, 0]))
      ∧ ran (.counterReadClear 0 ⟨false, (at_ (n 2))⟩ 4) c (c.emit (.hostData [0, 0, 0, 0]))
      ∧ after (exec (.counterReadClear 0 ⟨false, (at_ Reg.GTC_LO)⟩ 4) (st t)) (fun d =>
          d.outbox.getLast? == some (.hostData [0x34, 0, 0, 0])) = true := by
  simp only [Live]; decide +kernel

/-- The other words of BAR0: vectors, their pending bits, MGT_DATA, two words at once, and one before boot. -/
theorem meets_other_reads :
    let early := ({} : Chip).setFld Fld.PCI_LINK_UP 0 1
    inMsix 0xF00000 = true ∧ inMsix 0xF80000 = false ∧ inPba 0xF80000 = true ∧ inMsix mgtData = false
      ∧ inPba mgtData = false ∧ inMgtData mgtData = true ∧ Reg.GTC_LO % 8 = 0
      ∧ (∀ a ∈ [0xF00000, 0xF80000, mgtData, Reg.GTC_LO, Reg.GTC_LO + 4], a % 4 = 0 ∧ physOffset 0 a = some a)
      ∧ Live (st early) ∧ early.fnEnabled 0 = true ∧ early.booted = false ∧ earlyWindow Reg.GTC_LO = false
      ∧ ran (.counterReadClear 0 ⟨false, (BitVec.ofNat 26 Reg.GTC_LO)⟩ 4) early (early.emit (.hostData [0, 0, 0, 0])) := by
  simp only [Live]; decide +kernel

/-- The doorbell page of queue 1 of partition 1, before and after boot. -/
theorem meets_doorbell_page :
    let c := dev.setQueue 65 { state := .halted, haltStatus := 5, head := 9 }
    let early := ({} : Chip).setFld Fld.PCI_LINK_UP 0 1
    let at_ (o : Nat) : BitVec 26 := BitVec.ofNat 26 (4096 + o)
    Live (st c) ∧ c.fnEnabled 1 = true ∧ c.booted = true ∧ (∀ o ∈ [8, 12, 16], (at_ o).toNat / 4096 = (1 : BitVec 6).toNat
        ∧ (at_ o).toNat % 4096 = o)
      ∧ ran (.counterReadClear 1 ⟨true, (at_ 8)⟩ 4) c (c.emit (.hostData [2, 0, 5, 0]))
      ∧ ran (.counterReadClear 1 ⟨true, (at_ 12)⟩ 4) c (c.emit (.hostData [9, 0, 0, 0]))
      ∧ ran (.counterReadClear 1 ⟨true, (at_ 16)⟩ 4) c (c.emit (.hostData [0, 0, 0, 0]))
      ∧ ran (.registerWrite 1 ⟨true, (at_ 16)⟩ 4 7) c c ∧ ran (.registerWrite 1 ⟨true, (at_ 8)⟩ 8 7) c c
      ∧ ran (.counterReadClear 1 ⟨true, (at_ 8)⟩ 8) c (c.emit (.hostData (leBytes 8 0)))
      ∧ Live (st early) ∧ early.fnEnabled 0 = true ∧ early.booted = false
      ∧ ran (.counterReadClear 0 ⟨true, (at_ 8)⟩ 4) early (early.emit (.hostData [0, 0, 0, 0]))
      ∧ ran (.registerWrite 0 ⟨true, (at_ 0)⟩ 4 7) early early := by
  simp only [Live]; decide +kernel

theorem meets_rings :
    let o := pg 1
    let off := (dev.setFld Fld.EVRING_CTL_EV_ENABLE o 1).setRg (Reg.EVRING_TAIL + o) 4
    HostUp (st dev) ∧ HostUp (st off) ∧ (dev.part 2).state = .absent ∧ (dev.part 1).state ≠ .absent
      ∧ ran (.kringCtlWrite 2 1) dev (dev.regError (Reg.KRING_CTL + pg 2))
      ∧ dev.flag Fld.EVRING_CTL_EV_ENABLE o = false ∧ wbit (0x601 : Word) 0 = true ∧ wbits (0x601 : Word) 12 8 = 6
      ∧ dev.ringOk 1 (dev.evBase 1) 6 16 = true ∧ dev.ringOk 1 (dev.evBase 1) 5 16 = false
      ∧ after (exec (.evringCtlWrite 1 0x601) (st dev)) (fun d => d.flag Fld.EVRING_CTL_EV_ENABLE o) = true
      ∧ ran (.evringCtlWrite 1 0x501) dev (((dev.setFld Fld.EVRING_CTL_VECTOR o 0).setFld Fld.EVRING_CTL_LOG2 o 5).regError
          (Reg.EVRING_CTL + o))
      ∧ off.flag Fld.EVRING_CTL_EV_ENABLE o = true ∧ wbit (0 : Word) 0 = false
      ∧ after (exec (.evringCtlWrite 1 0) (st off)) (fun d => !d.flag Fld.EVRING_CTL_EV_ENABLE o) = true
      ∧ dev.flag Fld.KRING_CTL_ENABLE o = false
      ∧ ran (.kringCtlWrite 1 0x700) dev (((dev.setFld Fld.KRING_CTL_VECTOR o 0).setFld Fld.KRING_CTL_IRQ_EN o 0).setFld
          Fld.KRING_CTL_LOG2 o 7)
      ∧ dev.ringOk 1 (dev.ringBase 64) 6 96 = true ∧ (dev.queue 64).stopping = false
      ∧ after (exec (.kringCtlWrite 1 0x601) (st dev)) (fun d => d.flag Fld.KRING_CTL_ENABLE o) = true := by
  simp only [HostUp]; decide +kernel

theorem meets_ring_heads :
    let o := pg 1
    let off := (dev.setFld Fld.EVRING_CTL_EV_ENABLE o 1).setRg (Reg.EVRING_TAIL + o) 4
    let e := holding 65 { begun (desc 0 0 0 0 0 0) with watch := .event 3 } dev
    off.flag Fld.EVRING_CTL_EV_ENABLE o = true
      ∧ (4 - off.rg (Reg.EVRING_HEAD + o)).toNat ≤ (off.rg (Reg.EVRING_TAIL + o) - off.rg (Reg.EVRING_HEAD + o)).toNat
      ∧ ran (.evringHeadWrite 1 4) off (off.setRg (Reg.EVRING_HEAD + o) 4)
      ∧ ran (.evringHeadWrite 1 5) off (off.regError (Reg.EVRING_HEAD + o))
      ∧ HostUp (st e) ∧ dev.eventAwaited 3 = false ∧ e.eventAwaited 3 = true ∧ wbits (0x501 : Word) 10 8 < 6
      ∧ evtWord (e.rg (Reg.EVT_CFG + 12)) 0x501 ≠ e.rg (Reg.EVT_CFG + 12)
      ∧ ran (.evtCfgWrite 3 0x501) e (e.regError (Reg.EVT_CFG + 12))
      ∧ after (exec (.evtCfgWrite 3 0x501) (st dev)) (fun d => wbits (d.rg (Reg.EVT_CFG + 12)) 10 8 == 5) = true := by
  simp only [HostUp]; decide +kernel

/-- The device with its clocks stopped. -/
def halted : Chip := { dev with stopped := true }

theorem meets_stopped :
    (st halted).chip.stopped = true ∧ ran (.copy 64 0) halted halted ∧ ran (.tmma 0 0 0 0 ⟨args 8 0 0 0 0 0 0, {}⟩) halted halted := by
  decide +kernel

theorem meets_frames :
    let a : Actor := { p := 1, asid := 0, kernel := true }
    0x1000 % 4096 + [1, 2].length ≤ 4096 ∧ ([1, 2] : List Byte) ≠ []
      ∧ dev.translate a .write 0x1000 = .ok (.here 0x1000)
      ∧ ok (dev.writeVA a 64 .none 0x1000 [1, 2]) = true
      ∧ (dev.part 1).locs 0x1000 2 = some [0x1000, 0x1001] ∧ 0 ∉ [0x1000, 0x1001] := by
  decide +kernel

/-! ## Commands that nothing sends -/

/-- Operands that name nothing. -/
def none4 : Args := args 2 0x80 0x80 0x80 0x80 0 0

theorem ill_formed_refused :
    (([.workgroupLaunch 65 0 88, .slopeWindow 0 65, .refreshWindow 6 0, .missFill 24 ⟨0, .none⟩,
      .rfmExtraWindow 6 0 [], .droopDetect 12, .counterReadClear 0 ⟨false, 0⟩ 3, .counterReadClear 0 ⟨true, 0x40000⟩ 4,
      .registerWrite 0 ⟨false, 0⟩ 5 0, .registerWrite 0 ⟨true, 0x40000⟩ 4 0, .bar4Access 0 0 none 0, .bar4Access 0 0 none 4097,
      .bar4Access 0 0 (some []) 8, .sharedUnitFault 1 6, .sharedUnitFault 11 1, .min 0 0 (.int 16 true) none4,
      .valuOp 0 0 (.cvt .fp32 (.int 16 true)) none4, .hotReset false (some ⟨6, 16⟩), .hotReset false (some ⟨4, 3⟩),
      .boot { fine with drift := [0] }, .boot { fine with width := 0 }, .mgtDone { found with clusters := [88] },
      .mgtDone { found with drift := [1, 2] }, .laneFault 0 ⟨9, none⟩,
      .flitReceive 0 [] false 0 0, .retryFlitReceive 0 [0] false, .powerPeriod (sample false (List.replicate 20 0)),
      .decafEntryDone (some 12), .decafWakeDone (some 12) 0, .hostCompletion 0 3 [], .supplyFault 0, .supplyFault 10,
      .autoAgeMeasure [], .setpointApply 12, .laneLoan 0 true 8 false, .challenge 0 [], .getMeasurements 0 true [],
      .getMeasurements 0 false [1], .updatecomponent 3, .requestfirmwaredata 3 0 [1], .requestfirmwaredata 0 0 [],
      .tokenBucketFill 0 0 3 0, .stackScrub 0 3] : List Instr).all fun i => !i.wellFormed) = true := by
  decide +kernel

theorem well_formed_sent :
    (([.dbTailWrite 1 5 0x2D9, .workgroupLaunch 65 0 87, .boot fine, .mgtDone found, .supplyFault 9, .bar4Access 1 0 none 4096,
      .valuOp 0 0 (.cvt .fp32 (.int 8 true)) none4, .scanoutLine 0 [(7, 0)], .sharedUnitFault 11 0] : List Instr).all Instr.wellFormed) = true := by
  decide +kernel

/-! ## Worked examples of the manual -/

/-- R6: what a driver reads on an FX480-A of stepping 1. -/
theorem example_identity :
    let c := Chip.fresh { part := 0x480, grade := 0xA, stepping := 1, fusedOff := List.range 48 } 0
    c.rg Reg.DEV_ID = 0x001A0480 ∧ c.rg Reg.DEV_CAPS0 = 0x4220A2AC ∧ c.rg Reg.DEV_CAPS1 = 0x30040003 := by
  decide +kernel

/-- R36: 160 GiB take 54 pseudo-channel groups. -/
theorem example_groups : ceilDiv 160 3 = 54 := by decide

/-- R184: minimum, minimumNumber, maximum and maximumNumber of 1.0 and a signalling NaN, and of two zeros. -/
theorem example_min_max :
    ([(false, false), (false, true), (true, false), (true, true)].map fun m =>
        (minMax fp32 m.1 m.2 0x3F800000 0x7FA00000, minMax fp32 m.1 m.2 0x80000000 0))
      = [(0x7FC00000, 0x80000000), (0x3F800000, 0x80000000), (0x7FC00000, 0), (0x3F800000, 0)] := by
  decide +kernel

/-- R185: 65,536 converted to FP16, FP8 E4M3 and INT8. -/
theorem example_conversion :
    let v := fp32.decode 0x47800000
    ([Round.rne, .ru, .rz, .rd].map fun r => (fp16.round r false v, toIntSat 8 true r v))
        = [(0x7C00, 0x7F), (0x7C00, 0x7F), (0x7BFF, 0x7F), (0x7BFF, 0x7F)]
      ∧ e4m3.round .rne false v = 0x7F ∧ e4m3.round .rne true v = 0x7E := by
  decide +kernel

/-- R187: a dominant element in MXFP8 E4M3, with the lanes' words and losses. -/
theorem example_qmx :
    let xs := ([0x43D00000, 0x3F000000, 0x3AC00000, 0xB9800000, 0x3A800000, 0xBAA00000, 0x80000000].map fp32.decode)
      ++ List.replicate 25 (fp32.decode 0)
    (xs.take 8).map (qmxWord 4 false xs) = [(0x7F7D, false), (0x7F30, false), (0x7F01, false), (0x47F80, true),
      (0x47F00, true), (0x7F81, false), (0x7F80, false), (0x7F00, false)] := by
  decide +kernel

/-- R150, R155: catastrophic cancellation in BF16, and what it drains to. -/
theorem example_cancellation :
    let p := ([(0x5380, 0x5380), (0x3FC0, 0x3F80), (0xD380, 0x5380), (0x3A80, 0x3F80)].foldl (fun (p : LPos) x =>
      p.contribute ((bf16.decode x.1).mul (bf16.decode x.2))) LPos.zero)
    (p.image.drop 32).take 16 = leBytes 8 0x8040000000000000 ++ leBytes 8 1
      ∧ fp32.round .rne false p.value = 0x3FC02000 ∧ bf16.round .rne false p.value = 0x3FC0 := by
  decide +kernel

/-- R155: one rounding, not two, in FP16. -/
theorem example_one_rounding :
    let p := ([(0x3C00, 0x3C00), (0x1000, 0x3C00), (0x0200, 0x0200)].foldl (fun (p : LPos) x =>
      p.contribute ((fp16.decode x.1).mul (fp16.decode x.2))) LPos.zero)
    [Round.rne, .rz, .ru, .rd].map (fun r => (fp16.round r false p.value, fp16.round r false p.value.neg))
      = [(0x3C01, 0xBC01), (0x3C00, 0xBC00), (0x3C01, 0xBC00), (0x3C00, 0xBC01)] := by
  decide +kernel

/-- R369: two ranks' images and their merge, -21.5. -/
theorem example_images :
    let a := LPos.ofLink 0x824 [0x8000000000000000, 1]
    let b := LPos.ofLink 0x915 [0xFFFFFFFFFFFFFFE9]
    a.toLink = (0x824, [0x8000000000000000, 1]) ∧ b.toLink = (0x915, [0xFFFFFFFFFFFFFFE9])
      ∧ fp32.round .rne false (a.merge b).value = 0xC1AC0000 := by
  decide +kernel

/-- R210: where a store to scratch lands: way 12, set 69, slice 19. -/
theorem example_scratch :
    scratchLoc [15, 14, 13, 12, 11, 10, 9, 8, 7, 6, 5, 4] 0x01234580 = scratchBase + ((19 * 16 + 12) * 2048 + 69) * 128 := by
  decide

/-- R407: the split of 400 W. -/
theorem example_split :
    splitCap 400000 [600000, 600000, 600000] [120000, 60000, 20000] [1, 0, 2] [262000, 120000, 20000] [false, false, false]
      = [220000, 120000, 20000] := by
  decide +kernel

/-- R497: the guard-bands for a drift of 6 ps. -/
theorem example_bands : newBand 0 6 250 = 15 ∧ newBand 0 6 150 = 10 ∧ newBand 0 6 80 = 5 := by decide

/-- Check values of the CRCs and of Adler-32 over the digits 1 to 9. -/
theorem example_checks :
    let d : List Byte := [0x31, 0x32, 0x33, 0x34, 0x35, 0x36, 0x37, 0x38, 0x39]
    crc32 0 d = 0xCBF43926 ∧ crc64 d = 0x995DC9BBDF1939FA ∧ adlerRun 1 0 d = (0x1DE, 0x91E) := by
  decide +kernel
end Sys2Proof.Tests
end

/-! ## Event operations and MEM_ACCOUNT (R109 to R111, R115)

What the three event operations and a source signal come to, and the arithmetic of ACCOUNTED. -/

namespace Sys2Proof.Machine

/-! ### Folds in which one step counts -/

theorem foldl_unchanged {σ β : Type} {f : σ → β → σ} {s : σ} :
    ∀ {l : List β}, (∀ b ∈ l, f s b = s) → l.foldl f s = s
  | [], _ => rfl
  | b :: t, h => by
    rw [List.foldl_cons, h b List.mem_cons_self]
    exact foldl_unchanged fun x hx => h x (List.mem_cons_of_mem b hx)

/-- A fold in which every element but one leaves the state alone, before and after that one's step, is that step. -/
theorem foldl_single {σ β : Type} {f : σ → β → σ} {s : σ} {l : List β} {n : β} (hd : l.Nodup) (hn : n ∈ l)
    (before : ∀ m ∈ l, m ≠ n → f s m = s) (after : ∀ m ∈ l, m ≠ n → f (f s n) m = f s n) :
    l.foldl f s = f s n := by
  obtain ⟨l₁, l₂, rfl⟩ := List.append_of_mem hn
  have hne : ∀ m ∈ l₁ ++ l₂, m ≠ n := by
    rintro m hm rfl
    exact (List.nodup_middle.1 hd).notMem hm
  have h₁ : l₁.foldl f s = s := foldl_unchanged fun m hm => before m (by simp [hm]) (hne m (by simp [hm]))
  have h₂ : l₂.foldl f (f s n) = f s n := foldl_unchanged fun m hm => after m (by simp [hm]) (hne m (by simp [hm]))
  rw [List.foldl_append, h₁, List.foldl_cons, h₂]

/-! ### The signal of an event -/

@[simp] theorem Chip.regs_finish (c : Chip) (q slot : Nat) (st : Half) (d : Nat) (h : Bool) :
    (c.finish q slot st d h).regs = c.regs := by
  unfold Chip.finish
  split <;> rfl

@[simp] theorem Chip.regs_finishOk (c : Chip) (q slot d : Nat) : (c.finishOk q slot d).regs = c.regs :=
  c.regs_finish q slot St.ok d false

theorem Chip.fld_congr {c d : Chip} (h : d.regs = c.regs) (f : Fld) (o : Nat) : d.fld f o = c.fld f o := by
  simp [Chip.fld, Chip.rg, h]

/-- R110, manual-reset: every waiter is released, and the event is SIGNALLED. -/
theorem Chip.signalEvent_manual {c : Chip} {n : Nat} (h : c.flag Fld.EVT_CFG_MODE (4 * n) = true) :
    c.signalEvent n = ((c.eventWaiters n).foldl (fun c w => c.finishOk w.2.1 w.2.2) c).setFld
      Fld.EVT_CFG_STATE (4 * n) 1 := by
  simp [Chip.signalEvent, h]

/-- R110, auto-reset with waiters: the earliest is released, and the event's registers stay. -/
theorem Chip.signalEvent_auto {c : Chip} {n : Nat} {w : Nat × Nat × Nat}
    (h : c.flag Fld.EVT_CFG_MODE (4 * n) = false) (hw : earliest (c.eventWaiters n) = some w) :
    c.signalEvent n = c.finishOk w.2.1 w.2.2 := by
  simp [Chip.signalEvent, h, hw]

/-- R110, without waiters: SIGNALLED, in either mode. -/
theorem Chip.signalEvent_noWaiters {c : Chip} {n : Nat} (hw : c.eventWaiters n = []) :
    c.signalEvent n = c.setFld Fld.EVT_CFG_STATE (4 * n) 1 := by
  cases h : c.flag Fld.EVT_CFG_MODE (4 * n) with
  | true => simp [Chip.signalEvent_manual h, hw]
  | false => simp [Chip.signalEvent, h, hw, earliest]

/-- A signal of event `n` leaves the configuration of every other event as it is. -/
theorem Chip.fld_signalEvent_ne (c : Chip) {n m : Nat} (h : m ≠ n) (f : Fld) (hf : f.base = Reg.EVT_CFG) :
    (c.signalEvent n).fld f (4 * m) = c.fld f (4 * m) := by
  have hreg : f.base + 4 * m ≠ Fld.EVT_CFG_STATE.base + 4 * n := by
    rw [hf]
    change Reg.EVT_CFG + 4 * m ≠ Reg.EVT_CFG + 4 * n
    omega
  cases hm : c.flag Fld.EVT_CFG_MODE (4 * n) with
  | true =>
    rw [Chip.signalEvent_manual hm, Chip.fld_setFld_ne _ _ _ _ _ _ hreg]
    exact Chip.fld_congr
      (foldl_keeps (P := fun d => d.regs = c.regs) (fun d w hd => (d.regs_finishOk w.2.1 w.2.2 0).trans hd) _ c rfl) f _
  | false =>
    cases hw : earliest (c.eventWaiters n) with
    | some w => rw [Chip.signalEvent_auto hm hw]; exact Chip.fld_congr (c.regs_finishOk w.2.1 w.2.2 0) f _
    | none => simp [Chip.signalEvent, hm, hw, Chip.fld_setFld_ne _ _ _ _ _ _ hreg]

/-- What a source does to event `n`: it signals the event where the event names it and the owner exists (R111). -/
def Chip.sourceStep (source p : Nat) (c : Chip) (n : Nat) : Chip :=
  if c.fld Fld.EVT_CFG_SOURCE (4 * n) = source ∧ c.exists? (c.fld Fld.EVT_CFG_OWNER (4 * n)) ∧
      (source ≠ 5 ∨ c.fld Fld.EVT_CFG_OWNER (4 * n) = p)
  then c.signalEvent n else c

theorem Chip.sourceSignal_eq (c : Chip) (source p : Nat) :
    c.sourceSignal source p = (List.range 256).foldl (Chip.sourceStep source p) c := rfl

theorem Chip.sourceStep_of_ne {c : Chip} {source n : Nat} (h : c.fld Fld.EVT_CFG_SOURCE (4 * n) ≠ source) (p : Nat) :
    c.sourceStep source p n = c := if_neg fun hc => h hc.1

theorem Chip.sourceStep_of_named {c : Chip} {source p n : Nat} (hs : c.fld Fld.EVT_CFG_SOURCE (4 * n) = source)
    (ho : c.exists? (c.fld Fld.EVT_CFG_OWNER (4 * n)) = true)
    (hp : source ≠ 5 ∨ c.fld Fld.EVT_CFG_OWNER (4 * n) = p) : c.sourceStep source p n = c.signalEvent n :=
  if_pos ⟨hs, ho, hp⟩

/-- R111: the signal of a source that one event alone names is the signal of that event. -/
theorem Chip.sourceSignal_only {c : Chip} {source p n : Nat} (hn : n < 256)
    (hs : c.fld Fld.EVT_CFG_SOURCE (4 * n) = source)
    (hother : ∀ m < 256, m ≠ n → c.fld Fld.EVT_CFG_SOURCE (4 * m) ≠ source)
    (ho : c.exists? (c.fld Fld.EVT_CFG_OWNER (4 * n)) = true)
    (hp : source ≠ 5 ∨ c.fld Fld.EVT_CFG_OWNER (4 * n) = p) : c.sourceSignal source p = c.signalEvent n := by
  have hstep := Chip.sourceStep_of_named hs ho hp
  rw [Chip.sourceSignal_eq, ← hstep]
  refine foldl_single List.nodup_range (List.mem_range.2 hn) ?before ?after
  case before => exact fun m hm hne => Chip.sourceStep_of_ne (hother m (List.mem_range.1 hm) hne) p
  case after =>
    intro m hm hne
    refine Chip.sourceStep_of_ne ?_ p
    rw [hstep, Chip.fld_signalEvent_ne c hne _ rfl]
    exact hother m (List.mem_range.1 hm) hne

/-! ### The event operations -/

theorem ran_eventSet {s : State} (hl : Live s) (q : BitVec 10) (slot : BitVec 6) :
    Ran (.eventSet q slot) s (s.chip.eventSet q.toNat slot.toNat) :=
  onChip_live hl fun c => c.eventSet q.toNat slot.toNat

theorem ran_eventReset {s : State} (hl : Live s) (q : BitVec 10) (slot : BitVec 6) :
    Ran (.eventReset q slot) s (s.chip.eventReset q.toNat slot.toNat) :=
  onChip_live hl fun c => c.eventReset q.toNat slot.toNat

theorem ran_eventWait {s : State} (hl : Live s) (q : BitVec 10) (slot : BitVec 6) :
    Ran (.eventWait q slot) s (s.chip.eventWait q.toNat slot.toNat) :=
  onChip_live hl fun c => c.eventWait q.toNat slot.toNat

section
variable {c : Chip} {q slot op : Nat} {e : Entry}

/-- R109: an operation on another partition's event ends with PERMISSION_FAULT and does nothing else. -/
theorem Chip.eventOp_foreign (h : Holds c q slot op e)
    (ho : c.fld Fld.EVT_CFG_OWNER (4 * dbits e.desc.p0 7 0) ≠ partOf q) (f : Chip → Entry → Nat → Chip) :
    c.eventOp q slot op f = c.ended q slot e St.permissionFault 0 := by
  rw [Chip.eventOp, run_ready _ h]
  exact (if_pos ho).trans (finish_entry h.1 _ _)

theorem Chip.eventOp_own (h : Holds c q slot op e)
    (ho : c.fld Fld.EVT_CFG_OWNER (4 * dbits e.desc.p0 7 0) = partOf q) (f : Chip → Entry → Nat → Chip) :
    c.eventOp q slot op f = f c e (dbits e.desc.p0 7 0) := by
  rw [Chip.eventOp, run_ready _ h]
  exact if_neg (not_not.2 ho)

/-- A change of a register leaves the queues' entries, so the descriptor ends as it would have. -/
theorem Chip.finishOk_setFld (h : c.entry q slot = some e) (f : Fld) (o v : Nat) :
    (c.setFld f o v).finishOk q slot = (c.setFld f o v).ended q slot e St.ok 0 :=
  finishOk_entry (c := c.setFld f o v) h 0

theorem Chip.eventSet_own (h : Holds c q slot Op.eventSet e)
    (ho : c.fld Fld.EVT_CFG_OWNER (4 * dbits e.desc.p0 7 0) = partOf q) :
    c.eventSet q slot = (c.signalEvent (dbits e.desc.p0 7 0)).finishOk q slot :=
  Chip.eventOp_own h ho _

theorem Chip.eventReset_own (h : Holds c q slot Op.eventReset e)
    (ho : c.fld Fld.EVT_CFG_OWNER (4 * dbits e.desc.p0 7 0) = partOf q) :
    c.eventReset q slot = (c.setFld Fld.EVT_CFG_STATE (4 * dbits e.desc.p0 7 0) 0).ended q slot e St.ok 0 :=
  (Chip.eventOp_own h ho _).trans (Chip.finishOk_setFld h.1 _ _ _)

/-- R110: a wait on a SIGNALLED event completes at once, and takes the signal of an auto-reset one. -/
theorem Chip.eventWait_signalled (h : Holds c q slot Op.eventWait e)
    (ho : c.fld Fld.EVT_CFG_OWNER (4 * dbits e.desc.p0 7 0) = partOf q)
    (hs : c.flag Fld.EVT_CFG_STATE (4 * dbits e.desc.p0 7 0) = true) :
    c.eventWait q slot = (if c.flag Fld.EVT_CFG_MODE (4 * dbits e.desc.p0 7 0) = true then c
      else c.setFld Fld.EVT_CFG_STATE (4 * dbits e.desc.p0 7 0) 0).ended q slot e St.ok 0 := by
  refine (Chip.eventOp_own h ho _).trans ((if_pos hs).trans ?_)
  split
  · exact finishOk_entry h.1 0
  · exact Chip.finishOk_setFld h.1 _ _ _

theorem Chip.eventWait_unsignalled (h : Holds c q slot Op.eventWait e)
    (ho : c.fld Fld.EVT_CFG_OWNER (4 * dbits e.desc.p0 7 0) = partOf q)
    (hs : c.flag Fld.EVT_CFG_STATE (4 * dbits e.desc.p0 7 0) = false) :
    c.eventWait q slot = c.startWait q slot e (.event (dbits e.desc.p0 7 0)) :=
  (Chip.eventOp_own h ho _).trans (if_neg (by simp [hs]))

end

/-- Settles O14: each operation by whether its partition owns the event, then by the row of R110's table; a source's
signal through the one event that names it. -/
theorem eventOperations : Obligations.event_operations := by
  refine ⟨fun s q slot e hl => ⟨fun ho => ⟨fun h => ?_, fun h => ?_, fun h => ?_⟩,
    fun ho => ⟨fun h => ?set, fun h => ?reset, fun h => ?wait⟩⟩, fun c n src p hn hs hother hex hp => ?source⟩
  · exact Chip.eventOp_foreign h ho _ ▸ ran_eventSet hl q slot
  · exact Chip.eventOp_foreign h ho _ ▸ ran_eventReset hl q slot
  · exact Chip.eventOp_foreign h ho _ ▸ ran_eventWait hl q slot
  case set =>
    have hran := Chip.eventSet_own h ho ▸ ran_eventSet hl q slot
    refine ⟨fun hw => ?_, fun w hm hw => ?_, fun hm => ?_⟩
    · rwa [Chip.signalEvent_noWaiters hw, Chip.finishOk_setFld h.1] at hran
    · rwa [Chip.signalEvent_auto hm hw] at hran
    · rwa [Chip.signalEvent_manual hm] at hran
  case reset => exact Chip.eventReset_own h ho ▸ ran_eventReset hl q slot
  case wait =>
    exact ⟨fun hst => Chip.eventWait_signalled h ho hst ▸ ran_eventWait hl q slot,
      fun hst => Chip.eventWait_unsignalled h ho hst ▸ ran_eventWait hl q slot⟩
  case source =>
    rw [Chip.sourceSignal_only hn hs hother hex hp]
    exact ⟨Chip.signalEvent_noWaiters, fun _ => Chip.signalEvent_auto, Chip.signalEvent_manual⟩

/-! ### MEM_ACCOUNT -/

theorem signed_toNat (x : Dword) : signed 64 x.toNat = x.toInt := by
  have := x.isLt
  simp only [signed, BitVec.toInt_eq_toNat_cond]
  split <;> split <;> omega

/-- R115: the sum is clamped to 0 and to 2^63 - 1, either clamp sets CLAMPED, and CLAMPED stays set. -/
theorem accounted_eq (old : Nat) (delta : Int) :
    let sum : Int := (bits old 62 0 : Int) + delta
    accounted old delta = if sum < 0 then 2 ^ 63
      else if sum ≤ 2 ^ 63 - 1 then sum.toNat + 2 ^ 63 * b2n (bit old 63) else 2 ^ 64 - 1 := by
  simp only [accounted]
  generalize (bits old 62 0 : Int) + delta = sum
  rcases lt_or_ge sum 0 with hbelow | hpos
  · have hclamp : max 0 (min ((2 ^ 63 - 1 : Nat) : Int) sum) = 0 := by omega
    rw [hclamp, if_pos hbelow, decide_eq_true hbelow, Bool.true_or, Bool.or_true]
    rfl
  · rw [if_neg (not_lt.2 hpos), decide_eq_false (not_lt.2 hpos), Bool.false_or]
    rcases le_or_gt sum (2 ^ 63 - 1) with hin | habove
    · have hsame : max 0 (min ((2 ^ 63 - 1 : Nat) : Int) sum) = sum := by omega
      have hfits : ¬ sum > (2 ^ 63 - 1 : Nat) := by omega
      rw [hsame, if_pos hin, decide_eq_false hfits, Bool.or_false]
    · have hclamp : max 0 (min ((2 ^ 63 - 1 : Nat) : Int) sum) = (2 ^ 63 - 1 : Nat) := by omega
      have hexceeds : sum > (2 ^ 63 - 1 : Nat) := by omega
      rw [hclamp, if_neg (not_le.2 habove), decide_eq_true hexceeds, Bool.or_true]
      rfl

theorem ran_memAccount {s : State} (hl : Live s) (q : BitVec 10) (slot : BitVec 6) :
    Ran (.memAccount q slot) s (s.chip.memAccount q.toNat slot.toNat) :=
  onChip_live hl fun c => c.memAccount q.toNat slot.toNat

/-- R115: with ACCT_EN at 0, nothing but the record, whose DETAIL is 1. -/
theorem Chip.memAccount_disabled {c : Chip} {q slot : Nat} {e : Entry} (h : Holds c q slot Op.memAccount e)
    (hen : c.flag Fld.ACCT_BASE_LO_ACCT_EN (pg (partOf q)) = false) :
    c.memAccount q slot = c.ended q slot e St.ok 1 := by
  simp [Chip.memAccount, run_ready _ h, hen, finishOk_entry h.1]

theorem Chip.memAccount_enabled {c d : Chip} {q slot : Nat} {e : Entry} {b : List Byte}
    (h : Holds c q slot Op.memAccount e) (hen : c.flag Fld.ACCT_BASE_LO_ACCT_EN (pg (partOf q)) = true)
    (hread : c.readPP (partOf q) (c.acctAddr (partOf q) (dbits e.desc.p0 15 0) + 0x38) 8 = .ok b)
    (hwrite : c.writePP (partOf q) (c.acctAddr (partOf q) (dbits e.desc.p0 15 0) + 0x38)
      (leBytes 8 (accounted (leNat b) e.desc.p1.toInt)) = .ok d) :
    c.memAccount q slot = d.finishOk q slot := by
  simp [Chip.memAccount, run_ready _ h, hen, hread, signed_toNat, hwrite]

/-- Settles O17, by ACCT_EN; the dword written back is `accounted`, whose three cases are the statement's. -/
theorem memAccount : Obligations.mem_account := by
  intro s q slot e hl h
  refine ⟨fun hen => ?_, ?_⟩
  · exact Chip.memAccount_disabled h hen ▸ ran_memAccount hl q slot
  · intro b v d hen hread _ hv hwrite
    rw [hv, ← accounted_eq] at hwrite
    exact Chip.memAccount_enabled h hen hread hwrite ▸ ran_memAccount hl q slot

end Sys2Proof.Machine

/-! ## Accesses that no register takes (R12, R507)

Offsets without a register, and accesses that are no aligned words: what each word of an access does, and then the
whole access, which takes the words in turn. -/

namespace Sys2Proof.Machine

/-- No register and no table stands at this offset of a function's view of BAR0. -/
def NoRegister (fn o : Nat) : Prop :=
  ∀ a, physOffset fn o = some a → inMsix a = false ∧ inPba a = false ∧ inMgtData a = false ∧ findReg a = none

/-! ### The words of an access -/

theorem accessWords_four {off : Nat} (h : off % 4 = 0) : accessWords off 4 = some [off] := by
  simp [accessWords, h]

theorem accessWords_eight {off : Nat} (h : off % 8 = 0) : accessWords off 8 = some [off, off + 4] := by
  simp [accessWords, h]

theorem accessWords_none {off : Nat} {size : BitVec 4} (h4 : ¬ (size = 4 ∧ off % 4 = 0))
    (h8 : ¬ (size = 8 ∧ off % 8 = 0)) : accessWords off size.toNat = none := by
  have hfour : ¬ (size.toNat = 4 ∧ off % 4 = 0) := fun h => h4 ⟨BitVec.eq_of_toNat_eq h.1, h.2⟩
  have height : ¬ (size.toNat = 8 ∧ off % 8 = 0) := fun h => h8 ⟨BitVec.eq_of_toNat_eq h.1, h.2⟩
  rw [accessWords, if_neg hfour, if_neg height]

/-! ### One word -/

theorem Chip.fld_regError_ne (c : Chip) (f : Fld) (o a : Nat)
    (hcount : f.base + o ≠ Fld.RAS_REGERR_CNT_COUNT.base + 0) (haddr : f.base + o ≠ Reg.RAS_REGERR_ADDR) :
    (c.regError a).fld f o = c.fld f o :=
  (Chip.fld_setRg_ne _ f o haddr _).trans (Chip.fld_setFld_ne c f _ o 0 _ hcount)

/-- Logging an access leaves the mode of the device as it is. -/
@[simp] theorem Chip.booted_regError (c : Chip) (a : Nat) : (c.regError a).booted = c.booted := by
  simp only [Chip.booted, c.fld_regError_ne Fld.MGT_STATE_MODE 0 a (by decide) (by decide)]

theorem Chip.regLoad_findReg_none {c : Chip} {a : Nat} (fn : Nat) (hb : c.booted = true) (hmsix : inMsix a = false)
    (hpba : inPba a = false) (hdata : inMgtData a = false) (hreg : findReg a = none) : c.regLoad fn a = (c, 0) := by
  simp [Chip.regLoad, hb, hmsix, hpba, hdata, hreg]

theorem regStore_findReg_none {c : Chip} {a : Nat} (fn : Nat) (v : Word) (nv : NonVol) (hb : c.booted = true)
    (hmsix : inMsix a = false) (hpba : inPba a = false) (hdata : inMgtData a = false) (hreg : findReg a = none) :
    regStore fn a v nv c = (nv, c.regError a) := by
  simp [regStore, hb, hmsix, hpba, hdata, hreg]

/-- What a read does at one word: the chip, and the bytes read so far. -/
def readWordAt (fn : Nat) (x : Chip × List Byte) (o : Nat) : Chip × List Byte :=
  match physOffset fn o with
  | some a => ((x.1.regLoad fn a).1, x.2 ++ leBytes 4 (x.1.regLoad fn a).2.toNat)
  | none => (x.1, x.2 ++ leBytes 4 0)

/-- What a write at `off` of a value of up to two words does at the word at `o`. -/
def writeWordAt (fn off : Nat) (v : Dword) (nc : NonVol × Chip) (o : Nat) : NonVol × Chip :=
  match physOffset fn o with
  | some a => regStore fn a (BitVec.ofNat 32 (v.toNat / 2 ^ (8 * (o - off)))) nc.1 nc.2
  | none => (nc.1, nc.2.regError o)

theorem readWordAt_noRegister {c : Chip} {fn o : Nat} (bs : List Byte) (hb : c.booted = true) (hu : NoRegister fn o) :
    readWordAt fn (c, bs) o = (c, bs ++ leBytes 4 0) := by
  cases hp : physOffset fn o with
  | none => simp only [readWordAt, hp]
  | some a =>
    obtain ⟨hmsix, hpba, hdata, hreg⟩ := hu a hp
    simp only [readWordAt, hp, Chip.regLoad_findReg_none fn hb hmsix hpba hdata hreg]
    rfl

theorem writeWordAt_noRegister {c : Chip} {fn o : Nat} (off : Nat) (v : Dword) (nv : NonVol) (hb : c.booted = true)
    (hu : NoRegister fn o) : writeWordAt fn off v (nv, c) o = (nv, c.regError (shownOffset fn o)) := by
  cases hp : physOffset fn o with
  | none => simp only [writeWordAt, hp, shownOffset, Option.getD_none]
  | some a =>
    obtain ⟨hmsix, hpba, hdata, hreg⟩ := hu a hp
    simp only [writeWordAt, hp, shownOffset, Option.getD_some, regStore_findReg_none fn _ nv hb hmsix hpba hdata hreg]

/-! ### The whole access -/

theorem Chip.regRead_words {c : Chip} {fn off size : Nat} {ws : List Nat} (hen : c.fnEnabled fn = true)
    (hw : accessWords off size = some ws) :
    c.regRead fn off size = let r := ws.foldl (readWordAt fn) (c, []); r.1.emit (.hostData r.2) := by
  rw [Chip.regRead, hen, hw]
  rfl

theorem regWrite_words {c : Chip} {fn off size : Nat} {ws : List Nat} (v : Dword) (nv : NonVol)
    (hen : c.fnEnabled fn = true) (hw : accessWords off size = some ws) :
    regWrite fn off size v nv c = ws.foldl (writeWordAt fn off v) (nv, c) := by
  rw [regWrite, hen, hw]
  rfl

/-- R12: all ones, and logged. -/
theorem Chip.regRead_noWords {c : Chip} {fn off size : Nat} (hen : c.fnEnabled fn = true)
    (hw : accessWords off size = none) :
    c.regRead fn off size = (c.regError (shownOffset fn off)).emit (.hostData (List.replicate size 0xFF)) := by
  rw [Chip.regRead, hen, hw]
  rfl

/-- R12: discarded, and logged. -/
theorem regWrite_noWords {c : Chip} {fn off size : Nat} (v : Dword) (nv : NonVol) (hen : c.fnEnabled fn = true)
    (hw : accessWords off size = none) : regWrite fn off size v nv c = (nv, c.regError (shownOffset fn off)) := by
  rw [regWrite, hen, hw]
  rfl

theorem foldl_readWordAt_noRegister {c : Chip} {fn : Nat} (hb : c.booted = true) :
    ∀ {ws : List Nat} (bs : List Byte), (∀ o ∈ ws, NoRegister fn o) →
      ws.foldl (readWordAt fn) (c, bs) = (c, bs ++ ws.flatMap fun _ => leBytes 4 0)
  | [], bs, _ => by simp
  | o :: ws, bs, hu => by
    obtain ⟨ho, hws⟩ := List.forall_mem_cons.1 hu
    rw [List.foldl_cons, readWordAt_noRegister bs hb ho, foldl_readWordAt_noRegister hb _ hws, List.flatMap_cons,
      List.append_assoc]

theorem foldl_writeWordAt_noRegister {fn off : Nat} {v : Dword} {nv : NonVol} :
    ∀ {ws : List Nat} {c : Chip}, c.booted = true → (∀ o ∈ ws, NoRegister fn o) →
      ws.foldl (writeWordAt fn off v) (nv, c) = (nv, (ws.map (shownOffset fn)).foldl Chip.regError c)
  | [], _, _, _ => rfl
  | o :: ws, c, hb, hu => by
    obtain ⟨ho, hws⟩ := List.forall_mem_cons.1 hu
    rw [List.foldl_cons, writeWordAt_noRegister off v nv hb ho,
      foldl_writeWordAt_noRegister ((c.booted_regError _).trans hb) hws, List.map_cons, List.foldl_cons]

/-- R507: words without a register read 0, and nothing is logged. -/
theorem Chip.regRead_noRegister {c : Chip} {fn off size : Nat} {ws : List Nat} (hen : c.fnEnabled fn = true)
    (hw : accessWords off size = some ws) (hb : c.booted = true) (hu : ∀ o ∈ ws, NoRegister fn o) :
    c.regRead fn off size = c.emit (.hostData (ws.flatMap fun _ => leBytes 4 0)) := by
  rw [Chip.regRead_words hen hw, foldl_readWordAt_noRegister hb [] hu, List.nil_append]

/-- R507: a write to words without a register is discarded, and logged once for each word. -/
theorem regWrite_noRegister {c : Chip} {fn off size : Nat} {ws : List Nat} (v : Dword) (nv : NonVol)
    (hen : c.fnEnabled fn = true) (hw : accessWords off size = some ws) (hb : c.booted = true)
    (hu : ∀ o ∈ ws, NoRegister fn o) :
    regWrite fn off size v nv c = (nv, (ws.map (shownOffset fn)).foldl Chip.regError c) := by
  rw [regWrite_words v nv hen hw, foldl_writeWordAt_noRegister hb hu]

/-! ### The commands -/

theorem ran_counterReadClear_bar0 {s : State} {fn : BitVec 4} {off : BitVec 26} {size : BitVec 4} {c : Chip}
    (hl : Live s) (h : s.chip.regRead fn.toNat off.toNat size.toNat = c) :
    Ran (.counterReadClear fn ⟨false, off⟩ size) s c := by
  refine (onChip_live hl fun c => c.regRead fn.toNat off.toNat size.toNat).trans ?_
  rw [h]

theorem ran_registerWrite_bar0 {s : State} {fn : BitVec 4} {off : BitVec 26} {size : BitVec 4} {v : Dword} {c : Chip}
    (hl : Live s) (h : regWrite fn.toNat off.toNat size.toNat v s.nv s.chip = (s.nv, c)) :
    Ran (.registerWrite fn ⟨false, off⟩ size v) s c := by
  refine (onBoth_live hl fun nv c => regWrite fn.toNat off.toNat size.toNat v nv c).trans ?_
  rw [h]

/-- Settles O58, by the words of the access: one, two, or none where it is narrower or misaligned. -/
theorem undefinedOffsets : Obligations.undefined_offsets := by
  intro s fn off hl hen
  refine ⟨fun hb halign hundef => ?oneWord, fun hb halign hlow hhigh => ?twoWords, fun size h4 h8 => ?noWords⟩
  case oneWord =>
    have hw := accessWords_four halign
    have hu : ∀ o ∈ [off.toNat], NoRegister fn.toNat o := List.forall_mem_singleton.2 hundef
    exact ⟨ran_counterReadClear_bar0 hl (Chip.regRead_noRegister hen hw hb hu), fun v =>
      ⟨_, List.cons_ne_nil _ _, ran_registerWrite_bar0 hl (regWrite_noRegister v s.nv hen hw hb hu)⟩⟩
  case twoWords =>
    have hw := accessWords_eight halign
    have hu : ∀ o ∈ [off.toNat, off.toNat + 4], NoRegister fn.toNat o :=
      List.forall_mem_cons.2 ⟨hlow, List.forall_mem_singleton.2 hhigh⟩
    exact ⟨ran_counterReadClear_bar0 hl (Chip.regRead_noRegister hen hw hb hu), fun v =>
      ⟨_, List.cons_ne_nil _ _, ran_registerWrite_bar0 hl (regWrite_noRegister v s.nv hen hw hb hu)⟩⟩
  case noWords =>
    have hw := accessWords_none h4 h8
    have hlogs := List.cons_ne_nil (shownOffset fn.toNat off.toNat) []
    exact ⟨⟨_, hlogs, ran_counterReadClear_bar0 hl (Chip.regRead_noWords hen hw)⟩, fun v =>
      ⟨_, hlogs, ran_registerWrite_bar0 hl (regWrite_noWords v s.nv hen hw)⟩⟩

end Sys2Proof.Machine

/-! ## Byte strings, descriptors and flits (R10, R67, R351 to R353, R474)

A number's little-endian bytes and the fields read back from a string of them; then a descriptor's 64 bytes, a flit's
256, the header slot of a message and the slots of a protected flit. -/

namespace Sys2Proof.Machine

/-! ### Numbers as little-endian bytes -/

@[simp] theorem leBytes_length (n v : Nat) : (leBytes n v).length = n := by
  induction n generalizing v with
  | zero => rfl
  | succ n ih => simp [leBytes, ih]

theorem two_pow_bytes_succ (n : Nat) : 2 ^ (8 * (n + 1)) = 256 * 2 ^ (8 * n) := by
  rw [Nat.mul_add, Nat.pow_add, Nat.mul_comm]

theorem leNat_leBytes (n v : Nat) : leNat (leBytes n v) = v % 2 ^ (8 * n) := by
  induction n generalizing v with
  | zero => simp [leBytes, leNat, Nat.mod_one]
  | succ n ih => rw [two_pow_bytes_succ, Nat.mod_mul, leBytes, leNat, ih, BitVec.toNat_ofNat]

theorem leBytes_leNat (bs : List Byte) : leBytes bs.length (leNat bs) = bs := by
  induction bs with
  | nil => rfl
  | cons b bs ih =>
    have hb : b.toNat < 256 := b.isLt
    have hlow : BitVec.ofNat 8 (b.toNat + 256 * leNat bs) = b := by
      apply BitVec.eq_of_toNat_eq
      rw [BitVec.toNat_ofNat]
      omega
    have hrest : (b.toNat + 256 * leNat bs) / 256 = leNat bs := by omega
    rw [List.length_cons, leNat, leBytes, hlow, hrest, ih]

theorem leNat_lt (bs : List Byte) : leNat bs < 2 ^ (8 * bs.length) := by
  induction bs with
  | nil => simp [leNat]
  | cons b bs ih =>
    have hb : b.toNat < 256 := b.isLt
    rw [List.length_cons, two_pow_bytes_succ, leNat]
    omega

/-- The field at the front of a string that begins with a number of the field's length. -/
theorem fieldLE_leBytes_append (n v : Nat) (bs : List Byte) : fieldLE (leBytes n v ++ bs) 0 n = v % 2 ^ (8 * n) := by
  rw [fieldLE, List.drop_zero, List.take_left' (leBytes_length n v), leNat_leBytes]

/-- A field behind the number with which a string begins. -/
theorem fieldLE_skip {n o : Nat} (h : n ≤ o) (v k : Nat) (bs : List Byte) :
    fieldLE (leBytes n v ++ bs) o k = fieldLE bs (o - n) k := by
  rw [fieldLE, List.drop_append, List.drop_eq_nil_of_le (by simpa using h), leBytes_length, List.nil_append, fieldLE]

/-! ### A descriptor's 64 bytes -/

theorem Desc.header_lt (d : Desc) : d.header < 2 ^ 32 := by
  have hop := d.opcode.isLt
  have hrsv := d.rsv.isLt
  have htag := d.tag.isLt
  have hflag (b : Bool) : b2n b ≤ 1 := by cases b <;> decide
  have hi := hflag d.indirect
  have hw := hflag d.waitPrior
  have hs := hflag d.signalAfter
  have hp := hflag d.priv
  simp only [Desc.header]
  omega

theorem ofNat_toNat_mod {w : Nat} (x : BitVec w) : BitVec.ofNat w (x.toNat % 2 ^ w) = x := by
  rw [Nat.mod_eq_of_lt x.isLt, BitVec.ofNat_toNat, BitVec.setWidth_eq]

/-- What the header word says of each of its fields. -/
theorem Desc.header_fields (d : Desc) :
    BitVec.ofNat 8 d.header = d.opcode ∧ bit d.header 8 = d.indirect ∧ bit d.header 9 = d.waitPrior
      ∧ bit d.header 10 = d.signalAfter ∧ bit d.header 11 = d.priv ∧ BitVec.ofNat 4 (bits d.header 15 12) = d.rsv
      ∧ BitVec.ofNat 16 (bits d.header 31 16) = d.tag := by
  have hop := d.opcode.isLt
  have hrsv := d.rsv.isLt
  have htag := d.tag.isLt
  have hbit (n : Nat) (b : Bool) (h : n % 2 = b2n b) : (n % 2 == 1) = b := by cases b <;> simp_all [b2n]
  have hflag (b : Bool) : b2n b ≤ 1 := by cases b <;> decide
  have hi := hflag d.indirect
  have hw := hflag d.waitPrior
  have hs := hflag d.signalAfter
  have hp := hflag d.priv
  simp only [bit, bits, Desc.header, Nat.shiftRight_eq_div_pow]
  refine ⟨?_, hbit _ _ ?_, hbit _ _ ?_, hbit _ _ ?_, hbit _ _ ?_, ?_, ?_⟩
  case refine_1 => apply BitVec.eq_of_toNat_eq; rw [BitVec.toNat_ofNat]; omega
  case refine_6 => apply BitVec.eq_of_toNat_eq; rw [BitVec.toNat_ofNat]; omega
  case refine_7 => apply BitVec.eq_of_toNat_eq; rw [BitVec.toNat_ofNat]; omega
  all_goals omega

theorem fieldLE_leBytes (n v : Nat) : fieldLE (leBytes n v) 0 n = v % 2 ^ (8 * n) := by
  simpa using fieldLE_leBytes_append n v []

/-- Settles O7: each field is the number that stands at its offset. -/
theorem descriptorRoundTrip : Obligations.descriptor_round_trip := by
  intro d
  refine ⟨by simp [Desc.bytes], ?_⟩
  obtain ⟨hop, hind, hwait, hsig, hpriv, hrsv, htag⟩ := d.header_fields
  have hheader : d.header % 2 ^ (8 * 4) = d.header := Nat.mod_eq_of_lt d.header_lt
  have hword (x : Word) : BitVec.ofNat 32 (x.toNat % 2 ^ (8 * 4)) = x := ofNat_toNat_mod x
  have hdword (x : Dword) : BitVec.ofNat 64 (x.toNat % 2 ^ (8 * 8)) = x := ofNat_toNat_mod x
  simp only [Desc.ofBytes, Desc.bytes, wordAt, dwordAt, List.append_assoc, fieldLE_skip, fieldLE_leBytes_append,
    fieldLE_leBytes, Nat.reduceLeDiff, Nat.reduceSub, hheader, hop, hind, hwait, hsig, hpriv, hrsv, htag, hword, hdword]

/-! ### Headers of flits and of messages -/

/-- R352: six fields at six places. -/
theorem FlitHdr.ofNum_num {h : FlitHdr} (hseq : h.seq < 4096) (hack : h.ack < 4096) (hkind : h.kind < 4)
    (hcvc : h.cvc < 4) (hcredits : h.credits < 4096) (hfirst : h.first < 16) :
    FlitHdr.ofNum h.num = h ∧ h.num < 2 ^ 44 := by
  obtain ⟨seq, ack, kind, cvc, credits, first⟩ := h
  simp only [FlitHdr.ofNum, FlitHdr.num, bits, Nat.shiftRight_eq_div_pow, FlitHdr.mk.injEq] at *
  omega

theorem Msg.ofSlots_header {m : Msg} (hvc : m.vc < 4) (hop : m.op < 16) (hsd : m.srcDev < 64) (hsp : m.srcPart < 16)
    (hdd : m.dstDev < 64) (hdp : m.dstPart < 16) (htag : m.tag < 2 ^ 13) (hlen : m.data.length < 16)
    (haddr : m.addr < 2 ^ 39) (hatom : m.atom < 32) (hstatus : m.status < 2 ^ 16) :
    Msg.ofSlots m.header m.data m.at_ = m ∧ headerSlots m.header = m.data.length ∧ m.header < 2 ^ 128 := by
  obtain ⟨vc, op, srcDev, srcPart, dstDev, dstPart, tag, addr, atom, status, data, at_⟩ := m
  simp only [Msg.ofSlots, headerSlots, Msg.header, bits, Nat.shiftRight_eq_div_pow, Msg.mk.injEq, and_true] at *
  generalize data.length = n at *
  omega

/-! ### The bytes of a flit -/

theorem crcBits_lt {poly : Nat} {w : Nat} (hp : poly < 2 ^ w) :
    ∀ (n : Nat) {c : Nat}, c < 2 ^ w → crcBits poly n c < 2 ^ w
  | 0, _, hc => hc
  | n + 1, c, hc => by
    have hhalf : c / 2 < 2 ^ w := Nat.lt_of_le_of_lt (Nat.div_le_self c 2) hc
    rw [crcBits]
    split
    · exact crcBits_lt hp n (Nat.xor_lt_two_pow hhalf hp)
    · exact crcBits_lt hp n hhalf

theorem crc64_lt (b : List Byte) : crc64 b < 2 ^ 64 := by
  have hstep (c : Nat) (x : Byte) (hc : c < 2 ^ 64) : crcBits 0xC96C5795D7870F42 8 (c ^^^ x.toNat) < 2 ^ 64 :=
    crcBits_lt (by decide) 8 (Nat.xor_lt_two_pow hc (Nat.lt_trans x.isLt (by decide)))
  exact Nat.xor_lt_two_pow (foldl_keeps (P := fun c => c < 2 ^ 64) hstep b _ (by decide)) (by decide)

/-- The numbers of `n` bytes each that a string of slots holds. -/
theorem fieldLE_flatMap_leBytes {n : Nat} (f : Nat → Nat) (tail : List Byte) :
    ∀ (is : List Nat) (k i : Nat), is[k]? = some i →
      fieldLE (is.flatMap (fun i => leBytes n (f i)) ++ tail) (n * k) n = f i % 2 ^ (8 * n)
  | [], _, _, h => by simp at h
  | j :: is, 0, i, h => by
    obtain rfl : j = i := by simpa using h
    rw [List.flatMap_cons, List.append_assoc, Nat.mul_zero, fieldLE_leBytes_append]
  | j :: is, k + 1, i, h => by
    have hskip : n ≤ n * (k + 1) := Nat.le_mul_of_pos_right n (Nat.succ_pos k)
    have hoff : n * (k + 1) - n = n * k := by rw [Nat.mul_succ, Nat.add_sub_cancel]
    rw [List.flatMap_cons, List.append_assoc, fieldLE_skip hskip, hoff]
    exact fieldLE_flatMap_leBytes f tail is k i h

/-- The bytes that a flit's check word covers. -/
def flitBody (hdr : Nat) (slots : List Nat) : List Byte :=
  leBytes 8 hdr ++ (List.range 15).flatMap fun i => leBytes 16 (slots.getD i 0)

theorem flitBytes_eq (hdr : Nat) (slots : List Nat) :
    flitBytes hdr slots = flitBody hdr slots ++ leBytes 8 (crc64 (flitBody hdr slots)) := rfl

theorem flitBody_length (hdr : Nat) (slots : List Nat) : (flitBody hdr slots).length = 0xF8 := by
  simp [flitBody, List.length_flatMap]

theorem flitParse_flitBytes {h : Nat} {slots : List Nat} (hh : h < 2 ^ 64) (hlen : slots.length = 15)
    (hslots : ∀ x ∈ slots, x < 2 ^ 128) : flitParse (flitBytes h slots) = some (h, slots) := by
  have hbody := flitBody_length h slots
  have hwhole : (flitBytes h slots).length = 256 := by rw [flitBytes_eq, List.length_append, hbody, leBytes_length]
  have hcover : (flitBytes h slots).take 0xF8 = flitBody h slots := by rw [flitBytes_eq, List.take_left' hbody]
  have hcheck : fieldLE (flitBytes h slots) 0xF8 8 = crc64 (flitBody h slots) := by
    rw [fieldLE, flitBytes_eq, List.drop_left' hbody, List.take_of_length_le (by simp), leNat_leBytes,
      Nat.mod_eq_of_lt (crc64_lt _)]
  have hhdr : fieldLE (flitBytes h slots) 0 8 = h := by
    rw [flitBytes_eq, flitBody, List.append_assoc, fieldLE_leBytes_append, Nat.mod_eq_of_lt hh]
  have hslot : (List.range 15).map (fun i => fieldLE (flitBytes h slots) (8 + 16 * i) 16) = slots := by
    refine List.ext_getElem (by simp [hlen]) fun i hi hi' => ?_
    have hi15 : i < 15 := hlen ▸ hi'
    have hoff : 8 + 16 * i - 8 = 16 * i := Nat.add_sub_cancel_left 8 (16 * i)
    rw [List.getElem_map, List.getElem_range, flitBytes_eq, flitBody, List.append_assoc, fieldLE_skip (Nat.le_add_right 8 _),
      hoff, fieldLE_flatMap_leBytes (fun i => slots.getD i 0) _ _ i i (by simp [hi15]),
      Nat.mod_eq_of_lt (by rw [List.getD_eq_getElem _ _ hi']; exact hslots _ (List.getElem_mem hi')),
      List.getD_eq_getElem _ _ hi']
  rw [flitParse, if_pos ⟨hwhole, hcheck.trans (congrArg crc64 hcover.symm)⟩, hhdr, hslot]

/-! ### Protected flits -/

theorem beNat_eq (bs : List Byte) : beNat bs = leNat bs.reverse := by
  have hfold (l : List Byte) : l.foldr (fun b n => n * 256 + b.toNat) 0 = leNat l := by
    induction l with
    | nil => rfl
    | cons b l ih => rw [List.foldr_cons, ih, leNat, Nat.add_comm, Nat.mul_comm]
  rw [beNat, ← hfold, List.foldr_reverse]

theorem slotBlock_lt (s : Nat) : slotBlock s < 2 ^ 128 := by
  simpa [slotBlock, beNat_eq] using leNat_lt (leBytes 16 s).reverse

theorem leBytes_leNat_of_length {n : Nat} {bs : List Byte} (h : bs.length = n) : leBytes n (leNat bs) = bs :=
  h ▸ leBytes_leNat bs

theorem blockSlot_slotBlock {s : Nat} (h : s < 2 ^ 128) : blockSlot (slotBlock s) = s := by
  rw [blockSlot, slotBlock, beBytes, beNat_eq, leBytes_leNat_of_length (by simp), List.reverse_reverse, leNat_leBytes,
    Nat.mod_eq_of_lt h]

theorem slotBlock_blockSlot {b : Nat} (h : b < 2 ^ 128) : slotBlock (blockSlot b) = b := by
  rw [blockSlot, slotBlock, beBytes, beNat_eq, leBytes_leNat_of_length (by simp), List.reverse_reverse, leNat_leBytes,
    Nat.mod_eq_of_lt h]

/-- One slot enciphered and deciphered under the same block of the stream. -/
theorem slot_mixed_twice {s b : Nat} (hs : s < 2 ^ 128) (hb : b < 2 ^ 128) :
    blockSlot (slotBlock (blockSlot (slotBlock s ^^^ b)) ^^^ b) = s := by
  rw [slotBlock_blockSlot (Nat.xor_lt_two_pow (slotBlock_lt s) hb), Nat.xor_assoc, Nat.xor_self, Nat.xor_zero,
    blockSlot_slotBlock hs]

theorem Gcm.mix_eq (g : Gcm) (slots : List Nat) :
    g.mix slots = List.zipWith (fun s b => blockSlot (slotBlock s ^^^ b)) slots (g.stream.drop 1) := by
  simp [Gcm.mix, xorWords, List.zip_eq_zipWith, List.zipWith_map_left, List.map_zipWith]

theorem Gcm.mix_length {g : Gcm} {slots : List Nat} (h : slots.length + 1 = g.stream.length) :
    (g.mix slots).length = slots.length := by
  rw [Gcm.mix_eq, List.length_zipWith, List.length_drop]
  omega

theorem Gcm.mix_mix {g : Gcm} {slots : List Nat} (h : slots.length + 1 = g.stream.length)
    (hstream : ∀ b ∈ g.stream, b < 2 ^ 128) (hslots : ∀ x ∈ slots, x < 2 ^ 128) : g.mix (g.mix slots) = slots := by
  refine List.ext_getElem (by rw [Gcm.mix_length, Gcm.mix_length h]; rwa [Gcm.mix_length h]) fun i hi hi' => ?_
  simp only [Gcm.mix_eq, List.getElem_zipWith]
  exact slot_mixed_twice (hslots _ (List.getElem_mem hi')) (hstream _ (List.mem_of_mem_drop (List.getElem_mem _)))

theorem gcmOpen_append {g : Gcm} {h t : Nat} {body : List Nat} (hlen : body.length = 14) :
    gcmOpen g h (body ++ [t]) = if t = g.tagSlot h body then some (g.mix body) else none := by
  have htake : (body ++ [t]).take 14 = body := List.take_left' hlen
  have htag : (body ++ [t]).getD 14 0 = t := by simp [← hlen]
  rw [gcmOpen, htake, htag]

/-- Settles O41, by the parts of a flit: its bytes, its header, a message's header slot, and the cipher, which undoes
itself. -/
theorem linkRoundTrip : Obligations.link_round_trip := by
  refine ⟨fun h slots => flitParse_flitBytes, fun h => FlitHdr.ofNum_num, fun m => Msg.ofSlots_header, ?_⟩
  intro g h slots hstream hblocks hlen hslots
  have hfits : slots.length + 1 = g.stream.length := by omega
  have hbody : (g.mix slots).length = 14 := (Gcm.mix_length hfits).trans hlen
  refine ⟨?_, fun t ht => ?_⟩
  · rw [gcmSeal, gcmOpen_append hbody, if_pos rfl, Gcm.mix_mix hfits hblocks hslots]
  · rw [gcmOpen_append hbody, if_neg ht]

end Sys2Proof.Machine

/-! ## Memory: where bytes stand, and what a store changes (R35 to R40, R210, R433)

The places of a partition's bytes (which frame or scratch way holds one, and that no two addresses share one), what a
store at a list of locations leaves unchanged, and what a read finds afterwards. -/

namespace Sys2Proof.Machine

/-! ### What a store at locations changes -/

/-- Re-evaluating waits changes the queues alone. -/
theorem foldl_touch (lines : List Nat) (c : Chip) : ∃ qs, lines.foldl Chip.touch c = { c with queues := qs } := by
  refine foldl_keeps (P := fun d => ∃ qs, d = { c with queues := qs }) ?_ lines c ⟨_, rfl⟩
  rintro _ line ⟨qs, rfl⟩
  exact ⟨_, rfl⟩

theorem Chip.setByte_eq (c : Chip) (l : Nat) (b : Byte) :
    ∃ m s, c.setByte l b = { c with mem := m, scratch := s } := by
  unfold Chip.setByte
  split
  · exact ⟨_, _, rfl⟩
  · exact ⟨_, _, rfl⟩

/-- The chip with the bytes of a store in place. -/
def Chip.stored (c : Chip) (ls : List Nat) (bs : List Byte) : Chip :=
  (ls.zip bs).foldl (fun c x => c.setByte x.1 x.2) c

theorem Chip.stored_eq (c : Chip) (ls : List Nat) (bs : List Byte) :
    ∃ m s, c.stored ls bs = { c with mem := m, scratch := s } := by
  refine foldl_keeps (P := fun d => ∃ m s, d = { c with mem := m, scratch := s }) ?_ (ls.zip bs) c ⟨_, _, rfl⟩
  rintro _ x ⟨m, s, rfl⟩
  exact Chip.setByte_eq _ x.1 x.2

/-- A store of bytes, before the waits on its lines are re-evaluated: the bytes, what walks may still see, and the
poison that whole lines replace. -/
def Chip.settled (c : Chip) (ls : List Nat) (bs : List Byte) : Chip :=
  { c.stored ls bs with
    wseq := c.wseq + 1
    oldWords := c.oldOf ls ++ c.oldWords
    poison := c.poison.filter fun n => !((distinct (ls.map (· / 128))).filter fun n =>
      (List.range 128).all fun i => ls.contains (n * 128 + i)).contains n }

theorem Chip.writeLocs_eq (c : Chip) (ls : List Nat) (bs : List Byte) :
    ∃ qs, c.writeLocs ls bs = { c.settled ls bs with queues := qs } :=
  foldl_touch (distinct (ls.map (· / 128))) (c.settled ls bs)

section
variable (c : Chip) (ls : List Nat) (bs : List Byte)

/-- What is read of a chip beside its bytes, its poison, what walks may still see and the waits, a store leaves. -/
theorem Chip.writeLocs_frame {β : Type} (f : Chip → β)
    (h : ∀ (d : Chip) (m s : KMap Byte) (po : List Nat) (w : Nat) (ow : List OldWord) (qs : KMap Queue),
      f { d with mem := m, scratch := s, poison := po, wseq := w, oldWords := ow, queues := qs } = f d) :
    f (c.writeLocs ls bs) = f c := by
  obtain ⟨qs, hwrite⟩ := c.writeLocs_eq ls bs
  obtain ⟨m, s, hstored⟩ := c.stored_eq ls bs
  rw [hwrite, Chip.settled, hstored]
  exact h c m s _ _ _ _

@[simp] theorem Chip.parts_writeLocs : (c.writeLocs ls bs).parts = c.parts :=
  c.writeLocs_frame ls bs Chip.parts fun _ _ _ _ _ _ _ => rfl

@[simp] theorem Chip.regs_writeLocs : (c.writeLocs ls bs).regs = c.regs :=
  c.writeLocs_frame ls bs Chip.regs fun _ _ _ _ _ _ _ => rfl

@[simp] theorem Chip.part_writeLocs (p : Nat) : (c.writeLocs ls bs).part p = c.part p :=
  c.writeLocs_frame ls bs (Chip.part · p) fun _ _ _ _ _ _ _ => rfl

@[simp] theorem Chip.deadLoc_writeLocs : (c.writeLocs ls bs).deadLoc = c.deadLoc :=
  c.writeLocs_frame ls bs Chip.deadLoc fun _ _ _ _ _ _ _ => rfl

@[simp] theorem Chip.lostLoc_writeLocs : (c.writeLocs ls bs).lostLoc = c.lostLoc :=
  c.writeLocs_frame ls bs Chip.lostLoc fun _ _ _ _ _ _ _ => rfl

theorem Chip.byteAt_writeLocs (l : Nat) : (c.writeLocs ls bs).byteAt l = (c.stored ls bs).byteAt l := by
  obtain ⟨qs, h⟩ := c.writeLocs_eq ls bs
  rw [h]
  rfl

theorem Chip.poison_writeLocs {n : Nat} (h : n ∈ (c.writeLocs ls bs).poison) : n ∈ c.poison := by
  obtain ⟨qs, heq⟩ := c.writeLocs_eq ls bs
  rw [heq] at h
  exact (List.mem_filter.1 h).1

variable {c ls bs}

/-- A store heals poison and never brings any. -/
theorem Chip.badLoc_writeLocs {l : Nat} (h : c.badLoc l = false) : (c.writeLocs ls bs).badLoc l = false := by
  simp only [Chip.badLoc, Chip.lostLoc_writeLocs, Bool.or_eq_false_iff, List.contains_eq_mem,
    decide_eq_false_iff_not] at *
  exact ⟨fun hmem => h.1 (c.poison_writeLocs ls bs hmem), h.2⟩

theorem Chip.stored_cons (c : Chip) (l : Nat) (ls : List Nat) (b : Byte) (bs : List Byte) :
    c.stored (l :: ls) (b :: bs) = (c.setByte l b).stored ls bs := rfl

theorem Chip.byteAt_stored_ne {l : Nat} : ∀ {ls : List Nat} {bs : List Byte} {c : Chip}, l ∉ ls →
    (c.stored ls bs).byteAt l = c.byteAt l
  | [], _, _, _ => rfl
  | _ :: _, [], _, _ => rfl
  | k :: ls, b :: bs, c, h => by
    obtain ⟨hk, hls⟩ := List.ne_and_not_mem_of_not_mem_cons h
    rw [Chip.stored_cons, Chip.byteAt_stored_ne hls, Chip.byteAt_setByte_ne c hk]

theorem Chip.byteAt_writeLocs_ne {l : Nat} (h : l ∉ ls) : (c.writeLocs ls bs).byteAt l = c.byteAt l := by
  rw [Chip.byteAt_writeLocs, Chip.byteAt_stored_ne h]

/-- Bytes stored at locations without a repetition are found there. -/
theorem Chip.map_byteAt_stored {ls : List Nat} {bs : List Byte} {c : Chip} (hd : ls.Nodup)
    (hlen : ls.length = bs.length) : ls.map (c.stored ls bs).byteAt = bs := by
  induction ls generalizing bs c with
  | nil => exact (List.length_eq_zero_iff.1 hlen.symm).symm
  | cons l ls ih =>
    cases bs with
    | nil => cases hlen
    | cons b bs =>
      obtain ⟨hl, hd⟩ := List.nodup_cons.1 hd
      rw [Chip.stored_cons, List.map_cons, Chip.byteAt_stored_ne hl, Chip.byteAt_setByte_self,
        ih hd (Nat.succ.inj hlen)]

theorem Chip.map_byteAt_writeLocs (hd : ls.Nodup) (hlen : ls.length = bs.length) :
    ls.map (c.writeLocs ls bs).byteAt = bs := by
  rw [funext (c.byteAt_writeLocs ls bs), Chip.map_byteAt_stored hd hlen]

end

/-! ### Where a partition's bytes stand -/

/-- The scratch way of a scratch location. -/
def wayOf (l : Nat) : Nat := (l - scratchBase) / (2048 * 128) % 16

theorem getD_mem {l : List Nat} {i : Nat} (h : i < l.length) : l.getD i 0 ∈ l := by
  rw [List.getD_eq_getElem _ _ h]
  exact List.getElem_mem h

theorem getD_inj {l : List Nat} {i j : Nat} (hd : l.Nodup) (hi : i < l.length) (hj : j < l.length)
    (h : l.getD i 0 = l.getD j 0) : i = j := by
  rw [List.getD_eq_getElem _ _ hi, List.getD_eq_getElem _ _ hj] at h
  exact (List.Nodup.getElem_inj_iff hd).1 h

section
variable {x : Part} {a b l : Nat}

/-- R38: an elastic partition's bytes stand in its frames. -/
theorem Part.loc_elastic (he : x.det = false) (h : x.loc a = some l) : a < gib * x.memGib ∧ l = frameLoc x.frames a := by
  simp only [Part.loc, Part.memBytes, he] at h
  split at h
  · cases h
  · next ha => exact ⟨Nat.lt_of_not_le ha, (Option.some.inj h).symm⟩

/-- R37, R210: a carve-out's bytes stand in its scratch ways and then in its groups. -/
theorem Part.loc_carve (hd : x.det = true) (h : x.loc a = some l) : a < gib * x.memGib ∧
    l = if a < x.scratchBytes then scratchLoc x.ways a else carveLoc x.pcgs a := by
  simp only [Part.loc, Part.memBytes, hd, if_true] at h
  split at h
  · cases h
  · next ha => exact ⟨Nat.lt_of_not_le ha, (Option.some.inj h).symm⟩

/-- A byte of a scratch range is one of a way, a row, a group of rows and a place in its line. -/
theorem scratchLoc_spec {ws : List Nat} (hw : ∀ w ∈ ws, w < 16) (h : a < ws.length * 24 * 2048 * 128) :
    a / 128 / 24 / 2048 < ws.length ∧ wayOf (scratchLoc ws a) = ws.getD (a / 128 / 24 / 2048) 0 ∧
      scratchBase ≤ scratchLoc ws a := by
  have hi : a / 128 / 24 / 2048 < ws.length := by omega
  have hw16 := hw _ (getD_mem hi)
  simp only [wayOf, scratchLoc]
  generalize ws.getD (a / 128 / 24 / 2048) 0 = w at *
  have hrow : (((a / 128 % 24 * 16 + w) * 2048 + a / 128 / 24 % 2048) * 128 + a % 128) / (2048 * 128)
      = a / 128 % 24 * 16 + w := by omega
  refine ⟨hi, ?_, Nat.le_add_right _ _⟩
  rw [Nat.add_sub_cancel_left, hrow]
  omega

theorem scratchLoc_inj {ws : List Nat} (hd : ws.Nodup) (hw : ∀ w ∈ ws, w < 16) (ha : a < ws.length * 24 * 2048 * 128)
    (hb : b < ws.length * 24 * 2048 * 128) (h : scratchLoc ws a = scratchLoc ws b) : a = b := by
  obtain ⟨hai, haw, -⟩ := scratchLoc_spec hw ha
  obtain ⟨hbi, hbw, -⟩ := scratchLoc_spec hw hb
  have hway : ws.getD (a / 128 / 24 / 2048) 0 = ws.getD (b / 128 / 24 / 2048) 0 := by rw [← haw, ← hbw, h]
  have hblock := getD_inj hd hai hbi hway
  simp only [scratchLoc, hway] at h
  omega

/-- A byte of a carve-out is one of a group, a row of the group and a place in its 4 KiB. -/
theorem carveLoc_spec {gs : List Nat} (h : a < 3 * gib * gs.length) :
    a / 4096 % (4 * gs.length) / 4 < gs.length ∧
      carveLoc gs a / (3 * gib) = gs.getD (a / 4096 % (4 * gs.length) / 4) 0 ∧
      carveLoc gs a % (3 * gib)
        = (a / 4096 / (4 * gs.length) * 4 + a / 4096 % (4 * gs.length) % 4) * 4096 + a % 4096 := by
  have hpos : 0 < gs.length := Nat.pos_of_ne_zero fun h0 => by simp [h0] at h
  have hrem : a / 4096 % (4 * gs.length) < 4 * gs.length := Nat.mod_lt _ (by omega)
  have hquot : a / 4096 / (4 * gs.length) < 196608 := by
    rw [Nat.div_lt_iff_lt_mul (by omega)]
    simp only [gib] at h
    omega
  have hrow : (a / 4096 / (4 * gs.length) * 4 + a / 4096 % (4 * gs.length) % 4) * 4096 + a % 4096 < 3 * gib := by
    simp only [gib]
    omega
  have hsplit : carveLoc gs a = 3 * gib * gs.getD (a / 4096 % (4 * gs.length) / 4) 0
      + ((a / 4096 / (4 * gs.length) * 4 + a / 4096 % (4 * gs.length) % 4) * 4096 + a % 4096) := by
    simp only [carveLoc]
    omega
  refine ⟨by omega, ?_, ?_⟩
  · rw [hsplit, Nat.mul_add_div (by decide), Nat.div_eq_of_lt hrow, Nat.add_zero]
  · rw [hsplit, Nat.mul_add_mod, Nat.mod_eq_of_lt hrow]

theorem carveLoc_inj {gs : List Nat} (hd : gs.Nodup) (ha : a < 3 * gib * gs.length) (hb : b < 3 * gib * gs.length)
    (h : carveLoc gs a = carveLoc gs b) : a = b := by
  obtain ⟨hai, hag, har⟩ := carveLoc_spec ha
  obtain ⟨hbi, hbg, hbr⟩ := carveLoc_spec hb
  have hgroup := getD_inj hd hai hbi (by rw [← hag, ← hbg, h])
  rw [h, hbr] at har
  have hrow : a / 4096 / (4 * gs.length) = b / 4096 / (4 * gs.length) := by omega
  have hrem : a / 4096 % (4 * gs.length) = b / 4096 % (4 * gs.length) := by omega
  have hpage : a / 4096 = b / 4096 := by
    rw [← Nat.div_add_mod (a / 4096) (4 * gs.length), hrow, hrem, Nat.div_add_mod]
  omega

/-- The bytes of a laid-out carve-out lie within its groups. -/
theorem Part.laid.carve_bound (hx : x.laid) (hd : x.det = true) (h : a < gib * x.memGib) : a < 3 * gib * x.pcgs.length := by
  rw [(hx.2 hd).1] at h
  calc a < gib * (3 * x.pcgs.length) := h
    _ = 3 * gib * x.pcgs.length := by ring

/-- Where a byte of a partition stands: below the scratch range in a frame that the partition holds, or in one of its
ways. -/
theorem Part.loc_held (hx : x.laid) (h : x.loc a = some l) :
    (l < scratchBase ∧ x.holdsFrame (l / gib)) ∨ (scratchBase ≤ l ∧ wayOf l ∈ x.ways) := by
  cases hdet : x.det with
  | false =>
    obtain ⟨ha, rfl⟩ := Part.loc_elastic hdet h
    obtain ⟨hlen, -, hf⟩ := hx.1 hdet
    have hi : a / gib < x.frames.length := by
      rw [hlen]
      exact Nat.div_lt_of_lt_mul ha
    have hmem := getD_mem hi
    have hdev := hf _ hmem
    have hframe : frameLoc x.frames a / gib = x.frames.getD (a / gib) 0 := by simp only [frameLoc, gib]; omega
    refine .inl ⟨by simp only [frameLoc, gib, scratchBase] at *; omega, ?_⟩
    rw [hframe, Part.holdsFrame, hdet]
    exact hmem
  | true =>
    obtain ⟨ha, rfl⟩ := Part.loc_carve hdet h
    obtain ⟨-, -, hg, -, hw⟩ := hx.2 hdet
    split
    · next hs =>
      obtain ⟨hi, hway, hbase⟩ := scratchLoc_spec hw hs
      exact .inr ⟨hbase, hway ▸ getD_mem hi⟩
    · obtain ⟨hi, hgroup, -⟩ := carveLoc_spec (hx.carve_bound hdet ha)
      have hmem := getD_mem hi
      have hdev := hg _ hmem
      generalize x.pcgs.getD (a / 4096 % (4 * x.pcgs.length) / 4) 0 = g at *
      refine .inl ⟨by simp only [gib, scratchBase] at *; omega, ?_⟩
      rw [Part.holdsFrame, hdet, if_pos rfl, framesOf, List.mem_flatMap]
      refine ⟨g, hmem, ?_⟩
      simp only [rangeFrom, List.mem_map, List.mem_range, gib] at *
      exact ⟨carveLoc x.pcgs a / 2 ^ 30 - 3 * g, by omega, by omega⟩

/-- No two addresses of a partition share a place. -/
theorem Part.loc_inj (hx : x.laid) (ha : x.loc a = some l) (hb : x.loc b = some l) : a = b := by
  cases hdet : x.det with
  | false =>
    obtain ⟨ha, hla⟩ := Part.loc_elastic hdet ha
    obtain ⟨hb, hlb⟩ := Part.loc_elastic hdet hb
    obtain ⟨hlen, hnd, -⟩ := hx.1 hdet
    rw [← hlen] at ha hb
    simp only [frameLoc, gib] at *
    have hframe : x.frames.getD (a / 2 ^ 30) 0 = x.frames.getD (b / 2 ^ 30) 0 := by omega
    have := getD_inj hnd (Nat.div_lt_of_lt_mul ha) (Nat.div_lt_of_lt_mul hb) hframe
    omega
  | true =>
    obtain ⟨ha, hla⟩ := Part.loc_carve hdet ha
    obtain ⟨hb, hlb⟩ := Part.loc_carve hdet hb
    obtain ⟨-, hgd, hg, hwd, hw⟩ := hx.2 hdet
    have hba := hx.carve_bound hdet ha
    have hbb := hx.carve_bound hdet hb
    have below {k : Nat} (hk : k < 3 * gib * x.pcgs.length) : carveLoc x.pcgs k < scratchBase := by
      obtain ⟨hi, hgroup, -⟩ := carveLoc_spec hk
      have := hg _ (getD_mem hi)
      simp only [gib, scratchBase] at *
      omega
    split at hla <;> split at hlb
    · next hsa hsb => exact scratchLoc_inj hwd hw hsa hsb (hla.symm.trans hlb)
    · next hsa _ => exact absurd (below hbb) (by rw [← hlb, hla]; exact Nat.not_lt.2 (scratchLoc_spec hw hsa).2.2)
    · next _ hsb => exact absurd (below hba) (by rw [← hla, hlb]; exact Nat.not_lt.2 (scratchLoc_spec hw hsb).2.2)
    · exact carveLoc_inj hgd hba hbb (hla.symm.trans hlb)

end

section
variable {x y : Part} {a b n m l : Nat} {ls ks : List Nat}

theorem mem_rangeFrom {k : Nat} : k ∈ rangeFrom a n ↔ a ≤ k ∧ k < a + n := by
  simp only [rangeFrom, List.mem_map, List.mem_range]
  exact ⟨fun ⟨i, hi, hk⟩ => by omega, fun ⟨hlo, hhi⟩ => ⟨k - a, by omega, by omega⟩⟩

theorem rangeFrom_nodup (a n : Nat) : (rangeFrom a n).Nodup :=
  List.nodup_range.map fun _ _ h => Nat.add_right_cancel h

/-- Every address of a partition's memory has a place. -/
theorem Part.loc_isSome (h : a < x.memBytes) : (x.loc a).isSome = true := by
  unfold Part.loc
  rw [if_neg (Nat.not_le.2 h)]
  split <;> rfl

theorem Part.locs_eq (h : x.locs a n = some ls) : a + n ≤ x.memBytes ∧ ls = (rangeFrom a n).filterMap x.loc := by
  unfold Part.locs at h
  split at h
  · cases h
  · next hin => exact ⟨Nat.le_of_not_lt hin, (Option.some.inj h).symm⟩

theorem Part.mem_locs (h : x.locs a n = some ls) (hl : l ∈ ls) : ∃ k, a ≤ k ∧ k < a + n ∧ x.loc k = some l := by
  obtain ⟨-, rfl⟩ := Part.locs_eq h
  obtain ⟨k, hk, hloc⟩ := List.mem_filterMap.1 hl
  obtain ⟨hlo, hhi⟩ := mem_rangeFrom.1 hk
  exact ⟨k, hlo, hhi, hloc⟩

theorem Part.locs_length (h : x.locs a n = some ls) : ls.length = n := by
  obtain ⟨hin, rfl⟩ := Part.locs_eq h
  have hall : ∀ k ∈ rangeFrom a n, (x.loc k).isSome = true := fun k hk =>
    Part.loc_isSome (Nat.lt_of_lt_of_le (mem_rangeFrom.1 hk).2 hin)
  rw [List.length_filterMap_eq_countP, List.countP_eq_length.2 hall]
  simp [rangeFrom]

theorem Part.locs_nodup (hx : x.laid) (h : x.locs a n = some ls) : ls.Nodup := by
  obtain ⟨-, rfl⟩ := Part.locs_eq h
  exact List.Nodup.filterMap (fun k j l hk hj => Part.loc_inj hx hk hj) (rangeFrom_nodup a n)

/-- Ranges of addresses that do not meet stand at different places. -/
theorem Part.locs_disjoint (hx : x.laid) (h : x.locs a n = some ls) (h' : x.locs b m = some ks)
    (hapart : b + m ≤ a ∨ a + n ≤ b) : ∀ l ∈ ks, l ∉ ls := by
  intro l hk hl
  obtain ⟨i, hi, hi', hloc⟩ := Part.mem_locs h hl
  obtain ⟨j, hj, hj', hloc'⟩ := Part.mem_locs h' hk
  have := Part.loc_inj hx hloc hloc'
  omega

/-- Partitions that share no frame and no scratch way share no place. -/
theorem Part.locs_disjoint_of_held (hx : x.laid) (hy : y.laid) (hframes : ∀ f, x.holdsFrame f → ¬ y.holdsFrame f)
    (hways : ∀ w ∈ x.ways, w ∉ y.ways) (h : x.locs a n = some ls) (h' : y.locs b m = some ks) :
    ∀ l ∈ ks, l ∉ ls := by
  intro l hk hl
  obtain ⟨i, -, -, hloc⟩ := Part.mem_locs h hl
  obtain ⟨j, -, -, hloc'⟩ := Part.mem_locs h' hk
  rcases Part.loc_held hx hloc with ⟨hlow, hf⟩ | ⟨hhigh, hw⟩ <;>
    rcases Part.loc_held hy hloc' with ⟨hlow', hf'⟩ | ⟨hhigh', hw'⟩
  · exact hframes _ hf hf'
  · exact Nat.not_lt.2 hhigh' hlow
  · exact Nat.not_lt.2 hhigh hlow'
  · exact hways _ hw hw'

end

/-! ### Reads and writes of a partition's memory -/

section
variable {c c' : Chip} {p q a b n : Nat} {bs x : List Byte} {ls : List Nat}

/-- A write that succeeds is a store at the places of its addresses, none of which is out of reach. -/
theorem Chip.writePP_ok (h : c.writePP p a bs = .ok c') : ∃ ls, (c.part p).locs a bs.length = some ls ∧
    (ls.any (c.deadLoc (c.part p))) = false ∧ c' = c.writeLocs ls bs := by
  simp only [Chip.writePP] at h
  split at h
  · cases h
  · next ls hls =>
    split at h
    · cases h
    · split at h
      · cases h
      · next hdead => exact ⟨ls, hls, by simpa using hdead, (Except.ok.inj h).symm⟩

/-- A read answers the bytes at its places where none of them is out of reach, poisoned or lost. -/
theorem Chip.readPP_eq (hls : (c.part p).locs a n = some ls) (hdead : ls.any (c.deadLoc (c.part p)) = false)
    (hclean : ∀ l ∈ ls, c.badLoc l = false) : c.readPP p a n = .ok (ls.map c.byteAt) := by
  have hfind : ls.find? c.badLoc = none := by simpa using hclean
  simp only [Chip.readPP, hls, hdead, hfind, Bool.false_eq_true, if_false]

theorem Chip.readPP_ok (h : c.readPP p a n = .ok x) : ∃ ls, (c.part p).locs a n = some ls ∧
    ls.any (c.deadLoc (c.part p)) = false ∧ (∀ l ∈ ls, c.badLoc l = false) ∧ x = ls.map c.byteAt := by
  simp only [Chip.readPP] at h
  split at h
  · cases h
  · next ls hls =>
    split at h
    · cases h
    · next hdead =>
      split at h
      · cases h
      · next hbad =>
        exact ⟨ls, hls, by simpa using hdead, by simpa using hbad, (Except.ok.inj h).symm⟩

/-- A read whose places a store leaves alone answers what it answered before. -/
theorem Chip.readPP_writeLocs {ks : List Nat} (h : c.readPP q b n = .ok x)
    (hapart : ∀ ls, (c.part q).locs b n = some ls → ∀ l ∈ ls, l ∉ ks) :
    (c.writeLocs ks bs).readPP q b n = .ok x := by
  obtain ⟨ls, hls, hdead, hclean, rfl⟩ := Chip.readPP_ok h
  have hsame : ls.map (c.writeLocs ks bs).byteAt = ls.map c.byteAt :=
    List.map_congr_left fun l hl => Chip.byteAt_writeLocs_ne (hapart ls hls l hl)
  rw [Chip.readPP_eq (by simpa using hls) (by simpa using hdead) fun l hl => Chip.badLoc_writeLocs (hclean l hl), hsame]

end

/-- Settles O34: the places of the two partitions' bytes lie in frames and ways of their own, so that a store at the one
leaves a read of the other. -/
theorem memoryIsolation : Obligations.memory_isolation := by
  intro c c' p q a b n bs x hp hq hframes hways hwrite hread
  obtain ⟨ks, hks, -, rfl⟩ := Chip.writePP_ok hwrite
  exact Chip.readPP_writeLocs hread fun ls hls => Part.locs_disjoint_of_held hp hq hframes hways hks hls

/-- Settles O33: no two addresses share a place, so that a store changes its own bytes alone and a read finds them. -/
theorem memoryLaws : Obligations.memory_laws := by
  intro c c' p a bs hp hwrite
  obtain ⟨ks, hks, hdead, rfl⟩ := Chip.writePP_ok hwrite
  refine ⟨c.parts_writeLocs ks bs, fun hwf => Chip.memWf_writeLocs hwf ks bs, ?elsewhere, ?apart, ?back⟩
  case elsewhere =>
    intro ls l hls hl
    obtain rfl : ks = ls := Option.some.inj (hks.symm.trans hls)
    exact Chip.byteAt_writeLocs_ne hl
  case apart =>
    exact fun b n x hread hapart => Chip.readPP_writeLocs hread fun ls hls => Part.locs_disjoint hp hks hls hapart
  case back =>
    intro hclean
    have hbytes := Chip.map_byteAt_writeLocs (c := c) (Part.locs_nodup hp hks) (Part.locs_length hks)
    rw [Chip.readPP_eq (by simpa using hks) (by simpa using hdead) fun l hl =>
      Chip.badLoc_writeLocs (hclean ks l hks hl), hbytes]

end Sys2Proof.Machine

/-! ## The stores that outlive a reset (R460, R464, R480)

What a command may do to them: `NonVol.Kept` says that nothing is taken back from OTP and that the image of flash keeps
its canonical form. It is kept by each change of a store, so by each operation that makes such changes, so by every
step. -/

namespace Sys2Proof.Machine

/-- From stores `a` to stores `b` nothing is taken back from OTP, and flash keeps its canonical form. -/
def NonVol.Kept (a b : NonVol) : Prop := NonVol.OtpKept a b ∧ (a.flashWf = true → b.flashWf = true)

namespace NonVol

theorem OtpKept.refl (a : NonVol) : OtpKept a a :=
  ⟨rfl, rfl, rfl, rfl, rfl, rfl, rfl, rfl, rfl, fun _ h => h, fun _ h => h, fun _ h => h⟩

theorem OtpKept.trans {a b c : NonVol} (h : OtpKept a b) (h' : OtpKept b c) : OtpKept a c := by
  obtain ⟨p, g, st, se, fo, fb, rh, u, dh, fu, dm, re⟩ := h
  obtain ⟨p', g', st', se', fo', fb', rh', u', dh', fu', dm', re'⟩ := h'
  exact ⟨p'.trans p, g'.trans g, st'.trans st, se'.trans se, fo'.trans fo, fb'.trans fb, rh'.trans rh, u'.trans u,
    dh'.trans dh, fun f hf => fu' f (fu f hf), fun i hi => dm' i (dm i hi), fun i hi => re' i (re i hi)⟩

theorem Kept.refl (a : NonVol) : Kept a a := ⟨.refl a, id⟩

theorem Kept.trans {a b c : NonVol} (h : Kept a b) (h' : Kept b c) : Kept a c :=
  ⟨h.1.trans h'.1, fun hwf => h'.2 (h.2 hwf)⟩

/-! ### Changes of one store -/

/-- The ledger, the calibration store and the stored training are neither OTP nor the firmware sets. -/
theorem kept_records (a : NonVol) (l0 l1 : Option Ledger) (k : Option Cal) (t : KMap Nat) :
    Kept a { a with ledger0 := l0, ledger1 := l1, cal := k, training := t } :=
  ⟨OtpKept.refl a, id⟩

theorem kept_setLedger (a : NonVol) (l : Ledger) : Kept a (a.setLedger l) := by
  unfold setLedger
  dsimp only
  split
  · exact a.kept_records _ _ _ _
  · exact a.kept_records _ _ _ _

theorem kept_modLedger (a : NonVol) (f : Ledger → Ledger) : Kept a (a.modLedger f) := a.kept_setLedger _

theorem flashWf_iff (a : NonVol) : a.flashWf = true ↔ KMap.wf a.flash = true ∧ ∀ e ∈ a.flash, e.2 ≠ 0xFF := by
  simp [flashWf]

theorem kept_flash {a : NonVol} {m : KMap Byte} (h : a.flashWf = true → KMap.wf m = true ∧ ∀ e ∈ m, e.2 ≠ 0xFF) :
    Kept a { a with flash := m } :=
  ⟨OtpKept.refl a, fun hwf => (flashWf_iff _).2 (h hwf)⟩

theorem kept_eraseSet (a : NonVol) (set : Nat) : Kept a (a.eraseSet set) := by
  refine kept_flash fun hwf => ?_
  obtain ⟨hkeys, hbytes⟩ := (flashWf_iff a).1 hwf
  exact ⟨KMap.wf_drop _ hkeys, fun e he => hbytes e (List.mem_filter.1 he).1⟩

theorem kept_writeSet (a : NonVol) (set o : Nat) (bs : List Byte) : Kept a (a.writeSet set o bs) := by
  refine kept_flash fun hwf => ?_
  exact foldl_keeps (P := fun m : KMap Byte => KMap.wf m = true ∧ ∀ e ∈ m, e.2 ≠ 0xFF)
    (fun m x hm => ⟨KMap.wf_put _ _ _ hm.1, KMap.put_ne_default hm.2⟩) _ _ ((flashWf_iff a).1 hwf)

/-- R464: fuses are burnt, none is unburnt. -/
theorem kept_fuses (a : NonVol) (burnt : List Nat) : Kept a { a with fuses := a.fuses ++ burnt } :=
  ⟨⟨rfl, rfl, rfl, rfl, rfl, rfl, rfl, rfl, rfl, fun _ h => List.mem_append_left _ h, fun _ h => h, fun _ h => h⟩, id⟩

theorem testBit_lor_left {n i : Nat} (h : n.testBit i = true) (m : Nat) : (n ||| m).testBit i = true := by
  rw [Nat.testBit_lor, h, Bool.true_or]

/-- R460: keys are revoked and debug levels closed, none is restored. -/
theorem kept_provision (a : NonVol) (m r : Nat) :
    Kept a { a with dbgMax := a.dbgMax ||| m, revoked := a.revoked ||| r } :=
  ⟨⟨rfl, rfl, rfl, rfl, rfl, rfl, rfl, rfl, rfl, fun _ h => h, fun _ h => testBit_lor_left h m,
    fun _ h => testBit_lor_left h r⟩, id⟩

end NonVol

/-! ### The mailbox's operations -/

section
open NonVol
variable (nv : NonVol) (c : Chip)

theorem kept_ledgerOp (ok : Bool) (f : Ledger → Ledger) : Kept nv (ledgerOp ok f nv c).1 := by
  cases ok
  · exact .refl nv
  · exact nv.kept_modLedger f

theorem kept_fwEnd (st : Staging) : Kept nv (fwEnd nv c st).1 := by
  unfold fwEnd
  dsimp only
  split
  · exact .refl nv
  · split <;> exact .refl nv

theorem kept_activateSet (ok : Bool) (set : Nat) : Kept nv (activateSet ok set nv c).1 := by
  cases ok
  · exact .refl nv
  · exact kept_ledgerOp nv _ true _

theorem kept_writeCal (ok : Bool) (image : List Byte) : Kept nv (writeCal ok image nv c).1 := by
  unfold writeCal
  dsimp only
  split
  · exact .refl nv
  · split
    · exact (nv.kept_records _ _ _ _).trans (kept_ledgerOp _ _ true _)
    · exact .refl nv

theorem kept_retrain (w : MgtSample) (mask : Nat) : Kept nv (retrain w mask nv c).1 := by
  unfold retrain
  dsimp only
  split
  · exact .refl nv
  · split
    · exact nv.kept_records _ _ _ _
    · split
      · exact (nv.kept_records _ _ _ _).trans (kept_ledgerOp _ _ true _)
      · exact nv.kept_records _ _ _ _

theorem kept_replanEnd (ok : Bool) (o : MgtOp) : Kept nv (replanEnd ok o nv c).1 := by
  unfold replanEnd
  dsimp only
  split
  · exact .refl nv
  · exact (nv.kept_records _ _ _ _).trans (kept_ledgerOp _ _ true _)

/-- Each operation of the mailbox writes the ledger, the calibration store, the stored training or a firmware set, or
provisions, or leaves the stores alone. -/
theorem kept_opWork (w : MgtSample) (o : MgtOp) : Kept nv (opWork w o nv c).1 := by
  unfold opWork
  dsimp only
  split
  case h_3 | h_4 => exact kept_ledgerOp nv c _ _
  case h_5 => split; exacts [nv.kept_eraseSet _, .refl nv]
  case h_6 | h_19 =>
    split
    · split; exacts [nv.kept_writeSet _ _ _, .refl nv]
    · exact .refl nv
  case h_7 => split; exacts [kept_fwEnd nv c _, .refl nv]
  case h_8 => split; exacts [kept_activateSet nv c _ _, .refl nv]
  case h_9 =>
    split
    · split; exacts [.refl nv, nv.kept_eraseSet _]
    · exact .refl nv
  case h_10 => exact kept_writeCal nv c _ _
  case h_11 => split <;> exact .refl nv
  case h_12 => split; exacts [kept_writeCal nv c _ _, .refl nv]
  case h_13 => exact kept_retrain nv c _ _
  case h_15 => exact kept_ledgerOp nv _ _ _
  case h_16 | h_17 => exact kept_replanEnd nv c _ _
  case h_18 => exact nv.kept_provision _ _
  all_goals exact .refl nv

theorem kept_mgtDone (w : MgtSample) : Kept nv (mgtDone w nv c).1 := by
  unfold mgtDone
  split
  · exact .refl nv
  · split
    · exact .refl nv
    · exact kept_opWork nv c w _

theorem kept_burnStep (fuses : Nat) : Kept nv (burnStep fuses nv c).1 := by
  unfold burnStep
  split
  · exact .refl nv
  · split
    · exact .refl nv
    · split
      · exact .refl nv
      · exact nv.kept_fuses _

theorem kept_abortMgt : Kept nv (abortMgt nv c).1 := by
  unfold abortMgt
  split
  · exact .refl nv
  · split
    · exact .refl nv
    · split
      · dsimp only
        split; exacts [nv.kept_eraseSet _, .refl nv]
      · split <;> exact .refl nv

theorem kept_opHour : Kept nv (opHour nv c).1 := by
  unfold opHour
  split
  · exact .refl nv
  · exact nv.kept_modLedger _

theorem kept_autoAge (drift : List Byte) : Kept nv (autoAge drift nv c).1 := by
  unfold autoAge
  split
  · exact .refl nv
  · split
    · exact .refl nv
    · exact nv.kept_modLedger _

/-! ### The management endpoint -/

variable {nv c} in
theorem kept_smbusAnswer {f : NonVol → Chip → NonVol × Chip × List Nat} (hf : Kept nv (f nv c).1) :
    Kept nv (smbusAnswer f nv c).1 := by
  unfold smbusAnswer
  split
  · exact .refl nv
  · exact hf

theorem kept_requestUpdate : Kept nv (requestUpdate nv c).1 := by
  unfold requestUpdate
  split
  · exact .refl nv
  · exact nv.kept_eraseSet _

theorem kept_activateFirmware (selfContained : Bool) : Kept nv (activateFirmware selfContained nv c).1 := by
  unfold activateFirmware
  split
  · exact .refl nv
  · next st _ =>
    split
    · exact .refl nv
    · split
      · exact .refl nv
      · split
        · exact .refl nv
        · split
          · exact .refl nv
          · exact kept_activateSet nv (c.setFd .idle) true st.set

theorem kept_cancelUpdate : Kept nv (cancelUpdate nv c).1 := by
  unfold cancelUpdate
  split
  · exact .refl nv
  · split; exacts [.refl nv, nv.kept_eraseSet _]

theorem reportStep_nv (from_ dest : FdState) (ok : NonVol → Chip → Bool) : (reportStep from_ dest ok nv c).1 = nv := by
  unfold reportStep
  split <;> rfl

end

/-! ### Boots and restarts -/

section
open NonVol

theorem kept_passStep (w : BootSample) (n : Nat) (nv : NonVol) (c : Chip) : Kept nv (passStep w n nv c).1 := by
  unfold passStep
  dsimp only
  split
  case h_6 => exact nv.kept_records _ _ _ _
  case h_12 => exact nv.kept_modLedger _
  all_goals exact .refl nv

theorem kept_completeBoot (nv : NonVol) (c : Chip) : Kept nv (completeBoot nv c).1 := nv.kept_modLedger _

namespace Booting
variable (b : Booting) (w : BootSample) (n v : Nat)

theorem kept_fail (d : Nat) : Kept b.nv (b.fail n d).nv := b.nv.kept_modLedger _

theorem kept_record : Kept b.nv (b.record n v).nv := b.nv.kept_modLedger _

theorem kept_pass : Kept b.nv (b.pass w n v).nv := (kept_passStep w n b.nv b.chip).trans (kept_record _ n v)

@[simp] theorem nv_noteImage : (b.noteImage n).nv = b.nv := by
  unfold Booting.noteImage
  split <;> rfl

variable {b} in
theorem kept_ite {p : Prop} [Decidable p] {x y : Booting} (hx : Kept b.nv x.nv) (hy : Kept b.nv y.nv) :
    Kept b.nv (if p then x else y).nv := by
  split
  · exact hx
  · exact hy

theorem kept_readLedger : Kept b.nv (b.readLedger w).nv := by
  unfold Booting.readLedger
  exact kept_ite (b.nv.kept_setLedger _) (b.nv.kept_setLedger _)

/-- Whatever its class, the step notes its image, and passes, fails or is recorded as skipped. -/
theorem kept_run : Kept b.nv (Booting.run w b n).nv := by
  have shown {c : Chip} {b1 : Booting} (h : Kept { b with chip := c }.nv b1.nv) : Kept b.nv b1.nv := h
  have noted {c : Chip} {b1 : Booting} (h : Kept ({ b with chip := c }.noteImage n).nv b1.nv) : Kept b.nv b1.nv := by
    rwa [nv_noteImage] at h
  have skipped {c d : Chip} (v : Nat) :
      Kept b.nv ({ { b with chip := c }.noteImage n with chip := d }.record n v).nv :=
    noted (kept_record { { b with chip := c }.noteImage n with chip := d } n v)
  unfold Booting.run
  refine kept_ite (.refl _) (kept_ite (.refl _) (kept_ite (shown (kept_readLedger _ w)) (kept_ite
    (kept_ite (shown (kept_fail _ n 0)) (.refl _)) (kept_ite ?last (kept_ite ?rescue ?classes)))))
  case last => exact kept_completeBoot b.nv (b.chip.setFld Fld.MGT_STATE_STEP 0 n)
  case rescue => exact kept_ite (.refl _) (kept_passStep w n b.nv _)
  case classes =>
    dsimp only
    split
    case h_1 => exact kept_ite (noted (kept_pass _ w n 1)) (noted (kept_fail _ n 0))
    case h_2 =>
      exact kept_ite (skipped 3) (kept_ite (noted (kept_pass _ w n 1)) ((skipped 2).trans (kept_modLedger _ _)))
    case h_3 =>
      exact kept_ite (kept_ite (skipped 3) (kept_ite (noted (kept_record _ n 3)) (noted (kept_pass _ w n _))))
        (noted (kept_fail _ n _))

end Booting

theorem kept_runBoot (w : BootSample) (n : Nat) (nv : NonVol) (c : Chip) : Kept nv (runBoot w n nv c).1 :=
  foldl_keeps (P := fun b : Booting => Kept nv b.nv) (fun b n hb => hb.trans (b.kept_run w n)) _ _ (.refl nv)

theorem kept_bootStart (w : BootSample) (nv : NonVol) (c : Chip) : Kept nv (bootStart w nv c).1 := by
  unfold bootStart
  split
  · exact .refl nv
  · exact kept_runBoot w 0 nv _

theorem kept_bootTimeout (w : BootSample) (nv : NonVol) (c : Chip) : Kept nv (bootTimeout w nv c).1 := by
  unfold bootTimeout
  split
  · exact .refl nv
  · exact kept_runBoot _ _ nv c

theorem kept_internalReboot (w : BootSample) (nv : NonVol) (c : Chip) : Kept nv (internalReboot w nv c).1 := by
  unfold internalReboot
  split
  · exact .refl nv
  · exact kept_runBoot w 0 nv _

theorem kept_abortOp (nv : NonVol) (c : Chip) : Kept nv (abortOp nv c).1 := by
  unfold abortOp
  split
  · exact .refl nv
  · dsimp only
    split
    · exact nv.kept_eraseSet _
    · split
      · split; exacts [nv.kept_eraseSet _, .refl nv]
      · exact .refl nv

theorem kept_baristaRestart (nv : NonVol) (c : Chip) : Kept nv (baristaRestart nv c).1 := by
  unfold baristaRestart
  dsimp only
  split
  · exact .refl nv
  · exact (nv.kept_modLedger _).trans (kept_abortOp _ _)

/-! ### Register writes -/

/-- An answer of a register's own rule leaves stores that are kept. -/
def KeptBy (nv : NonVol) (r : Option (NonVol × Chip)) : Prop := ∀ x, r = some x → Kept nv x.1

theorem keptBy_some {nv nv1 : NonVol} {c : Chip} (h : Kept nv nv1) : KeptBy nv (some (nv1, c)) := by
  rintro _ ⟨⟩
  exact h

theorem keptBy_ite {nv : NonVol} {p : Prop} [Decidable p] {x y : Option (NonVol × Chip)} (hx : KeptBy nv x)
    (hy : KeptBy nv y) : KeptBy nv (if p then x else y) := by
  split
  · exact hx
  · exact hy

theorem keptBy_getD {nv : NonVol} {r : Option (NonVol × Chip)} (h : KeptBy nv r) (c : Chip) :
    Kept nv (r.getD (nv, c)).1 := by
  cases r with
  | none => exact .refl nv
  | some x => exact h x rfl

/-- Of the registers with a rule of their own, MGT_CTL alone reaches the stores: its ABORT. -/
theorem keptBy_ownWrite (nv : NonVol) (c : Chip) (d : RegDesc) (p i k a : Nat) (v : Word) :
    KeptBy nv (c.ownWrite nv d p i k a v) := by
  have habort (c1 : Chip) : KeptBy nv (some (if wbit v 0 then abortMgt nv c1 else (nv, c1))) := by
    split
    · exact keptBy_some (kept_abortMgt nv c1)
    · exact keptBy_some (.refl nv)
  unfold Chip.ownWrite
  dsimp only
  repeat refine keptBy_ite (keptBy_some (.refl nv)) ?_
  exact keptBy_ite (habort _) (fun _ h => nomatch h)

theorem kept_regStore (fn a : Nat) (v : Word) (nv : NonVol) (c : Chip) : Kept nv (regStore fn a v nv c).1 := by
  unfold regStore
  split
  · exact .refl nv
  split
  · exact .refl nv
  split
  · exact .refl nv
  split
  · exact .refl nv
  split
  · exact .refl nv
  · dsimp only
    split
    · exact .refl nv
    split
    · exact .refl nv
    split
    · exact .refl nv
    · exact keptBy_getD (keptBy_ownWrite nv _ _ _ _ _ a v) _

theorem kept_regWrite (fn off size : Nat) (v : Dword) (nv : NonVol) (c : Chip) :
    Kept nv (regWrite fn off size v nv c).1 := by
  unfold regWrite
  split
  · exact .refl nv
  split
  · exact .refl nv
  · refine foldl_keeps (P := fun x : NonVol × Chip => Kept nv x.1) (fun x o hx => ?_) _ _ (.refl nv)
    split
    · exact hx.trans (kept_regStore _ _ _ x.1 x.2)
    · exact hx

/-! ### Commands -/

theorem kept_onBoth {f : NonVol → Chip → NonVol × Chip} (hf : ∀ nv c, Kept nv (f nv c).1) (s : State) :
    ∃ nv c, onBoth f s = .next { s with nv := nv, chip := c } ∧ Kept s.nv nv := by
  refine ⟨_, _, rfl, ?_⟩
  split
  · exact .refl _
  · exact hf _ _

theorem kept_onBothAlways {f : NonVol → Chip → NonVol × Chip} (hf : ∀ nv c, Kept nv (f nv c).1) (s : State) :
    ∃ nv c, onBothAlways f s = .next { s with nv := nv, chip := c } ∧ Kept s.nv nv :=
  ⟨_, _, rfl, hf _ _⟩

theorem kept_smbusEngine {f : NonVol → Chip → NonVol × Chip × List Nat} (hf : ∀ nv c, Kept nv (f nv c).1) (s : State) :
    ∃ nv c, smbusEngine f s = .next { s with nv := nv, chip := c } ∧ Kept s.nv nv := by
  refine kept_onBoth (fun nv c => kept_smbusAnswer ?_) s
  split
  · exact .refl nv
  · exact hf nv c

/-- A command that only reads the stores leaves them. -/
theorem kept_reading {f : NonVol → Chip → NonVol × Chip} (hf : ∀ nv c, (f nv c).1 = nv) (nv : NonVol) (c : Chip) :
    Kept nv (f nv c).1 := (hf nv c).symm ▸ .refl nv

theorem kept_registerWrite (fn : BitVec 4) (place : RegPlace) (size : BitVec 4) (val : Dword) (s : State) :
    ∃ nv c, exec (.registerWrite fn place size val) s = .next { s with nv := nv, chip := c } ∧ Kept s.nv nv := by
  refine kept_onBoth (f := fun nv c => if place.bar2 then (nv, c.bar2Write fn.toNat place.off.toNat size.toNat
    (val.truncate 32)) else regWrite fn.toNat place.off.toNat size.toNat val nv c) (fun nv c => ?_) s
  split
  · exact .refl nv
  · exact kept_regWrite _ _ _ _ nv c

theorem kept_setEndpointId (eid : Byte) (s : State) :
    ∃ nv c, exec (.setEndpointId eid) s = .next { s with nv := nv, chip := c } ∧ Kept s.nv nv := by
  refine kept_onBoth (fun nv c => kept_smbusAnswer ?_) s
  split <;> exact .refl nv

theorem kept_cancelUpdateComponent (s : State) :
    ∃ nv c, exec .cancelupdatecomponent s = .next { s with nv := nv, chip := c } ∧ Kept s.nv nv := by
  refine kept_smbusEngine (fun nv c => ?_) s
  split <;> exact .refl nv

theorem kept_smbusRead (f : NonVol → Chip → List Nat) (s : State) :
    ∃ nv c, smbusRead f s = .next { s with nv := nv, chip := c } ∧ Kept s.nv nv :=
  kept_onBoth (fun nv _ => kept_smbusAnswer (.refl nv)) s

/-- What a command that changes the chip alone leaves of the stores, whether the clocks run or not. -/
theorem kept_same {nv : NonVol} {p : Prop} [Decidable p] {c d : Chip} :
    Kept nv (if p then (nv, c) else (nv, d)).1 := by
  split <;> exact .refl nv

/-- Every command answers; the queue of commands stays, and the stores are kept. Few commands reach the stores: the
operations of the mailbox and of the management endpoint, boots, the hours of operation, and register writes. -/
theorem exec_next (i : Instr) (s : State) :
    ∃ nv c, exec i s = .next { s with nv := nv, chip := c } ∧ Kept s.nv nv := by
  cases i
  case opHour => exact kept_onBoth kept_opHour s
  case autoAgeMeasure drift => exact kept_onBoth (fun nv c => kept_autoAge nv c drift) s
  case mgtDone w => exact kept_onBoth (fun nv c => kept_mgtDone nv c w) s
  case rollbackBurn fuses => exact kept_onBoth (fun nv c => kept_burnStep nv c fuses.toNat) s
  case abort => exact kept_onBoth kept_abortMgt s
  case requestupdate => exact kept_smbusEngine kept_requestUpdate s
  case activatefirmware selfContained => exact kept_smbusEngine (fun nv c => kept_activateFirmware nv c selfContained) s
  case cancelupdate => exact kept_smbusEngine kept_cancelUpdate s
  case cancelupdatecomponent => exact kept_cancelUpdateComponent s
  case boot w => exact kept_onBothAlways (kept_bootStart w) s
  case bootStepTimeout w => exact kept_onBothAlways (kept_bootTimeout w) s
  case internalReboot w => exact kept_onBothAlways (kept_internalReboot w) s
  case baristaRestart => exact kept_onBothAlways kept_baristaRestart s
  case registerWrite fn place size val => exact kept_registerWrite fn place size val s
  case setEndpointId eid => exact kept_setEndpointId eid s
  case transfercomplete => exact kept_onBoth (kept_reading fun nv c => reportStep_nv nv c _ _ _) s
  case verifycomplete => exact kept_onBoth (kept_reading fun nv c => reportStep_nv nv c _ _ _) s
  case applycomplete => exact kept_onBoth (kept_reading fun nv c => reportStep_nv nv c _ _ _) s
  case passcomponenttable => exact kept_onBoth (fun nv c => kept_smbusAnswer (.refl nv)) s
  case updatecomponent => exact kept_onBoth (fun nv c => kept_smbusAnswer (.refl nv)) s
  case getEndpointId | getMctpVersionSupport | getMessageTypeSupport | gettid | getpldmversion | getpldmtypes
      | getpldmcommands | getpdr | getsensorreading | getstatesensorreadings | querydeviceidentifiers
      | getfirmwareparameters | getstatus => exact kept_smbusRead _ s
  case portTrainingDone | getDigests | getCertificate | challenge | getMeasurements | secDbgSubmit | provision =>
    exact ⟨_, _, rfl, kept_same⟩
  all_goals exact ⟨_, _, rfl, .refl _⟩

/-- A step without a command leaves the stores too. -/
theorem kept_step {s t : State} (h : step s = .next t) : Kept s.nv t.nv := by
  cases hp : s.pending with
  | nil =>
    simp only [step, hp, Host.Outcome.next.injEq] at h
    exact h ▸ .refl s.nv
  | cons i rest =>
    obtain ⟨nv, c, hexec, hkept⟩ := exec_next i { s with pending := rest }
    simp only [step, hp, hexec, Host.Outcome.next.injEq] at h
    exact h ▸ hkept

end

/-- Settles O53: what `NonVol.Kept` says, a preorder that every change of a store keeps. -/
theorem storesKept : Obligations.stores_kept := fun _ _ => kept_step

end Sys2Proof.Machine

/-! ## The machine: the queue, stopped clocks and the reset state (assumptions 1, 2, 5, 6; R416) -/

namespace Sys2Proof.Machine

/-- Settles O1, by the two cases of `step`. -/
theorem stepRunsFront : Obligations.step_runs_front := by
  refine ⟨fun i s => rfl, fun s h => ?_⟩
  simp only [step, h, idle]

/-- A command outside the always-on domain: its effect on the chip, unless the clocks are stopped (R416). -/
theorem ran_of_stopped {i : Instr} {s : State} {d : Chip} (h : s.chip.stopped = true)
    (hi : exec i s = .next { s with chip := (if s.chip.stopped = true then s.chip else d).tick }) : Ran i s s.chip := by
  rwa [if_pos h] at hi

/-- Settles O3: what a command does is a change of the stores and the chip; and each of the nine is a change of the chip
that stopped clocks hold back. -/
theorem queueAndClocks : Obligations.queue_and_clocks := by
  refine ⟨fun i s => ?_, fun s h => ?_⟩
  · obtain ⟨nv, c, hexec, -⟩ := exec_next i s
    exact ⟨_, hexec, rfl⟩
  · exact ⟨fun _ _ => ran_of_stopped h rfl, fun _ => ran_of_stopped h rfl, fun _ _ _ _ => ran_of_stopped h rfl,
      fun _ _ _ _ _ => ran_of_stopped h rfl, fun _ _ _ => ran_of_stopped h rfl, fun _ => ran_of_stopped h rfl,
      fun _ _ _ => ran_of_stopped h rfl, fun _ _ => ran_of_stopped h rfl, fun _ _ => ran_of_stopped h rfl⟩

/-! ### The reset state -/

/-- A register file listed one register at a time is in canonical form. -/
theorem wf_listed (xs : List (Nat × Nat)) : KMap.wf (xs.foldl KMap.listed []) = true :=
  foldl_keeps (P := fun m => KMap.wf m = true) (fun _ x hm => KMap.wf_put 0 x.1 _ hm) xs [] rfl

theorem reset_regs : State.reset.chip.regs = (NonVol.resetRegs {}).foldl KMap.listed [] := by
  simp only [State.reset, Chip.fresh]

/-- Settles O2: the registers are those listed for the device that `State.reset` describes, an evaluation; every table
beside them is empty. -/
theorem resetState : Obligations.reset_state := by
  have hfree (p : Nat) : State.reset.chip.part p = {} := by
    simp only [State.reset, Chip.fresh, Chip.part, KMap.getD, KMap.find_nil, Option.getD_none]
  refine ⟨⟨rfl, hfree, rfl, ?registers⟩, ?mem, reset_regs ▸ wf_listed _, rfl, fun p => ?laid⟩
  case registers => decide +kernel
  case mem => decide
  case laid =>
    rw [hfree]
    exact ⟨fun _ => ⟨rfl, List.nodup_nil, by simp⟩, nofun⟩

end Sys2Proof.Machine

/-! ## Frames (R80, R81, R128)

What the end of a descriptor, the retirement of an instruction, a store through a translation and the store of a
register's field leave unchanged. -/

namespace Sys2Proof.Machine

/-! ### Entries and waves -/

theorem Chip.entry_setEntry_ne (c : Chip) (q : Nat) {slot j : Nat} (h : j ≠ slot) (e : Entry) :
    (c.setEntry q slot e).entry q j = c.entry q j := by
  simp only [Chip.entry, Chip.setEntry, Chip.queue_setQueue_self, KMap.find_set_ne h]

@[simp] theorem Chip.entry_setEntry_self (c : Chip) (q slot : Nat) (e : Entry) :
    (c.setEntry q slot e).entry q slot = some e := by
  simp only [Chip.entry, Chip.setEntry, Chip.queue_setQueue_self, KMap.find_set_self]

/-- What an item's instruction signed changes the grids alone. -/
theorem Chip.signItem_eq (c c0 : Chip) (q slot item : Nat) : ∃ g, c.signItem c0 q slot item = { c with grids := g } := by
  unfold Chip.signItem
  split
  · exact ⟨_, rfl⟩
  · split
    · exact ⟨_, rfl⟩
    · exact ⟨_, rfl⟩

/-! ### Requests to the host -/

/-- The memory, the registers and the partitions are those of the chip before. -/
def Chip.SameStores (c d : Chip) : Prop :=
  d.mem = c.mem ∧ d.scratch = c.scratch ∧ d.regs = c.regs ∧ d.parts = c.parts

theorem Chip.SameStores.refl (c : Chip) : c.SameStores c := ⟨rfl, rfl, rfl, rfl⟩

theorem Chip.SameStores.trans {c d e : Chip} (h : c.SameStores d) (h' : d.SameStores e) : c.SameStores e :=
  ⟨h'.1.trans h.1, h'.2.1.trans h.2.1, h'.2.2.1.trans h.2.2.1, h'.2.2.2.trans h.2.2.2⟩

theorem Chip.sameStores_emit (c : Chip) (o : Out) : c.SameStores (c.emit o) := ⟨rfl, rfl, rfl, rfl⟩

theorem Chip.sameStores_hold (c : Chip) (r : Req) : c.SameStores (c.hold r) := ⟨rfl, rfl, rfl, rfl⟩

theorem Chip.sameStores_postHost (c : Chip) (a : Nat) (bs : List Byte) : c.SameStores (c.postHost a bs) :=
  foldl_keeps (P := c.SameStores) (fun d _ hd => hd.trans (d.sameStores_emit _)) _ _ (.refl c)

theorem Chip.sameStores_sendHost (c : Chip) (r : Req) : c.SameStores (c.sendHost r) := by
  unfold Chip.sendHost
  split
  · exact (c.sameStores_hold r).trans (Chip.sameStores_emit _ _)
  · exact c.sameStores_postHost _ _
  · exact .refl c

theorem Chip.sameStores_transmitHost (c : Chip) (r : Req) : c.SameStores (c.transmitHost r) := by
  unfold Chip.transmitHost
  split
  · exact c.sameStores_sendHost r
  · split
    · exact c.sameStores_sendHost _
    · exact (c.sameStores_hold _).trans (Chip.sameStores_emit _ _)

/-- R509: a write to the host leaves the device's memory, registers and partitions as they are. -/
theorem Chip.sameStores_writeHost {c d : Chip} {addr p q va : Nat} {bs : List Byte} {who : Requester}
    (h : c.writeHost addr bs p q who va = .ok d) : c.SameStores d := by
  unfold Chip.writeHost at h
  split at h
  · cases h
  split at h
  · unfold Chip.requestHost at h
    split at h
    · cases h
    unfold Chip.request at h
    split at h
    · cases h
      exact c.sameStores_hold _
    · cases h
      exact c.sameStores_transmitHost _
  · cases h
    exact c.sameStores_postHost addr bs

/-! ### Stores through a translation -/

/-- A store within a page is one piece. -/
theorem pieces_one {va n : Nat} (hn : n ≠ 0) (h : va % 4096 + n ≤ 4096) : pieces va n = [(va, n)] := by
  have hsize : min n (4096 - va % 4096) = n := by omega
  simp [pieces, pagePieces, hn, hsize]

theorem Chip.writeVA_page {c d : Chip} {w : Actor} {q va : Nat} {who : Requester} {bs : List Byte} (hbs : bs ≠ [])
    (h : va % 4096 + bs.length ≤ 4096) : c.writeVA w q who va bs = .ok d ↔ c.writePiece w q who va bs = .ok d := by
  have hn : bs.length ≠ 0 := fun h0 => hbs (List.length_eq_zero_iff.1 h0)
  rw [Chip.writeVA, pieces_one hn h, Chip.writePieces, List.take_length]
  cases c.writePiece w q who va bs with
  | error e => simp
  | ok c1 => simp [Chip.writePieces]

/-- What a write signs changes the signatures alone. -/
theorem Chip.sign_eq (c : Chip) (q p a : Nat) (bs : List Byte) : ∃ s, c.sign q p a bs = { c with sigs := s } := by
  unfold Chip.sign
  split
  · exact ⟨_, rfl⟩
  · exact ⟨_, rfl⟩

section
variable {c d : Chip} {w : Actor} {q va pa a : Nat} {who : Requester} {bs : List Byte}

theorem Chip.writePiece_here (ht : c.translate w .write va = .ok (.here pa)) (h : c.writePiece w q who va bs = .ok d) :
    ∃ c1, c.writePP w.p pa bs = .ok c1 ∧ d = c1.sign q w.p pa bs := by
  simp only [Chip.writePiece, ht] at h
  split at h
  · cases h
  · split at h
    · next c1 hw => exact ⟨c1, hw, (Except.ok.inj h).symm⟩
    · cases h

theorem Chip.writePiece_host (ht : c.translate w .write va = .ok (.host a)) (h : c.writePiece w q who va bs = .ok d) :
    c.writeHost a bs w.p q who va = .ok d := by
  simpa only [Chip.writePiece, ht] using h

end

/-- Settles O4, by the operation: the entry of a table that it replaces, the bytes that it stores, the field's own
register. -/
theorem frames : Obligations.frames := by
  refine ⟨fun c q slot e st d => ?ends, fun c c1 x a wv => ?retires, fun c c' w q who va bs hpage hbs hwrite => ?stores,
    fun c f o v b => ⟨rfl, rfl, rfl, c.rg_setFld_ne f o v⟩⟩
  case ends =>
    exact ⟨rfl, rfl, rfl, rfl, rfl, rfl, rfl, rfl, rfl, rfl, fun o ho => c.queue_setQueue_ne ho _,
      fun j hj => c.entry_setEntry_ne q hj _⟩
  case retires =>
    obtain ⟨g, hsign⟩ := c1.signItem_eq c x.wg.q x.wg.slot x.wg.index
    simp only [Chip.executed, hsign]
    exact ⟨rfl, rfl, rfl, rfl, rfl, rfl, fun k hk => KMap.find_set_ne hk _ _⟩
  case stores =>
    rw [Chip.writeVA_page hbs hpage] at hwrite
    refine ⟨fun pa ht => ?_, fun a ht => Chip.sameStores_writeHost (Chip.writePiece_host ht hwrite)⟩
    obtain ⟨c1, hpp, rfl⟩ := Chip.writePiece_here ht hwrite
    obtain ⟨ks, hks, -, rfl⟩ := Chip.writePP_ok hpp
    obtain ⟨s, hsign⟩ := (c.writeLocs ks bs).sign_eq q w.p pa bs
    rw [hsign]
    refine ⟨fun ls l hls hl => ?_, c.regs_writeLocs ks bs, c.parts_writeLocs ks bs,
      c.writeLocs_frame ks bs Chip.clusters fun _ _ _ _ _ _ _ => rfl,
      c.writeLocs_frame ks bs Chip.waves fun _ _ _ _ _ _ _ => rfl,
      c.writeLocs_frame ks bs Chip.reqs fun _ _ _ _ _ _ _ => rfl⟩
    obtain rfl : ks = ls := Option.some.inj (hks.symm.trans hls)
    exact Chip.byteAt_writeLocs_ne hl

end Sys2Proof.Machine

/-! ## Lane results and exact accumulation (R131, R149 to R153, R166, R179) -/

namespace Sys2Proof.Machine

/-! ### A long-mode position -/

/-- What a contribution adds to the segments of a position. -/
def FVal.addend : FVal → BitVec 640
  | .fin neg m e => let v := BitVec.ofNat 640 (m <<< (e + 320).toNat); if neg then -v else v
  | _ => 0

/-- A contribution leaves a position's mark that only negative zeros have come. -/
def FVal.keepsNegz : FVal → Bool
  | .fin neg m _ => neg && m == 0
  | _ => false

theorem FVal.addend_zero (neg : Bool) (e : Int) : (FVal.fin neg 0 e).addend = 0 := by
  simp [FVal.addend]

/-- R150, R153: a contribution adds to each part of a position by itself. -/
theorem LPos.contribute_eq (p : LPos) (a : FVal) : p.contribute a =
    { p with acc := p.acc + a.addend, nan := p.nan || decide (a = .nan), pinf := p.pinf || decide (a = .inf false),
             ninf := p.ninf || decide (a = .inf true), negz := p.negz && a.keepsNegz } := by
  cases a with
  | nan => simp [LPos.contribute, FVal.addend, FVal.keepsNegz]
  | inf neg => cases neg <;> simp [LPos.contribute, FVal.addend, FVal.keepsNegz]
  | fin neg m e =>
    by_cases hm : m = 0
    · subst hm
      cases neg <;> simp [LPos.contribute, FVal.addend_zero, FVal.keepsNegz]
    · cases neg <;> simp [LPos.contribute, FVal.addend, FVal.keepsNegz, hm, BitVec.sub_eq_add_neg]

theorem LPos.contribute_comm (p : LPos) (a b : FVal) :
    (p.contribute a).contribute b = (p.contribute b).contribute a := by
  simp only [LPos.contribute_eq, BitVec.add_assoc, Bool.or_assoc, Bool.and_assoc, BitVec.add_comm a.addend b.addend,
    Bool.or_comm (decide (a = _)) (decide (b = _)), Bool.and_comm a.keepsNegz b.keepsNegz]

/-! ### The raw image of a position -/

theorem fieldLE_succ (bs : List Byte) (o n : Nat) :
    fieldLE bs o (n + 1) = (bs.getD o 0).toNat + 256 * fieldLE bs (o + 1) n := by
  by_cases h : o < bs.length
  · rw [fieldLE, List.drop_eq_getElem_cons h, List.take_succ_cons, leNat, List.getD_eq_getElem _ _ h, fieldLE]
  · have hle : bs.length ≤ o := Nat.le_of_not_lt h
    have hle' : bs.length ≤ o + 1 := Nat.le_succ_of_le hle
    simp [fieldLE, List.drop_eq_nil_of_le hle, List.drop_eq_nil_of_le hle', leNat, hle]

/-- Crema bytes that are those of a string are read as its fields. -/
theorem rdLE_getD (bs : List Byte) (o n : Nat) : rdLE (fun i => (bs.getD i 0).toNat) o n = fieldLE bs o n := by
  induction n generalizing o with
  | zero => simp [rdLE, fieldLE, leNat]
  | succ n ih => rw [rdLE, ih, fieldLE_succ]

/-- The word of an image that holds the count and the marks. -/
def LPos.marks (p : LPos) : Nat :=
  p.terms + 2 ^ 25 * b2n p.ovf + 2 ^ 26 * b2n p.pinf + 2 ^ 27 * b2n p.ninf + 2 ^ 28 * b2n p.nan + 2 ^ 29 * b2n p.negz

theorem LPos.image_eq (p : LPos) : p.image = leBytes 80 p.acc.toNat ++ (leBytes 4 p.marks ++ leBytes 12 0) := by
  rw [LPos.image, List.append_assoc, LPos.marks]

theorem bit_eq_of_mod {n i : Nat} {b : Bool} (h : n / 2 ^ i % 2 = b2n b) : bit n i = b := by
  rw [bit, Nat.shiftRight_eq_div_pow, h]
  cases b <;> rfl

theorem b2n_le_one (b : Bool) : b2n b ≤ 1 := by cases b <;> decide

theorem LPos.marks_fields {p : LPos} (h : p.terms < 2 ^ 25) : p.marks < 2 ^ 32 ∧ p.marks % 2 ^ 25 = p.terms ∧
    bit p.marks 25 = p.ovf ∧ bit p.marks 26 = p.pinf ∧ bit p.marks 27 = p.ninf ∧ bit p.marks 28 = p.nan ∧
    bit p.marks 29 = p.negz := by
  have ho := b2n_le_one p.ovf
  have hp := b2n_le_one p.pinf
  have hn := b2n_le_one p.ninf
  have ha := b2n_le_one p.nan
  have hz := b2n_le_one p.negz
  simp only [LPos.marks]
  refine ⟨by omega, by omega, ?_, ?_, ?_, ?_, ?_⟩
  all_goals exact bit_eq_of_mod (by omega)

theorem toNat_mod_bytes {w n : Nat} (h : w = 8 * n) (x : BitVec w) : x.toNat % 2 ^ (8 * n) = x.toNat := by
  subst h
  exact BitVec.toNat_mod_cancel x

theorem LPos.ofImage_image {p : LPos} (h : p.terms < 2 ^ 25) :
    LPos.ofImage (fun i => (p.image.getD i 0).toNat) 0 = p := by
  obtain ⟨hword, hterms, hovf, hpinf, hninf, hnan, hnegz⟩ := LPos.marks_fields h
  have hacc : fieldLE p.image 0 80 = p.acc.toNat := by
    rw [LPos.image_eq, fieldLE_leBytes_append, toNat_mod_bytes (w := 640) (n := 80) rfl]
  have hmarks : fieldLE p.image 80 4 = p.marks := by
    rw [LPos.image_eq, fieldLE_skip (Nat.le_refl 80), Nat.sub_self, fieldLE_leBytes_append]
    exact Nat.mod_eq_of_lt hword
  simp only [LPos.ofImage, rdLE_getD, Nat.zero_add, hacc, hmarks, hterms, hovf, hpinf, hninf, hnan, hnegz,
    BitVec.ofNat_toNat, BitVec.setWidth_eq]

/-- Settles O27: each part of a position takes its share of a contribution by an operation that commutes; and the image is
three numbers one after the other. -/
theorem exactAccumulation : Obligations.exact_accumulation := by
  refine ⟨LPos.contribute_comm, fun p h => ⟨LPos.ofImage_image h, ?_⟩⟩
  simp [LPos.image]

/-! ### Lanes of a vector instruction -/

theorem Wave.v_setV_self (w : Wave) (n l : Nat) (x : Word) : (w.setV n l x).v n l = x := by
  simp [Wave.v, Wave.setV]

theorem Wave.v_setV_ne (w : Wave) {n l m k : Nat} (h : 32 * m + k ≠ 32 * n + l) (x : Word) :
    (w.setV n l x).v m k = w.v m k := by
  simp [Wave.v, Wave.setV, KMap.getD_put_ne h]

/-- Results written to one register, lane by lane. -/
theorem Wave.writeLanes_v (w : Wave) (n : Nat) (r : List (Nat × Nat)) :
    w.writeLanes (.v n) 1 r = r.foldl (fun w x => w.setV n x.1 (BitVec.ofNat 32 x.2)) w := rfl

/-- Only the vector registers change. -/
theorem Wave.writeLanes_frame (w : Wave) (n : Nat) (r : List (Nat × Nat)) :
    w.writeLanes (.v n) 1 r = { w with vregs := (w.writeLanes (.v n) 1 r).vregs } :=
  foldl_keeps (P := fun v : Wave => v = { w with vregs := v.vregs })
    (fun _ x hv => congrArg (fun u : Wave => u.setV n x.1 (BitVec.ofNat 32 x.2)) hv) r w rfl

/-- A register's lane that no result is for stays. -/
theorem Wave.v_writeLanes_ne {n m k : Nat} : ∀ {r : List (Nat × Nat)} {w : Wave},
    (∀ x ∈ r, 32 * m + k ≠ 32 * n + x.1) → (w.writeLanes (.v n) 1 r).v m k = w.v m k
  | [], _, _ => rfl
  | x :: r, w, h => by
    obtain ⟨hx, hr⟩ := List.forall_mem_cons.1 h
    exact (Wave.v_writeLanes_ne (w := w.setV n x.1 _) hr).trans (Wave.v_setV_ne w hx _)

/-- A lane for which there is one result holds it. -/
theorem Wave.v_writeLanes_mem {n : Nat} (f : Nat → Nat) : ∀ {ls : List Nat} {w : Wave} {k : Nat}, ls.Nodup → k ∈ ls →
    (w.writeLanes (.v n) 1 (ls.map fun l => (l, f l))).v n k = BitVec.ofNat 32 (f k)
  | l :: ls, w, k, hd, hk => by
    obtain ⟨hl, hd⟩ := List.nodup_cons.1 hd
    rcases List.mem_cons.1 hk with rfl | hk
    · have hothers : ∀ x ∈ ls.map fun l => (l, f l), 32 * n + k ≠ 32 * n + x.1 := by
        intro x hx heq
        obtain ⟨j, hj, rfl⟩ := List.mem_map.1 hx
        exact hl (Nat.add_left_cancel heq ▸ hj)
      exact (Wave.v_writeLanes_ne (w := w.setV n k _) hothers).trans (Wave.v_setV_self w n k _)
    · exact Wave.v_writeLanes_mem f (w := w.setV n l _) hd hk

theorem Wave.mem_lanes {w : Wave} {l : Nat} : l ∈ w.lanes ↔ l < 32 ∧ w.active l = true := by
  rw [Wave.lanes, List.mem_filter, List.mem_range]

theorem Wave.lanes_nodup (w : Wave) : w.lanes.Nodup := List.nodup_range.filter _

/-- An instruction on single registers writes, in each active lane, its result on that lane's sources. -/
theorem Wave.mapLanes_v {w : Wave} {a : Args} {n : Nat} (h : Operand.of a.dst = .v n) (f : Nat → Nat → Nat → Nat) :
    w.mapLanes a 1 1 f = w.writeLanes (.v n) 1 (w.lanes.map fun l => (l, f (w.src (Operand.of a.src0) a.ext l).toNat
      (w.src (Operand.of a.src1) a.ext l).toNat (w.src (Operand.of a.src2) a.ext l).toNat)) := by
  rw [Wave.mapLanes, h]
  rfl

/-! ### Instructions that complete -/

section
variable {c : Chip} {cl w cls : Nat} {op : Option Nat} {a : Args} {x : WCtx} {legal : WCtx → Bool}
  {f : Chip → WCtx → Except (AccErr × Nat) (Chip × Wave)}

/-- An instruction that completes in one command, where it is legal and its effect succeeds. -/
theorem issue_ok {c1 : Chip} {wv : Wave} (h : Issues c cl w cls op a x) (hl : legal x = true)
    (hf : f c x = .ok (c1, wv)) : c.issue cl w cls op a legal f = c.executed c1 x a wv := by
  rw [Chip.issue, issueAs_of _ h hl]
  simp only [hf]

theorem issue_error {e : AccErr × Nat} (h : Issues c cl w cls op a x) (hl : legal x = true)
    (hf : f c x = .error e) : c.issue cl w cls op a legal f = c.waveFailed x e := by
  rw [Chip.issue, issueAs_of _ h hl]
  simp only [hf]

theorem issue_illegal (h : Issues c cl w cls op a x) (hl : legal x = false) :
    c.issue cl w cls op a legal f = c.waveFault cl w x.wv .illegal (x.g.codeVa + x.wv.pc) :=
  issueAs_illegal _ h hl

end

theorem ran_valuOp {s : State} (hl : Live s) (c : BitVec 7) (w : BitVec 6) (op : ValuOp) (a : Args) :
    Ran (.valuOp c w op a) s (s.chip.issue c.toNat w.toNat Cls.valu op.field a
      (fun x => valuLegal (s.chip.flag Fld.DEV_CAPS0_FP64) op a x.wg.vregs) fun ch x =>
        .ok (ch, x.wv.mapLanes a (valuWords op).1 (valuWords op).2
          (valuResult op ((valuRound a.mod).getD .rne) (bit a.mod.toNat 4)))) :=
  onChip_live hl fun ch => ch.issue c.toNat w.toNat Cls.valu op.field a
    (fun x => valuLegal (ch.flag Fld.DEV_CAPS0_FP64) op a x.wg.vregs) fun ch x =>
      .ok (ch, x.wv.mapLanes a (valuWords op).1 (valuWords op).2
        (valuResult op ((valuRound a.mod).getD .rne) (bit a.mod.toNat 4)))

/-- Settles O21: the results are computed from the wave as it stands and then written, one lane of one register each. -/
theorem valuLanes : Obligations.valu_lanes := by
  intro s c w op a x n hl hi hlegal hdst hwords val
  have hran := ran_valuOp hl c w op a
  rw [issue_ok hi hlegal rfl, hwords, Wave.mapLanes_v hdst, Wave.writeLanes_frame] at hran
  refine ⟨_, hran, fun l hlt hact => ?active, fun m l hlt hother => ?others⟩
  case active => exact Wave.v_writeLanes_mem val x.wv.lanes_nodup (Wave.mem_lanes.2 ⟨hlt, hact⟩)
  case others =>
    refine Wave.v_writeLanes_ne fun y hy heq => ?_
    obtain ⟨j, hj, rfl⟩ := List.mem_map.1 hy
    obtain ⟨hj32, hjact⟩ := Wave.mem_lanes.1 hj
    have hsame : m = n ∧ l = j := by
      simp only at heq
      omega
    obtain ⟨rfl, rfl⟩ := hsame
    rcases hother with hne | hoff
    · exact hne rfl
    · exact absurd hjact (by simp [hoff])

end Sys2Proof.Machine

/-! ## Register fields (R11)

A word stored, read or cleared field by field: each field takes its own value, and what lies outside every field
stays. -/

namespace Sys2Proof.Machine

/-! ### The bits of a word with a field replaced -/

theorem getLsbD_wset (w : Word) {hi lo i : Nat} (v : Nat) (h1 : lo ≤ hi) (h2 : hi < 32) :
    (wset w hi lo v).getLsbD i = if lo ≤ i ∧ i ≤ hi then v.testBit (i - lo) else w.getLsbD i := by
  by_cases hi32 : i < 32
  · have hmask : ((2 ^ (hi + 1 - lo) - 1) * 2 ^ lo).testBit i = decide (lo ≤ i ∧ i ≤ hi) := by
      rw [Nat.testBit_mul_two_pow, Nat.testBit_two_pow_sub_one, ← Bool.decide_and, decide_eq_decide]
      omega
    have hval : (v * 2 ^ lo).testBit i = (decide (lo ≤ i) && v.testBit (i - lo)) := Nat.testBit_mul_two_pow ..
    simp only [wset, BitVec.getLsbD_or, BitVec.getLsbD_and, BitVec.getLsbD_not, BitVec.getLsbD_ofNat, hmask, hval, hi32]
    by_cases hin : lo ≤ i ∧ i ≤ hi
    · simp [hin]
    · simp [hin]
  · have hout : ¬ (lo ≤ i ∧ i ≤ hi) := by omega
    rw [if_neg hout, BitVec.getLsbD_of_ge _ _ (Nat.le_of_not_lt hi32), BitVec.getLsbD_of_ge _ _ (Nat.le_of_not_lt hi32)]

theorem testBit_wbits (w : Word) (hi lo j : Nat) :
    (wbits w hi lo).testBit j = (decide (j < hi + 1 - lo) && w.getLsbD (lo + j)) := by
  rw [wbits, bits, Nat.testBit_mod_two_pow, Nat.testBit_shiftRight, BitVec.getLsbD]

theorem wbits_lt (w : Word) (hi lo : Nat) : wbits w hi lo < 2 ^ (hi + 1 - lo) := Nat.mod_lt _ (Nat.two_pow_pos _)

/-- A field apart from one that is replaced keeps its value. -/
theorem wbits_wset_apart (w : Word) {hi lo hi' lo' : Nat} (v : Nat) (h1 : lo ≤ hi) (h2 : hi < 32)
    (hapart : hi' < lo ∨ hi < lo') : wbits (wset w hi lo v) hi' lo' = wbits w hi' lo' := by
  apply Nat.eq_of_testBit_eq
  intro j
  rw [testBit_wbits, testBit_wbits, getLsbD_wset w v h1 h2]
  by_cases hj : j < hi' + 1 - lo'
  · rw [if_neg (by omega)]
  · simp [hj]

/-! ### Lists of fields that do not meet -/

/-- The fields lie within a word, and none meets another. -/
def fieldsOk : List FDesc → Bool
  | [] => true
  | f :: fs => decide (f.lo ≤ f.hi) && decide (f.hi < 32)
      && fs.all (fun g => decide (f.hi < g.lo) || decide (g.hi < f.lo)) && fieldsOk fs

theorem fieldsOk_cons {f : FDesc} {fs : List FDesc} : fieldsOk (f :: fs) = true ↔
    (f.lo ≤ f.hi ∧ f.hi < 32) ∧ (∀ g ∈ fs, f.hi < g.lo ∨ g.hi < f.lo) ∧ fieldsOk fs = true := by
  simp [fieldsOk, and_assoc]

/-- Every register's fields lie within its word and do not meet: the table of the manual, evaluated. -/
theorem fieldsOk_regTable : ∀ d ∈ regTable, fieldsOk d.fields = true := by decide +kernel

/-- A word in which each field of a list that `take` holds of is replaced. -/
def setFields (take : FDesc → Bool) (val : FDesc → Nat) (fs : List FDesc) (w : Word) : Word :=
  fs.foldl (fun w f => if take f then wset w f.hi f.lo (val f) else w) w

section
variable {take : FDesc → Bool} {val : FDesc → Nat}

theorem setFields_cons (f : FDesc) (fs : List FDesc) (w : Word) :
    setFields take val (f :: fs) w = setFields take val fs (if take f then wset w f.hi f.lo (val f) else w) := rfl

/-- What lies outside the fields stays. -/
theorem getLsbD_setFields {i : Nat} : ∀ {fs : List FDesc} {w : Word}, fieldsOk fs = true →
    (∀ f ∈ fs, i < f.lo ∨ f.hi < i) → (setFields take val fs w).getLsbD i = w.getLsbD i
  | [], _, _, _ => rfl
  | f :: fs, w, hok, hout => by
    obtain ⟨⟨h1, h2⟩, -, hfs⟩ := fieldsOk_cons.1 hok
    obtain ⟨hf, hrest⟩ := List.forall_mem_cons.1 hout
    rw [setFields_cons, getLsbD_setFields hfs hrest]
    split
    · rw [getLsbD_wset w _ h1 h2, if_neg (by omega)]
    · rfl

/-- A field that none of the list meets keeps its value. -/
theorem wbits_setFields_apart {hi lo : Nat} : ∀ {fs : List FDesc} {w : Word}, fieldsOk fs = true →
    (∀ f ∈ fs, hi < f.lo ∨ f.hi < lo) → wbits (setFields take val fs w) hi lo = wbits w hi lo
  | [], _, _, _ => rfl
  | f :: fs, w, hok, hout => by
    obtain ⟨⟨h1, h2⟩, -, hfs⟩ := fieldsOk_cons.1 hok
    obtain ⟨hf, hrest⟩ := List.forall_mem_cons.1 hout
    rw [setFields_cons, wbits_setFields_apart hfs hrest]
    split
    · exact wbits_wset_apart w _ h1 h2 hf
    · rfl

/-- A field of the list takes its own value. -/
theorem wbits_setFields : ∀ {fs : List FDesc} {w : Word} {f : FDesc}, fieldsOk fs = true → f ∈ fs →
    wbits (setFields take val fs w) f.hi f.lo
      = if take f then val f % 2 ^ (f.hi + 1 - f.lo) else wbits w f.hi f.lo
  | g :: fs, w, f, hok, hf => by
    obtain ⟨⟨h1, h2⟩, hapart, hfs⟩ := fieldsOk_cons.1 hok
    rw [setFields_cons]
    rcases List.mem_cons.1 hf with rfl | hf
    · rw [wbits_setFields_apart hfs hapart]
      split
      · exact wbits_wset w _ _ _ h1 h2
      · rfl
    · rw [wbits_setFields hfs hf]
      split
      · rfl
      · split
        · exact wbits_wset_apart w _ h1 h2 (hapart f hf).symm
        · rfl

end

/-! ### Stores, reads and clearing -/

theorem storeWord_eq (fs : List FDesc) (locked : Bool) (old v : Word) : storeWord fs locked old v =
    setFields (fun _ => true) (fun f => f.ty.next locked (wbits old f.hi f.lo) (wbits v f.hi f.lo)) fs old := rfl

theorem readWord_eq (fs : List FDesc) (w : Word) :
    readWord fs w = setFields (fun f => decide (f.ty ≠ .wo)) (fun f => wbits w f.hi f.lo) fs 0 := by
  unfold readWord setFields
  congr 1
  funext x f
  by_cases h : f.ty = .wo <;> simp [h]

theorem clearRc_eq (fs : List FDesc) (w : Word) :
    clearRc fs w = setFields (fun f => decide (f.ty = .rc)) (fun _ => 0) fs w := by
  unfold clearRc setFields
  congr 1
  funext x f
  by_cases h : f.ty = .rc <;> simp [h]

/-- What is common to two numbers, and what the first has alone. -/
theorem land_add_ldiff (m n : Nat) : (m &&& n) + m.ldiff n = m := by
  induction m using Nat.binaryRec generalizing n with
  | zero => simp [Nat.ldiff]
  | bit b m ih =>
    cases n using Nat.bitCasesOn with
    | bit c n =>
      have := ih n
      rw [Nat.land_bit, Nat.ldiff_bit]
      cases b <;> cases c <;> simp [Nat.bit_val] <;> omega

theorem sub_land (m n : Nat) : m - (m &&& n) = m.ldiff n :=
  Nat.sub_eq_of_eq_add (by rw [Nat.add_comm, land_add_ldiff])

/-- A field's next value fits in the field. -/
theorem FType.next_lt (t : FType) (locked : Bool) {old new n : Nat} (ho : old < 2 ^ n) (hn : new < 2 ^ n) :
    t.next locked old new < 2 ^ n := by
  cases t with
  | rw => exact hn
  | rw1c => exact Nat.lt_of_le_of_lt (Nat.sub_le old _) ho
  | rw1s => exact Nat.or_lt_two_pow ho hn
  | rwl => cases locked; exacts [hn, ho]
  | ro | wo | rc => exact ho

/-- Settles O57: the fields of every register lie apart in its word, so that each takes its own value. -/
theorem registerFields : Obligations.register_fields := by
  refine ⟨fun d hd locked old v f hf => ?field, fun d hd locked old v i hout => ?outside,
    fun locked old new i => ⟨rfl, ?_, Nat.testBit_or .., rfl, rfl, rfl, rfl, rfl⟩⟩
  case field =>
    have hok := fieldsOk_regTable d hd
    rw [storeWord_eq, readWord_eq, clearRc_eq, wbits_setFields hok hf, wbits_setFields hok hf, wbits_setFields hok hf]
    refine ⟨?_, ?_, ?_⟩
    · exact Nat.mod_eq_of_lt (f.ty.next_lt locked (wbits_lt ..) (wbits_lt ..))
    · by_cases h : f.ty = .wo
      · simp [h, wbits, bits]
      · simp [h, Nat.mod_eq_of_lt (wbits_lt old f.hi f.lo)]
    · by_cases h : f.ty = .rc <;> simp [h]
  case outside =>
    have hok := fieldsOk_regTable d hd
    rw [storeWord_eq, readWord_eq, clearRc_eq, getLsbD_setFields hok hout, getLsbD_setFields hok hout,
      getLsbD_setFields hok hout]
    exact ⟨rfl, rfl, BitVec.getLsbD_zero⟩
  · rw [FType.next, sub_land, Nat.testBit_ldiff]

end Sys2Proof.Machine

/-! ## What shared operations leave alone

A reading of the chip is `Apart` where it sees neither registers, bytes of memory, queues nor what leaves the device.
Events, interrupts, accounts and ends of descriptors leave every such reading as it was. -/

namespace Sys2Proof.Machine

/-- A reading of the chip that sees no register, no byte, no queue, no interrupt and no message. -/
structure Chip.Apart {β : Type} (f : Chip → β) : Prop where
  regs : ∀ (c : Chip) (r : KMap Word), f { c with regs := r } = f c
  queues : ∀ (c : Chip) (q : KMap Queue), f { c with queues := q } = f c
  out : ∀ (c : Chip) (o : List Out) (m : KMap MsixEntry), f { c with outbox := o, msix := m } = f c
  bytes : ∀ (c : Chip) (m s : KMap Byte) (po : List Nat) (w : Nat) (ow : List OldWord) (qs : KMap Queue),
    f { c with mem := m, scratch := s, poison := po, wseq := w, oldWords := ow, queues := qs } = f c

theorem apart_parts : Chip.Apart Chip.parts := ⟨fun _ _ => rfl, fun _ _ => rfl, fun _ _ _ => rfl, fun _ _ _ _ _ _ _ => rfl⟩
theorem apart_gtc : Chip.Apart Chip.gtc := ⟨fun _ _ => rfl, fun _ _ => rfl, fun _ _ _ => rfl, fun _ _ _ _ _ _ _ => rfl⟩
theorem apart_reqs : Chip.Apart Chip.reqs := ⟨fun _ _ => rfl, fun _ _ => rfl, fun _ _ _ => rfl, fun _ _ _ _ _ _ _ => rfl⟩

/-- A reading that each step of a fold leaves alone, the fold leaves alone. -/
theorem foldl_reads {β γ : Type} {f : Chip → β} {g : Chip → γ → Chip} (hg : ∀ c x, f (g c x) = f c) (l : List γ)
    (c : Chip) : f (l.foldl g c) = f c :=
  foldl_keeps (P := fun d => f d = f c) (fun d x hd => (hg d x).trans hd) l c rfl

namespace Chip.Apart

variable {β : Type} {f : Chip → β} (h : Chip.Apart f)
include h

theorem setRg (c : Chip) (a : Nat) (v : Word) : f (c.setRg a v) = f c := h.regs c _

theorem setFld (c : Chip) (g : Fld) (o v : Nat) : f (c.setFld g o v) = f c := h.regs c _

theorem count (c : Chip) (g : Fld) (o n : Nat) : f (c.count g o n) = f c := h.regs c _

theorem setQueue (c : Chip) (q : Nat) (x : Queue) : f (c.setQueue q x) = f c := h.queues c _

theorem setEntry (c : Chip) (q slot : Nat) (e : Entry) : f (c.setEntry q slot e) = f c := h.queues c _

theorem emit (c : Chip) (o : Out) : f (c.emit o) = f c := h.out c _ _

theorem raiseMsix (c : Chip) (fn v : Nat) : f (c.raiseMsix fn v) = f c := by
  unfold Chip.raiseMsix
  dsimp only
  split
  · exact h.out c _ _
  · exact h.emit c _

theorem raiseVector (c : Chip) (p v : Nat) : f (c.raiseVector p v) = f c := h.raiseMsix c p _

theorem raiseOwner (c : Chip) (v : Nat) : f (c.raiseOwner v) = f c := h.raiseMsix c 0 v

theorem writePP {c d : Chip} {p a : Nat} {bs : List Byte} (hw : c.writePP p a bs = .ok d) : f d = f c := by
  obtain ⟨ls, -, -, rfl⟩ := Chip.writePP_ok hw
  exact c.writeLocs_frame ls bs f h.bytes

theorem finish (c : Chip) (q slot : Nat) (st : Half) (d : Nat) (halts : Bool) : f (c.finish q slot st d halts) = f c := by
  unfold Chip.finish
  split
  · rfl
  · exact h.setEntry c q slot _

theorem postEvent (c : Chip) (p code queue detail : Nat) : f (c.postEvent p code queue detail) = f c := by
  unfold Chip.postEvent
  split
  · rfl
  · dsimp only
    split
    · exact h.count c _ _ _
    · split
      · exact h.count c _ _ _
      · next c1 hw => rw [h.raiseVector, h.setFld, h.writePP hw]

theorem postBoth (c : Chip) (p code queue detail : Nat) : f (c.postBoth p code queue detail) = f c := by
  unfold Chip.postBoth
  dsimp only
  split
  · exact h.postEvent c p code queue detail
  · rw [h.postEvent, h.postEvent]

theorem showPart (c : Chip) (p : Nat) : f (c.showPart p) = f c := by
  unfold Chip.showPart
  dsimp only
  rw [h.setRg, h.setRg, h.setRg]

theorem account (c : Chip) (p tag off : Nat) (delta : Int) : f (c.account p tag off delta) = f c := by
  unfold Chip.account
  split
  · rfl
  · dsimp only
    split
    · exact h.count c _ _ _
    · split
      · exact h.count c _ _ _
      · next c1 hw => exact h.writePP hw

theorem onchip (c : Chip) (p tag : Nat) (delta : Int) : f (c.onchip p tag delta) = f c := by
  unfold Chip.onchip
  split
  · rfl
  · exact h.account c p tag _ delta

end Chip.Apart

/-! ## Partition resets (R33, R446 to R448) -/

/-! ### States of a partition -/

@[simp] theorem Chip.parts_setPartState (c : Chip) (p : Nat) (st : PState) :
    (c.setPartState p st).parts = (c.setPart p { c.part p with state := st }).parts := by
  unfold Chip.setPartState
  dsimp only
  split
  · rw [apart_parts.postEvent, apart_parts.showPart]
  · rw [apart_parts.postBoth, apart_parts.showPart]

theorem Chip.part_congr {c d : Chip} (h : d.parts = c.parts) (p : Nat) : d.part p = c.part p := by
  rw [Chip.part, h, Chip.part]

theorem Chip.part_setPartState_self (c : Chip) (p : Nat) (st : PState) :
    (c.setPartState p st).part p = { c.part p with state := st } :=
  (Chip.part_congr (c.parts_setPartState p st) p).trans (c.part_setPart_self p _)

theorem Chip.part_setPartState_ne (c : Chip) {p o : Nat} (h : o ≠ p) (st : PState) :
    (c.setPartState p st).part o = c.part o :=
  (Chip.part_congr (c.parts_setPartState p st) o).trans (c.part_setPart_ne h _)

@[simp] theorem Chip.parts_clearEvents (c : Chip) (p : Nat) : (c.clearEvents p).parts = c.parts :=
  foldl_reads (fun d i => by split; exacts [apart_parts.setFld .., rfl]) _ c

@[simp] theorem Chip.parts_displayReset (c : Chip) (p : Nat) : (c.displayReset p).parts = c.parts := by
  unfold Chip.displayReset
  dsimp only
  refine foldl_reads (fun d n => ?_) _ c
  exact foldl_reads (fun d x => apart_parts.finish ..) _ _

@[simp] theorem Chip.parts_partnerLost (c : Chip) (dev part : Nat) : (c.partnerLost dev part).parts = c.parts := by
  refine foldl_reads (fun d kq => ?_) c.queues c
  dsimp only
  split
  · refine foldl_reads (fun d ke => ?_) _ d
    split
    · rw [apart_parts.finish]
    · rfl
  · rfl

@[simp] theorem Chip.parts_rankLost (c : Chip) (dev part : Nat) : (c.rankLost dev part).parts = c.parts := by
  refine foldl_reads (fun d x => ?_) c.colls c
  split
  · rw [Chip.endColl, apart_parts.finish]
  · rfl

/-- R33, R446: a reset of an OPEN or READY partition begins: its state and the time. -/
theorem Chip.part_startReset {c : Chip} {p : Nat} (h : (c.part p).state = .opened ∨ (c.part p).state = .ready)
    (destroy : Bool) : (c.startReset p destroy).part p =
      { c.part p with resetFrom := c.gtc, destroyAfter := destroy, resetStage := 0, report := [], span := false,
                      spanBits := 0, spanPosted := false, state := if destroy then .destroying else .resetting } := by
  have hstate : ¬ ((c.part p).state ≠ .opened ∧ (c.part p).state ≠ .ready) := fun ⟨ho, hr⟩ => h.elim ho hr
  unfold Chip.startReset
  dsimp only
  rw [if_neg hstate, Chip.part_congr (Chip.parts_rankLost ..), Chip.part_congr (Chip.parts_partnerLost ..),
    Chip.part_setPartState_self, Chip.part_congr (Chip.parts_displayReset ..), Chip.part_congr (Chip.parts_clearEvents ..),
    Chip.part_setPart_self]

/-! ### Requests in flight -/

/-- No descriptor of the second chip is moving data that was not moving it in the first. -/
def Chip.NoNewMoves (c d : Chip) : Prop :=
  ∀ q slot e, c.stillMoving q slot e = false → d.stillMoving q slot e = false

theorem Chip.NoNewMoves.refl (c : Chip) : c.NoNewMoves c := fun _ _ _ h => h

theorem Chip.NoNewMoves.trans {c d e : Chip} (h : c.NoNewMoves d) (h' : d.NoNewMoves e) : c.NoNewMoves e :=
  fun q slot x hx => h' q slot x (h q slot x hx)

theorem Chip.noNewMoves_of_reqs {c d : Chip} (h : d.reqs = c.reqs) : c.NoNewMoves d := by
  intro q slot e hc
  rwa [Chip.stillMoving, h, ← Chip.stillMoving]

/-- Requests that lose their requester move nothing for a descriptor. -/
theorem Chip.noNewMoves_of_orphans {c d : Chip} {g : Req → Req} (h : d.reqs = c.reqs.map g)
    (hg : ∀ r, g r = r ∨ (g r).who = .none) : c.NoNewMoves d := by
  intro q slot e hc
  simp only [Chip.stillMoving, Bool.and_eq_false_iff, List.any_eq_false, Bool.and_eq_true, not_and, beq_iff_eq, h,
    List.mem_map, forall_exists_index, and_imp, forall_apply_eq_imp_iff₂] at hc ⊢
  refine hc.imp_right fun hreqs r hr hwho => ?_
  rcases hg r with hsame | hnone
  · rw [hsame] at hwho ⊢
    exact hreqs r hr hwho
  · rw [hnone] at hwho
    cases hwho

theorem Chip.noNewMoves_dropResidents (c : Chip) (cl : Nat) : c.NoNewMoves (c.dropResidents cl) := by
  unfold Chip.dropResidents
  have honchip : ((c.cluster cl).wgs.foldl (fun c kw => c.onchip (partOf kw.2.q) kw.2.tag (-(kw.2.onchip : Int))) c).reqs
      = c.reqs := foldl_reads (f := Chip.reqs) (fun d kw => apart_reqs.onchip d _ _ _) _ c
  refine (Chip.noNewMoves_of_reqs honchip).trans ?_
  refine Chip.noNewMoves_of_orphans (Eq.refl (List.map _ _)) fun r => ?_
  dsimp only
  split
  · split
    · exact .inr rfl
    · exact .inl rfl
  · exact .inl rfl

theorem Chip.noNewMoves_stopWaves (c : Chip) (p : Nat) : c.NoNewMoves (c.stopWaves p) := by
  refine foldl_keeps (P := c.NoNewMoves) (fun d kc hd => hd.trans ?_) c.clusters c (.refl c)
  dsimp only
  split
  · have hdrop := d.noNewMoves_dropResidents kc.1
    split
    · exact hdrop.trans (Chip.noNewMoves_of_reqs rfl)
    · exact hdrop
  · exact .refl d

theorem Chip.noNewMoves_dropWork (c : Chip) (p : Nat) : c.NoNewMoves (c.dropWork p) :=
  Chip.noNewMoves_of_reqs (foldl_reads (f := Chip.reqs) (g := fun c (l : Nat × Nat) => c.freeLane l.1) (fun _ _ => rfl) _ c)

/-! ### What a reset leaves -/

/-- Nothing of the partition's work is left, and its reset has only to end. -/
def Chip.Gone (c : Chip) (p : Nat) : Prop :=
  (c.part p).resetStage = 2 ∧ (c.part p).runList = [] ∧ ∀ kq ∈ c.queues, partOf kq.1 ≠ p

theorem Chip.gone_erasePart (c : Chip) (p : Nat) : (c.erasePart p).Gone p := by
  unfold Chip.erasePart
  dsimp only
  refine ⟨by rw [Chip.part_setPart_self], by rw [Chip.part_setPart_self], fun kq hkq hp => ?_⟩
  rw [Chip.setPart_queues, KMap.drop, List.mem_filter, hp] at hkq
  simp at hkq

/-- R446: once no transfer of the partition moves, it is erased. -/
theorem Chip.gone_quiesce {c : Chip} {p : Nat} (hstage : (c.part p).resetStage = 1)
    (hstill : ∀ kq ∈ c.queues, partOf kq.1 = p → ∀ ke ∈ kq.2.entries, c.stillMoving kq.1 ke.1 ke.2 = false) :
    (c.quiesce p).Gone p := by
  have hmoving : (c.queues.any fun kq =>
      partOf kq.1 == p && kq.2.entries.any fun ke => c.stillMoving kq.1 ke.1 ke.2) = false := by
    simpa [List.any_eq_false] using hstill
  unfold Chip.quiesce
  rw [hmoving, if_neg (by simp [hstage])]
  exact Chip.gone_erasePart _ p

/-- Before stage 1 of a reset, and after it, nothing waits to become quiet. -/
theorem Chip.quiesce_of_stage {c : Chip} {p : Nat} (h : (c.part p).resetStage ≠ 1) : c.quiesce p = c := by
  unfold Chip.quiesce
  exact if_pos (.inl h)

theorem Chip.gone_partitionReset {c : Chip} {p : Nat} (hreset : c.inReset p = true) (hstage : (c.part p).resetStage = 0)
    (hstill : ∀ q slot e, partOf q = p → c.stillMoving q slot e = false) : (c.partitionReset p).Gone p := by
  unfold Chip.partitionReset
  rw [if_neg (by simp [hreset, hstage])]
  refine Chip.gone_quiesce (by rw [Chip.part_setPart_self]) fun kq _ hp ke _ => ?_
  have hmoves := (c.noNewMoves_stopWaves p).trans ((c.stopWaves p).noNewMoves_dropWork p)
  exact (hmoves.trans (Chip.noNewMoves_of_reqs rfl)) _ _ _ (hstill kq.1 ke.1 ke.2 hp)

theorem Chip.gone_transferStop {c : Chip} {p : Nat} (hreset : c.inReset p = true) (hstage : (c.part p).resetStage = 1) :
    (c.transferStop p).Gone p := by
  unfold Chip.transferStop
  rw [if_neg (by simp [hreset, hstage])]
  refine Chip.gone_quiesce ?stage fun kq hkq hp ke hke => ?emptied
  case stage =>
    refine (congrArg Part.resetStage ((c.count Fld.CDE_JOB_CNT_COUNT 0 _).part_setPart_self p _)).trans ?_
    exact hstage
  case emptied =>
    obtain ⟨kq', hkq', rfl⟩ := List.mem_map.1 hkq
    by_cases hmine : partOf kq'.1 = p
    · simp [hmine] at hke
    · rw [if_neg hmine] at hp
      exact absurd hp hmine

/-- R448: a reset that has only to end is reported, and the partition leaves it. -/
theorem Chip.resetDone_eq {c : Chip} {p : Nat} (hreset : c.inReset p = true) (hstage : (c.part p).resetStage = 2) :
    c.resetDone p = (((c.setPart p { c.part p with resets := (c.part p).resets + 1 }).writeReport p).leaveReset p).releaseCtl
      p (c.part p).ctlWaiters := by
  unfold Chip.resetDone
  rw [Chip.quiesce_of_stage (by simp [hstage])]
  exact if_neg (by simp [hreset, hstage])

/-- Settles O44: each stage of a reset by what it removes; a state by what an event and a display of it leave alone. -/
theorem partitionResets : Obligations.partition_resets := by
  refine ⟨fun s p hl hreset => ⟨fun hstage hstill => ?_, fun hstage => ?_, fun hstage => ?_⟩, fun c p st => ?_⟩
  · exact ⟨_, onChip_live hl fun c => c.partitionReset p.toNat, Chip.gone_partitionReset hreset hstage hstill⟩
  · exact ⟨_, onChip_live hl fun c => c.transferStop p.toNat, Chip.gone_transferStop hreset hstage⟩
  · exact Chip.resetDone_eq hreset hstage ▸ onChip_live hl fun c => c.resetDone p.toNat
  · refine ⟨by rw [Chip.part_setPartState_self], fun o ho => c.part_setPartState_ne ho st, fun destroy h => ?_⟩
    rw [Chip.part_startReset h]
    exact ⟨rfl, rfl⟩

end Sys2Proof.Machine

/-! ## The power loop (R405 to R420) -/

namespace Sys2Proof.Machine

/-- After reset, with partition 0 set up as boot step 23 does it and its event ring of 256 entries enabled. -/
def eventRingOn : State := { State.reset with chip := State.reset.chip.setupZero.evringCtl 0 0x801 }

/-- A period in which sensor 0 reads 125 degrees, 10 above its Tj,max, and nothing else is measured. -/
def scorching : PowerSample :=
  { late := false, compute := 0, memBase := 0, ext := [], link := 0, pkg := 0, elastic := 0, detCompute := 0,
    detMemory := 0, detLink := 0, waitMem := 0, waitLink := 0, temps := [500], energy := [], unattributed := 0 }

theorem live_eventRingOn : Live eventRingOn := by
  unfold Live
  decide +kernel

/-- The sample is critical, and its events go to the ring: bytes of memory change. -/
theorem powerPeriod_scorching : eventRingOn.chip.tjMax 0 + 40 ≤ signed 10 (500 : BitVec 10).toNat ∧
    (eventRingOn.chip.powerPeriod scorching).mem ≠ eventRingOn.chip.mem := by decide +kernel

/-- What a command leaves is one chip. -/
theorem Ran.mem_eq {i : Instr} {s : State} {c d : Chip} (hc : Ran i s c) (hd : Ran i s d) : c.mem = d.mem := by
  have htick : c.tick = d.tick := by
    have h := (hc : exec i s = _).symm.trans hd
    simp only [Host.Outcome.next.injEq, State.mk.injEq] at h
    simpa using h
  exact (congrArg Chip.mem htick :)

/-- Refutes O45: a critical sample posts its events to partition 0 (0x0051, and 0x0064 for THERMAL), and with the ring
enabled their records are stored in memory, which the last clause says does not change. -/
theorem not_powerLoop : ¬ Obligations.power_loop := by
  rintro ⟨-, hpower⟩
  obtain ⟨-, -, hcritical⟩ := hpower eventRingOn live_eventRingOn
  obtain ⟨hhot, hchanged⟩ := powerPeriod_scorching
  obtain ⟨c, hran, -, -, hmem⟩ := hcritical scorching 500 rfl hhot
  have hperiod : Ran (.powerPeriod scorching) eventRingOn (eventRingOn.chip.powerPeriod scorching) :=
    onChip_live live_eventRingOn fun c => c.powerPeriod scorching
  exact hchanged ((hperiod.mem_eq hran).trans hmem)

end Sys2Proof.Machine

/-! ## The slope limiter, droops, and power shifts between devices (R413 to R415, R421, R422) -/

namespace Sys2Proof.Machine

/-! ### Commands by what they do to the chip -/

/-- A command that runs on the chip while its clocks run leaves what its function says. -/
theorem ran_chip {i : Instr} {s : State} (f : Chip → Chip) {d : Chip} (hl : Live s) (hi : exec i s = onChip f s)
    (hd : f s.chip = d) : Ran i s d := hd ▸ hi.trans (onChip_live hl f)

/-- A command of the host leaves what its function says, where the host is up. -/
theorem ran_host {i : Instr} {s : State} (f : Chip → Chip) {d : Chip} (hup : HostUp s) (hi : exec i s = onHost f s)
    (hd : f s.chip = d) : Ran i s d := hd ▸ hi.trans (onHost_up hup f)

/-! ### Windows of a cluster -/

/-- The activity that a window records for a cluster. -/
def Chip.withActivity (c : Chip) (cl v : Nat) : Chip :=
  { c with pwr := { c.pwr with activity := KMap.set cl v c.pwr.activity } }

/-- R413: the activity that the limiter allows after `last`, where the cluster's own issue is `want`. -/
def slopeHeld (last want : Nat) : Nat := max (last - 4) (min (last + 4) want)

theorem slopeHeld_bounds (last want : Nat) : slopeHeld last want ≤ last + 4 ∧ last ≤ slopeHeld last want + 4 ∧
    (slopeHeld last want = want ↔ last ≤ want + 4 ∧ want ≤ last + 4) := by
  unfold slopeHeld
  omega

theorem Chip.slopeWindow_elastic {c : Chip} {cl : Nat} (want : Nat) (h : (c.part (c.cluster cl).part).det = false) :
    let d := c.slopeWindow cl want
    KMap.getD d.pwr.activity cl 0 = slopeHeld (KMap.getD c.pwr.activity cl 0) want ∧
    d.pwr.slope = (if slopeHeld (KMap.getD c.pwr.activity cl 0) want = want then c.pwr.slope
      else c.pwr.slope ||| 2 ^ (c.cluster cl).part) := by
  intro d
  have hd : d = if slopeHeld (KMap.getD c.pwr.activity cl 0) want = want then c.withActivity cl want
      else let c1 := c.withActivity cl (slopeHeld (KMap.getD c.pwr.activity cl 0) want)
        { c1 with pwr := { c1.pwr with slope := c1.pwr.slope ||| 2 ^ (c.cluster cl).part } } := by
    simp only [d, Chip.slopeWindow, h]
    rfl
  rw [hd]
  split
  · next heq => exact ⟨(KMap.getD_set_self _ _ _ _).trans heq.symm, rfl⟩
  · exact ⟨KMap.getD_set_self _ _ _ _, rfl⟩

theorem Chip.slopeWindow_det {c : Chip} {cl : Nat} (want : Nat) (h : (c.part (c.cluster cl).part).det = true) :
    c.slopeWindow cl want = if slopeHeld (KMap.getD c.pwr.activity cl 0) want = want then c.withActivity cl want
      else (c.withActivity cl want).count Fld.PWR_SLOPE_VIOL_COUNT := by
  simp only [Chip.slopeWindow, h]
  rfl

theorem Chip.slopeWindow_det_counts {c : Chip} {cl : Nat} (want : Nat) (h : (c.part (c.cluster cl).part).det = true) :
    let d := c.slopeWindow cl want
    let last := KMap.getD c.pwr.activity cl 0
    KMap.getD d.pwr.activity cl 0 = want ∧ d.pwr.slope = c.pwr.slope ∧
    ((last + 4 < want ∨ want + 4 < last) →
      d.fld Fld.PWR_SLOPE_VIOL_COUNT = min (c.fld Fld.PWR_SLOPE_VIOL_COUNT + 1) (2 ^ 32 - 1)) := by
  intro d last
  have hact : KMap.getD (c.withActivity cl want).pwr.activity cl 0 = want := KMap.getD_set_self _ _ _ _
  obtain ⟨-, -, hheld⟩ := slopeHeld_bounds last want
  have hd : d = _ := c.slopeWindow_det want h
  rw [hd]
  split
  · next heq => exact ⟨hact, rfl, fun hout => absurd (hheld.1 heq) (by omega)⟩
  · refine ⟨hact, rfl, fun _ => ?_⟩
    refine ((c.withActivity cl want).fld_setFld_self _ _ _ (by decide) (by decide)).trans (Nat.mod_eq_of_lt ?_)
    exact Nat.lt_of_le_of_lt (min_le_right _ _) (by decide)

/-! ### Droops -/

theorem Chip.pwr_perturb (c : Chip) (p mask : Nat) : (c.perturb p mask).pwr = c.pwr := by
  unfold Chip.perturb Chip.perturbOnly
  dsimp only
  split <;> rfl

theorem Chip.droopDetect_stretches (c : Chip) (g : Nat) :
    (c.droopDetect g).pwr.droopHit = true ∧ g ∈ (c.droopDetect g).pwr.stretched := by
  unfold Chip.droopDetect
  dsimp only
  rw [foldl_reads (f := Chip.pwr) fun d p => d.pwr_perturb p 1]
  refine ⟨rfl, ?_⟩
  show g ∈ if c.pwr.stretched.contains g then c.pwr.stretched else g :: c.pwr.stretched
  split
  · next h => exact List.contains_iff_mem.1 h
  · exact List.mem_cons_self

/-! ### Shifts between devices -/

theorem Chip.pwr_dropMsg (c : Chip) (port vc : Nat) (f : Msg → Bool) : (c.dropMsg port vc f).pwr = c.pwr := by
  unfold Chip.dropMsg Chip.takeMsg
  dsimp only
  cases takeFirst f (KMap.getD (c.lport port).rxq vc []) <;> rfl

/-- What execShiftReportReceive does: the message is taken out and its report kept. -/
def Chip.shiftReceive (c : Chip) (port dev slot : Nat) : Chip :=
  let c1 := c.dropMsg port Vc.col (·.op == MOp.coll)
  { c1 with pwr := { c1.pwr with reports := KMap.set dev slot c1.pwr.reports } }

theorem Chip.shiftReceive_keeps (c : Chip) (port dev slot : Nat) :
    KMap.find dev (c.shiftReceive port dev slot).pwr.reports = some slot ∧
    ∀ d, d ≠ dev → KMap.find d (c.shiftReceive port dev slot).pwr.reports = KMap.find d c.pwr.reports := by
  have hreports : (c.shiftReceive port dev slot).pwr.reports = KMap.set dev slot c.pwr.reports := by
    unfold Chip.shiftReceive
    dsimp only
    rw [Chip.pwr_dropMsg]
  rw [hreports]
  exact ⟨KMap.find_set_self _ _ _, fun d hd => KMap.find_set_ne hd _ _⟩

/-- The member that gives way to all others has the lowest wait, and is the first of those that have it. -/
theorem criticalOf_least (wait : Nat → Nat) : ∀ ds : List Nat, ds ≠ [] → ds.Pairwise (· < ·) →
    criticalOf wait ds ∈ ds ∧ ∀ d ∈ ds, wait (criticalOf wait ds) ≤ wait d ∧
      (wait d = wait (criticalOf wait ds) → criticalOf wait ds ≤ d)
  | [], h, _ => absurd rfl h
  | [d], _, _ => ⟨List.mem_singleton_self d, fun e he => List.mem_singleton.1 he ▸ ⟨le_rfl, fun _ => le_rfl⟩⟩
  | d :: e :: t, _, hlt => by
    obtain ⟨hfirst, hrest⟩ := List.pairwise_cons.1 hlt
    obtain ⟨hmem, hleast⟩ := criticalOf_least wait (e :: t) (List.cons_ne_nil _ _) hrest
    have hstep : criticalOf wait (d :: e :: t)
        = if wait d ≤ wait (criticalOf wait (e :: t)) then d else criticalOf wait (e :: t) := rfl
    rw [hstep]
    split
    · next hle =>
      refine ⟨List.mem_cons_self, fun x hx => ?_⟩
      rcases List.mem_cons.1 hx with rfl | hx
      · exact ⟨le_rfl, fun _ => le_rfl⟩
      · exact ⟨hle.trans (hleast x hx).1, fun _ => (hfirst x hx).le⟩
    · next hgt =>
      refine ⟨List.mem_cons_of_mem _ hmem, fun x hx => ?_⟩
      rcases List.mem_cons.1 hx with rfl | hx
      · exact ⟨(not_le.1 hgt).le, fun heq => absurd heq.le hgt⟩
      · exact hleast x hx

/-- R422: a bad report makes the member revert. -/
theorem Chip.shiftEvaluate_bad {c : Chip} (hen : c.flag Fld.PWR_SHIFT_CTL_EN = true) {d : Nat}
    (hd : c.shiftMembers.contains d = true) :
    let w := bits (KMap.getD c.pwr.reports (c.fld Fld.AXL_DEVICE_DEVNUM) 0) 63 48
    c.badReport w d = true →
      c.shiftEvaluate = (({ c.setShift 0 with pwr := { c.pwr with revertNext := true } } : Chip).setFld
        Fld.PWR_SHIFT_STATUS_REVERTED 0 1).postPower 0x0053 w := by
  intro w hbad
  unfold Chip.shiftEvaluate
  rw [if_neg (by simp [hen])]
  exact if_pos (List.any_eq_true.2 ⟨d, List.contains_iff_mem.1 hd, hbad⟩)

/-- R422: of two members whose reports agree, the one that waits least by 64 takes a step from the other. -/
theorem Chip.shiftEvaluate_pair {c : Chip} (hen : c.flag Fld.PWR_SHIFT_CTL_EN = true) {d : Nat} :
    let own := c.fld Fld.AXL_DEVICE_DEVNUM
    let rep (d : Nat) : Nat := KMap.getD c.pwr.reports d 0
    let w := bits (rep own) 63 48
    let n := c.fld Fld.PWR_SHIFT_CTL_STEP_W
    c.shiftMembers = [own, d] → own < d → c.badReport w own = false → c.badReport w d = false →
      bits (rep own) 9 0 + 64 ≤ bits (rep d) 9 0 → n ≤ bits (rep d) 29 20 → 0 < n → n ≤ bits (rep own) 19 10 →
      c.shiftEvaluate = c.setShift (c.shiftW + n) := by
  intro own rep w n hms hlt hown hd hwait hable hn hroom
  have hnobad : [own, d].any (c.badReport w) = false := by simp [hown, hd]
  have hcrit : criticalOf (fun d => bits (rep d) 9 0) [own, d] = own := if_pos (by show bits (rep own) 9 0 ≤ bits (rep d) 9 0; omega)
  have hgivers : ([own, d].filter fun e => e != own && decide (bits (rep e) 9 0 ≥ bits (rep own) 9 0 + 64)
      && decide (bits (rep e) 29 20 ≥ n)) = [d] := by
    have hne : d ≠ own := hlt.ne'
    rw [List.filter_cons_of_neg (by simp), List.filter_cons_of_pos (by simp [hne, hwait, hable]), List.filter_nil]
  obtain ⟨m, hm⟩ : ∃ m, bits (rep own) 19 10 / n = m + 1 :=
    ⟨_, (Nat.succ_pred_eq_of_pos (Nat.div_pos hroom hn)).symm⟩
  unfold Chip.shiftEvaluate
  rw [if_neg (by simp [hen]), hms]
  refine (if_neg (ne_true_of_eq_false hnobad)).trans ?_
  dsimp only
  rw [hcrit, if_pos rfl, hgivers, hm]
  simp [n]

/-- Settles O46: the limiter's bounds, a droop's frame, and each step of a shift by the member's reports. -/
theorem slopeDroopAndShifts : Obligations.slope_droop_and_shifts := by
  refine ⟨fun s cl want g hl => ⟨fun helastic => ?_, fun hdet => ?_, ?_, ?_⟩, fun s hl => ⟨fun t hen => ?_,
    fun port dev slot => ?_, fun hen => ⟨fun d hd hbad => ?_, fun d hms hlt hown hd hwait hable hn hroom => ?_⟩,
    fun hup hen => ?_⟩, criticalOf_least⟩
  · obtain ⟨hact, hslope⟩ := s.chip.slopeWindow_elastic want.toNat helastic
    obtain ⟨hup, hdown, hheld⟩ := slopeHeld_bounds (KMap.getD s.chip.pwr.activity cl.toNat 0) want.toNat
    refine ⟨_, onChip_live hl fun c => c.slopeWindow cl.toNat want.toNat, ?_⟩
    dsimp only
    rw [hact, hslope]
    exact ⟨hup, hdown, fun h1 h2 => hheld.2 ⟨h1, h2⟩, rfl⟩
  · exact ⟨_, onChip_live hl fun c => c.slopeWindow cl.toNat want.toNat, s.chip.slopeWindow_det_counts want.toNat hdet⟩
  · exact ⟨_, onChip_live hl fun c => c.droopDetect g.toNat, s.chip.droopDetect_stretches g.toNat⟩
  · refine ⟨_, onChip_live hl fun c => { c with pwr := { c.pwr with stretched := c.pwr.stretched.filter (· != g.toNat) } }, ?_, ?_⟩
    · simp
    · exact fun o ho => by simp [ho]
  · exact ran_chip (fun c => c.shiftSend t.toNat) hl rfl (if_neg (by simp [hen]))
  · refine ⟨_, onChip_live hl fun c => c.shiftReceive port.toNat dev.toNat slot.toNat, ?_⟩
    exact s.chip.shiftReceive_keeps _ _ _
  · exact ran_chip (fun c => c.shiftEvaluate) hl rfl (Chip.shiftEvaluate_bad hen hd hbad)
  · exact ran_chip (fun c => c.shiftEvaluate) hl rfl (Chip.shiftEvaluate_pair hen hms hlt hown hd hwait hable hn hroom)
  · exact ran_host (fun c => c.shiftEnClear) hup rfl (if_neg (by simp [hen]))

end Sys2Proof.Machine

/-! ## Decaf and the interference index (R116, R424 to R427, R440) -/

namespace Sys2Proof.Machine

/-! ### Fields of one word -/

/-- A field keeps its value where another field of its word, apart from it, is stored. -/
theorem Chip.fld_setFld_apart (c : Chip) (f g : Fld) {o p : Nat} (v : Nat) (hword : f.base + o = g.base + p)
    (h1 : g.lo ≤ g.hi) (h2 : g.hi < 32) (hapart : f.hi < g.lo ∨ g.hi < f.lo) : (c.setFld g p v).fld f o = c.fld f o := by
  rw [Chip.fld, Chip.setFld, hword, Chip.rg_setRg_self, wbits_wset_apart _ _ h1 h2 hapart, Chip.fld, hword]

/-! ### A group's state in PWR_GROUP_STATE -/

theorem Chip.groupState_eq (c : Chip) {g : Nat} (hg : g < 12) :
    c.groupState g = wbits (c.rg Reg.PWR_GROUP_STATE) (2 * g + 1) (2 * g) := by
  apply Nat.eq_of_testBit_eq
  intro j
  have hword : c.fld Fld.PWR_GROUP_STATE_STATE = wbits (c.rg Reg.PWR_GROUP_STATE) 23 0 := rfl
  rw [testBit_wbits, Chip.groupState, hword, bits, Nat.testBit_mod_two_pow, Nat.testBit_shiftRight, testBit_wbits, Nat.zero_add]
  by_cases hj : j < 2 * g + 1 + 1 - 2 * g
  · simp [hj, show 2 * g + j < 24 by omega]
  · simp [hj]

theorem Chip.groupState_setGroupState (c : Chip) {g o v : Nat} (hg : g < 12) (ho : o < 12) (hv : v < 4) :
    (c.setGroupState g v).groupState o = if o = g then v else c.groupState o := by
  rw [Chip.groupState_eq _ ho, Chip.setGroupState, Chip.rg_setRg_self]
  split
  · next h =>
    rw [h, wbits_wset _ _ _ _ (by omega) (by omega)]
    exact Nat.mod_eq_of_lt (by rwa [show 2 * g + 1 + 1 - 2 * g = 2 by omega])
  · next h =>
    rw [wbits_wset_apart _ _ (by omega) (by omega) (by omega), c.groupState_eq ho]

theorem Chip.groupState_congr {c d : Chip} (h : d.rg Reg.PWR_GROUP_STATE = c.rg Reg.PWR_GROUP_STATE) (g : Nat) :
    d.groupState g = c.groupState g := by
  have hword : d.fld Fld.PWR_GROUP_STATE_STATE = c.fld Fld.PWR_GROUP_STATE_STATE := congrArg (fun w => wbits w 23 0) h
  rw [Chip.groupState, hword, Chip.groupState]

/-- Groups put into one state one after another are all in it. -/
theorem Chip.groupState_setAll {v g : Nat} (hg : g < 12) (hv : v < 4) : ∀ (l : List Nat) (c : Chip), (∀ o ∈ l, o < 12) →
    (g ∈ l ∨ c.groupState g = v) → (l.foldl (fun c o => c.setGroupState o v) c).groupState g = v
  | [], _, _, h => h.resolve_left List.not_mem_nil
  | o :: t, c, hl, h => by
    refine groupState_setAll hg hv t _ (fun x hx => hl x (List.mem_cons_of_mem _ hx)) ?_
    rw [c.groupState_setGroupState (hl o List.mem_cons_self) hg hv]
    split
    · exact .inr rfl
    · next hne => exact h.imp_left fun hm => (List.mem_cons.1 hm).resolve_left hne

/-! ### A group's decaf -/

theorem Chip.mem_setGroupCState (c : Chip) (g : Nat) (a b : CState) : (c.setGroupCState g a b).mem = c.mem ∧
    (c.setGroupCState g a b).pwr = c.pwr := by
  unfold Chip.setGroupCState
  exact ⟨foldl_reads (f := Chip.mem) (fun d cl => by dsimp only; split <;> rfl) _ c,
    foldl_reads (f := Chip.pwr) (fun d cl => by dsimp only; split <;> rfl) _ c⟩

theorem Chip.groupDecaf_enters {c : Chip} {g : Nat} (h : c.mayDecaf g = true) :
    (c.groupDecaf g).pwr.entering = g :: c.pwr.entering ∧ (c.groupDecaf g).mem = c.mem := by
  unfold Chip.groupDecaf
  rw [if_neg (by simp [h])]
  exact ⟨rfl, (c.mem_setGroupCState g _ _).1⟩

/-- A group in decaf, with no wake latched for it: what entering it leaves before a latched wake is replayed. -/
def Chip.inDecaf (c : Chip) (g : Nat) : Chip :=
  let c1 := (c.groupClusters g).foldl (fun c cl => c.setCluster cl (c.cluster cl).retain) c
  { c1 with pwr := { c1.pwr with entering := c1.pwr.entering.filter (· != g),
                                 latched := c1.pwr.latched.filter (· != g) } }.setGroupState g 2

theorem Chip.inDecaf_state (c : Chip) {g : Nat} (hg : g < 12) : (c.inDecaf g).groupState g = 2 ∧
    (c.inDecaf g).pwr.entering.contains g = false ∧ (c.inDecaf g).pwr.latched.contains g = false := by
  have hfilter : ∀ l : List Nat, (l.filter (· != g)).contains g = false := fun l => by simp
  exact ⟨(Chip.groupState_setGroupState _ hg hg (by decide)).trans (if_pos rfl), hfilter _, hfilter _⟩

theorem Chip.groupEntered_eq {c : Chip} {g : Nat} (h : c.pwr.entering.contains g = true) :
    c.groupEntered g = if c.pwr.latched.contains g then (c.inDecaf g).groupWake g else c.inDecaf g := by
  unfold Chip.groupEntered
  rw [if_neg (by simp only [h]; decide)]
  rfl

theorem Chip.groupWake_decaf {c : Chip} {g : Nat} (hin : c.pwr.entering.contains g = false) (hstate : c.groupState g = 2) :
    c.groupWake g = (c.setGroupState g 3).count Fld.PWR_WAKE_CNT_COUNT := by
  unfold Chip.groupWake
  rw [if_neg (ne_true_of_eq_false hin), if_pos hstate]

theorem Chip.groupEntered_latched {c : Chip} {g : Nat} (hg : g < 12) (h : c.pwr.entering.contains g = true)
    (hwake : c.pwr.latched.contains g = true) :
    (c.groupEntered g).groupState g = 3 ∧ (c.groupEntered g).pwr.latched.contains g = false := by
  obtain ⟨hstate, hin, hlatched⟩ := c.inDecaf_state hg
  rw [Chip.groupEntered_eq h, if_pos hwake, Chip.groupWake_decaf hin hstate]
  refine ⟨?_, hlatched⟩
  refine (Chip.groupState_congr (Chip.rg_setFld_ne _ _ _ _ (by decide)) g).trans ?_
  exact (Chip.groupState_setGroupState _ hg hg (by decide)).trans (if_pos rfl)

theorem Chip.groupAwake_active {c : Chip} {g : Nat} (hg : g < 12) (h : c.groupState g = 3) (stall : Word) :
    (c.groupAwake g stall.toNat).groupState g = 0 ∧
    ((c.groupAwake g stall.toNat).rg Reg.PWR_WAKE_MAX).toNat = max stall.toNat (c.rg Reg.PWR_WAKE_MAX).toNat := by
  unfold Chip.groupAwake
  rw [if_neg (by simp [h])]
  constructor
  · refine (Chip.groupState_congr (Chip.rg_setRg_ne _ (by decide) _) g).trans ?_
    exact (Chip.groupState_setGroupState _ hg hg (by decide)).trans (if_pos rfl)
  · rw [Chip.rg_setRg_self, BitVec.toNat_ofNat]
    exact Nat.mod_eq_of_lt (max_lt stall.isLt (BitVec.isLt _))

theorem Cluster.restore_retain (k : Cluster) :
    k.retain.restore = { k with epoch := k.epoch + 1, st := .inService, retained := none } := by
  simp [Cluster.retain, Cluster.restore]

/-! ### The device's decaf -/

theorem Chip.devStateWrite_refused {c : Chip} (h : c.detParts ≠ [] ∨ c.flag Fld.MGT_STATUS_BUSY = true ∨
    c.flag Fld.LCE_PIPE_CTL_ENABLE 0 = true ∨ c.fld Fld.PWR_DEVSTATE_STATE = 3) :
    c.devStateWrite true = c.regError Reg.PWR_DEVSTATE := by
  refine (if_neg (by simp)).trans (if_pos ?_)
  rcases h with h | h | h | h
  · exact .inl (by simpa using h)
  · exact .inr (.inr (.inl h))
  · exact .inr (.inr (.inr (List.any_eq_true.2 ⟨0, by decide, h⟩)))
  · exact .inr (.inl h)

theorem Chip.devStateWrite_taken {c : Chip} (hdet : c.detParts = []) (hbusy : c.flag Fld.MGT_STATUS_BUSY = false)
    (hpipe0 : c.flag Fld.LCE_PIPE_CTL_ENABLE 0 = false) (hpipe1 : c.flag Fld.LCE_PIPE_CTL_ENABLE 0x100 = false)
    (hstate : c.fld Fld.PWR_DEVSTATE_STATE = 0) :
    c.devStateWrite true = (c.setFld Fld.PWR_DEVSTATE_REQ 0 1).setFld Fld.PWR_DEVSTATE_STATE 0 1 := by
  refine (if_neg (by simp)).trans ((if_neg ?_).trans (if_pos hstate))
  simp [hdet, hbusy, hstate, hpipe0, hpipe1, List.range_succ]

/-- A cluster of a device that has entered decaf. -/
def Cluster.enterDecaf (k : Cluster) : Cluster := if k.st = .inService then { k.retain with st := .decaf } else k

theorem Cluster.enterDecaf_st (k : Cluster) : k.enterDecaf.st ≠ .inService := by
  unfold Cluster.enterDecaf
  split
  · exact CState.noConfusion
  · next h => exact h

theorem Chip.deviceEntered_eq {c : Chip} (hstate : c.fld Fld.PWR_DEVSTATE_STATE = 1) (hqueues : c.queues = [])
    (hwake : c.pwr.devLatched = false) :
    c.deviceEntered = ((List.range 12).foldl (fun (c : Chip) g => c.setGroupState g 2)
      ({ c with clusters := c.clusters.map fun kc => (kc.1, kc.2.enterDecaf) } : Chip)).setFld Fld.PWR_DEVSTATE_STATE 0 2 := by
  unfold Chip.deviceEntered
  rw [if_neg (by simp [hstate, hqueues])]
  exact if_neg (by simp [hwake])

theorem Chip.deviceEntered_decaf {c : Chip} (hstate : c.fld Fld.PWR_DEVSTATE_STATE = 1) (hqueues : c.queues = [])
    (hwake : c.pwr.devLatched = false) :
    c.deviceEntered.fld Fld.PWR_DEVSTATE_STATE = 2 ∧ ∀ kc ∈ c.deviceEntered.clusters, kc.2.st ≠ .inService := by
  rw [Chip.deviceEntered_eq hstate hqueues hwake]
  refine ⟨Chip.fld_setFld_self _ _ _ _ (by decide) (by decide), fun kc hkc => ?_⟩
  rw [Chip.setFld_clusters, foldl_reads (f := Chip.clusters) (g := fun (c : Chip) g => c.setGroupState g 2) fun _ _ => rfl] at hkc
  obtain ⟨old, -, rfl⟩ := List.mem_map.1 hkc
  exact old.2.enterDecaf_st

/-- R425: what a wake leaves where no access waits. -/
theorem Chip.deviceAwake_active {c : Chip} (hstate : c.fld Fld.PWR_DEVSTATE_STATE = 3) (hheld : c.pcie.held = []) :
    c.deviceAwake.fld Fld.PWR_DEVSTATE_STATE = 0 ∧ c.deviceAwake.fld Fld.PWR_DEVSTATE_REQ = 0 ∧
      ∀ g < 12, c.deviceAwake.groupState g = 0 := by
  have hzero : ∀ d : Chip, d.pcie.held = [] → d.serveHeld.regs = d.regs := fun d hd => by
    unfold Chip.serveHeld
    rw [hd]
    rfl
  have hact : c.deviceAwake = ((((List.range 12).foldl (fun (c : Chip) g => c.setGroupState g 0)
      (c.restoreClusters fun _ => true)).setFld Fld.PWR_DEVSTATE_STATE 0 0).setFld Fld.PWR_DEVSTATE_REQ 0 0).serveHeld :=
    if_neg (by simp [hstate])
  generalize hgroups : (List.range 12).foldl (fun (c : Chip) g => c.setGroupState g 0) (c.restoreClusters fun _ => true) = d
    at hact
  have hregs : c.deviceAwake.regs = ((d.setFld Fld.PWR_DEVSTATE_STATE 0 0).setFld Fld.PWR_DEVSTATE_REQ 0 0).regs := by
    rw [hact]
    refine hzero _ ?_
    rw [Chip.setFld_pcie, Chip.setFld_pcie, ← hgroups, 
      foldl_reads (f := Chip.pcie) (g := fun (c : Chip) g => c.setGroupState g 0) fun _ _ => rfl]
    exact hheld
  rw [Chip.fld_congr hregs, Chip.fld_congr hregs]
  refine ⟨?_, Chip.fld_setFld_self _ _ _ _ (by decide) (by decide), fun g hg => ?_⟩
  · rw [Chip.fld_setFld_apart _ Fld.PWR_DEVSTATE_STATE Fld.PWR_DEVSTATE_REQ _ rfl (by decide) (by decide) (by decide)]
    exact Chip.fld_setFld_self _ _ _ _ (by decide) (by decide)
  · have hword : c.deviceAwake.rg Reg.PWR_GROUP_STATE = d.rg Reg.PWR_GROUP_STATE := by
      rw [Chip.rg, hregs, ← Chip.rg, Chip.rg_setFld_ne _ _ _ _ (by decide), Chip.rg_setFld_ne _ _ _ _ (by decide)]
    rw [Chip.groupState_congr hword, ← hgroups]
    exact Chip.groupState_setAll hg (by decide) _ _ (fun o ho => List.mem_range.1 ho) (.inl (List.mem_range.2 hg))

/-! ### The interference index -/

theorem Chip.interferenceWindow_eq {c : Chip} {p : Nat} (hex : (c.part p).state ≠ .absent) (hdet : (c.part p).det = false)
    (a w win : Nat) :
    let i := interference a w
    let c1 := ((c.setFld Fld.INTF_IDX_INDEX (pg p) i).setFld Fld.INTF_IDX_IDLE (pg p) (b2n (a == 0))).setFld
      Fld.INTF_IDX_WINDOW (pg p) win
    let t := c.fld Fld.INTF_THRESH_THRESHOLD (pg p)
    c.interferenceWindow p a w win
      = if t ≠ 0 ∧ i > t then c1.postBoth p 0x0012 (p * 64) (i + 2 ^ 16 * (win % 2 ^ 16)) else c1 :=
  if_neg (by simp [Chip.exists?, hex, hdet])

theorem interference_eq (a w : Dword) : interference a.toNat w.toNat =
    if a = 0 then 0 else if a.toNat ≤ w.toNat then 0xFFFF else min 0xFFFF (1024 * w.toNat / (a.toNat - w.toNat)) := by
  unfold interference
  by_cases ha : a = 0
  · rw [if_pos ha, if_pos (by rw [ha]; rfl)]
  · exact (if_neg fun h => ha (BitVec.eq_of_toNat_eq h)).trans (if_neg ha).symm

/-- Settles O47: each entry and each wake by the group's state and its latch; the window by R116's formula. -/
theorem decaf : Obligations.decaf := by
  refine ⟨fun s g hl => ⟨fun h => ?_, fun h => ?_, fun h hstate => ?_, fun hg h hnot => ?_, fun hg h hwake => ?_,
    fun hg h stall => ?_, fun k => ⟨rfl, k.restore_retain⟩⟩, fun s => ⟨fun hup hdet hbusy hp0 hp1 hstate => ?_,
    fun hup h => ?_, fun hup => ?_, fun hl hstate hqueues hwake => ?_, fun hl hstate => ?_,
    fun hl hstate hheld stall => ?_, fun p a w win hl hex hdet => ⟨fun hoff => ?_, fun hon hover => ?_⟩⟩⟩
  · exact ⟨_, ran_chip (fun c => c.groupDecaf g.toNat) hl rfl rfl, Chip.groupDecaf_enters h⟩
  · exact ran_chip (fun c => c.groupWake g.toNat) hl rfl (if_pos h)
  · exact ran_chip (fun c => c.groupWake g.toNat) hl rfl (Chip.groupWake_decaf h hstate)
  · obtain ⟨hstate, hin, -⟩ := s.chip.inDecaf_state hg
    exact ⟨_, ran_chip (fun c => c.groupEntered g.toNat) hl rfl
      ((Chip.groupEntered_eq h).trans (if_neg (ne_true_of_eq_false hnot))), hstate, hin⟩
  · exact ⟨_, ran_chip (fun c => c.groupEntered g.toNat) hl rfl rfl, Chip.groupEntered_latched hg h hwake⟩
  · exact ⟨_, ran_chip (fun c => c.groupAwake g.toNat stall.toNat) hl rfl rfl, Chip.groupAwake_active hg h stall⟩
  · exact ran_host (fun c => c.devStateWrite true) hup rfl (Chip.devStateWrite_taken hdet hbusy hp0 hp1 hstate)
  · exact ran_host (fun c => c.devStateWrite true) hup rfl (Chip.devStateWrite_refused h)
  · exact ran_host (fun c => c.devStateWrite false) hup rfl rfl
  · exact ⟨_, ran_chip (fun c => c.deviceEntered) hl rfl rfl, Chip.deviceEntered_decaf hstate hqueues hwake⟩
  · refine ⟨s.chip.setFld Fld.PWR_DEVSTATE_STATE 0 3, ran_chip (fun c => c.wakeDevice) hl rfl ?_,
      Chip.fld_setFld_self _ _ _ _ (by decide) (by decide)⟩
    simp only [Chip.wakeDevice, hstate]
  · exact ⟨_, ran_chip (fun c => c.deviceAwake) hl rfl rfl, Chip.deviceAwake_active hstate hheld⟩
  · rw [← interference_eq]
    exact ran_chip (fun c => c.interferenceWindow p.toNat a.toNat w.toNat win.toNat) hl rfl
      ((Chip.interferenceWindow_eq hex hdet _ _ _).trans (if_neg fun h => h.1 hoff))
  · rw [← interference_eq] at hover ⊢
    exact ran_chip (fun c => c.interferenceWindow p.toNat a.toNat w.toNat win.toNat) hl rfl
      ((Chip.interferenceWindow_eq hex hdet _ _ _).trans (if_pos ⟨hon.ne', hover⟩))

end Sys2Proof.Machine

/-! ## Cluster faults, their recovery and the in-field test (R434 to R442) -/

namespace Sys2Proof.Machine

/-! ### What the end of a descriptor's work leaves alone -/

/-- A reading that sees neither what `Chip.Apart` leaves out nor the descriptors' work and its chains. -/
structure Chip.ApartWork {β : Type} (f : Chip → β) : Prop extends Chip.Apart f where
  work : ∀ (c : Chip) (g : KMap Grid) (h : KMap (List Grid)) (ch : KMap Chain),
    f { c with grids := g, hist := h, chains := ch } = f c

theorem apartWork_ras : Chip.ApartWork Chip.ras :=
  ⟨⟨fun _ _ => rfl, fun _ _ => rfl, fun _ _ _ => rfl, fun _ _ _ _ _ _ _ => rfl⟩, fun _ _ _ _ => rfl⟩

theorem apartWork_clusters : Chip.ApartWork Chip.clusters :=
  ⟨⟨fun _ _ => rfl, fun _ _ => rfl, fun _ _ _ => rfl, fun _ _ _ _ _ _ _ => rfl⟩, fun _ _ _ _ => rfl⟩

theorem Chip.Apart.capture {β : Type} {f : Chip → β} (h : Chip.Apart f) (c : Chip) (p : Nat) (e : AccErr)
    (unit asid va tag : Nat) : f (c.capture p e unit asid va tag) = f c := by
  have hue : f (c.countUe e) = f c := by
    unfold Chip.countUe
    split
    · exact h.count c _ _ _
    · rfl
  unfold Chip.capture
  dsimp only
  split
  · exact hue
  · unfold Chip.captureBit
    dsimp only
    split
    · rw [h.setRg, hue]
    · rw [h.setRg, h.setRg, h.setRg, h.setRg, hue]

namespace Chip.ApartWork

variable {β : Type} {f : Chip → β} (h : Chip.ApartWork f)
include h

theorem setGrid (c : Chip) (q slot : Nat) (g : Grid) : f (c.setGrid q slot g) = f c := h.work c _ _ _

theorem failChain (c : Chip) (q : Nat) (s : Half) (last : Bool) : f (c.failChain q s last) = f c := by
  unfold Chip.failChain
  split
  · rfl
  · dsimp only
    split
    · exact (h.work _ _ _ _).trans (h.count c _ _ _)
    · exact h.work c _ _ _

theorem drawFailed (c : Chip) (q slot : Nat) (d : DrawRun) (s : Half) (n : Nat) : f (c.drawFailed q slot d s n) = f c :=
  (h.work _ _ _ _).trans ((h.failChain _ q s d.last).trans (h.finish c q slot s _ _))

theorem dropGrid (c : Chip) (q slot : Nat) (g : Grid) (s : Half) : f (c.dropGrid q slot g s) = f c := by
  unfold Chip.dropGrid
  split
  · exact h.drawFailed c q slot _ s 0
  · exact (h.work _ _ _ _).trans (h.finish c q slot s _ _)

theorem saveGrid (c : Chip) (q slot : Nat) (g : Grid) : f (c.saveGrid q slot g) = f c := by
  have haccount : ∀ (d : Chip) (p tag : Nat), f (d.accountSoFar p tag) = f d := fun d p tag =>
    foldl_reads (f := f) (fun c o => h.account c p tag o _) _ d
  unfold Chip.saveGrid
  split
  · rfl
  · dsimp only
    split
    · next c2 hw => rw [h.writePP hw, haccount, h.count, h.setGrid]
    · rw [h.dropGrid, h.capture, haccount, h.count, h.setGrid]

theorem drawDone (c : Chip) (q slot : Nat) (g : Grid) (d : DrawRun) : f (c.drawDone q slot g d) = f c := by
  refine (h.finish _ q slot _ _ _).trans ?_
  split
  · rfl
  · dsimp only
    split
    · exact (h.work _ _ _ _).trans (h.setGrid c q slot _)
    · exact h.setGrid c q slot _

theorem settleGrid (c : Chip) (q slot : Nat) : f (c.settleGrid q slot) = f c := by
  unfold Chip.settleGrid
  split
  · rfl
  · split
    · rfl
    · split
      · split
        · exact h.work c _ _ _
        · split
          · exact h.drawFailed c q slot _ _ _
          · exact h.finish c q slot _ _ _
      · split
        · split
          · exact h.work c _ _ _
          · split
            · split
              · exact h.drawDone c q slot _ _
              · rfl
            · exact h.finish c q slot _ _ _
        · split
          · rfl
          · split
            · rfl
            · split
              · rfl
              · exact h.saveGrid c q slot _

theorem reopen (c : Chip) (q slot : Nat) (g : Grid) : f (c.reopen q slot g) = f c := by
  unfold Chip.reopen
  split
  · split
    · split
      · rfl
      · exact h.setEntry c q slot _
    · rfl
  · rfl

end Chip.ApartWork

/-! ### A cluster that is lost -/

theorem Chip.ras_unsign (c : Chip) (q : Nat) (s : PairSig) : (c.unsign q s).ras = c.ras := by
  unfold Chip.unsign
  split <;> rfl

theorem Chip.ras_loseItems (c : Chip) (cl : Nat) (on : Option Nat) : (c.loseItems cl on).ras = c.ras := by
  unfold Chip.loseItems
  dsimp only
  refine (foldl_reads (f := Chip.ras) (fun d kh => ?_) c.hist _).trans (foldl_reads (f := Chip.ras) (fun d kg => ?_) c.grids c)
  · exact foldl_reads (f := Chip.ras) (fun c g => c.ras_unsign kh.1 _) kh.2 d
  · split
    · rfl
    · rw [apartWork_ras.reopen, Chip.ras_unsign, apartWork_ras.setGrid]

theorem Chip.ras_dropResidents (c : Chip) (cl : Nat) : (c.dropResidents cl).ras = c.ras := by
  unfold Chip.dropResidents
  exact foldl_reads (f := Chip.ras) (fun d _ => apartWork_ras.onchip d _ _ _) (c.cluster cl).wgs c

theorem Chip.ras_loseCluster (c : Chip) (cl : Nat) (on : Option Nat) : (c.loseCluster cl on).ras = c.ras := by
  unfold Chip.loseCluster
  dsimp only
  rw [foldl_reads (f := Chip.ras) (g := fun c (x : Nat × Nat) => c.settleGrid x.1 x.2)
    fun d x => apartWork_ras.settleGrid d x.1 x.2, Chip.ras_dropResidents, Chip.ras_loseItems]

/-! ### What a fault's record leaves alone -/

section
variable {β : Type} {f : Chip → β} (h : Chip.Apart f)
include h

theorem Chip.Apart.postRas (c : Chip) (p code queue detail : Nat) : f (c.postRas p code queue detail) = f c :=
  (h.raiseOwner _ 1).trans (h.postEvent c p code queue detail)

theorem Chip.Apart.setRg64 (c : Chip) (lo hi n : Nat) : f (c.setRg64 lo hi n) = f c := by
  unfold Chip.setRg64
  rw [h.setRg, h.setRg]

theorem Chip.Apart.unitFault (c : Chip) (u : Unit8) (index : Nat) (ps : List Nat) (o : FaultOutcome) :
    f (c.unitFault u index ps o) = f c := by
  unfold Chip.unitFault
  dsimp only
  refine (foldl_reads (f := f) (fun d p => ?_) ps _).trans ?_
  · split
    · exact h.count d _ _ _
    · exact (h.postEvent _ p _ _ _).trans (h.count d _ _ _)
  · rw [h.postRas, h.count]
    unfold Chip.logFault
    dsimp only
    rw [h.setFld, h.setRg64, h.setRg, h.setRg]

theorem Chip.Apart.breakSpan (c : Chip) (p : Nat) : f (c.breakSpan p) = f c := by
  unfold Chip.breakSpan
  split
  · exact h.setFld c _ _ _
  · rfl

theorem Chip.Apart.logRecovery (c : Chip) (r : Recovery) (o : FaultOutcome) (us : Nat) : f (c.logRecovery r o us) = f c := by
  unfold Chip.logRecovery
  dsimp only
  split
  · rfl
  · exact (h.setRg _ _ _).trans (h.setRg c _ _)

end

theorem Chip.cluster_congr {c d : Chip} (h : d.clusters = c.clusters) (i : Nat) : d.cluster i = c.cluster i := by
  rw [Chip.cluster, h, Chip.cluster]

theorem Chip.recovery_congr {c d : Chip} (h : d.ras = c.ras) (i : Nat) : d.recovery i = c.recovery i := by
  rw [Chip.recovery, h, Chip.recovery]

/-- R434 step 1: the recovery that a fault begins. -/
def Chip.newRecovery (c : Chip) (cl : Nat) : Recovery :=
  { cl := cl, phys := (c.cluster cl).phys, part := (c.cluster cl).part, at_ := c.gtc, log := c.fld Fld.RAS_FLOG_HEAD_COUNT }

theorem Chip.clusterFault_isolates {c : Chip} {cl : Nat} (hmap : cl < c.fld Fld.DET_MAP_NATURAL)
    (hst : (c.cluster cl).st ≠ .isolated) (hnone : c.recovery cl = none) :
    ((c.clusterFault cl).cluster cl).st = .isolated ∧ (c.clusterFault cl).recovery cl = some (c.newRecovery cl) := by
  unfold Chip.clusterFault
  dsimp only
  rw [if_neg (by rintro (h | h); exacts [absurd hmap (not_lt.2 h), hst h])]
  have hlost : (c.loseCluster cl (some cl)).ras = c.ras := c.ras_loseCluster cl (some cl)
  generalize c.loseCluster cl (some cl) = c1 at hlost ⊢
  rw [Chip.cluster_congr (apartWork_clusters.breakSpan _ _), Chip.recovery_congr (apartWork_ras.breakSpan _ _),
    Chip.cluster_congr (apartWork_clusters.unitFault ..), Chip.recovery_congr (apartWork_ras.unitFault ..)]
  constructor
  · exact congrArg Cluster.st (Chip.cluster_setCluster_self c1 cl _)
  · have hrecov : c1.ras.recov.find? (fun r => r.cl == cl) = none := hlost ▸ hnone
    show (c1.ras.recov ++ [c.newRecovery cl]).find? (fun r => r.cl == cl) = _
    rw [List.find?_append, hrecov]
    simp [Chip.newRecovery]

/-- A recovery's end leaves what the log and the events do not reach as it is once the recovery is taken off the list. -/
theorem Chip.Apart.endRecovery {β : Type} {f : Chip → β} (h : Chip.Apart f) (c : Chip) (r : Recovery) (o : FaultOutcome) :
    f (c.endRecovery r o)
      = f { c with ras := { c.ras with recov := c.ras.recov.filter fun x => x.cl != r.cl } } := by
  unfold Chip.endRecovery
  dsimp only
  rw [h.raiseOwner, h.postBoth, h.logRecovery]
  split
  · rfl
  · exact h.setFld _ _ _ _

theorem Chip.spareReady_serves {c : Chip} {cl : Nat} {r : Recovery} (hr : c.recovery cl = some r) (hassigned : r.assigned = true) :
    (c.spareReady cl).cluster cl = (c.cluster cl).prepared ∧ (c.spareReady cl).recovery cl = none := by
  have hcl : r.cl = cl := beq_iff_eq.1 (List.find?_some (p := fun r : Recovery => r.cl == cl) hr)
  obtain ⟨o, ho⟩ : ∃ o, c.spareReady cl = (c.setCluster cl (c.cluster cl).prepared).endRecovery r o := by
    unfold Chip.spareReady
    rw [hr]
    exact ⟨_, if_neg (by simp [hassigned])⟩
  rw [ho, Chip.cluster_congr (apartWork_clusters.endRecovery _ r o), Chip.recovery_congr (apartWork_ras.endRecovery _ r o), hcl]
  refine ⟨Chip.cluster_setCluster_self _ _ _, List.find?_eq_none.2 fun x hx => ?_⟩
  simpa using (List.mem_filter.1 hx).2

/-! ### A spare, or the highest cluster, takes over -/

theorem Chip.spareAssign_eq {c : Chip} {cl : Nat} {r : Recovery} (hr : c.recovery cl = some r) (hfenced : r.fenced = true)
    (hassigned : r.assigned = false) (hruns : c.firmwareRuns = true) :
    c.spareAssign cl = match c.freeSpares.getLast? with
      | some f =>
        let k := c.cluster cl
        let c1 := (c.setCluster cl { k with phys := f, epoch := k.epoch + 1 }).setRecovery { r with assigned := true }
        (c1.retirePhys r.phys).spareGone
      | none =>
        let h := c.fld Fld.DET_MAP_NATURAL - 1
        let c1 := (c.retirePhys r.phys).lowerMap h
        if h = cl then
          (if (c.part r.part).det then (c1.endRecovery r .partitionReset).resetFor r.part
           else ((((c1.anywhere cl).setCluster cl { c1.cluster cl with part := 0 }).showPart r.part).showPart 0).endRecovery
             r .withdrawn)
        else (c1.setRecovery { r with assigned := true, withdrawn := true }).takeIdentity cl h := by
  unfold Chip.spareAssign
  rw [hr]
  exact if_neg (by simp [hfenced, hassigned, hruns])

theorem Chip.fenceDone_eq {c : Chip} {cl : Nat} {r : Recovery} (dropped : Nat) (hr : c.recovery cl = some r)
    (hfenced : r.fenced = false) :
    c.fenceDone cl dropped = (c.setRecovery { r with fenced := true }).count Fld.EPOCH_DROP_CNT_COUNT 0 dropped := by
  unfold Chip.fenceDone
  rw [hr]
  exact if_neg (by simp [hfenced])

/-! ### The in-field test -/

theorem Chip.lendable_iff {c : Chip} {cl : Nat} (hmap : cl < c.fld Fld.DET_MAP_NATURAL) (hst : (c.cluster cl).st = .inService)
    (hempty : (c.cluster cl).wgs = []) :
    c.lendable cl = true ↔ (c.part (c.cluster cl).part).det = false ∨ c.mayLend (c.cluster cl).part = true := by
  simp [Chip.lendable, hmap, hst, hempty]

theorem Chip.testStart_eq {c : Chip} {cl f : Nat} (hf : c.freeSpares.getLast? = some f) :
    c.testStart cl = if !c.flag Fld.RAS_TEST_CFG_EN ∨ !c.firmwareRuns ∨ !c.lendable cl ∨ c.ras.tests.any (fun t => t.cl == cl)
      then c
      else { c.setCluster cl ((c.cluster cl).moveTo f) with ras := { c.ras with
        tests := { cl := cl, tested := (c.cluster cl).phys, spare := f } :: c.ras.tests } }.count Fld.RAS_SPARES_LOANED := by
  unfold Chip.testStart
  rw [hf]

theorem Chip.testEnd_eq {c : Chip} {cl : Nat} {t : TestSlice} (ht : c.ras.tests = [t]) (hcl : t.cl = cl) (pass : Bool)
    (hidle : pass = true → (c.cluster cl).wgs = []) :
    let c2 := ({ c with ras := { c.ras with tests := [] } } : Chip).setFld Fld.RAS_SPARES_LOANED 0
      (c.fld Fld.RAS_SPARES_LOANED - 1)
    c.testEnd cl pass = if pass then c2.testReturn t
      else ((c2.unitFault .cluster cl [(c.cluster cl).part] .replaced).retirePhys t.tested).spareGone := by
  have hfind : c.ras.tests.find? (fun t => t.cl == cl) = some t := by simp [ht, hcl]
  have hrest : c.ras.tests.filter (fun o => o.cl != cl) = [] := by simp [ht, hcl]
  unfold Chip.testEnd
  rw [hfind]
  dsimp only
  rw [if_neg (by rintro ⟨hp, -, hw⟩; simp [hidle hp] at hw), hrest]
  rfl

theorem Chip.testReturn_eq {c : Chip} {t : TestSlice} (hphys : (c.cluster t.cl).phys = t.spare)
    (hst : (c.cluster t.cl).st = .inService) :
    c.testReturn t = c.setCluster t.cl ((c.cluster t.cl).moveTo t.tested) := if_pos ⟨hphys, hst⟩

/-- Settles O48: each step of a recovery and of a test by what the model's own step does, and the frames of its record. -/
theorem clusterRecovery : Obligations.cluster_recovery := by
  refine ⟨fun s cl hl => ⟨fun hmap hst hnone => ?_, fun hst => ?_, fun r dropped hr hf => ?_,
    fun r f hr hfenced hassigned hruns hspare => ?_, fun r hr hfenced hassigned hruns hspare =>
      ⟨fun hh hdet => ?_, fun hh hdet => ?_, fun hh => ?_⟩, fun r hr hassigned => ?_⟩,
    fun s cl hl => ⟨fun f hf hen hruns hmap hst hempty hnone => ⟨fun hdet => ?_, fun hdet hlend => ?_⟩, fun t ht hcl =>
      ⟨fun hphys hst hempty => ?_, ?_⟩⟩⟩
  · obtain ⟨hiso, hrec⟩ := Chip.clusterFault_isolates hmap hst hnone
    exact ⟨_, _, ran_chip (fun c => c.clusterFault cl.toNat) hl rfl rfl, hiso, hrec, rfl, rfl, rfl, rfl, rfl⟩
  · exact ran_chip (fun c => c.clusterFault cl.toNat) hl rfl (if_pos (.inr hst))
  · exact ran_chip (fun c => c.fenceDone cl.toNat dropped.toNat) hl rfl (Chip.fenceDone_eq _ hr hf)
  · refine ran_chip (fun c => c.spareAssign cl.toNat) hl rfl ((Chip.spareAssign_eq hr hfenced hassigned hruns).trans ?_)
    rw [hspare]
  · refine ran_chip (fun c => c.spareAssign cl.toNat) hl rfl ((Chip.spareAssign_eq hr hfenced hassigned hruns).trans ?_)
    rw [hspare]
    exact (if_pos hh).trans (if_pos hdet)
  · refine ran_chip (fun c => c.spareAssign cl.toNat) hl rfl ((Chip.spareAssign_eq hr hfenced hassigned hruns).trans ?_)
    rw [hspare]
    exact (if_pos hh).trans (if_neg (ne_true_of_eq_false hdet))
  · refine ran_chip (fun c => c.spareAssign cl.toNat) hl rfl ((Chip.spareAssign_eq hr hfenced hassigned hruns).trans ?_)
    rw [hspare]
    exact if_neg hh
  · obtain ⟨hk, hgone⟩ := Chip.spareReady_serves hr hassigned
    refine ⟨_, ran_chip (fun c => c.spareReady cl.toNat) hl rfl rfl, ?_⟩
    rw [hk]
    exact ⟨rfl, rfl, rfl, rfl, hgone⟩
  · refine ran_chip (fun c => c.testStart cl.toNat) hl rfl ((Chip.testStart_eq hf).trans ?_)
    have hlend := (Chip.lendable_iff hmap hst hempty).2 (.inl hdet)
    rw [if_neg (by simp [hen, hruns, hlend, hnone]), hnone]
  · refine ran_chip (fun c => c.testStart cl.toNat) hl rfl ((Chip.testStart_eq hf).trans (if_pos ?_))
    have hkeep : s.chip.lendable cl.toNat = false := by
      rw [← Bool.not_eq_true, Chip.lendable_iff hmap hst hempty, hdet, hlend]
      simp
    exact .inr (.inr (.inl (by simp [hkeep])))
  · refine ran_chip (fun c => c.testEnd cl.toNat true) hl rfl ((Chip.testEnd_eq ht hcl true fun _ => hempty).trans ?_)
    exact (if_pos rfl).trans (hcl ▸ Chip.testReturn_eq (by rw [hcl]; exact hphys) (by rw [hcl]; exact hst))
  · exact ran_chip (fun c => c.testEnd cl.toNat false) hl rfl (Chip.testEnd_eq ht hcl false nofun)

end Sys2Proof.Machine

/-! ## Boots, the boot ledger and the resets (R480 to R488, R519 to R523) -/

namespace Sys2Proof.Machine

/-! ### The ledger -/

/-- R480: what a write puts into force is the record with the next SEQ. -/
theorem NonVol.ledger_setLedger (nv : NonVol) (l : Ledger) : (nv.setLedger l).ledger = { l with seq := nv.ledger.seq + 1 } := by
  rcases h0 : nv.ledger0 with _ | a
  · rcases h1 : nv.ledger1 with _ | b
    · simp [NonVol.setLedger, NonVol.ledger, NonVol.newer1, h0, h1]
    · simp [NonVol.setLedger, NonVol.ledger, NonVol.newer1, h0, h1]
  · rcases h1 : nv.ledger1 with _ | b
    · simp [NonVol.setLedger, NonVol.ledger, NonVol.newer1, h0, h1]
    · by_cases hnew : a.seq < b.seq
      · simp [NonVol.setLedger, NonVol.ledger, NonVol.newer1, h0, h1, hnew]
      · simp [NonVol.setLedger, NonVol.ledger, NonVol.newer1, h0, h1, hnew]

theorem NonVol.ledger_modLedger (nv : NonVol) (f : Ledger → Ledger) :
    (nv.modLedger f).ledger = { f nv.ledger with seq := nv.ledger.seq + 1 } := nv.ledger_setLedger _

/-! ### The states of the steps, two bits each -/

theorem Ledger.step_eq (l : Ledger) (n : Nat) : l.step n = l.stepState / 4 ^ n % 4 := by
  rw [Ledger.step, bits, Nat.shiftRight_eq_div_pow, show 2 * n + 1 + 1 - 2 * n = 2 by omega, Nat.pow_mul]
  rfl

/-- A digit below, at and above a place of a number written in base 4. -/
theorem digit_below {lo n m : Nat} (x : Nat) (h : m < n) : (lo + 4 ^ n * x) / 4 ^ m % 4 = lo / 4 ^ m % 4 := by
  obtain ⟨k, rfl⟩ := Nat.exists_eq_add_of_lt h
  rw [show lo + 4 ^ (m + k + 1) * x = lo + 4 ^ m * (4 * (4 ^ k * x)) by ring, Nat.add_mul_div_left _ _ (by positivity),
    Nat.add_mul_mod_self_left]

theorem digit_at {lo n e hi : Nat} (hlo : lo < 4 ^ n) (he : e < 4) : (lo + 4 ^ n * (e + 4 * hi)) / 4 ^ n % 4 = e := by
  rw [Nat.add_mul_div_left _ _ (by positivity), Nat.div_eq_of_lt hlo, Nat.zero_add, Nat.add_mul_mod_self_left,
    Nat.mod_eq_of_lt he]

theorem digit_above {lo n m e hi : Nat} (hlo : lo < 4 ^ n) (he : e < 4) (h : n < m) :
    (lo + 4 ^ n * (e + 4 * hi)) / 4 ^ m % 4 = hi / 4 ^ (m - n - 1) % 4 := by
  obtain ⟨k, rfl⟩ := Nat.exists_eq_add_of_lt h
  rw [show n + k + 1 - n - 1 = k by omega, show n + k + 1 = n + (1 + k) by omega, Nat.pow_add, ← Nat.div_div_eq_div_mul,
    Nat.add_mul_div_left _ _ (by positivity), Nat.div_eq_of_lt hlo, Nat.zero_add, Nat.pow_add, ← Nat.div_div_eq_div_mul,
    Nat.pow_one, Nat.add_mul_div_left _ _ (by decide), Nat.div_eq_of_lt he, Nat.zero_add]

theorem Ledger.step_setStep (l : Ledger) {n v : Nat} (hv : v < 4) (m : Nat) :
    (l.setStep n v).step m = if m = n then v else l.step m := by
  generalize hlo : l.stepState % 4 ^ n = lo
  generalize hhi : l.stepState / 4 ^ n / 4 = hi
  have hlt : lo < 4 ^ n := hlo ▸ Nat.mod_lt _ (by positivity)
  have hd : l.step n < 4 := l.step_eq n ▸ Nat.mod_lt _ (by decide)
  have hold : l.stepState = lo + 4 ^ n * (l.step n + 4 * hi) := by
    rw [l.step_eq n, ← hhi, Nat.mod_add_div, ← hlo, Nat.mod_add_div]
  have hnew : (l.setStep n v).stepState = lo + 4 ^ n * (v + 4 * hi) := by
    show l.stepState - l.step n * 4 ^ n + v * 4 ^ n = _
    rw [hold, show lo + 4 ^ n * (l.step n + 4 * hi) = lo + 4 ^ n * (4 * hi) + l.step n * 4 ^ n by ring,
      Nat.add_sub_cancel]
    ring
  rw [Ledger.step_eq, Ledger.step_eq l m, hnew, hold]
  rcases Nat.lt_trichotomy m n with h | rfl | h
  · rw [if_neg h.ne, digit_below _ h, digit_below _ h]
  · rw [if_pos rfl, digit_at hlt hv]
  · rw [if_neg h.ne', digit_above hlt hv h, digit_above hlt hd h]

/-! ### One step of a boot -/

namespace Booting

/-- A boot with its step in MGT_STATE. -/
def started (b : Booting) (n : Nat) : Booting := { b with chip := b.chip.setFld Fld.MGT_STATE_STEP 0 n }

@[simp] theorem go_noteImage (b : Booting) (n : Nat) : (b.noteImage n).go = b.go := by
  unfold Booting.noteImage
  split <;> rfl

theorem run_of_stopped {b : Booting} (h : b.go = false) (w : BootSample) (n : Nat) : b.run w n = b :=
  if_pos (.inl (by simp [h]))

theorem foldl_of_stopped {b : Booting} (h : b.go = false) (w : BootSample) : ∀ l : List Nat, l.foldl (Booting.run w) b = b
  | [] => rfl
  | n :: t => by rw [List.foldl_cons, run_of_stopped h, foldl_of_stopped h w t]

variable {b : Booting} {w : BootSample} {n : Nat}

theorem run_hang (hgo : b.go = true) (hrescue : (b.rescue ∧ n > 4) → False) (hhang : w.hang = some (BitVec.ofNat 5 n)) :
    b.run w n = { b.started n with go := false } :=
  (if_neg (by simpa [hgo] using hrescue)).trans (if_pos hhang)

/-- A step between the ledger's and the last, in a boot that is no rescue, by its class. -/
theorem run_class (hgo : b.go = true) (hrescue : b.rescue = false) (h3 : 3 < n) (h31 : n < 31)
    (hhang : w.hang ≠ some (BitVec.ofNat 5 n)) :
    (stepClass n = .required → b.run w n = if stepPasses w b.nv n (bit b.nv.ledger.decision n)
      then ((b.started n).noteImage n).pass w n 1 else ((b.started n).noteImage n).fail n 0) ∧
    (stepClass n = .optional → ∃ (c d : Chip) (nv : NonVol), b.run w n = if bit b.nv.ledger.decision n
      then { (b.started n).noteImage n with chip := c }.record n 3
      else if stepPasses w b.nv n (bit b.nv.ledger.decision n) then ((b.started n).noteImage n).pass w n 1
      else { { (b.started n).noteImage n with chip := c }.record n 2 with nv := nv, chip := d }) := by
  have hgoes : ¬ (!b.go ∨ (b.rescue ∧ n > 4)) := by simp [hgo, hrescue]
  have h31 : n ≠ 31 := h31.ne
  have hrun : b.run w n = match stepClass n with
      | .required => _ | .optional => _ | .alternative => _ :=
    (if_neg hgoes).trans ((if_neg hhang).trans ((if_neg h3.ne').trans ((if_neg h3.le.not_gt).trans
      ((if_neg h31).trans (if_neg (by simp [hrescue]))))))
  constructor
  · intro hclass
    rw [hrun, hclass]
    rfl
  · intro hclass
    rw [hrun, hclass]
    exact ⟨_, _, _, rfl⟩

theorem step_record (b : Booting) {v : Nat} (hv : v < 4) (n : Nat) : (b.record n v).nv.ledger.step n = v := by
  have hledger : (b.record n v).nv.ledger = { b.nv.ledger.setStep n v with seq := b.nv.ledger.seq + 1 } :=
    b.nv.ledger_modLedger _
  rw [hledger]
  exact (b.nv.ledger.step_setStep hv n).trans (if_pos rfl)

theorem ledger_fail (b : Booting) (n d : Nat) : (b.fail n d).nv.ledger = { b.nv.ledger.setStep n 2 with
    failedBoots := min 3 (b.nv.ledger.failedBoots + 1), decision := b.nv.ledger.decision ||| d
    seq := b.nv.ledger.seq + 1 } := b.nv.ledger_modLedger _

theorem step_fail (b : Booting) (n d : Nat) : (b.fail n d).nv.ledger.step n = 2 := by
  rw [ledger_fail]
  exact (b.nv.ledger.step_setStep (by decide) n).trans (if_pos rfl)

theorem failedBoots_fail (b : Booting) (n d : Nat) :
    (b.fail n d).nv.ledger.failedBoots = min 3 (b.nv.ledger.failedBoots + 1) := by rw [ledger_fail]

/-- R484, R485: how a required and an optional step end. -/
theorem run_outcome (hgo : b.go = true) (hrescue : b.rescue = false) (h3 : 3 < n) (h31 : n < 31)
    (hhang : w.hang ≠ some (BitVec.ofNat 5 n)) :
    (stepClass n = .required → stepPasses w b.nv n (bit b.nv.ledger.decision n) = true →
      (b.run w n).go = true ∧ (b.run w n).nv.ledger.step n = 1) ∧
    (stepClass n = .required → stepPasses w b.nv n (bit b.nv.ledger.decision n) = false →
      (b.run w n).go = false ∧ (b.run w n).chip.mgt.failed = true ∧ (b.run w n).nv.ledger.step n = 2 ∧
      (b.run w n).nv.ledger.failedBoots = min 3 (b.nv.ledger.failedBoots + 1)) ∧
    (stepClass n = .optional → (b.run w n).go = true ∧
      (bit b.nv.ledger.decision n = true → (b.run w n).nv.ledger.step n = 3)) := by
  obtain ⟨hrequired, hoptional⟩ := run_class hgo hrescue h3 h31 hhang
  have hgo' : ((b.started n).noteImage n).go = true := (go_noteImage _ _).trans hgo
  have hnv : ((b.started n).noteImage n).nv = b.nv := nv_noteImage _ _
  refine ⟨fun hclass hok => ?_, fun hclass hbad => ?_, fun hclass => ?_⟩
  · rw [hrequired hclass, if_pos hok]
    exact ⟨hgo', step_record _ (by decide) n⟩
  · rw [hrequired hclass, if_neg (ne_true_of_eq_false hbad)]
    exact ⟨rfl, rfl, step_fail _ n 0, by rw [failedBoots_fail, hnv]⟩
  · obtain ⟨c, d, nv, hrun⟩ := hoptional hclass
    rw [hrun]
    split
    · exact ⟨hgo', fun _ => step_record _ (by decide) n⟩
    · next hnot =>
      refine ⟨?_, fun h => absurd h hnot⟩
      split
      · exact hgo'
      · exact hgo'

end Booting

/-! ### Boots from their first step -/

/-- A boot whose first step ends it leaves what that step leaves. -/
theorem runBoot_ends {w : BootSample} {nv : NonVol} {c : Chip} {b : Booting}
    (hfirst : Booting.run w { nv := nv, chip := c, rescue := c.fld Fld.MGT_STATE_MODE == 2 } 0 = b) (hgo : b.go = false) :
    runBoot w 0 nv c = (b.nv, b.chip) := by
  have hsteps : rangeFrom 0 (32 - 0) = 0 :: rangeFrom 1 31 := by decide
  unfold runBoot
  rw [hsteps, List.foldl_cons, hfirst, Booting.foldl_of_stopped hgo]
  simp [hgo]

theorem runBoot_hang {w : BootSample} (nv : NonVol) (c : Chip) (hhang : w.hang = some 0) :
    runBoot w 0 nv c = (nv, c.setFld Fld.MGT_STATE_STEP 0 0) :=
  runBoot_ends (Booting.run_hang rfl (fun h => absurd h.2 (by decide)) hhang) rfl

/-- R481: step 0 fails once its time is over. -/
theorem bootTimeout_fails {w : BootSample} {nv : NonVol} {c : Chip} (hbooting : c.mgt.booting = true)
    (hstep : c.fld Fld.MGT_STATE_STEP = 0) (hhang : w.hang = none) :
    (bootTimeout w nv c).2.mgt.failed = true ∧ (bootTimeout w nv c).2.mgt.booting = false ∧
      (bootTimeout w nv c).1.ledger.failedBoots = min 3 (nv.ledger.failedBoots + 1) := by
  let w' : BootSample := { w with fails := w.fails ||| BitVec.ofNat 32 (2 ^ 0) }
  let b : Booting := { nv := nv, chip := c, rescue := c.fld Fld.MGT_STATE_MODE == 2 }
  have hfails : w'.fails.getLsbD 0 = true := by simp [w']
  have hfirst : Booting.run w' b 0 = (b.started 0).fail 0 0 := by
    refine (if_neg (by simp [b])).trans ((if_neg ?_).trans ((if_neg (by decide)).trans ((if_pos (by decide)).trans (if_pos hfails))))
    exact fun h => nomatch hhang.symm.trans h
  have htimeout : bootTimeout w nv c = (((b.started 0).fail 0 0).nv, ((b.started 0).fail 0 0).chip) := by
    unfold bootTimeout
    rw [if_neg (by simp [hbooting]), hstep]
    exact runBoot_ends hfirst rfl
  rw [htimeout]
  exact ⟨rfl, rfl, Booting.failedBoots_fail _ 0 0⟩

/-! ### Resets -/

theorem KMap.find_of_not_mem {α : Type} {m : KMap α} {a : Nat} (h : a ∉ m.map Prod.fst) : KMap.find a m = none := by
  induction m with
  | nil => rfl
  | cons e t ih =>
    rw [List.map_cons, List.mem_cons, not_or] at h
    rw [KMap.find, if_neg (Ne.symm h.1), ih h.2]

/-- What a list of registers, put one by one from one reading, leaves under a register. -/
theorem getD_foldl_put (f : Nat → Word) (a : Nat) : ∀ (l m : KMap Word),
    KMap.getD (l.foldl (fun m r => KMap.put 0 r.1 (f r.1) m) m) a 0 = if a ∈ l.map Prod.fst then f a else KMap.getD m a 0
  | [], m => by simp
  | e :: t, m => by
    rw [List.foldl_cons, getD_foldl_put f a t, List.map_cons]
    by_cases hmem : a ∈ t.map Prod.fst
    · rw [if_pos hmem, if_pos (List.mem_cons_of_mem _ hmem)]
    · rw [if_neg hmem]
      by_cases ha : a = e.1
      · rw [if_pos (ha ▸ List.mem_cons_self), ha, KMap.getD_put_self]
      · rw [KMap.getD_put_ne ha, if_neg (by simp [ha, hmem])]

/-- A renewed chip reads the registers it keeps as they were, and the others as after a reset. -/
theorem Chip.rg_renewed (c : Chip) (nv : NonVol) (keep : Nat → Bool) (a : Nat) :
    (c.renewed nv keep).rg a = if keep a then c.rg a else (Chip.fresh nv 0).rg a := by
  refine (getD_foldl_put c.rg a _ _).trans ?_
  have hmem : a ∈ (c.regs.filter fun r => keep r.1).map Prod.fst ↔ keep a = true ∧ a ∈ c.regs.map Prod.fst := by
    simp only [List.mem_map, List.mem_filter]
    constructor
    · rintro ⟨r, ⟨hr, hk⟩, rfl⟩
      exact ⟨hk, r, hr, rfl⟩
    · rintro ⟨hk, r, hr, rfl⟩
      exact ⟨r, ⟨hr, hk⟩, rfl⟩
  by_cases hk : keep a = true
  · rw [if_pos hk]
    split
    · rfl
    · next hnot =>
      have hunlisted : KMap.find a c.regs = none := KMap.find_of_not_mem fun h => hnot (hmem.2 ⟨hk, h⟩)
      rw [KMap.getD, KMap.find_drop_of hk, Chip.rg, KMap.getD, hunlisted]
  · rw [if_neg hk, if_neg fun h => hk (hmem.1 h).1, KMap.getD, KMap.find_drop_of_not (by simpa using hk)]
    rfl

/-- R519: what a fault of a rail leaves. -/
theorem Chip.supplyFault_stops (c : Chip) {rail : Nat} (hrail : rail ≠ 0) (hlt : rail < 10) :
    (c.supplyFault rail).stopped = true ∧ (c.supplyFault rail).faultN = true ∧
      (c.supplyFault rail).fld Fld.PCI_SUPPLY_LAST_RAIL = rail := by
  have hsupply : c.supplyFault rail = _ := if_neg (by omega)
  rw [hsupply]
  refine ⟨rfl, rfl, ?_⟩
  refine (Chip.fld_setFld_ne (c.setFld Fld.PCI_SUPPLY_LAST_RAIL 0 rail) Fld.PCI_SUPPLY_LAST_RAIL Fld.RAS_SEQ_STATUS_FAULT 0 0 1
    (by decide)).trans ?_
  exact (c.fld_setFld_self _ _ _ (by decide) (by decide)).trans (Nat.mod_eq_of_lt (hlt.trans (by decide)))

/-! ### The barista's restart -/

theorem Chip.fld_showLedger_barista (c : Chip) (nv : NonVol) :
    (c.showLedger nv).fld Fld.RAS_SEQ_STATUS_BARISTA_STATE = c.fld Fld.RAS_SEQ_STATUS_BARISTA_STATE := by
  unfold Chip.showLedger
  simp (disch := decide) only [Chip.fld_setFld_ne]

/-- Training that starts again changes neither the barista's state nor the operation of the mailbox. -/
theorem Chip.resumeTraining_keeps (c : Chip) :
    c.resumeTraining.fld Fld.RAS_SEQ_STATUS_BARISTA_STATE = c.fld Fld.RAS_SEQ_STATUS_BARISTA_STATE ∧
    c.resumeTraining.mgt = c.mgt := by
  have htrain : ∀ (d : Chip) (n : Nat), Fld.RAS_SEQ_STATUS_BARISTA_STATE.base + 0 ≠ Fld.LCE_PIPE_STATUS_STATE.base + pipeOff n →
      (d.trainDisplay n).fld Fld.RAS_SEQ_STATUS_BARISTA_STATE = d.fld Fld.RAS_SEQ_STATUS_BARISTA_STATE := fun d n h =>
    (d.setPipe n { d.pipe n with trainWait := !d.firmwareRuns }).fld_setFld_ne _ _ _ _ _ h
  unfold Chip.resumeTraining
  simp only [List.foldl_cons, List.foldl_nil]
  refine ⟨?_, ?_⟩
  · split <;> split <;> simp (disch := decide) only [htrain]
  · split <;> split <;> rfl

/-- R488: what a restart leaves where no operation of the mailbox runs. -/
theorem baristaRestart_runs {nv : NonVol} {c : Chip} (hstate : c.fld Fld.RAS_SEQ_STATUS_BARISTA_STATE = 1)
    (hsec : nv.verify nv.ledger.runSet 2 = 0) (hbar : nv.verify nv.ledger.runSet 0 = 0) (hop : c.mgt.op = none) :
    (baristaRestart nv c).2.fld Fld.RAS_SEQ_STATUS_BARISTA_STATE = 0 ∧
    (baristaRestart nv c).1 = nv.modLedger fun l => { l with restarts := l.restarts + 1 } := by
  have hrunning : (c.setBarista Barista.running).fld Fld.RAS_SEQ_STATUS_BARISTA_STATE = 0 :=
    c.fld_setFld_self _ _ _ (by decide) (by decide)
  unfold baristaRestart
  dsimp only
  rw [if_neg (by simp [hstate, hsec, hbar, Barista.restarting])]
  generalize hc2 : ite (((c.setBarista Barista.running).setSpdm 0).fld Fld.MGT_STATE_MODE = 3) (((c.setBarista Barista.running).setSpdm 0).setFld Fld.MGT_STATE_MODE 0 1)
    ((c.setBarista Barista.running).setSpdm 0) = c2
  have h2 : c2.fld Fld.RAS_SEQ_STATUS_BARISTA_STATE = 0 ∧ c2.mgt.op = none := by
    rw [← hc2]
    split
    · exact ⟨(Chip.fld_setFld_ne _ _ _ _ _ _ (by decide)).trans hrunning, hop⟩
    · exact ⟨hrunning, hop⟩
  obtain ⟨hfld, hmgt⟩ := (c2.showLedger (nv.modLedger fun l => { l with restarts := l.restarts + 1 })).resumeTraining_keeps
  generalize (c2.showLedger (nv.modLedger fun l => { l with restarts := l.restarts + 1 })).resumeTraining = c3 at hfld hmgt ⊢
  have hnone : c3.mgt.op = none := (congrArg _ hmgt).trans h2.2
  unfold abortOp
  rw [hnone]
  exact ⟨hfld.trans ((Chip.fld_showLedger_barista _ _).trans h2.1), rfl⟩

/-! ### The commands -/

/-- A command of the always-on domain that reaches the stores leaves what its function says. -/
theorem ranNv_bothAlways {i : Instr} {s : State} (f : NonVol → Chip → NonVol × Chip) (hi : exec i s = onBothAlways f s) :
    RanNv i s (f s.nv s.chip).1 (f s.nv s.chip).2 := hi

theorem ranNv_bothAlways_of {i : Instr} {s : State} (f : NonVol → Chip → NonVol × Chip) {nv : NonVol} {c : Chip}
    (hi : exec i s = onBothAlways f s) (hf : f s.nv s.chip = (nv, c)) : RanNv i s nv c := by
  have h := ranNv_bothAlways f hi
  rwa [hf] at h

/-- A command of the always-on domain leaves what its function says. -/
theorem ran_always {i : Instr} {s : State} (f : Chip → Chip) {d : Chip} (hi : exec i s = onAlways f s)
    (hd : f s.chip = d) : Ran i s d := hd ▸ hi

/-- R485: the chip that an internal reboot starts to boot. -/
def Chip.rebooted (c : Chip) (nv : NonVol) : Chip :=
  let c1 := c.renewed nv isAon
  { c1 with faultN := true, smbAlertN := c.smbAlertN, perst := false, mgt := { c1.mgt with booting := true } }

theorem internalReboot_hang {w : BootSample} {nv : NonVol} {c : Chip} (hfailed : c.mgt.failed = true) (hhang : w.hang = some 0) :
    internalReboot w nv c = (nv, (c.rebooted nv).setFld Fld.MGT_STATE_STEP 0 0) :=
  (if_neg (by simp [hfailed])).trans (runBoot_hang nv _ hhang)

theorem Chip.rg_rebooted (c : Chip) (nv : NonVol) {a : Nat} (haon : isAon a = true) (hstep : a ≠ Fld.MGT_STATE_STEP.base + 0) :
    ((c.rebooted nv).setFld Fld.MGT_STATE_STEP 0 0).rg a = c.rg a := by
  rw [Chip.rg_setFld_ne _ _ _ _ hstep]
  exact (c.rg_renewed nv isAon a).trans (if_pos haon)

/-- Settles O51: each boot from its first step, the ledger's two copies and its digits, and each reset's registers. -/
theorem boot : Obligations.boot := by
  refine ⟨fun s => ⟨fun w hpow hperst => ?_, fun w hpow hperst hhang => ?_, fun w hoff => ?_,
    fun w hbooting hstep _ hhang => ?_, fun w hfailed hhang => ?_, fun hstate hsec hbar hop => ?_, fun rail h0 h10 => ?_, ?_,
    ?_, ?_⟩, fun nv l => ⟨_, nv.ledger_setLedger l, Nat.lt_succ_self _⟩, fun l n v _ hv => ⟨?_, fun m _ hm => ?_⟩,
    fun w b n hgo hrescue h3 h31 hhang => Booting.run_outcome hgo hrescue h3 h31 hhang⟩
  · intro r
    have hboot : bootStart w s.nv s.chip = r := if_neg (by simp [hpow, hperst])
    clear_value r
    exact ranNv_bothAlways_of (bootStart w) rfl hboot
  · exact ranNv_bothAlways_of (bootStart w) rfl ((if_neg (by simp [hpow, hperst])).trans (runBoot_hang s.nv _ hhang))
  · exact ranNv_bothAlways_of (bootStart w) rfl (if_pos (by simpa using hoff))
  · exact ⟨_, _, ranNv_bothAlways (bootTimeout w) rfl, bootTimeout_fails hbooting hstep hhang⟩
  · exact ⟨_, ranNv_bothAlways_of (internalReboot w) rfl (internalReboot_hang hfailed hhang), rfl, rfl, rfl, rfl, rfl,
      s.chip.rg_rebooted s.nv (by decide) (by decide), s.chip.rg_rebooted s.nv (by decide) (by decide)⟩
  · obtain ⟨hrun, hnv⟩ := baristaRestart_runs hstate hsec hbar hop
    refine ⟨_, _, ranNv_bothAlways baristaRestart rfl, hrun, ?_⟩
    rw [hnv, NonVol.ledger_modLedger]
    exact ⟨rfl, rfl, rfl⟩
  · have h0' : rail.toNat ≠ 0 := fun h => h0 (BitVec.eq_of_toNat_eq h)
    exact ⟨_, ran_always (fun c => c.supplyFault rail.toNat) rfl rfl, s.chip.supplyFault_stops h0' h10⟩
  · refine ⟨(perstAssert s.nv s.chip).2, ranNv_bothAlways_of perstAssert rfl rfl, rfl, rfl, rfl, rfl, rfl, rfl, rfl, rfl, rfl,
      rfl, (s.chip.rg_renewed s.nv _ _).trans (if_pos (by decide)), fun a ha => ?_⟩
    exact (s.chip.rg_renewed s.nv _ a).trans (if_neg (by simpa using ha))
  · exact ⟨_, ranNv_bothAlways_of aonLoss rfl rfl, rfl, rfl, fun a => (s.chip.rg_renewed s.nv _ a).trans (if_neg (by decide))⟩
  · exact ⟨_, ranNv_bothAlways_of powerUp rfl rfl, rfl, rfl, rfl, fun a => (s.chip.rg_renewed s.nv _ a).trans (if_neg (by decide))⟩
  · exact (l.step_setStep hv n).trans (if_pos rfl)
  · exact (l.step_setStep hv m).trans (if_neg hm)

end Sys2Proof.Machine

/-! ## Rollback counters, the debug unlock, the lock, and the SPDM responder (R464 to R468, R476, R477) -/

namespace Sys2Proof.Machine

/-- A command that reaches the stores leaves what its function says. -/
theorem ranNv_both {i : Instr} {s : State} (f : NonVol → Chip → NonVol × Chip) (hl : Live s) (hi : exec i s = onBoth f s) :
    RanNv i s (f s.nv s.chip).1 (f s.nv s.chip).2 := hi.trans (onBoth_live hl f)

theorem ranNv_both_of {i : Instr} {s : State} (f : NonVol → Chip → NonVol × Chip) {nv : NonVol} {c : Chip} (hl : Live s)
    (hi : exec i s = onBoth f s) (hf : f s.nv s.chip = (nv, c)) : RanNv i s nv c := by
  have h := ranNv_both f hl hi
  rwa [hf] at h

/-- The same, of a command whose function leaves the stores as they are. -/
theorem ran_both_of {i : Instr} {s : State} (f : NonVol → Chip → NonVol × Chip) {c : Chip} (hl : Live s)
    (hi : exec i s = onBoth f s) (hf : f s.nv s.chip = (s.nv, c)) : Ran i s c := ranNv_both_of f hl hi hf

/-! ### Rollback counters -/

theorem bit_eq_testBit (n i : Nat) : bit n i = n.testBit i := by
  rw [Nat.testBit_eq_decide_div_mod_eq, bit, Nat.shiftRight_eq_div_pow]
  rfl

/-- R464: more burnt fuses never lower a counter. -/
theorem NonVol.svnCtr_mono {a b : NonVol} (h : ∀ x, x ∈ a.fuses → x ∈ b.fuses) (t : Nat) : a.svnCtr t ≤ b.svnCtr t := by
  have hstep : ∀ n, a.stepBurnt t n = true → b.stepBurnt t n = true := fun n hn => by
    unfold NonVol.stepBurnt at hn ⊢
    refine decide_eq_true (le_trans (of_decide_eq_true hn) (List.Sublist.length_le ?_))
    exact List.monotone_filter_right _ fun i hi => List.contains_iff_mem.2 (h _ (List.contains_iff_mem.1 hi))
  unfold NonVol.svnCtr
  induction List.range 64 with
  | nil => exact le_rfl
  | cons n l ih =>
    by_cases ha : a.stepBurnt t n = true
    · rw [List.takeWhile_cons_of_pos ha, List.takeWhile_cons_of_pos (hstep n ha)]
      exact Nat.succ_le_succ ih
    · rw [List.takeWhile_cons_of_neg ha]
      exact Nat.zero_le _

/-- The stores after a step of counter `t`: `fuses` of the three of its next step read burnt. -/
def NonVol.burn (nv : NonVol) (fuses t : Nat) : NonVol :=
  let burnt := ((List.range 3).filter (bit fuses)).map fun i => t * 192 + 3 * nv.svnCtr t + i
  { nv with fuses := nv.fuses ++ burnt.filter fun f => !nv.fuses.contains f }

theorem NonVol.mem_burn (nv : NonVol) (f : BitVec 3) (t x : Nat) : x ∈ (nv.burn f.toNat t).fuses ↔
    x ∈ nv.fuses ∨ ∃ i < 3, f.getLsbD i = true ∧ x = t * 192 + 3 * nv.svnCtr t + i := by
  have hnew : x ∈ ((List.range 3).filter (bit f.toNat)).map (fun i => t * 192 + 3 * nv.svnCtr t + i) ↔
      ∃ i < 3, f.getLsbD i = true ∧ x = t * 192 + 3 * nv.svnCtr t + i := by
    simp only [List.mem_map, List.mem_filter, List.mem_range, and_assoc]
    have hbit : ∀ i, bit f.toNat i = f.getLsbD i := fun i => bit_eq_testBit f.toNat i
    exact ⟨fun ⟨i, hi, hb, hx⟩ => ⟨i, hi, hbit i ▸ hb, hx.symm⟩, fun ⟨i, hi, hb, hx⟩ => ⟨i, hi, hbit i ▸ hb, hx.symm⟩⟩
  rw [← hnew]
  unfold NonVol.burn
  dsimp only
  rw [List.mem_append, List.mem_filter]
  by_cases hold : x ∈ nv.fuses <;> simp [hold]

theorem burnStep_busy {fuses : Nat} {nv : NonVol} {c : Chip} (h0 : c.opCode ≠ 0) (hF1 : c.opCode ≠ 0xF1) :
    burnStep fuses nv c = (nv, c) := if_pos (.inr (.inr ⟨h0, hF1⟩))

section
variable {fuses : Nat} {nv : NonVol} {c : Chip} (hdue : c.mgt.burnDue = true) (hruns : c.firmwareRuns = true)
include hdue hruns

theorem burnStep_held (hop : c.opCode = 0 ∨ c.opCode = 0xF1) (hhold : c.flag Fld.SEC_CFG_SVN_HOLD = true) :
    burnStep fuses nv c = (nv, if c.opCode = 0xF1 then c.finishOp Res.done [] else c) :=
  (if_neg (by rcases hop with h | h <;> simp [hdue, hruns, h])).trans (if_pos hhold)

theorem burnStep_free (hop : c.opCode = 0 ∨ c.opCode = 0xF1) (hhold : c.flag Fld.SEC_CFG_SVN_HOLD = false) :
    burnStep fuses nv c = match burnNext nv c with
      | none => (nv, c.burnEnd)
      | some t => let c1 := (c.beginOp { code := 0xF1, args := [] }).showSvn (nv.burn fuses t)
        (nv.burn fuses t, if (burnNext (nv.burn fuses t) c1).isNone then c1.burnEnd else c1) :=
  (if_neg (by rcases hop with h | h <;> simp [hdue, hruns, h])).trans (if_neg (ne_true_of_eq_false hhold))

end

/-! ### The debug unlock -/

theorem Chip.fld_dbgLevel (c : Chip) (level : BitVec 2) :
    (c.setFld Fld.SEC_DBG_CTL_LEVEL 0 level.toNat).fld Fld.SEC_DBG_CTL_FAILS = c.fld Fld.SEC_DBG_CTL_FAILS ∧
    (c.setFld Fld.SEC_DBG_CTL_LEVEL 0 level.toNat).fld Fld.SEC_DBG_CTL_LEVEL = level.toNat := by
  refine ⟨c.fld_setFld_apart Fld.SEC_DBG_CTL_FAILS Fld.SEC_DBG_CTL_LEVEL _ rfl (by decide) (by decide) (by decide), ?_⟩
  exact (c.fld_setFld_self _ _ _ (by decide) (by decide)).trans (Nat.mod_eq_of_lt level.isLt)

theorem Chip.dbgChallenge_fresh {c : Chip} (level : BitVec 2) (h : c.fld Fld.SEC_DBG_CTL_FAILS < 3) :
    (c.dbgChallenge level.toNat).sec.challenge = true ∧
      (c.dbgChallenge level.toNat).fld Fld.SEC_DBG_CTL_LEVEL = level.toNat := by
  obtain ⟨hfails, hlevel⟩ := c.fld_dbgLevel level
  unfold Chip.dbgChallenge
  dsimp only
  rw [if_neg (by rw [hfails]; omega)]
  have hreg : ∀ (d : Chip) (i : Nat) (v : Word), (d.setRg (Reg.SEC_DBG_CHAL + 4 * i) v).fld Fld.SEC_DBG_CTL_LEVEL
      = d.fld Fld.SEC_DBG_CTL_LEVEL := fun d i v => d.fld_setRg_ne _ _ (by
    simp only [Fld.SEC_DBG_CTL_LEVEL, Reg.SEC_DBG_CTL, Reg.SEC_DBG_CHAL]; omega) v
  constructor
  · rw [foldl_reads (f := Chip.sec) (g := fun c i => c.setRg (Reg.SEC_DBG_CHAL + 4 * i) _) fun _ _ => rfl]
  · rw [foldl_reads (f := fun d => d.fld Fld.SEC_DBG_CTL_LEVEL) fun d i => hreg d i _]
    exact hlevel

theorem Chip.dbgChallenge_ignored {c : Chip} (level : BitVec 2) (h : c.fld Fld.SEC_DBG_CTL_FAILS = 3) :
    c.dbgChallenge level.toNat = c.setFld Fld.SEC_DBG_CTL_LEVEL 0 level.toNat :=
  if_pos (by rw [(c.fld_dbgLevel level).1, h])

theorem Chip.lockSec_locks (c : Chip) : c.lockSec.fld Fld.SEC_LOCK_LOCK = 1 ∧ c.lockSec.fld Fld.SEC_STATUS_LOCKED = 1 :=
  ⟨((c.setFld Fld.SEC_LOCK_LOCK 0 1).fld_setFld_ne _ _ _ _ _ (by decide)).trans
    (c.fld_setFld_self _ _ _ (by decide) (by decide)), Chip.fld_setFld_self _ _ _ _ (by decide) (by decide)⟩

/-! ### The responder -/

section
variable {c : Chip} {need : Nat} {valid : Bool} (f : Chip → Chip × List Nat)

theorem Chip.spdm_down (h : c.spdmRuns = false) : c.spdm need valid f = c := if_pos (by simp [h])

variable (h : c.spdmRuns = true)
include h

theorem Chip.spdm_early (hlt : c.sec.spdm < need) :
    c.spdm need valid f = c.emit (.response [Spdm.error, Spdm.unexpectedRequest]) :=
  (if_neg (by simp [h])).trans (if_pos hlt)

theorem Chip.spdm_invalid (hle : need ≤ c.sec.spdm) :
    c.spdm need false f = c.emit (.response [Spdm.error, Spdm.invalidRequest]) :=
  (if_neg (by simp [h])).trans ((if_neg hle.not_gt).trans (if_pos rfl))

theorem Chip.spdm_answers (hle : need ≤ c.sec.spdm) (hvalid : valid = true) :
    c.spdm need valid f = (f c).1.emit (.response (f c).2) :=
  (if_neg (by simp [h])).trans ((if_neg hle.not_gt).trans (if_neg (by simp [hvalid])))

end

/-- Settles O52: a burn by its fuses, the unlock by its challenge, and each request by the stage it needs. -/
theorem security : Obligations.security := by
  refine ⟨fun s hl => ⟨fun f t hdue hhold hruns hop hnext => ?_, fun f hdue hruns => ⟨fun hhold hnext => ⟨fun h0 => ?_, fun hF1 => ?_⟩,
    fun hhold => ⟨fun h0 => ?_, fun hF1 => ?_⟩, fun h0 hF1 => ?_⟩, fun level h => ?_, fun level h => ?_,
    fun level => ⟨fun hok h1 => ?_, fun hbad => ?_⟩, ?_⟩,
    fun s hl => ⟨?_, fun hdown i hi => ?_, fun hruns => ⟨?_, fun h1 => ?_, fun h0 => ?_, fun h2 => ⟨?_, ?_⟩, fun h3 => ⟨?_,
      fun slot off len hslot => ?_, fun slot nonce hslot => ?_, fun index nonce hindex => ?_⟩⟩⟩⟩
  · have hburn := burnStep_free (fuses := f.toNat) (nv := s.nv) hdue hruns hop hhold
    rw [hnext] at hburn
    exact ⟨_, _, ranNv_both_of (burnStep f.toNat) hl rfl hburn, rfl, rfl, s.nv.mem_burn f t,
      NonVol.svnCtr_mono (fun x hx => (s.nv.mem_burn f t x).2 (.inl hx)) t⟩
  · have hburn := burnStep_free (fuses := f.toNat) (nv := s.nv) hdue hruns (.inl h0) hhold
    rw [hnext, Chip.burnEnd, if_neg (by simp [h0])] at hburn
    exact ran_both_of (burnStep f.toNat) hl rfl hburn
  · have hburn := burnStep_free (fuses := f.toNat) (nv := s.nv) hdue hruns (.inr hF1) hhold
    rw [hnext, Chip.burnEnd, if_pos hF1] at hburn
    exact ran_both_of (burnStep f.toNat) hl rfl hburn
  · have hburn := burnStep_held (fuses := f.toNat) (nv := s.nv) hdue hruns (.inl h0) hhold
    rw [if_neg (by simp [h0])] at hburn
    exact ran_both_of (burnStep f.toNat) hl rfl hburn
  · have hburn := burnStep_held (fuses := f.toNat) (nv := s.nv) hdue hruns (.inr hF1) hhold
    rw [if_pos hF1] at hburn
    exact ran_both_of (burnStep f.toNat) hl rfl hburn
  · exact ran_both_of (burnStep f.toNat) hl rfl (burnStep_busy h0 hF1)
  · exact ⟨_, ran_chip (fun c => c.dbgChallenge level.toNat) hl rfl rfl, Chip.dbgChallenge_fresh level h⟩
  · exact ran_chip (fun c => c.dbgChallenge level.toNat) hl rfl (Chip.dbgChallenge_ignored level h)
  · subst h1
    exact ran_both_of (fun nv c => (nv, c.dbgSubmit nv (1 : BitVec 2).toNat)) hl rfl (congrArg (Prod.mk s.nv) (if_pos hok))
  · exact ran_both_of (fun nv c => (nv, c.dbgSubmit nv level.toNat)) hl rfl
      (congrArg (Prod.mk s.nv) (if_neg (ne_true_of_eq_false hbad)))
  · exact ⟨_, ran_chip Chip.lockSec hl rfl rfl, s.chip.lockSec_locks⟩
  · exact ⟨_, ran_chip (fun c => c.setSpdm 0) hl rfl rfl, rfl⟩
  · simp only [List.mem_cons, List.not_mem_nil, or_false] at hi
    rcases hi with rfl | rfl | rfl
    · exact ran_chip (fun c => c.spdm 0 true fun c => (c.setSpdm 1, [0x04, 0x13])) hl rfl (Chip.spdm_down _ hdown)
    · exact ran_chip (fun c => c.spdm 1 true fun c => (c.setSpdm 2, 0x61 :: Config.crypto 0x61 [])) hl rfl
        (Chip.spdm_down _ hdown)
    · exact ran_both_of (fun nv c => (nv, c.spdm 3 true fun c => (c, 0x01 :: c.certChain nv 0 ++ c.certChain nv 1))) hl rfl
        (congrArg (Prod.mk s.nv) (Chip.spdm_down _ hdown))
  · exact ran_chip (fun c => c.spdm 0 true fun c => (c.setSpdm 1, [0x04, 0x13])) hl rfl
      (Chip.spdm_answers _ hruns (Nat.zero_le _) rfl)
  · exact ran_chip (fun c => c.spdm 1 true fun c => (c.setSpdm 2, 0x61 :: Config.crypto 0x61 [])) hl rfl
      (Chip.spdm_answers _ hruns h1 rfl)
  · exact ran_chip (fun c => c.spdm 1 true fun c => (c.setSpdm 2, 0x61 :: Config.crypto 0x61 [])) hl rfl
      (Chip.spdm_early _ hruns (by omega))
  · exact ran_chip (fun c => c.spdm 2 true fun c => (c.setSpdm 3, 0x63 :: Config.crypto 0x63 [])) hl rfl
      (Chip.spdm_answers _ hruns h2 rfl)
  · exact ran_chip (fun c => c.spdm 2 false fun c => (c.setSpdm 3, 0x63 :: Config.crypto 0x63 [])) hl rfl
      (Chip.spdm_invalid _ hruns h2)
  · exact ran_both_of (fun nv c => (nv, c.spdm 3 true fun c => (c, 0x01 :: c.certChain nv 0 ++ c.certChain nv 1))) hl rfl
      (congrArg (Prod.mk s.nv) (Chip.spdm_answers _ hruns h3 rfl))
  · exact ran_both_of (fun nv c => (nv, c.spdm 3 (slotHeld slot.toNat) fun c =>
        (c, 0x02 :: Config.crypto 0x02 (off.toNat :: len.toNat :: c.certChain nv slot.toNat)))) hl rfl
      (congrArg (Prod.mk s.nv) (Chip.spdm_answers _ hruns h3 (decide_eq_true hslot)))
  · exact ran_both_of (fun nv c => (nv, c.spdm 3 (slotHeld slot.toNat) fun c =>
        (c, 0x03 :: Config.crypto 0x03 (c.ctr :: beNat nonce :: c.certChain nv slot.toNat ++ c.sec.measured)))) hl rfl
      (congrArg (Prod.mk s.nv) (Chip.spdm_answers _ hruns h3 (decide_eq_true hslot)))
  · refine ran_both_of (fun nv c => (nv, c.spdm 3 (decide (index.toNat ≤ 6) || index == 0xFF) fun c =>
        let m := c.measurements nv index.toNat
        (c, 0x60 :: m ++ (if false then Config.crypto 0x60 (c.ctr :: beNat nonce :: nv.uds :: m) else [])))) hl rfl
      (congrArg (Prod.mk s.nv) ((Chip.spdm_answers _ hruns h3 (by simp [hindex])).trans ?_))
    simp

end Sys2Proof.Machine

/-! ## What mailbox operations leave at their end, and ageing (R489 to R498) -/

namespace Sys2Proof.Machine

theorem apart_mgt : Chip.Apart Chip.mgt := ⟨fun _ _ => rfl, fun _ _ => rfl, fun _ _ _ => rfl, fun _ _ _ _ _ _ _ => rfl⟩

theorem Chip.regs_raiseMsix (c : Chip) (fn v : Nat) : (c.raiseMsix fn v).regs = c.regs := by
  unfold Chip.raiseMsix
  dsimp only
  split <;> rfl

/-! ### The end of an operation -/

/-- R489: the registers that the end of an operation writes, before its vector. -/
def Chip.endWords (c : Chip) (result : Nat) : Chip :=
  (((c.setFld Fld.MGT_STATUS_BUSY 0 0).setFld Fld.MGT_STATUS_DONE 0 1).setFld Fld.MGT_STATUS_RESULT 0 result).setRg
    Reg.MGT_OP 0

theorem Chip.regs_endOp (c : Chip) (result : Nat) : (c.endOp result).regs = (c.endWords result).regs := by
  unfold Chip.endOp
  dsimp only
  split
  · exact Chip.regs_raiseMsix _ 0 3
  · rfl

theorem Chip.mgt_endOp (c : Chip) (result : Nat) : (c.endOp result).mgt = { c.mgt with op := none } := by
  unfold Chip.endOp
  dsimp only
  split
  · exact apart_mgt.raiseOwner _ 3
  · rfl

theorem Chip.mgt_finishOp (c : Chip) (result : Nat) (res : List Nat) :
    (c.finishOp result res).mgt = { c.mgt with op := none } := by
  rw [Chip.finishOp, Chip.mgt_endOp,
    foldl_reads (f := Chip.mgt) (g := fun c i => c.setRg (Reg.MGT_RES + 4 * i) (BitVec.ofNat 32 (res.getD i 0))) fun _ _ => rfl]

theorem Chip.finishOp_registers (c : Chip) (result : Nat) (res : List Nat) :
    (c.finishOp result res).fld Fld.MGT_STATUS_BUSY = 0 ∧ (c.finishOp result res).fld Fld.MGT_STATUS_DONE = 1 ∧
    (c.finishOp result res).fld Fld.MGT_STATUS_RESULT = result % 2 ^ 8 ∧ (c.finishOp result res).rg Reg.MGT_OP = 0 ∧
    (c.finishOp result res).rg Reg.MGT_RES = BitVec.ofNat 32 (res.getD 0 0) := by
  generalize hd : (List.range 8).foldl (fun c i => c.setRg (Reg.MGT_RES + 4 * i) (BitVec.ofNat 32 (res.getD i 0))) c = d
  have hregs : (c.finishOp result res).regs = (d.endWords result).regs := by
    rw [Chip.finishOp, Chip.regs_endOp, hd]
  have hrg : ∀ a, (c.finishOp result res).rg a = (d.endWords result).rg a := fun a => by rw [Chip.rg, hregs, Chip.rg]
  have hres : d.rg Reg.MGT_RES = BitVec.ofNat 32 (res.getD 0 0) := by
    rw [← hd, show List.range 8 = [0, 1, 2, 3, 4, 5, 6, 7] by decide]
    simp (disch := decide) only [List.foldl_cons, List.foldl_nil, Chip.rg_setRg_ne]
    exact Chip.rg_setRg_self _ _ _
  rw [Chip.fld_congr hregs, Chip.fld_congr hregs, Chip.fld_congr hregs, hrg, hrg]
  unfold Chip.endWords
  refine ⟨?_, ?_, ?_, Chip.rg_setRg_self _ _ _, ?_⟩
  · rw [Chip.fld_setRg_ne _ _ _ (by decide), Chip.fld_setFld_apart _ Fld.MGT_STATUS_BUSY Fld.MGT_STATUS_RESULT _ rfl
      (by decide) (by decide) (by decide), Chip.fld_setFld_apart _ Fld.MGT_STATUS_BUSY Fld.MGT_STATUS_DONE _ rfl (by decide)
      (by decide) (by decide)]
    exact Chip.fld_setFld_self _ _ _ _ (by decide) (by decide)
  · rw [Chip.fld_setRg_ne _ _ _ (by decide), Chip.fld_setFld_apart _ Fld.MGT_STATUS_DONE Fld.MGT_STATUS_RESULT _ rfl
      (by decide) (by decide) (by decide)]
    exact Chip.fld_setFld_self _ _ _ _ (by decide) (by decide)
  · rw [Chip.fld_setRg_ne _ _ _ (by decide)]
    exact Chip.fld_setFld_self _ _ _ _ (by decide) (by decide)
  · simp (disch := decide) only [Chip.rg_setRg_ne, Chip.rg_setFld_ne]
    exact hres

/-! ### The work of an operation -/

theorem mgtDone_eq {w : MgtSample} {nv : NonVol} {c : Chip} {o : MgtOp} (hop : c.mgt.op = some o)
    (hruns : c.firmwareRuns = true) (hheld : c.opHeld o = false) :
    mgtDone w nv c = ((opWork w o nv c).1, (opWork w o nv c).2.1.finishOp (opWork w o nv c).2.2.1 (opWork w o nv c).2.2.2) := by
  unfold mgtDone
  rw [hop]
  exact if_neg (by simp [hruns, hheld])

section
variable {w : MgtSample} {o : MgtOp} {nv : NonVol} {c : Chip}

theorem opWork_info (h : o.code = 0x01) : opWork w o nv c = (nv, c, Res.done, infoRes nv c) := by
  unfold opWork
  rw [h]
  rfl

theorem opWork_ledgerReset (hok : w.flashOk = true) (h : o.code = 0x03) : opWork w o nv c =
    (nv.modLedger fun l => { l with failedBoots := 0, decision := 0 },
      c.showLedger (nv.modLedger fun l => { l with failedBoots := 0, decision := 0 }), Res.done, []) := by
  unfold opWork ledgerOp
  rw [h, hok]
  rfl

theorem opWork_rescue (hok : w.flashOk = true) (h : o.code = 0x04) : opWork w o nv c =
    (nv.modLedger fun l => { l with rescueNext := true },
      c.showLedger (nv.modLedger fun l => { l with rescueNext := true }), Res.done, []) := by
  unfold opWork ledgerOp
  rw [h, hok]
  rfl

theorem opWork_fwBegin (hok : w.flashOk = true) (h : o.code = 0x10) : opWork w o nv c =
    (nv.eraseSet (o.args.headD 0), { c with mgt := { c.mgt with staging := some { set := o.args.headD 0 } } },
      Res.done, []) := by
  unfold opWork
  rw [h, hok]
  rfl

theorem opWork_fwActivate (hok : w.flashOk = true) (h : o.code = 0x13) {st : Staging} (hst : c.mgt.staging = some st) :
    ∃ d r, opWork w o nv c = (nv.modLedger fun l => { l with
        prefSet := st.set, decision := l.decision &&& (0xFFFFFFFF ^^^ (2 ^ 5 + 2 ^ 8 + 2 ^ 14)) }, d, r) ∧
      d.mgt.staging = none := by
  unfold opWork
  rw [h, hok, hst]
  exact ⟨_, _, rfl, rfl⟩

theorem opWork_provision (h : o.code = 0x60) : opWork w o nv c = provision (o.args.headD 0) nv c := by
  unfold opWork
  rw [h]
  rfl

end

theorem NonVol.flashByte_eraseSet (nv : NonVol) {set a : Nat} (h : a / 0x1800000 = set) :
    (nv.eraseSet set).flashByte a = 0xFF := by
  have hgone : KMap.find a (nv.eraseSet set).flash = none :=
    KMap.find_drop_of (f := fun a => a / 0x1800000 == set) (by simpa using h) nv.flash
  rw [NonVol.flashByte, KMap.getD, hgone, Option.getD_none]

/-! ### ABORT -/

section
variable {nv : NonVol} {c : Chip} {o : MgtOp} (hop : c.mgt.op = some o) (hruns : c.firmwareRuns = true)
  (hfn : c.fnEnabled 0 = true)
include hop hruns hfn

theorem abortMgt_eq : abortMgt nv c =
    if o.code = 0x11 then
      (match c.mgt.staging with | some st => nv.eraseSet st.set | none => nv, c.finishOp Res.aborted [])
    else if o.code = 0x40 ∨ !o.groups.isEmpty then (nv, c.finishOp Res.aborted [])
    else (nv, c) := by
  unfold abortMgt
  rw [hop]
  exact if_neg (by simp [hruns, hfn])

theorem abortMgt_ends (hcode : o.code ≠ 0x11) (h : o.code = 0x40 ∨ o.groups ≠ []) :
    abortMgt nv c = (nv, c.finishOp Res.aborted []) :=
  (abortMgt_eq hop hruns hfn).trans ((if_neg hcode).trans (if_pos (by simpa using h)))

theorem abortMgt_leaves (hcode : o.code ≠ 0x11) (h40 : o.code ≠ 0x40) (h : o.groups = []) : abortMgt nv c = (nv, c) :=
  (abortMgt_eq hop hruns hfn).trans ((if_neg hcode).trans (if_neg (by simp [h40, h])))

end

/-! ### Ageing -/

theorem Chip.applyPoint_takes {c : Chip} {o : MgtOp} {g : Nat} (hop : c.mgt.op = some o) (hin : o.groups.contains g = true)
    (hwin : c.hasWindow g = true) (hruns : c.firmwareRuns = true) :
    (∀ i, i < 36 → (c.applyPoint g).mgt.bands.getD i 0 = (if i / 3 = g then o.bands.getD i 0 else c.mgt.bands.getD i 0)) ∧
    ∃ o', (c.applyPoint g).mgt.op = some o' ∧ o'.groups.contains g = false := by
  have happly : c.applyPoint g = { c with mgt := { c.mgt with
      bands := takeBands g c.mgt.bands o.bands, op := some { o with groups := o.groups.filter (· != g) } } } := by
    unfold Chip.applyPoint
    rw [hop]
    exact if_neg (by simp only [hin, hwin, hruns]; decide)
  rw [happly]
  refine ⟨fun i hi => ?_, _, rfl, by simp⟩
  simp [takeBands, List.getD_eq_getElem?_getD, hi]

theorem opHour_counts {nv : NonVol} {c : Chip} (hpow : c.powered = true) (hmode : c.fld Fld.MGT_STATE_MODE = 1)
    (hstate : c.fld Fld.PWR_DEVSTATE_STATE = 0) :
    (opHour nv c).1 = nv.modLedger fun l => { l with opHours := l.opHours + 1 } := by
  unfold opHour
  rw [if_neg (by simp [hpow, hmode, hstate])]

theorem Chip.mgt_replan (c : Chip) (code : Nat) :
    (c.replan code).mgt.op = some { code := code, args := c.mgtArgs, groups := List.range 12, bands := c.planBands } := by
  unfold Chip.replan
  dsimp only
  rw [foldl_reads (f := Chip.mgt) fun d g => apart_mgt.postEvent d 0 0x0081 0 g]
  split <;> rfl

theorem autoAge_measures {nv : NonVol} {c : Chip} (drift : List Byte) (hdue : 256 ≤ nv.ledger.opHours - nv.ledger.ageHours)
    (hruns : c.firmwareRuns = true) (hmode : c.fld Fld.MGT_STATE_MODE = 1) (hfree : c.flag Fld.MGT_STATUS_BUSY = false)
    (hawake : c.awake = true) :
    let nv1 := nv.modLedger fun l => { l with ageHours := l.opHours }
    autoAge drift nv c = (nv1, Chip.replan 0xF0 ((c.measureAge drift).showLedger nv1)) := by
  refine (if_neg ?_).trans (if_neg (by simp [hawake]))
  simp [Chip.mgtServed, Chip.inRescue, hruns, hmode, hfree, hdue]

theorem newBand_bounds (band drift sens : Nat) : band ≤ newBand band drift sens ∧
    (band % 5 = 0 → newBand band drift sens % 5 = 0) ∧ drift * sens ≤ 100 * newBand band drift sens := by
  unfold newBand
  generalize drift * sens = x
  omega

/-- Settles O55: each operation by its work and by the registers of its end; ABORT and the ageing by their cases. -/
theorem mailboxAndAgeing : Obligations.mailbox_and_ageing := by
  refine ⟨fun s w o hl hop hruns hheld hok => ?_, fun s hl => ⟨fun hnone => ?_, fun o hop hruns hfn => ⟨fun h => ?_,
    fun h hg => ?_, fun h hg => ?_, fun st h hst => ?_⟩, fun o g hop hin hwin hruns _ => ?_, fun hpow hmode hstate => ?_,
    fun drift hdue hruns hmode hfree hawake => ?_, newBand_bounds⟩⟩
  · obtain ⟨hbusy, hdone, hresult, hmop, hres⟩ := (opWork w o s.nv s.chip).2.1.finishOp_registers
      (opWork w o s.nv s.chip).2.2.1 (opWork w o s.nv s.chip).2.2.2
    have hmgt := (opWork w o s.nv s.chip).2.1.mgt_finishOp (opWork w o s.nv s.chip).2.2.1 (opWork w o s.nv s.chip).2.2.2
    refine ⟨_, _, ranNv_both_of (mgtDone w) hl rfl (mgtDone_eq hop hruns hheld), congrArg Mgt.op hmgt, hbusy, hdone, hmop,
      fun h => ?_, fun h => ?_, fun h => ?_, fun h => ?_, fun st h hst => ?_, fun h => ?_⟩
    · rw [hresult, hres, opWork_info h]
      exact ⟨rfl, rfl, rfl⟩
    · rw [hresult, opWork_ledgerReset hok h, NonVol.ledger_modLedger]
      exact ⟨rfl, rfl⟩
    · rw [hresult, opWork_rescue hok h, NonVol.ledger_modLedger]
      exact ⟨rfl, rfl⟩
    · rw [hmgt, opWork_fwBegin hok h]
      exact ⟨rfl, fun a ha => NonVol.flashByte_eraseSet s.nv ha⟩
    · obtain ⟨d, r, hwork, hd⟩ := opWork_fwActivate (nv := s.nv) hok h hst
      rw [hmgt, hwork, NonVol.ledger_modLedger]
      exact ⟨hd, rfl, rfl⟩
    · rw [hresult, opWork_provision h]
      exact ⟨rfl, rfl, rfl⟩
  · refine ran_both_of abortMgt hl rfl ?_
    rw [abortMgt, hnone]
  · exact ran_both_of abortMgt hl rfl (abortMgt_ends hop hruns hfn (by simp [h]) (.inl h))
  · exact ran_both_of abortMgt hl rfl (abortMgt_ends hop hruns hfn (by simp [h]) (.inr hg))
  · exact ran_both_of abortMgt hl rfl (abortMgt_leaves hop hruns hfn (by simp [h]) (by simp [h]) hg)
  · refine ranNv_both_of abortMgt hl rfl ((abortMgt_eq hop hruns hfn).trans ((if_pos h).trans ?_))
    rw [hst]
  · exact ⟨_, ran_chip (fun c => c.applyPoint g.toNat) hl rfl rfl, Chip.applyPoint_takes hop hin hwin hruns⟩
  · refine ⟨_, _, ranNv_both opHour hl rfl, ?_⟩
    rw [opHour_counts hpow hmode hstate, NonVol.ledger_modLedger]
    exact ⟨rfl, rfl⟩
  · refine ⟨_, _, ranNv_both_of (autoAge drift) hl rfl (autoAge_measures drift hdue hruns hmode hfree hawake), ?_,
      _, Chip.mgt_replan _ _, rfl, rfl⟩
    rw [NonVol.ledger_modLedger]

end Sys2Proof.Machine

/-! ## The front end: doorbells, fetch, begin, completion and QUEUE_CTL (R60 to R80, R89) -/

namespace Sys2Proof.Machine

/-! ### Doorbells -/

/-- R61: a DB_TAIL write that finds its queue and fits both windows. -/
theorem Chip.dbTail_accepted {c : Chip} {fn page : Nat} {val : Word} (hfn : c.fnEnabled fn = true)
    (hstate : (c.part fn).state = .opened ∨ (c.part fn).state = .ready) (hqueue : c.queueExists (fn * 64 + page) = true)
    (hok : c.tailOk (fn * 64 + page) val = true) :
    c.dbTail fn page val = c.wakeDevice.setQueue (fn * 64 + page) { c.queue (fn * 64 + page) with tail := val } := by
  refine (if_neg (by simp [hfn])).trans (if_neg ?_)
  rcases hstate with h | h <;> simp [Chip.exists?, h, hqueue, hok]

theorem Chip.discardDoorbell_eq {c : Chip} {fn : Nat} (hex : c.exists? fn = true) (q code val : Nat) :
    c.discardDoorbell fn q code val = (c.count Fld.DB_DISCARD_COUNT (pg fn)).postEvent fn code q val := by
  unfold Chip.discardDoorbell
  rw [if_pos hex]

/-- R61: any other is discarded. -/
theorem Chip.dbTail_discarded {c : Chip} {fn page : Nat} {val : Word} (hfn : c.fnEnabled fn = true)
    (hex : c.exists? fn = true) (hbad : (c.part fn).state = .resetting ∨ c.queueExists (fn * 64 + page) = false ∨
      c.tailOk (fn * 64 + page) val = false) :
    c.dbTail fn page val
      = (c.count Fld.DB_DISCARD_COUNT (pg fn)).postEvent fn 0x0004 (fn * 64 + page) val.toNat := by
  refine (if_neg (by simp [hfn])).trans ((if_pos ?_).trans (Chip.discardDoorbell_eq hex _ _ _))
  rcases hbad with h | h | h <;> simp [h]

theorem Chip.cplHeadWrite_accepted {c : Chip} {fn page : Nat} {val : Word} (hfn : c.fnEnabled fn = true)
    (hex : c.exists? fn = true) (hqueue : c.queueExists (fn * 64 + page) = true) (hok : c.cplOk (fn * 64 + page) val = true) :
    c.cplHeadWrite fn page val = c.setQueue (fn * 64 + page) { c.queue (fn * 64 + page) with cplHead := val } :=
  (if_neg (by simp [hfn])).trans (if_neg (by simp [hex, hqueue, hok]))

/-- Settles O5, by the cases of a doorbell's acceptance. -/
theorem doorbells : Obligations.doorbells :=
  ⟨fun _ fn page v hup hfn hqueue =>
    ⟨fun hstate hok => ran_host (fun c => c.dbTail fn.toNat page.toNat v) hup rfl
      (Chip.dbTail_accepted hfn hstate hqueue hok),
    fun hex hok => ran_host (fun c => c.cplHeadWrite fn.toNat page.toNat v) hup rfl
      (Chip.cplHeadWrite_accepted hfn hex hqueue hok)⟩,
  fun _ fn page v hup hfn hex hbad => ran_host (fun c => c.dbTail fn.toNat page.toNat v) hup rfl
    (Chip.dbTail_discarded hfn hex hbad)⟩

/-! ### Fetch and begin -/

theorem Chip.fetch_eq {c : Chip} {q : Nat} {b : List Byte} (hmay : c.mayFetch q = true)
    (hread : c.readPP (partOf q) (c.ringBase q + 64 * ((c.queue q).head.toNat % 2 ^ c.ringLog2 q)) 64 = .ok b) :
    c.fetch q = c.setQueue q { c.queue q with
      head := (c.queue q).head + 1, fetched := (c.queue q).fetched ++ [.ok (Desc.ofBytes b)] } := by
  have hdesc : c.fetchDesc q (c.queue q).head = .ok (Desc.ofBytes b) := by
    unfold Chip.fetchDesc
    rw [hread]
  refine (if_neg (by simp [hmay])).trans ?_
  dsimp only
  rw [hdesc, hread]

/-- R65, R66: the entry that a descriptor takes as it begins. -/
def Chip.newEntry (c : Chip) (q : Nat) (d : Desc) : Entry :=
  { index := (c.queue q).next, desc := d, loaded := !d.indirect, began := c.gtc, decodedAt := c.gtc, beginSeq := c.waitCtr }

/-- R65, R66, R90: a descriptor in its entry, in the lowest free slot, and its queue on the run list. -/
def Chip.entered (c : Chip) (q : Nat) (d : Desc) (rest : List Fetched) : Chip :=
  let x := c.queue q
  let slot := x.freeSlot fun j => (KMap.find (q * 64 + j) c.grids).isSome
  { (if clusterOp d.opcode then c.joinRunList q else c) with waitCtr := c.waitCtr + 1 }.setQueue q
    { x with fetched := rest, next := x.next + 1, entries := KMap.set slot (c.newEntry q d) x.entries, lateLeft := 0 }

theorem Chip.beginNext_eq {c : Chip} {q : Nat} {d : Desc} {rest : List Fetched} (hnext : (c.queue q).fetched = .ok d :: rest)
    (hmay : c.mayBegin q (.ok d) = true) (hlate : (c.queue q).lateLeft = 0) :
    let slot := (c.queue q).freeSlot fun j => (KMap.find (q * 64 + j) c.grids).isSome
    c.beginNext q = match (c.entered q d rest).decodeCheck q d with
      | none => if clusterOp d.opcode then (c.entered q d rest).beginCluster q slot else c.entered q d rest
      | some (st, halts) => (c.entered q d rest).finish q slot st 0 halts := by
  have hstep : (c.queue q).lateStep (.ok d) = (0, false) := if_pos (.inl hlate)
  intro slot
  unfold Chip.beginNext
  rw [hnext]
  refine (if_pos hmay).trans ?_
  unfold Chip.beginEntry
  dsimp only
  rw [hstep]
  refine (if_neg Bool.false_ne_true).trans ?_
  show (match (c.entered q d rest).decodeCheck q d with | some (s, h) => _ | none => _) = _
  cases (c.entered q d rest).decodeCheck q d with
  | none => rfl
  | some r => rfl

/-- Settles O6, by what the front end reads at the head and by the check that the decoded descriptor passes. -/
theorem fetchAndBegin : Obligations.fetch_and_begin :=
  ⟨fun _ q _ hl hmay hread => ran_chip (fun c => c.fetch q.toNat) hl rfl (Chip.fetch_eq hmay hread),
   fun _ q _ _ hl hnext hmay hlate => ran_chip (fun c => c.beginNext q.toNat) hl rfl (Chip.beginNext_eq hnext hmay hlate)⟩

/-! ### Completion -/

theorem haltsQueue_false (q : Nat) (op : Byte) (st : Half) : haltsQueue q op st false = false := rfl

/-- R80: a descriptor that has executed and has no signal to give. -/
theorem Chip.complete_eq {c : Chip} {q slot : Nat} {e : Entry} {st : Half} {detail : Word} (u : Usage)
    (he : c.entry q slot = some e) (hdone : e.phase = .done st detail false) (hreset : c.inReset (partOf q) = false)
    (hack : c.acknowledged q slot = true) (hturn : c.lateTurn q slot e st = true) (hsig : e.desc.signalAfter = false) :
    let d := ((c.accountUsage (partOf q) e.desc.tag.toNat u).countMark q e).writeRecord q
      (statusWithWarning st e.warn (c.marked q e)) e.desc.tag e.index u.cycles detail e.desc.opcode
    c.complete q slot u = (((if e.desc.opcode.toNat = Op.draw ∧ isError st = true ∧ st ≠ St.malformed then d.failChain q st false
      else d).noteBatch q e.desc.opcode.toNat).freeEntry q slot) := by
  have hsignal : c.signalAfter q slot e st = (c, some st) := if_pos (by simp [hsig])
  unfold Chip.complete
  rw [he]
  dsimp only
  rw [hdone]
  refine (if_neg (by simp [hreset, hack, hturn])).trans ?_
  rw [hsignal]
  dsimp only
  rw [haltsQueue_false, if_neg Bool.false_ne_true]

theorem Chip.coalesce_eq {c : Chip} {q : Nat} (hmode : (c.queue q).irqMode = 2) (hseen : 0 < (c.queue q).coalSeen) :
    c.coalesce q = (c.setQueue q { c.queue q with coalSeen := 0 }).raiseVector (partOf q) (c.queue q).vector :=
  if_pos ⟨hmode, hseen⟩

/-- Settles O8, by what a completion that only accounts and records does. -/
theorem completion : Obligations.completion :=
  ⟨fun _ q slot u _ _ _ hl he hdone hreset hack hturn hsig =>
    ran_chip (fun c => c.complete q.toNat slot.toNat u) hl rfl (Chip.complete_eq u he hdone hreset hack hturn hsig),
  fun _ q hl hmode hseen => ran_chip (fun c => c.coalesce q.toNat) hl rfl (Chip.coalesce_eq hmode hseen)⟩

/-! ### QUEUE_CTL -/

theorem Chip.setQState_work {c : Chip} {t : Nat} (hwork : indexOf t ≠ 0) (st : QState) (status : Half) :
    c.setQState t st status = c.setQueue t { c.queue t with state := st, haltStatus := status } := if_pos hwork

theorem Chip.setQueue_setQueue (c : Chip) (t : Nat) (x y : Queue) : (c.setQueue t x).setQueue t y = c.setQueue t y := by
  simp [Chip.setQueue]

section
variable {c : Chip} {q slot : Nat} {e : Entry}

/-- R77: a QUEUE_CTL runs the operation that it names. -/
theorem Chip.runCtl_ready {op : Nat} (f : Chip → Entry → Nat → Chip) (h : Holds c q slot Op.queueCtl e)
    (hop : dbits e.desc.p0 2 0 = op) : c.runCtl q slot op f = f c e (ctlTarget q e.desc) :=
  (run_ready _ h).trans (if_pos hop)

variable (h : Holds c q slot Op.queueCtl e)
include h

theorem Chip.queueCreate_eq (hop : dbits e.desc.p0 2 0 = 0)
    (hgood : c.createBad (partOf q) (ctlTarget q e.desc) e.desc = false)
    (hasid : c.asidOk (partOf q) (dbits e.desc.p0 43 32) = true) :
    c.queueCreate q slot = (c.createQueue (ctlTarget q e.desc) e.desc).finishOk q slot :=
  (Chip.runCtl_ready _ h hop).trans ((if_neg (by simp [hgood])).trans (if_neg (by simp [hasid])))

theorem Chip.queueDestroy_eq (hop : dbits e.desc.p0 2 0 = 1) (hex : c.queueExists (ctlTarget q e.desc) = true) :
    c.queueDestroy q slot = (c.setEntry q slot { e with phase := .running, watch := .unbound (ctlTarget q e.desc) }).stopQueue
      (ctlTarget q e.desc) :=
  (Chip.runCtl_ready _ h hop).trans (if_neg (by simp [hex]))

theorem Chip.queueResume_eq (hop : dbits e.desc.p0 2 0 = 2) (hhalted : (c.queue (ctlTarget q e.desc)).state = .halted) :
    c.queueResume q slot = (c.setQState (ctlTarget q e.desc) .running 0).finishOk q slot :=
  (Chip.runCtl_ready _ h hop).trans (if_neg (by simp [hhalted]))

/-- R78: a FLUSH with nothing that has not begun sets the queue running. -/
theorem Chip.queueFlush_none (hop : dbits e.desc.p0 2 0 = 3) (hhalted : (c.queue (ctlTarget q e.desc)).state = .halted)
    (hbegun : (c.queue (ctlTarget q e.desc)).tail = (c.queue (ctlTarget q e.desc)).next)
    (hwork : indexOf (ctlTarget q e.desc) ≠ 0) :
    c.queueFlush q slot = (c.setQueue (ctlTarget q e.desc) { c.queue (ctlTarget q e.desc) with
      state := .running, haltStatus := 0 }).finishOk q slot := by
  refine (Chip.runCtl_ready _ h hop).trans ((if_neg (by simp [hhalted])).trans ?_)
  generalize ctlTarget q e.desc = t at hhalted hbegun hwork ⊢
  dsimp only
  have hnone : ((c.queue t).tail - (c.queue t).next).toNat = 0 := by rw [hbegun, BitVec.sub_self, BitVec.toNat_zero]
  rw [hnone, Chip.flushMany, Chip.setQState_work hwork, if_pos (by simp),
    Chip.setQState_work hwork, Chip.setQueue_setQueue, Chip.queue_setQueue_self]

theorem Chip.queueModify_eq (hop : dbits e.desc.p0 2 0 = 4) (hex : c.queueExists (ctlTarget q e.desc) = true) :
    c.queueModify q slot = (c.setQueue (ctlTarget q e.desc) { c.queue (ctlTarget q e.desc) with
      vector := dbits e.desc.p2 5 0, irqMode := dbits e.desc.p2 9 8, coalCount := dbits e.desc.p2 23 16,
      coalUs := dbits e.desc.p2 41 32, sliceUs := dbits e.desc.p3 13 0 }).finishOk q slot :=
  (Chip.runCtl_ready _ h hop).trans (if_neg (by simp [hex]))

end

/-- Settles O9, operation by operation. -/
theorem queueControl : Obligations.queue_control := by
  refine fun s q slot e hl => ⟨fun h => ?_, fun h => ⟨fun hop hgood hasid => ?_, fun hop hex => ⟨fun hsome => ?_, fun hnone => ?_⟩,
    fun hop hhalted => ?_, fun hop hhalted hbegun hwork => ?_, fun hop hex => ?_⟩⟩
  · exact ran_chip (fun c => c.run q.toNat slot.toNat Op.nop fun c _ => c.finishOk q.toNat slot.toNat) hl rfl
      ((run_ready _ h).trans (finishOk_entry h.1 0))
  · exact ran_chip (fun c => c.queueCreate q.toNat slot.toNat) hl rfl (Chip.queueCreate_eq h hop hgood hasid)
  · exact ran_chip (fun c => c.queueDestroy q.toNat slot.toNat) hl rfl ((Chip.queueDestroy_eq h hop hex).trans
      (if_neg (by simpa using hsome)))
  · exact ran_chip (fun c => c.queueDestroy q.toNat slot.toNat) hl rfl ((Chip.queueDestroy_eq h hop hex).trans
      (if_pos (by simpa using hnone)))
  · exact ran_chip (fun c => c.queueResume q.toNat slot.toNat) hl rfl (Chip.queueResume_eq h hop hhalted)
  · exact ran_chip (fun c => c.queueFlush q.toNat slot.toNat) hl rfl (Chip.queueFlush_none h hop hhalted hbegun hwork)
  · exact ran_chip (fun c => c.queueModify q.toNat slot.toNat) hl rfl (Chip.queueModify_eq h hop hex)

end Sys2Proof.Machine

/-! ## Grids and launches, LAUNCH_AT and CHECKPOINT, fences and semaphores (R97 to R108, R123 to R142, R391 to R401) -/

namespace Sys2Proof.Machine

/-! ### DISPATCH and launches -/

section
variable {c : Chip} {q slot : Nat} {e : Entry} {b : List Byte}

theorem Chip.compareKey_same {c : Chip} {q : Nat} {h : Header} (slot : Nat) (hkey : c.keyWhy (partOf q) h = 0) :
    c.compareKey q slot h = c := if_pos hkey

/-- R124 to R127: a DISPATCH whose header passes every check, and carries the machine's own key. -/
theorem Chip.dispatch_eq (hh : Holds c q slot Op.dispatch e)
    (hread : c.readVA (c.actor q slot) e.desc.p0.toNat 256 = .ok b) (hok : (Header.ofBytes b).ok = true)
    (hgeo : (Geometry.of e.desc).ok (Header.ofBytes b) = true) (hcaps : c.capsOk (Header.ofBytes b) = true)
    (hkey : c.keyWhy (partOf q) (Header.ofBytes b) = 0) :
    c.dispatch q slot =
      let g := Geometry.of e.desc
      if g.gx * g.gy * g.gz = 0 then c.ended q slot e St.ok 0
      else (c.setEntry q slot { e with phase := .running }).setGrid q slot
        (gridOf e.desc (Header.ofBytes b) g e.index e.beginSeq) := by
  have hentry : c.entry q slot = some e := hh.1
  refine (run_ready _ hh).trans ?_
  dsimp only
  rw [hread]
  dsimp only
  rw [Chip.compareKey_same slot hkey, if_neg (by simp [hok, hgeo]), if_neg (by simp [hcaps]), finishOk_entry hentry, hentry]

end

theorem Chip.revive_of_grid {c : Chip} {q slot : Nat} {g : Grid} (hg : c.grid q slot = some g) : c.revive q slot = c := by
  unfold Chip.revive
  rw [hg]

theorem Chip.grids_claimDisplay (c : Chip) (q slot : Nat) : (c.claimDisplay q slot).grids = c.grids := by
  unfold Chip.claimDisplay
  split
  · rfl
  · split
    · rfl
    · split
      · rfl
      · rfl

/-- R126, R127: the launch of the item that the scheduler has chosen, in a descriptor that was not pre-empted. -/
theorem Chip.launchItem_eq {c c2 : Chip} {q slot cl i : Nat} {g g2 : Grid} {own : Nat → Bool}
    {start : Chip → Grid → Nat → Except Chip (Chip × Grid)} (hg : c.grid q slot = some g) (hsaved : g.saved = false)
    (hchoice : (c.claimDisplay q slot).launchChoice q cl g = some i) (hown : own i = true)
    (hstart : start (c.claimDisplay q slot) g i = .ok (c2, g2)) :
    c.launchItem q slot cl own start = c2.setGrid q slot (g2.launched cl i) := by
  have hgrid : (c.claimDisplay q slot).grid q slot = some g := by
    rw [Chip.grid, Chip.grids_claimDisplay, ← Chip.grid, hg]
  have hg' : ({ g with saved := false } : Grid) = g := by rw [← hsaved]
  unfold Chip.launchItem
  dsimp only
  rw [hgrid]
  dsimp only
  rw [hchoice]
  dsimp only
  rw [if_neg (by simp [hown]), if_neg (by simp [hsaved])]
  dsimp only
  rw [hg', hstart]

/-- Settles O10: the checks of a DISPATCH pass, and a launch places the item that the scheduler has chosen. -/
theorem grids : Obligations.grids := by
  unfold Obligations.grids
  refine ⟨fun s q slot e b hl hh hread => ?_, fun s q slot cl g i hl hg hsaved => ?_⟩
  · intro h g hok hgeo hcaps hkey
    have hdispatch := Chip.dispatch_eq hh hread hok hgeo hcaps hkey
    exact ⟨fun hempty => ran_chip (fun c => c.dispatch q.toNat slot.toNat) hl rfl (hdispatch.trans (if_pos hempty)),
      fun hempty => ran_chip (fun c => c.dispatch q.toNat slot.toNat) hl rfl (hdispatch.trans (if_neg hempty))⟩
  · intro ch hchoice
    refine ⟨fun hrun => ran_chip (fun c => c.workgroupLaunch q.toNat slot.toNat cl.toNat) hl rfl ?_, ?_⟩
    · unfold Chip.workgroupLaunch
      rw [Chip.revive_of_grid hg]
      dsimp only
      rw [hg, Option.bind_some, hrun]
      exact Chip.launchItem_eq hg hsaved hchoice rfl rfl
    · intro d ix hrun hlt per hix cut
      refine ran_chip (fun c => c.workgroupLaunch q.toNat slot.toNat cl.toNat) hl rfl ?_
      unfold Chip.workgroupLaunch
      rw [Chip.revive_of_grid hg]
      dsimp only
      rw [hg, Option.bind_some, hrun]
      refine Chip.launchItem_eq (g2 := { g with run := some { d with restarts := distinct (d.restarts ++ cut) } })
        hg hsaved hchoice (decide_eq_true hlt) ?_
      unfold Chip.launchBatch
      dsimp only
      rw [hix]

/-! ### LAUNCH_AT and CHECKPOINT -/

section
variable {c : Chip} {q slot : Nat} {e : Entry}

theorem Chip.entry_setQueue {c : Chip} {q slot : Nat} {x : Queue} (hentries : x.entries = (c.queue q).entries) :
    (c.setQueue q x).entry q slot = c.entry q slot := by
  rw [Chip.entry, Chip.queue_setQueue_self, hentries, ← Chip.entry]

/-- R391: a LAUNCH_AT named at least 50 µs ahead of its decoding, and not before it began, waits. -/
theorem Chip.launchAt_waits (hh : Holds c q slot Op.launchAt e) (hahead : e.decodedAt.toNat + 50000 ≤ e.desc.p0.toNat)
    (hbegan : e.began.toNat ≤ e.desc.p0.toNat) :
    c.launchAt q slot = c.setEntry q slot { e with phase := .waiting, watch := .launch e.desc.p0 } :=
  (run_ready _ hh).trans (if_neg (by omega))

/-- R392: one named later than that ends with LAUNCH_LATE. -/
theorem Chip.launchAt_late (hh : Holds c q slot Op.launchAt e) (hlate : e.desc.p0.toNat < e.decodedAt.toNat + 50000) :
    c.launchAt q slot = (c.setQueue q { c.queue q with
      lateLeft := ((c.queue q).tail - (c.queue q).next).toNat }).ended q slot e St.launchLate 0 := by
  have hentry := (Chip.entry_setQueue (c := c) (q := q) (slot := slot) (x := { c.queue q with
    lateLeft := ((c.queue q).tail - (c.queue q).next).toNat }) rfl).trans hh.1
  exact (run_ready _ hh).trans ((if_pos (Or.inl hlate)).trans (finish_entry hentry _ _))

/-- R391: before the named count, a release does nothing. -/
theorem Chip.launchRelease_early {n : Dword} (hentry : c.entry q slot = some e) (hphase : e.phase = .waiting)
    (hwatch : e.watch = .launch n) (hearly : c.gtc.toNat < n.toNat) : c.launchRelease q slot = c := by
  unfold Chip.launchRelease
  rw [hentry]
  dsimp only
  rw [hphase, hwatch]
  exact if_pos hearly

/-- R391: at the named count, in an elastic partition that holds no degraded group, it is recorded and completes. -/
theorem Chip.launchRelease_elastic {n : Dword} (hentry : c.entry q slot = some e) (hphase : e.phase = .waiting)
    (hwatch : e.watch = .launch n) (hdue : n.toNat ≤ c.gtc.toNat) (hdet : (c.part (partOf q)).det = false)
    (hwhole : c.flag Fld.RAS_PSTATUS_DEGRADED (pg (partOf q)) = false) :
    c.launchRelease q slot = ((c.setRg64 (Reg.DET_LAST_LAUNCH_LO + pg (partOf q))
      (Reg.DET_LAST_LAUNCH_HI + pg (partOf q)) n.toNat).sourceSignal 5 (partOf q)).finishOk q slot := by
  unfold Chip.launchRelease
  rw [hentry]
  dsimp only
  rw [hphase, hwatch]
  dsimp only
  rw [if_neg (by omega), hdet, hwhole]
  rfl

/-- R142: a CHECKPOINT of a partition that is not paired commits as soon as it may. -/
theorem Chip.checkpoint_commits (hh : Holds c q slot Op.checkpoint e) (hmay : c.mayCommit q slot e = true)
    (hpair : (c.part (partOf q)).pairEn = false) : c.checkpoint q slot = c.commit q slot e :=
  (run_ready _ hh).trans ((if_neg (by simp [hmay])).trans (if_pos (by simp [hpair])))

/-- R401: a message whose release is still to come settles nothing. -/
theorem Chip.settlePair_early {m : SigMsg} (hm : KMap.find q c.sigIn = some m)
    (hearly : c.gtc.toNat < m.release.toNat) : c.settlePair q = c := by
  unfold Chip.settlePair
  rw [hm]
  exact if_pos hearly

/-- R401: a released message that agrees with what was sent, and passes no reasons on, commits the CHECKPOINT. -/
theorem Chip.comparePair_agrees {m : SigMsg} (hcommit : m.commit.toNat = dbits e.desc.p0 31 0) (hreasons : m.reasons = 0) :
    c.comparePair q slot e m.sig m =
      ({ c with sigIn := KMap.erase q c.sigIn }.setEntry q slot e).commit q slot e := by
  unfold Chip.comparePair
  dsimp only
  rw [if_neg (by simpa using hcommit), if_neg (by simp), hreasons]
  simp

/-- R142, R401: the queue's one descriptor is a CHECKPOINT that waits for a message which has been released. -/
theorem Chip.settlePair_commits {m : SigMsg} (hm : KMap.find q c.sigIn = some m) (hdue : m.release.toNat ≤ c.gtc.toNat)
    (hentries : (c.queue q).entries = [(slot, e)]) (hphase : e.phase = .waiting) (hwatch : e.watch = .partner m.sig)
    (hcommit : m.commit.toNat = dbits e.desc.p0 31 0) (hreasons : m.reasons = 0)
    (herror : c.errorPending q e.index = false) :
    c.settlePair q = ({ c with sigIn := KMap.erase q c.sigIn }.setEntry q slot e).commit q slot e := by
  unfold Chip.settlePair
  rw [hm]
  dsimp only
  rw [if_neg (by omega), hentries, List.foldl_cons, List.foldl_nil]
  dsimp only
  rw [hphase, hwatch]
  dsimp only
  rw [herror]
  exact Chip.comparePair_agrees hcommit hreasons

end

/-- Settles O11: each form by its own branch of the model. -/
theorem launchAndCheckpoint : Obligations.launch_and_checkpoint := by
  unfold Obligations.launch_and_checkpoint
  refine ⟨fun s q slot e hl => ⟨fun hh => ⟨fun hahead hbegan => ?_, fun hlate => ?_⟩,
    fun n hentry hphase hwatch => ⟨fun hearly => ?_, fun hdue hdet hwhole => ?_⟩⟩, fun s q slot e hl => ⟨?_, ?_, ?_⟩⟩
  · exact ran_chip (fun c => c.launchAt q.toNat slot.toNat) hl rfl (Chip.launchAt_waits hh hahead hbegan)
  · exact ran_chip (fun c => c.launchAt q.toNat slot.toNat) hl rfl (Chip.launchAt_late hh hlate)
  · exact ran_chip (fun c => c.launchRelease q.toNat slot.toNat) hl rfl
      (Chip.launchRelease_early hentry hphase hwatch hearly)
  · exact ran_chip (fun c => c.launchRelease q.toNat slot.toNat) hl rfl
      (Chip.launchRelease_elastic hentry hphase hwatch hdue hdet hwhole)
  · intro hh hmay hpair
    exact ran_chip (fun c => c.checkpoint q.toNat slot.toNat) hl rfl (Chip.checkpoint_commits hh hmay hpair)
  · intro a hpair hearly hgtc
    have hexec : exec (.signatureMessage q (some a)) s = execSignatureMessage q (some a) s := rfl
    refine ran_chip _ hl (hexec.trans (by rw [execSignatureMessage])) ?_
    dsimp only
    rw [if_neg (by simp [hpair])]
    exact Chip.settlePair_early (KMap.find_set_self _ _ _) (lt_of_eq_of_lt (congrArg BitVec.toNat hgtc) hearly)
  · intro m sent hm hdue hentries hphase hwatch hcommit hsig hreasons herror
    exact ran_chip (fun c => c.settlePair q.toNat) hl rfl
      (Chip.settlePair_commits hm hdue hentries hphase (hsig ▸ hwatch) hcommit hreasons herror)

/-! ### Synchronisation words -/

section
variable {c : Chip} {w : Actor} {k : Access} {va a q slot : Nat} {e : Entry} {b : List Byte}

/-- R102, R106: a word in the partition's own memory, outside a refresh window. -/
theorem Chip.syncWord_here (htr : c.translate w k va = .ok (.here a)) (hwin : c.inWindow w.p a 8 = false) :
    c.syncWord w k va = .ok a := by
  unfold Chip.syncWord
  rw [htr]
  exact if_neg (by simp [hwin])

theorem Chip.signalFence_regression {v : Nat} {who : Requester} (htr : c.translate w .atomic va = .ok (.here a))
    (hwin : c.inWindow w.p a 8 = false) (hread : c.readPP w.p a 8 = .ok b) (hlt : v < leNat b) :
    c.signalFence w q va v who = .done (c.regression q va) := by
  unfold Chip.signalFence
  rw [htr]
  dsimp only
  rw [if_neg (by simp [hwin]), hread]
  exact if_pos hlt

theorem Chip.signalFence_stores {v : Nat} {who : Requester} {c' : Chip}
    (htr : c.translate w .atomic va = .ok (.here a)) (hwin : c.inWindow w.p a 8 = false)
    (hread : c.readPP w.p a 8 = .ok b) (hle : leNat b ≤ v) (hv : v ≠ 2 ^ 64 - 1)
    (hwrite : c.writePP w.p a (leBytes 8 v) = .ok c') :
    c.signalFence w q va v who = .done (c'.sign q w.p a (leBytes 8 v)) := by
  unfold Chip.signalFence
  rw [htr]
  dsimp only
  rw [if_neg (by simp [hwin]), hread]
  dsimp only
  rw [if_neg (by omega), hwrite]
  dsimp only
  rw [if_neg (fun h => hv h.1)]

/-- R101: what a FENCE_SIGNAL does when its word is signalled at once. -/
theorem Chip.fenceSignal_done {c' : Chip} (hh : Holds c q slot Op.fenceSignal e)
    (hdone : c.signalFence (c.actor q slot) q e.desc.p0.toNat e.desc.p1.toNat (.entry q slot) = .done c') :
    c.fenceSignal q slot = c'.finishOk q slot := by
  refine (run_ready _ hh).trans ?_
  dsimp only
  rw [hdone]

/-- R104: a FENCE_WAIT compares its value with the word. -/
theorem Chip.fenceWait_eq {l : Nat} (hh : Holds c q slot Op.fenceWait e)
    (hword : c.syncWord (c.actor q slot) .read e.desc.p0.toNat = .ok a)
    (hread : c.readPP (partOf q) a 8 = .ok b) (hloc : (c.part (partOf q)).loc a = some l) :
    c.fenceWait q slot = if e.desc.p1.toNat ≤ leNat b then c.finishOk q slot
      else c.startWait q slot e (.fence l e.desc.p1 false) := by
  refine (run_ready _ hh).trans ?_
  dsimp only
  rw [hword]
  dsimp only
  rw [show c.readPP (c.actor q slot).p a 8 = .ok b from hread,
    show (c.part (c.actor q slot).p).loc a = some l from hloc]

theorem Chip.startWait_running {wt : Watch} (hrun : (c.queue q).stopping = false) :
    c.startWait q slot e wt = { c.setEntry q slot { e with phase := .waiting, watch := wt, waitSeq := c.waitCtr } with
      waitCtr := c.waitCtr + 1 }.holdQueue q :=
  if_neg (by simp [hrun])

theorem Chip.startWait_stopping {wt : Watch} (hstop : (c.queue q).stopping = true) :
    c.startWait q slot e wt = c.finish q slot St.queueFaulted 0 :=
  if_pos hstop

theorem Chip.fenceWake_met {l : Nat} {v : Dword} (hentry : c.entry q slot = some e) (hphase : e.phase = .waiting)
    (hwatch : e.watch = .fence l v true) : c.fenceWake q slot = c.ended q slot e St.ok 0 := by
  unfold Chip.fenceWake
  rw [hentry]
  dsimp only
  rw [hphase, hwatch]
  exact finishOk_entry hentry 0

end

/-- Settles O12: the word is signalled, compared, waited for and woken at. -/
theorem fences : Obligations.fences := by
  unfold Obligations.fences
  refine ⟨fun s q slot e a b hl hh htr hwin hread => ⟨fun hlt => ?_, fun c hle hv hwrite => ?_⟩,
    fun s q slot e hl => ⟨fun a l b hh htr hwin hread hloc => ?_, fun l v hentry hphase hwatch => ?_⟩⟩
  · exact ran_chip (fun c => c.fenceSignal q.toNat slot.toNat) hl rfl
      (Chip.fenceSignal_done hh (Chip.signalFence_regression htr hwin hread hlt))
  · exact ran_chip (fun c => c.fenceSignal q.toNat slot.toNat) hl rfl
      (Chip.fenceSignal_done hh (Chip.signalFence_stores htr hwin hread hle hv hwrite))
  · have hwait := Chip.fenceWait_eq hh (Chip.syncWord_here htr hwin) hread hloc
    refine ⟨fun hle => ?_, fun hlt hrun => ?_, fun hlt hstop => ?_⟩
    · exact ran_chip (fun c => c.fenceWait q.toNat slot.toNat) hl rfl
        ((hwait.trans (if_pos hle)).trans (finishOk_entry hh.1 0))
    · exact ran_chip (fun c => c.fenceWait q.toNat slot.toNat) hl rfl
        ((hwait.trans (if_neg (by omega))).trans (Chip.startWait_running hrun))
    · exact ran_chip (fun c => c.fenceWait q.toNat slot.toNat) hl rfl
        (((hwait.trans (if_neg (by omega))).trans (Chip.startWait_stopping hstop)).trans (finish_entry hh.1 _ _))
  · exact ran_chip (fun c => c.fenceWake q.toNat slot.toNat) hl rfl (Chip.fenceWake_met hentry hphase hwatch)

section
variable {c c' : Chip} {q slot p a n tag : Nat} {e : Entry} {b : List Byte}

theorem Chip.acquire_takes (hread : c.readPP p a 8 = .ok b) (hle : n ≤ semCount (leNat b))
    (hwrite : c.writePP p a (leBytes 8 (tag * 2 ^ 48 + (semCount (leNat b) - n))) = .ok c') :
    c.acquire q p a n tag = .ok (some (c'.signLeft q p a 8)) := by
  unfold Chip.acquire
  rw [hread]
  dsimp only
  rw [if_pos hle, hwrite]

theorem Chip.acquire_short (hread : c.readPP p a 8 = .ok b) (hlt : semCount (leNat b) < n) :
    c.acquire q p a n tag = .ok none := by
  unfold Chip.acquire
  rw [hread]
  exact if_neg (by omega)

/-- R106: a SEM_ACQUIRE whose atomic takes the count. -/
theorem Chip.semAcquire_takes (hh : Holds c q slot Op.semAcquire e)
    (hword : c.syncWord (c.actor q slot) .atomic e.desc.p0.toNat = .ok a)
    (hacq : c.acquire q (partOf q) a (dbits e.desc.p1 47 0) e.desc.tag.toNat = .ok (some c')) :
    c.semAcquire q slot = (c'.finishOk q slot).donateAll := by
  refine (run_ready _ hh).trans ?_
  dsimp only
  rw [hword]
  dsimp only
  rw [show c.acquire q (c.actor q slot).p a (dbits e.desc.p1 47 0) e.desc.tag.toNat = .ok (some c') from hacq]

/-- R106: a SEM_ACQUIRE whose atomic finds too low a count. -/
theorem Chip.semAcquire_waits {l : Nat} (hh : Holds c q slot Op.semAcquire e)
    (hword : c.syncWord (c.actor q slot) .atomic e.desc.p0.toNat = .ok a)
    (hacq : c.acquire q (partOf q) a (dbits e.desc.p1 47 0) e.desc.tag.toNat = .ok none)
    (hloc : (c.part (partOf q)).loc a = some l) :
    c.semAcquire q slot = (c.startWait q slot e (.sem l (dbits e.desc.p1 47 0))).donateAll := by
  refine (run_ready _ hh).trans ?_
  dsimp only
  rw [hword]
  dsimp only
  rw [show c.acquire q (c.actor q slot).p a (dbits e.desc.p1 47 0) e.desc.tag.toNat = .ok none from hacq,
    show (c.part (c.actor q slot).p).loc a = some l from hloc]

theorem releasedWord_fits {v n tag : Nat} (hfits : semCount v + n ≤ 2 ^ 48 - 1) :
    releasedWord v n tag = (if semOwner v = tag then 0 else semOwner v) * 2 ^ 48 + (semCount v + n) := by
  rw [releasedWord, Nat.min_eq_left hfits]

/-- R106: a SEM_RELEASE that does not saturate its word's count. -/
theorem Chip.semRelease_eq (hh : Holds c q slot Op.semRelease e)
    (hword : c.syncWord (c.actor q slot) .atomic e.desc.p0.toNat = .ok a) (hread : c.readPP (partOf q) a 8 = .ok b)
    (hfits : semCount (leNat b) + dbits e.desc.p1 47 0 ≤ 2 ^ 48 - 1)
    (hwrite : c.writePP (partOf q) a (leBytes 8 (releasedWord (leNat b) (dbits e.desc.p1 47 0) e.desc.tag.toNat)) =
      .ok c') :
    c.semRelease q slot = ((c'.signLeft q (partOf q) a 8).finishOk q slot).donateAll := by
  refine (run_ready _ hh).trans ?_
  dsimp only
  rw [hword]
  dsimp only
  rw [show c.readPP (c.actor q slot).p a 8 = .ok b from hread]
  dsimp only
  rw [show c.writePP (c.actor q slot).p a
    (leBytes 8 (releasedWord (leNat b) (dbits e.desc.p1 47 0) e.desc.tag.toNat)) = .ok c' from hwrite]
  dsimp only
  rw [if_neg (by omega)]
  rfl

/-- R400: a partition that is not paired has no signature to add to. -/
theorem Chip.signLeft_unpaired {m : Nat} (hpair : (c.part p).pairEn = false) : c.signLeft q p a m = c := by
  unfold Chip.signLeft Chip.sign
  split
  · exact if_pos (Or.inl (by simp [hpair]))
  · rfl

/-- R107: a retry of an acquire whose word holds enough takes the count. -/
theorem Chip.retryOne_takes {l k : Nat} (hentry : c.entry q slot = some e) (hwatch : e.watch = .sem l n)
    (hword : c.syncWord (c.actor q slot) .atomic e.desc.p0.toNat ≠ .error .stall) (hgood : c.badLoc l = false)
    (hpair : (c.part (partOf q)).pairEn = false) (hle : n ≤ semCount (c.dwordLoc l).toNat) :
    c.retryOne l (k, q, slot) = (c.writeLocs (rangeFrom l 8) (leBytes 8 (e.desc.tag.toNat * 2 ^ 48
      + (semCount (c.dwordLoc l).toNat - n)))).finishOk q slot := by
  unfold Chip.retryOne
  rw [hentry]
  dsimp only
  rw [hwatch]
  dsimp only
  rw [if_neg (by simp)]
  have hunpaired : ∀ bs a, (c.writeLocs (rangeFrom l 8) bs).signLeft q (partOf q) a 8 = c.writeLocs (rangeFrom l 8) bs :=
    fun bs a => Chip.signLeft_unpaired (by rw [part_writeLocs]; exact hpair)
  split
  · next hstall => exact absurd hstall hword
  · rw [if_neg (by simp [hgood]), if_pos hle]
    split
    · rw [hunpaired]
    · rfl

end

/-- Settles O13: the atomic of an acquire, a release and a retry on the word. -/
theorem semaphores : Obligations.semaphores := by
  unfold Obligations.semaphores
  refine ⟨fun s q slot e a b c hl htr hwin hread => ?_, fun s q slot e l n k hl hentry hphase hwatch hwaiters hgood hword
    hpair hle => ⟨_, ?_, rfl⟩⟩
  · have hat := Chip.syncWord_here htr hwin
    refine ⟨fun hh hle hwrite => ?_, fun hh hlt l hloc => ?_, fun hh hfits hwrite => ?_⟩
    · exact ran_chip (fun c => c.semAcquire q.toNat slot.toNat) hl rfl
        (Chip.semAcquire_takes hh hat (Chip.acquire_takes hread hle hwrite))
    · exact ran_chip (fun c => c.semAcquire q.toNat slot.toNat) hl rfl
        (Chip.semAcquire_waits hh hat (Chip.acquire_short hread hlt) hloc)
    · exact ran_chip (fun c => c.semRelease q.toNat slot.toNat) hl rfl
        (Chip.semRelease_eq hh hat hread hfits (releasedWord_fits hfits ▸ hwrite))
  · refine ran_chip (fun c => c.semRetry q.toNat slot.toNat) hl rfl ?_
    unfold Chip.semRetry
    rw [hentry]
    dsimp only
    rw [hphase, hwatch]
    dsimp only
    rw [hwaiters]
    exact congrArg Chip.donateAll (Chip.retryOne_takes hentry hwatch hword hgood hpair hle)

end Sys2Proof.Machine

/-! ## The copy engine, upkeep, and the step scheduler (R42, R51, R76, R92, R113, R114, R252 to R268, R361) -/

namespace Sys2Proof.Machine

/-! ### The copy engine -/

section
variable {c c' : Chip} {q slot eng dst n : Nat} {e : Entry} {b : List Byte}
  {src : Chip → Nat → Nat → Except (AccErr × Nat) (List Byte)}

/-- An engine after one request of `n` bytes of queue `q`. -/
def Chip.engineMoved (q eng n : Nat) (c : Chip) : Chip :=
  { c.engineTake (partOf q) (eng == 1) n with engineLast := KMap.set eng q c.engineLast }

theorem Chip.writesOut_engineMoved : (Chip.engineMoved q eng n c).writesOut q slot = c.writesOut q slot := by
  unfold Chip.engineMoved Chip.engineTake Chip.writesOut
  dsimp only
  split <;> rfl

/-- R92: in another queue's turn an engine serves nothing of this one. -/
theorem Chip.moveBlock_waits (hturn : c.engineTurn eng ≠ some q) : c.moveBlock eng q slot dst n e src = c :=
  if_pos hturn

/-- R76, R92: in its turn, the queue's next block is read and written. -/
theorem Chip.moveBlock_writes (hturn : c.engineTurn eng = some q) (hmore : e.progress < n)
    (hsrc : src c e.progress (nextBlock dst n e.progress) = .ok b)
    (hwrite : c.writeVA (c.actor q slot) q (.entry q slot) (dst + e.progress) b = .ok c') :
    c.moveBlock eng q slot dst n e src =
      let k := nextBlock dst n e.progress
      let m := Chip.engineMoved q eng k c'
      if c'.writesOut q slot then m.setEntry q slot { e with progress := e.progress + k }
      else if e.progress + k ≥ n then m.finishOk q slot (blocksDone dst n)
      else if m.stopping q then m.finish q slot St.abortedReset (blocksDone dst (e.progress + k))
      else m.setEntry q slot { e with progress := e.progress + k } := by
  unfold Chip.moveBlock
  dsimp only
  rw [if_neg (by simp [hturn]), if_neg (by omega), hsrc]
  dsimp only
  rw [hwrite]
  dsimp only
  rw [← Chip.engineMoved, Chip.writesOut_engineMoved]

/-- A block that is not the range's last, while the partition's transfers go on. -/
theorem Chip.moveBlock_more (hturn : c.engineTurn eng = some q)
    (hmore : e.progress + nextBlock dst n e.progress < n)
    (hsrc : src c e.progress (nextBlock dst n e.progress) = .ok b)
    (hwrite : c.writeVA (c.actor q slot) q (.entry q slot) (dst + e.progress) b = .ok c')
    (hgo : (Chip.engineMoved q eng (nextBlock dst n e.progress) c').stopping q = false) :
    c.moveBlock eng q slot dst n e src = (Chip.engineMoved q eng (nextBlock dst n e.progress) c').setEntry q slot
      { e with progress := e.progress + nextBlock dst n e.progress } := by
  rw [Chip.moveBlock_writes hturn (by omega) hsrc hwrite]
  dsimp only
  split
  · rfl
  · rw [if_neg (by omega), hgo]
    rfl

theorem nextBlock_whole (hfit : dst % 4096 + n ≤ 4096) : nextBlock dst n 0 = n := by
  unfold nextBlock
  omega

theorem blocksDone_whole (hn : n ≠ 0) (hfit : dst % 4096 + n ≤ 4096) : blocksDone dst n = 1 := by
  rw [blocksDone, if_neg hn]
  omega

/-- A range inside one 4 KiB block is moved whole: it is done, or waits for its acknowledgement. -/
theorem Chip.moveBlock_whole (hturn : c.engineTurn eng = some q) (hn : n ≠ 0) (hfit : dst % 4096 + n ≤ 4096)
    (hstart : e.progress = 0) (hsrc : src c 0 n = .ok b)
    (hwrite : c.writeVA (c.actor q slot) q (.entry q slot) dst b = .ok c') :
    c.moveBlock eng q slot dst n e src =
      if c'.writesOut q slot then (Chip.engineMoved q eng n c').setEntry q slot { e with progress := n }
      else (Chip.engineMoved q eng n c').finishOk q slot 1 := by
  rw [Chip.moveBlock_writes (b := b) hturn (by omega) (by rw [hstart, nextBlock_whole hfit]; exact hsrc)
    (by rw [hstart]; exact hwrite)]
  dsimp only
  rw [hstart, nextBlock_whole hfit, Nat.zero_add, if_pos (le_refl n), blocksDone_whole hn hfit]

theorem Chip.copyRange_empty {op : Nat} (hh : Holds c q slot op e) (hn : dbits e.desc.p2 47 0 = 0) :
    c.copyRange q slot op = c.ended q slot e St.ok 0 :=
  (run_ready _ hh).trans ((if_pos hn).trans (finishOk_entry hh.1 0))

theorem Chip.copyRange_overlapping {op : Nat} (hh : Holds c q slot op e) (hn : dbits e.desc.p2 47 0 ≠ 0)
    (hmeet : overlaps e.desc.p0.toNat e.desc.p1.toNat (dbits e.desc.p2 47 0) = true) :
    c.copyRange q slot op = c.finishMalformed q slot :=
  (run_ready _ hh).trans ((if_neg hn).trans (if_pos hmeet))

/-- R76, R361: a COPY or REMOTE_COPY of ranges that do not overlap moves its next block. -/
theorem Chip.copyRange_moves {op : Nat} (hh : Holds c q slot op e) (hn : dbits e.desc.p2 47 0 ≠ 0)
    (hapart : overlaps e.desc.p0.toNat e.desc.p1.toNat (dbits e.desc.p2 47 0) = false) :
    c.copyRange q slot op = c.moveBlock (if op = Op.copy then 0 else 1) q slot e.desc.p1.toNat (dbits e.desc.p2 47 0) e
      fun c o k => c.readVA (c.actor q slot) (e.desc.p0.toNat + o) k :=
  (run_ready _ hh).trans ((if_neg hn).trans (if_neg (by simp [hapart])))

theorem Chip.fillRange_empty (hh : Holds c q slot Op.fill e) (hn : dbits e.desc.p1 47 0 = 0) :
    c.fillRange q slot = c.ended q slot e St.ok 0 :=
  (run_ready _ hh).trans ((if_pos hn).trans (finishOk_entry hh.1 0))

theorem Chip.fillRange_moves (hh : Holds c q slot Op.fill e) (hn : dbits e.desc.p1 47 0 ≠ 0) :
    c.fillRange q slot = c.moveBlock 0 q slot e.desc.p0.toNat (dbits e.desc.p1 47 0) e
      fun _ o k => .ok (patternBytes e.desc.p2 o k) :=
  (run_ready _ hh).trans (if_neg hn)

theorem Chip.timestamp_eq (hh : Holds c q slot Op.timestamp e)
    (hwrite : c.writeVA (c.actor q slot) q (.entry q slot) e.desc.p0.toNat (leBytes 8 c.gtc.toNat) = .ok c') :
    c.timestamp q slot = { c' with sigs := c.sigs }.finishOk q slot := by
  refine (run_ready _ hh).trans ?_
  rw [hwrite]

end

theorem patternBytes_zero (pat : Dword) (n : Nat) :
    patternBytes pat 0 n = (List.range n).map fun i => BitVec.ofNat 8 (pat.toNat >>> (8 * (i % 8))) := by
  simp [patternBytes, rangeFrom]

/-- Settles O15: the engine's turn, and its block. -/
theorem copyEngine : Obligations.copy_engine := by
  unfold Obligations.copy_engine
  intro s q slot e hl
  refine ⟨fun hh => ⟨?_, ?_, fun hn => ?_, fun hn hmeet => ?_, ?_⟩, fun hh b c hn hapart hstart hfit hturn hread hwrite => ?_,
    fun hh => ⟨fun hn => ?_, fun c hn hstart hfit hturn hacked hwrite => ?_⟩, fun hh c hwrite => ?_⟩
  · intro hn hapart hturn
    exact ran_chip (fun c => c.copyRange q.toNat slot.toNat Op.copy) hl rfl
      ((Chip.copyRange_moves hh hn hapart).trans (Chip.moveBlock_waits hturn))
  · intro b c hapart hturn n hmore hread hwrite hgo
    exact ran_chip (fun c => c.copyRange q.toNat slot.toNat Op.copy) hl rfl
      ((Chip.copyRange_moves hh (by omega) hapart).trans (Chip.moveBlock_more hturn hmore hread hwrite hgo))
  · exact ran_chip (fun c => c.copyRange q.toNat slot.toNat Op.copy) hl rfl (Chip.copyRange_empty hh hn)
  · exact ran_chip (fun c => c.copyRange q.toNat slot.toNat Op.copy) hl rfl (Chip.copyRange_overlapping hh hn hmeet)
  · intro b c hn hapart hstart hfit hturn hacked hread hwrite
    exact ran_chip (fun c => c.copyRange q.toNat slot.toNat Op.copy) hl rfl ((Chip.copyRange_moves hh hn hapart).trans
      ((Chip.moveBlock_whole hturn hn hfit hstart hread hwrite).trans (if_neg (by simp [hacked]))))
  · have hwhole := (Chip.copyRange_moves hh hn hapart).trans (Chip.moveBlock_whole hturn hn hfit hstart hread hwrite)
    exact ⟨fun hacked => ran_chip (fun c => c.copyRange q.toNat slot.toNat Op.remoteCopy) hl rfl
        (hwhole.trans (if_neg (by simp [hacked]))),
      fun hout => ran_chip (fun c => c.copyRange q.toNat slot.toNat Op.remoteCopy) hl rfl (hwhole.trans (if_pos hout))⟩
  · exact ran_chip (fun c => c.fillRange q.toNat slot.toNat) hl rfl (Chip.fillRange_empty hh hn)
  · exact ran_chip (fun c => c.fillRange q.toNat slot.toNat) hl rfl ((Chip.fillRange_moves hh hn).trans
      ((Chip.moveBlock_whole hturn hn hfit hstart (congrArg Except.ok (patternBytes_zero _ _)) hwrite).trans
        (if_neg (by simp [hacked]))))
  · exact ran_chip (fun c => c.timestamp q.toNat slot.toNat) hl rfl (Chip.timestamp_eq hh hwrite)

/-! ### PT_INVALIDATE, REGULATOR_SET, token buckets and CTX_QUERY -/

section
variable {c c' : Chip} {q slot : Nat} {e : Entry} {b : List Byte} {u : Usage}

theorem Chip.ptInvalidate_eq (hh : Holds c q slot Op.ptInvalidate e) (hopen : (c.part (partOf q)).sealed = false)
    (hasid : dbits e.desc.p0 1 0 = 2 ∨ c.asidOk (partOf q) (dbits e.desc.p0 27 16) = true)
    (hquiet : (c.reqs.any fun r => r.part == partOf q) = false) :
    c.ptInvalidate q slot = (((c.setPart (partOf q) { c.part (partOf q) with
      invals := invalScope e.desc c.wseq :: (c.part (partOf q)).invals }).refreshLayers (partOf q)
        (invalScope e.desc c.wseq)).setRg (Reg.PART_INVAL_CNT + pg (partOf q))
          (c.rg (Reg.PART_INVAL_CNT + pg (partOf q)) + 1)).finishOk q slot := by
  refine (run_ready _ hh).trans ?_
  dsimp only
  rw [if_neg (by simp [hopen]), if_neg (by rcases hasid with h | h <;> simp [h]), if_neg (by simp [hquiet])]

theorem Chip.regulatorSet_eq (hh : Holds c 0 slot Op.regulatorSet e) (hdet : (c.part (dbits e.desc.p0 3 0)).det = false)
    (hready : (c.part (dbits e.desc.p0 3 0)).state = .ready) :
    c.regulatorSet slot = (c.setPart (dbits e.desc.p0 3 0) { c.part (dbits e.desc.p0 3 0) with
      meshRate := dbits e.desc.p1 15 0, memRate := dbits e.desc.p1 31 16,
      linkRate := dbits e.desc.p2 15 0, burst := dbits e.desc.p2 31 16 }).finishOk 0 slot :=
  (run_ready _ hh).trans (if_neg (by simp [hdet, hready]))

theorem Chip.fillBuckets_elastic {p ns : Nat} (hdet : (c.part p).det = false) (hthere : (c.part p).state ≠ .absent) :
    c.fillBuckets p ns = c.setPart p { c.part p with
      meshBucket := (c.part p).meshBucket.fill (c.part p).meshRate (c.part p).depth ns
      memBucket := (c.part p).memBucket.fill (c.part p).memRate (c.part p).depth ns
      linkBucket := (c.part p).linkBucket.fill (c.part p).linkRate (c.part p).depth ns } :=
  if_neg (by simp [hdet, hthere])

/-- R42: a request that its tokens cover passes at the memory bucket. -/
theorem Chip.passBucket_memory {p n : Nat} (hrate : (c.part p).memRate ≠ 0) (hn : n ≤ (c.part p).memBucket.tokens) :
    c.passBucket p 1 n = c.setPart p { c.part p with memBucket := { tokens := (c.part p).memBucket.tokens - n } } := by
  have htake : (c.part p).memBucket.take (c.part p).memRate n = { tokens := (c.part p).memBucket.tokens - n } := if_neg hrate
  exact (if_pos (by simp [Bucket.passes, hn])).trans (by rw [htake])

/-- R114: CTX_QUERY with accounting on. -/
theorem Chip.ctxQuery_accounted (hh : Holds c q slot Op.ctxQuery e)
    (hen : c.flag Fld.ACCT_BASE_LO_ACCT_EN (pg (partOf q)) = true)
    (hread : c.readPP (partOf q) (c.acctAddr (partOf q) (dbits e.desc.p0 15 0)) 64 = .ok b)
    (hwrite : c.writeVA (c.actor q slot) q (.entry q slot) e.desc.p1.toNat (snapshot b u) = .ok c') :
    c.ctxQuery q slot u = c'.finishOk q slot := by
  refine (run_ready _ hh).trans ?_
  dsimp only
  rw [hen, if_pos rfl, hread]
  dsimp only
  rw [if_pos rfl, hwrite]
  rfl

/-- R114: CTX_QUERY with accounting off. -/
theorem Chip.ctxQuery_off (hh : Holds c q slot Op.ctxQuery e)
    (hen : c.flag Fld.ACCT_BASE_LO_ACCT_EN (pg (partOf q)) = false)
    (hwrite : c.writeVA (c.actor q slot) q (.entry q slot) e.desc.p1.toNat (List.replicate 64 0) = .ok c') :
    c.ctxQuery q slot u = c'.finishOk q slot 1 := by
  refine (run_ready _ hh).trans ?_
  dsimp only
  rw [hen, if_neg Bool.false_ne_true]
  dsimp only
  rw [if_neg Bool.false_ne_true, show leBytes 64 0 = List.replicate 64 0 by decide +kernel, hwrite]
  rfl

end

/-- Settles O16: each descriptor's own branch, and a bucket filled before a request passes at it. -/
theorem upkeepDescriptors : Obligations.upkeep_descriptors := by
  unfold Obligations.upkeep_descriptors
  refine ⟨fun s hl => ⟨fun q slot e hh hopen hasid hquiet => ?_, fun slot e hh => ?_, ?_⟩,
    fun s q slot u e c hl hh => ⟨fun b hen hread hwrite => ?_, fun hen hwrite => ?_⟩⟩
  · exact ran_chip (fun c => c.ptInvalidate q.toNat slot.toNat) hl rfl (Chip.ptInvalidate_eq hh hopen hasid hquiet)
  · intro p hdet hready
    exact ran_chip (fun c => c.regulatorSet slot.toNat) hl rfl (Chip.regulatorSet_eq hh hdet hready)
  · intro p ns n hdet hthere x d full hrate hn
    refine ⟨_, ran_chip (fun c => (c.fillBuckets p.toNat ns.toNat).passBucket p.toNat 1 n.toNat) hl rfl rfl, ?_⟩
    have hfill : x.memBucket.fill x.memRate x.depth ns.toNat =
        { tokens := min d (x.memBucket.tokens + x.memRate * ns.toNat) } := by
      rw [Bucket.fill, if_neg hrate, Part.depth]
    rw [Chip.fillBuckets_elastic hdet hthere, hfill,
      Chip.passBucket_memory (by rw [Chip.part_setPart_self]; exact hrate) (by rw [Chip.part_setPart_self]; exact hn),
      Chip.part_setPart_self, Chip.part_setPart_self]
    rfl
  · exact ran_chip (fun c => c.ctxQuery q.toNat slot.toNat u) hl rfl (Chip.ctxQuery_accounted hh hen hread hwrite)
  · exact ran_chip (fun c => c.ctxQuery q.toNat slot.toNat u) hl rfl (Chip.ctxQuery_off hh hen hwrite)

/-! ### Batch slots -/

section
variable {c : Chip} {q slot op dev p : Nat} {e : Entry}

/-- R260: a batch descriptor in its turn. -/
theorem Chip.runBatch_turn (f : Chip → Entry → Chip) (hh : Holds c q slot op e) (hturn : c.batchTurn q slot e = true) :
    c.runBatch q slot op f = f c e :=
  (run_ready _ hh).trans (if_pos hturn)

/-- R255: a SEQ_JOIN goes by the state of the slot it names. -/
theorem Chip.seqJoin_eq (hh : Holds c q slot Op.seqJoin e) (hturn : c.batchTurn q slot e = true)
    (hdev : c.deviceSlot (partOf q) (dbits e.desc.p0 11 0) = some dev) :
    c.seqJoin q slot = match (c.bslot dev).state with
      | .free => c.newJoin q slot dev e
      | .active =>
        if (e.desc.p1 == 0 && e.desc.p2 == 0) && (c.bslot dev).parkPend then
          (c.setBslot dev { c.bslot dev with parkPend := false }).finishOk q slot
        else c.finish q slot St.slotStateInvalid 0
      | .parked =>
        if e.desc.p1 == 0 && e.desc.p2 == 0 then
          (c.setBslot dev { c.bslot dev with state := .joining, resume := true }).finishOk q slot
        else c.finish q slot St.slotStateInvalid 0
      | _ => c.finish q slot St.slotStateInvalid 0 := by
  refine (Chip.runBatch_turn _ hh hturn).trans ?_
  dsimp only
  rw [hdev] <;> rfl

/-- R257: a join without a block and without a table takes the slot at once. -/
theorem Chip.newJoin_bare (htable : e.desc.p1 = 0) (hblock : e.desc.p2 = 0) :
    c.newJoin q slot dev e = (c.setBslot dev
      { state := .joining, tag := e.desc.tag, asid := c.asidOf q, kernel := indexOf q == 0 }).finishOk q slot := by
  have hjb : joinBlock (leBytes 64 0) = (0, 0, true) := by decide +kernel
  unfold Chip.newJoin
  rw [htable, hblock]
  simp [hjb, Chip.joinEnd, Chip.joinTable]

/-- R259: a SEQ_LEAVE or SEQ_PARK changes the slot as its table says. -/
theorem Chip.seqChange_some {f : BSlot → Option BSlot} {x : BSlot} (hh : Holds c q slot op e)
    (hturn : c.batchTurn q slot e = true) (hdev : c.deviceSlot (partOf q) (dbits e.desc.p0 11 0) = some dev)
    (hf : f (c.bslot dev) = some x) : c.seqChange q slot op f = (c.setBslot dev x).finishOk q slot := by
  refine (Chip.runBatch_turn _ hh hturn).trans ?_
  rw [hdev]
  dsimp only
  rw [hf]

theorem Chip.seqChange_none {f : BSlot → Option BSlot} (hh : Holds c q slot op e)
    (hturn : c.batchTurn q slot e = true) (hdev : c.deviceSlot (partOf q) (dbits e.desc.p0 11 0) = some dev)
    (hf : f (c.bslot dev) = none) : c.seqChange q slot op f = c.ended q slot e St.slotStateInvalid 0 := by
  refine (Chip.runBatch_turn _ hh hturn).trans ?_
  rw [hdev]
  dsimp only
  rw [hf]
  exact finish_entry hh.1 _ _

/-- R113: without accounting nothing is accounted. -/
theorem Chip.account_off {tag off : Nat} {d : Int} (hoff : c.flag Fld.ACCT_BASE_LO_ACCT_EN (pg p) = false) :
    c.account p tag off d = c := by
  unfold Chip.account
  rw [hoff]
  rfl

theorem Chip.tableOf_none {b : BSlot} (htable : b.table = 0) : c.tableOf p b = [] := by
  unfold Chip.tableOf Chip.ctxHeader
  rw [htable]
  rfl

/-- R262: a leaving slot without a table, past its boundary and with nothing left on it. -/
theorem Chip.slotRelease_bare {n : Nat} (hdev : c.deviceSlot p n = some dev)
    (hstate : (c.bslot dev).state = .leaving) (hpast : (c.bslot dev).releasing = true)
    (htable : (c.bslot dev).table = 0)
    (hidle : c.slotBusy p n (c.bslot dev).leaveSeq (fun op => isCtxOp op || isJobOp op) = false)
    (hoff : c.flag Fld.ACCT_BASE_LO_ACCT_EN (pg p) = false) : c.slotRelease p n = c.setBslot dev {} := by
  unfold Chip.slotRelease
  rw [hdev]
  dsimp only
  rw [if_neg (by simp [hstate, hpast, hidle]), Chip.tableOf_none htable]
  exact congrArg (Chip.setBslot · dev {}) (Chip.account_off hoff)

theorem Chip.batchRange_beyond {v : Word} (hbeyond : 4096 < wbits v 11 0 + wbits v 28 16) :
    c.batchRange p v = c.regError (Reg.BATCH_RANGE + 8 * p) :=
  if_pos (Or.inl hbeyond)

theorem Chip.batchRange_fits {v : Word} (hfits : wbits v 11 0 + wbits v 28 16 ≤ 4096) (hempty : c.bslots = [])
    (hapart : ∀ o < 16, o ≠ p → rangesMeet (wbits v 11 0, wbits v 28 16) (c.slotRange o) = false) :
    c.batchRange p v = (c.setFld Fld.BATCH_RANGE_BASE (8 * p) (wbits v 11 0)).setFld
      Fld.BATCH_RANGE_COUNT (8 * p) (wbits v 28 16) := by
  refine if_neg ?_
  rintro (h | h | h)
  · exact absurd h (by simpa using hfits)
  · simp [Chip.batchSlots, hempty] at h
  · obtain ⟨o, ho, hmeet⟩ := List.any_eq_true.1 h
    have hne : o ≠ p := fun heq => by simp [heq] at hmeet
    rw [hapart o (List.mem_range.1 ho) hne, Bool.and_false] at hmeet
    exact Bool.false_ne_true hmeet

end

/-- Settles O18: each state of a slot, and the registers' checks. -/
theorem batchSlots : Obligations.batch_slots := by
  unfold Obligations.batch_slots
  refine ⟨fun s q slot e dev hl hturn hdev => ⟨fun hh => ?_, fun hh => ?_, fun hh => ?_⟩,
    fun s p v => ⟨fun n dev hl hdev hstate hpast htable hidle hoff => ?_, fun hup hbeyond => ?_,
      fun hup hfits hempty hapart => ?_, fun hup => ⟨fun hquota => ?_, fun hquota => ?_⟩⟩⟩
  · have hjoin := Chip.seqJoin_eq hh hturn hdev
    have hran : ∀ {d}, s.chip.seqJoin q.toNat slot.toNat = d → Ran (.seqJoin q slot) s d :=
      ran_chip (fun c => c.seqJoin q.toNat slot.toNat) hl rfl
    refine ⟨fun hstate htable hblock => hran ?_, fun hstate hpend htable hblock => hran ?_,
      fun hstate htable hblock => hran ?_, fun hstate => hran ?_⟩
    · rw [hjoin, hstate]
      exact Chip.newJoin_bare htable hblock
    · rw [hjoin, hstate]
      dsimp only
      rw [← hstate]
      exact if_pos (by simp [htable, hblock, hpend])
    · rw [hjoin, hstate]
      dsimp only
      exact if_pos (by simp [htable, hblock])
    · rw [hjoin, hstate]
      exact finish_entry hh.1 _ _
  · have hleave : ∀ {x}, BSlot.leave (s.chip.bslot dev) = some x →
        Ran (.seqLeave q slot) s ((s.chip.setBslot dev x).finishOk q.toNat slot.toNat) := fun hx =>
      ran_chip (fun c => c.seqChange q.toNat slot.toNat Op.seqLeave BSlot.leave) hl rfl
        (Chip.seqChange_some hh hturn hdev hx)
    refine ⟨fun hstate => hleave (by simp [BSlot.leave, hstate]), fun hstate => hleave (by simp [BSlot.leave, hstate]),
      fun hstate hnew => hleave (by simp [BSlot.leave, hstate, hnew]), fun hstate => ?_⟩
    exact ran_chip (fun c => c.seqChange q.toNat slot.toNat Op.seqLeave BSlot.leave) hl rfl
      (Chip.seqChange_none hh hturn hdev (by simp [BSlot.leave, hstate]))
  · have hpark : ∀ {x}, BSlot.park (s.chip.bslot dev) = some x →
        Ran (.seqPark q slot) s ((s.chip.setBslot dev x).finishOk q.toNat slot.toNat) := fun hx =>
      ran_chip (fun c => c.seqChange q.toNat slot.toNat Op.seqPark BSlot.park) hl rfl
        (Chip.seqChange_some hh hturn hdev hx)
    refine ⟨fun hstate => hpark (by simp [BSlot.park, hstate]), fun hstate => hpark (by simp [BSlot.park, hstate]),
      fun hstate => ?_⟩
    exact ran_chip (fun c => c.seqChange q.toNat slot.toNat Op.seqPark BSlot.park) hl rfl
      (Chip.seqChange_none hh hturn hdev (by simp [BSlot.park, hstate]))
  · exact ran_chip (fun c => c.slotRelease p.toNat n.toNat) hl rfl
      (Chip.slotRelease_bare hdev hstate hpast htable hidle hoff)
  · exact ran_host (fun c => c.batchRange p.toNat v) hup rfl (Chip.batchRange_beyond hbeyond)
  · exact ran_host (fun c => c.batchRange p.toNat v) hup rfl (Chip.batchRange_fits hfits hempty hapart)
  · have hexec : exec (.batchTokmaxWrite p v) s = execBatchTokmaxWrite p v s := rfl
    refine ran_host _ hup (hexec.trans (by rw [execBatchTokmaxWrite])) ?_
    exact if_pos hquota
  · have hexec : exec (.batchTokmaxWrite p v) s = execBatchTokmaxWrite p v s := rfl
    refine ran_host _ hup (hexec.trans (by rw [execBatchTokmaxWrite])) ?_
    exact if_neg (by omega)

/-! ### STEP -/

section
variable {c : Chip} {q slot : Nat} {e : Entry} {b rb : List Byte}

/-- R265: a STEP whose checks all pass takes its form. -/
theorem Chip.stepCmd_passes {all ls : List Nat} (hh : Holds c q slot Op.step e) (hturn : c.batchTurn q slot e = true)
    (hread : c.readVA (c.actor q slot) e.desc.p0.toNat 64 = .ok b) (hok : (StepBlk.ofBytes b).ok = true)
    (hreqs : c.readVA (c.actor q slot) (StepBlk.ofBytes b).reqVa (8 * (StepBlk.ofBytes b).nreq) = .ok rb)
    {ws : List Nat} (hws : ((List.range (StepBlk.ofBytes b).nreq).map fun i => fieldLE rb (8 * i) 8) = ws)
    (hrok : reqsOk ws (dbits e.desc.p1 16 0) (c.fld Fld.BATCH_TOKMAX_TOKENS_MAX (8 * partOf q)) = true)
    (hslots : firstFailing (c.stepSlotOk (partOf q)) (ws.map stepReq) 0 = none)
    (hpos : firstFailing (c.stepPosOk (partOf q)) (ws.map stepReq) 0 = none)
    (hall : c.stepLengths (partOf q) (q * 64 + slot) (c.tableSlots (partOf q)) = .ok all)
    (hls : c.stepLengths (partOf q) (q * 64 + slot) (c.namedSlots (partOf q) (ws.map stepReq)) = .ok ls) :
    c.stepCmd q slot = c.stepForm q slot (StepBlk.ofBytes b) (ws.map stepReq) ls (dbits e.desc.p1 16 0) := by
  refine (Chip.runBatch_turn _ hh hturn).trans ?_
  dsimp only
  rw [hread]
  dsimp only
  rw [if_neg (by simp [hok]), hreqs]
  dsimp only
  rw [hws, if_neg (by simp [hrok]), hslots, hpos]
  dsimp only
  rw [hall, hls]

/-- R261, R264: a STEP whose manifest is written whole. -/
theorem Chip.stepForm_written {c' : Chip} {x : StepBlk} {rs : List (Nat × Nat)} {ls : List Nat} {tokens : Nat}
    (hwrite : Chip.writeManifest q slot x.manifest
      (manifestHead x ((c.boundary (partOf q)).rg64 (Reg.BATCH_STEP_LO + pg (partOf q)) (Reg.BATCH_STEP_HI + pg (partOf q)))
        tokens :: (c.boundary (partOf q)).manifestEntries (partOf q) rs ls 0) (c.boundary (partOf q)) = (c', none)) :
    c.stepForm q slot x rs ls tokens = (c'.addPositions (partOf q) rs).finishOk q slot
      ((c.boundary (partOf q)).rg64 (Reg.BATCH_STEP_LO + pg (partOf q)) (Reg.BATCH_STEP_HI + pg (partOf q)) % 2 ^ 32) := by
  unfold Chip.stepForm
  dsimp only
  rw [hwrite]

end

/-- Settles O19: the checks pass, and the manifest is written behind the boundary. -/
theorem stepForms : Obligations.step_forms := by
  unfold Obligations.step_forms
  intro s q slot e b rb ls c hl hh hturn p x ws rs tokens c1 no hread hok hreqs hrok hslots hpos hall hls hwrite
  obtain ⟨all, hall⟩ := hall
  exact ran_chip (fun c => c.stepCmd q.toNat slot.toNat) hl rfl
    ((Chip.stepCmd_passes hh hturn hread hok hreqs rfl hrok hslots hpos hall hls).trans (Chip.stepForm_written hwrite))

end Sys2Proof.Machine

/-! ## The context engine, the vector unit and scalar instructions (R130, R139, R178 to R191, R230 to R247) -/

namespace Sys2Proof.Machine

/-! ### CTX_APPEND, CTX_GATHER and CTX_SCAN -/

section
variable {c : Chip} {q slot : Nat} {e : Entry} {x : CtxCmd}

/-- The pages of a table's resident entries, by entry. -/
def residentMap (ents : List (Nat × CtxEntry)) : KMap Nat :=
  (ents.filterMap fun en => match en.2 with
    | .resident g => some (en.1, g)
    | _ => none).foldl (fun m en => KMap.set en.1 en.2 m) ([] : KMap Nat)

/-- R239 steps 4 to 6: the entries, the rows and LENGTH, all written. -/
theorem Chip.appendWrite_written {ents : List (Nat × CtxEntry)} {taken : List (Nat × Nat × Nat)} {c0 c1 c2 : Chip}
    {n : Nat} (hentries : Chip.writeEntries q x (.entry q slot) taken 0 c = (c0, n, none))
    (hrows : Chip.appendRows q slot x e.desc.p1.toNat (fieldLE x.blk 8 8)
      (taken.foldl (fun m en => KMap.set en.1 en.2.1 m) (residentMap ents))
      ((List.range x.h.heads).flatMap fun hd => (List.range (fieldLE x.blk 4 4)).map fun i => (hd, i)) c0 = (c1, none))
    (hlength : c1.writeVA x.w q (.entry q slot) (x.b.table + 8) (leBytes 4 (x.h.length + fieldLE x.blk 4 4)) = .ok c2) :
    c.appendWrite q slot e x ents taken none = c2.finishOk q slot n := by
  unfold Chip.appendWrite
  dsimp only
  rw [hentries]
  dsimp only
  generalize hwritten : Chip.appendRows q slot x e.desc.p1.toNat (fieldLE x.blk 8 8) _ _ c0 = written
  have hdone : written = (c1, none) := hwritten.symm.trans hrows
  rw [hdone]
  dsimp only
  rw [hlength]

/-- R239: a CTX_APPEND whose checks pass, and whose pool holds the pages that it misses. -/
theorem Chip.ctxAppend_writes {ents : List (Nat × CtxEntry)} {gs : List Nat} {head : Nat}
    (hh : Holds c q slot Op.ctxAppend e)
    (hcmd : c.ctxCmd q slot e (fun op => op == Op.ctxAppend || isJobOp op) appendBlockOk = .ok x)
    (hok : appendOk x.h.kfmt x.blk = true) (hfits : x.h.length + fieldLE x.blk 4 4 ≤ x.h.holds)
    (hents : c.ctxEntries x.w x.b.table (x.h.entriesFor x.h.length (fieldLE x.blk 4 4)) = .ok ents)
    (hgood : badEntry ents = none) {miss : List Nat}
    (hmiss : (ents.filter fun en => en.2 == .absent).map Prod.fst = miss) (havail : miss.length ≤ c.poolCount (partOf q))
    (hpeek : c.peekPool (partOf q) miss.length (c.poolHead (partOf q)) (c.poolCount (partOf q)) = (gs, head, .enough)) :
    c.ctxAppend q slot = c.appendWrite q slot e x ents (miss.zip (gs.zip (gs.drop 1 ++ [head]))) none := by
  refine (run_ready _ hh).trans ?_
  dsimp only
  rw [hcmd]
  dsimp only
  rw [if_neg (by simp [hok]), if_neg (by omega), hents]
  dsimp only
  rw [hgood]
  dsimp only
  rw [hmiss, if_neg (by omega), hpeek]

/-- R247: a CTX_GATHER whose checks pass copies its rows. -/
theorem Chip.ctxGather_rows {ents : List (Nat × CtxEntry)} {ib : List Byte} {c1 : Chip} {n size stride : Nat}
    {idx : List Nat} (hh : Holds c q slot Op.ctxGather e) (hcmd : c.ctxCmd q slot e isJobOp gatherOk = .ok x)
    (hsize : (if bits (fieldLE x.blk 0 4) 24 24 = 1 then x.h.rs else x.h.vrow) = size)
    (hstride : (if fieldLE x.blk 0x10 4 = 0 then size else fieldLE x.blk 0x10 4) = stride)
    (hhead : bits (fieldLE x.blk 0 4) 21 16 < x.h.heads) (hwide : size ≤ stride)
    (hread : c.readVA (c.actor q slot) (fieldLE x.blk 8 8) (8 * fieldLE x.blk 4 4) = .ok ib)
    (hidx : ((List.range (fieldLE x.blk 4 4)).map fun i => fieldLE ib (8 * i) 4) = idx)
    (hin : ∀ i ∈ idx, i < x.h.length ∨ i = 0xFFFFFFFF)
    (hents : c.ctxEntries x.w x.b.table (gatherEntries x.h (bits (fieldLE x.blk 0 4) 21 16)
      (bits (fieldLE x.blk 0 4) 24 24) idx) = .ok ents)
    (hres : notResident ents = none)
    (hrows : Chip.gatherRows q slot (partOf q) x.h (bits (fieldLE x.blk 0 4) 21 16) (bits (fieldLE x.blk 0 4) 24 24) size
      e.desc.p1.toNat stride ents (idx.drop e.progress) e.progress c = (c1, n, none)) :
    c.ctxGather q slot = c1.finishOk q slot n := by
  have hinside : (idx.any fun n => decide (n ≥ x.h.length) && n != 0xFFFFFFFF) = false := by
    rw [List.any_eq_false]
    intro i hi hout
    simp only [Bool.and_eq_true, decide_eq_true_eq, bne_iff_ne] at hout
    rcases hin i hi with h | h <;> omega
  refine (run_ready _ hh).trans ?_
  dsimp only
  rw [hcmd]
  dsimp only
  rw [hsize, hstride, if_neg (by omega), hread]
  dsimp only
  rw [hidx, hinside, if_neg Bool.false_ne_true, hents]
  dsimp only
  rw [hres]
  dsimp only
  rw [hrows]

/-- R241, R244: the rows that a scan leaves to each stack: those that are rebuilt, or the others. -/
def Chip.scanRows (c : Chip) (p : Nat) (x : CtxCmd) (b : ScanBlk) (r : ScanRead) (rebuilt : Bool) : KMap Nat :=
  (b.considered r.limits).foldl (fun m n =>
    if c.rowRebuilt p (rowPpa x.h b (residentPages r.entries) n) = rebuilt
    then KMap.modify (c.rowStack p (rowPpa x.h b (residentPages r.entries) n)) 0 (· + 1) m else m) []

/-- R244: a CTX_SCAN that passes its checks leaves its rows to the engines. -/
theorem Chip.ctxScan_runs {b : ScanBlk} {r : ScanRead} (hh : Holds c q slot Op.ctxScan e)
    (hslots : (c.part (partOf q)).det = true → (c.part (partOf q)).ctxSlots ≠ [])
    (hsetup : c.scanSetup q slot e = .ok (x, b, r))
    (hrows : c.scanRows (partOf q) x b r false ≠ [] ∨ c.scanRows (partOf q) x b r true ≠ []) :
    c.ctxScan q slot = { c.setEntry q slot { e with phase := .running } with
      scans := KMap.set (q * 64 + slot)
        { seq := e.beginSeq, blk := x.blk, hdr := x.hdr, limits := r.limits, queries := r.queries,
          pages := residentPages r.entries, left := c.scanRows (partOf q) x b r false,
          slow := c.scanRows (partOf q) x b r true, cost := rowUnits b.nq x.h.d x.h.rs false,
          slowCost := rowUnits b.nq x.h.d x.h.rs true, lines := ceilDiv x.h.rs 128,
          energy := 48 * x.h.rs + 6 * b.nq * x.h.d } c.scans } := by
  have hheld : ((c.part (partOf q)).det && (c.part (partOf q)).ctxSlots.isEmpty) = false := by
    cases hdet : (c.part (partOf q)).det
    · rfl
    · simpa using hslots hdet
  refine (run_ready _ hh).trans ?_
  dsimp only
  rw [hheld, if_neg Bool.false_ne_true, hsetup]
  refine if_neg ?_
  rw [Scan.ended, Bool.and_eq_true, List.isEmpty_iff, List.isEmpty_iff]
  exact fun hended => hrows.elim (· hended.1) (· hended.2)

end

/-! ### Frame slots, the page pool and CTX_NEXT_DET -/

section
variable {c : Chip}

theorem Chip.nextElastic_none {stack : Nat} (hscans : c.scans = []) : c.nextElastic stack = none := by
  unfold Chip.nextElastic
  rw [List.findSome?_eq_none_iff]
  intro p _
  dsimp only
  split
  · rfl
  · rw [hscans]
    rfl

/-- R233: with no scan, an engine's slot serves none. -/
theorem Chip.elasticSlot_idle {stack n : Nat} (hscans : c.scans = []) :
    Chip.elasticSlot stack (n + 1) c = { c with elasticScan := KMap.erase stack c.elasticScan } := by
  unfold Chip.elasticSlot
  dsimp only
  have hheld : (if KMap.getD c.elasticScan stack 0 = 0 then none
      else KMap.find (KMap.getD c.elasticScan stack 0 - 1) c.scans) = none := by
    rw [hscans]
    split <;> rfl
  rw [hheld, Chip.nextElastic_none hscans]

theorem Chip.fillScanBuckets_elastic {stack : Nat} {o : Option Nat} (hdet : c.detParts = []) :
    c.fillScanBuckets stack o = c := by
  rw [Chip.fillScanBuckets, hdet, List.foldl_nil]

/-- R233: a frame slot with no scan and no deterministic partition goes on to the next one. -/
theorem Chip.frameSlotStart_idle {stack n : Nat} (hstack : stack < c.fld Fld.DEV_CAPS0_STACKS)
    (hengine : c.flag Fld.DEV_CAPS0_CTX_ENGINE = true) (hscans : c.scans = []) (hdet : c.detParts = []) :
    c.frameSlotStart stack n = { c with
      frameSlot := KMap.set stack ((KMap.getD c.frameSlot stack 0 + 1) % 16) c.frameSlot,
      elasticScan := KMap.erase stack c.elasticScan } := by
  have hoff : ¬ (stack ≥ c.fld Fld.DEV_CAPS0_STACKS ∨ (!c.flag Fld.DEV_CAPS0_CTX_ENGINE) = true) := by
    rw [hengine]
    simpa using hstack
  have hidle := Chip.elasticSlot_idle (c := { c with
    frameSlot := KMap.set stack ((KMap.getD c.frameSlot stack 0 + 1) % 16) c.frameSlot }) (stack := stack) (n := 63) hscans
  refine (if_neg hoff).trans ?_
  dsimp only
  have hnone : ∀ o, (if o = 0 then none else Chip.oldestScan { c with
      frameSlot := KMap.set stack ((KMap.getD c.frameSlot stack 0 + 1) % 16) c.frameSlot } stack (partOf · == o)) = none := by
    intro o
    unfold Chip.oldestScan
    rw [hscans]
    split <;> rfl
  rw [hscans, List.any_nil, List.foldl_nil, if_neg Bool.false_ne_true, hnone]
  dsimp only
  rw [hidle]
  rw [Chip.fillScanBuckets_elastic (by exact hdet)]
  congr 1

theorem Chip.poolPush_links {p : Nat} {hi : Word} {page : Nat} {c1 : Chip}
    (hpage : 2 ^ 16 * c.fld Fld.CTX_POOL_PUSH_LO_PAGE_LO (pg p) + wbits hi 6 0 * 2 ^ 32 = page)
    (hthere : c.exists? p = true) (hen : c.flag Fld.CTX_POOL_HEAD_LO_POOL_EN (pg p) = true)
    (hok : (c.part p).pageOk page = true) (hroom : c.poolCount p < 0x7FFFFF)
    (hwrite : c.writePP p page (leBytes 8 (c.poolHead p + 1)) = .ok c1) :
    c.poolPush p hi = c1.setPool p page (c.poolCount p + 1) := by
  unfold Chip.poolPush
  dsimp only
  rw [hpage, if_neg (by simp [hthere, hen, hok, hroom]), Chip.linkPage, hwrite]

theorem Chip.nextDetWrite_takes {v : Word} (hengine : c.flag Fld.DEV_CAPS0_CTX_ENGINE = true)
    (hslots : wbits v 4 0 ≤ c.fld Fld.CTX_FREE_SLOTS) (hwatts : wbits v 12 8 ≤ c.fld Fld.CTX_FREE_WATTS)
    (hboth : wbits v 4 0 = 0 ↔ wbits v 12 8 = 0) :
    c.nextDetWrite v = (c.setFld Fld.CTX_NEXT_DET_SLOTS 0 (wbits v 4 0)).setFld Fld.CTX_NEXT_DET_WATTS 0 (wbits v 12 8) := by
  have hsame : ((wbits v 4 0 == 0) != (wbits v 12 8 == 0)) = false := by
    rw [bne_eq_false_iff_eq, Bool.eq_iff_iff, beq_iff_eq, beq_iff_eq]
    exact hboth
  refine (if_neg (by simp [hengine])).trans (if_neg ?_)
  rw [hsame]
  rintro (h | h | h)
  · omega
  · omega
  · exact Bool.false_ne_true h

theorem Chip.nextDetWrite_logs {v : Word} (hengine : c.flag Fld.DEV_CAPS0_CTX_ENGINE = true)
    (hover : c.fld Fld.CTX_FREE_SLOTS < wbits v 4 0 ∨ c.fld Fld.CTX_FREE_WATTS < wbits v 12 8) :
    c.nextDetWrite v = c.regError Reg.CTX_NEXT_DET :=
  (if_neg (by simp [hengine])).trans (if_pos (hover.elim Or.inl fun h => Or.inr (Or.inl h)))

end

/-- Settles O20: each command's checks pass in turn, and its writes follow. -/
theorem contextEngine : Obligations.context_engine := by
  unfold Obligations.context_engine
  refine ⟨fun s q slot e x hl => ⟨?append, ?gather⟩, fun s hl => ⟨?scan, fun stack n hstack hengine hscans hdet => ?_⟩,
    fun s v hup hengine => ⟨?push, fun hslots hwatts hboth => ?_, fun hover => ?_⟩⟩
  case append =>
    intro ents gs head taken n resident rows c0 c c' hh hcmd hok hfits hents hgood miss havail hpeek htaken hentries
      hresident hrows happend hlength
    subst htaken hresident hrows
    exact ran_chip (fun c => c.ctxAppend q.toNat slot.toNat) hl rfl
      ((Chip.ctxAppend_writes hh hcmd hok hfits hents hgood rfl havail hpeek).trans
        (Chip.appendWrite_written hentries happend hlength))
  case gather =>
    intro ib ents c n hh hcmd w size stride idx hhead hwide hread hin hents hres hrows
    exact ran_chip (fun c => c.ctxGather q.toNat slot.toNat) hl rfl
      (Chip.ctxGather_rows hh hcmd rfl rfl hhead hwide hread rfl hin hents hres hrows)
  case scan =>
    intro q slot e x b r hh hslots hsetup place rows hrows
    refine ran_chip (fun c => c.ctxScan q.toNat slot.toNat) hl rfl ((Chip.ctxScan_runs hh hslots hsetup hrows).trans ?_)
    rw [rowUnits, rowUnits, if_neg Bool.false_ne_true, if_pos rfl, Nat.mul_one]
    rfl
  · exact ran_chip (fun c => c.frameSlotStart stack.toNat n.toNat) hl rfl
      (Chip.frameSlotStart_idle hstack hengine hscans hdet)
  case push =>
    intro p c hthere hen page hok hroom hwrite
    exact ran_host (fun c => if c.flag Fld.DEV_CAPS0_CTX_ENGINE then c.poolPush p.toNat v else c) hup rfl
      ((if_pos hengine).trans (Chip.poolPush_links rfl hthere hen hok hroom hwrite))
  · exact ran_host (fun c => c.nextDetWrite v) hup rfl (Chip.nextDetWrite_takes hengine hslots hwatts hboth)
  · exact ran_host (fun c => c.nextDetWrite v) hup rfl (Chip.nextDetWrite_logs hengine hover)

/-! ### The vector unit -/

section
variable {c : Chip} {cl w : Nat} {a : Args} {x : WCtx}

/-- R184: MIN and MAX write the lesser and the greater of their sources. -/
theorem Chip.minMaxOp_eq {f : NumFmt} {t : FFmt} (mx : Bool) (hi : Issues c cl w Cls.valu none a x)
    (hlegal : minMaxLegal (c.flag Fld.DEV_CAPS0_FP64) f a x.wg.vregs = true) (hfmt : arithFloat f = some t) :
    c.minMaxOp mx cl w f a = c.executed c x a
      (x.wv.mapLanes a f.words f.words fun p q _ => minMax t mx (bit a.mod.toNat 0) p q) := by
  unfold Chip.minMaxOp
  rw [hfmt]
  exact issue_ok hi hlegal rfl

/-- R139, R140: a special function gives its value under the loaded table set. -/
theorem Chip.sfuOp_eq {f : NumFmt} (fn : SFn) (hi : Issues c cl w Cls.sfu none a x)
    (hlegal : sfuLegal f a x.wg.vregs = true) :
    c.sfuOp fn cl w f a = c.executed c x a
      (x.wv.mapLanes a 1 1 fun p _ _ => fn.apply (c.cluster x.cl).tableVer.toNat f p) :=
  issue_ok hi hlegal rfl

end

/-- Settles O22: each instruction that is legal has its effect, and one that is not faults. -/
theorem vectorUnit : Obligations.vector_unit := by
  unfold Obligations.vector_unit
  refine ⟨fun s c w a x hl => ⟨fun op hi hlegal => ?_, fun op hi hlegal => ?_, fun f t hi hlegal hfmt => ⟨?_, ?_⟩,
    fun hi hlegal => ⟨?_, ?_⟩⟩, fun s c w f a x hl hi hlegal => ?_⟩
  · have hran := ran_valuOp hl c w op a
    rw [issue_ok hi hlegal rfl] at hran
    exact hran
  · have hran := ran_valuOp hl c w op a
    rw [issue_illegal hi hlegal] at hran
    exact hran
  · exact ran_chip (fun ch => ch.minMaxOp false c.toNat w.toNat f a) hl rfl (Chip.minMaxOp_eq false hi hlegal hfmt)
  · exact ran_chip (fun ch => ch.minMaxOp true c.toNat w.toNat f a) hl rfl (Chip.minMaxOp_eq true hi hlegal hfmt)
  · have hexec : exec (.qmx c w a) s = execQmx c w a s := rfl
    refine ran_chip _ hl (hexec.trans (by rw [execQmx])) ?_
    exact issue_ok hi hlegal rfl
  · have hexec : exec (.dqmx c w a) s = execDqmx c w a s := rfl
    refine ran_chip _ hl (hexec.trans (by rw [execDqmx])) ?_
    exact issue_ok hi hlegal rfl
  · have hfn : ∀ {i : Instr} (fn : SFn), exec i s = onChip (fun ch => ch.sfuOp fn c.toNat w.toNat f a) s →
        Ran i s (s.chip.executed s.chip x a
          (x.wv.mapLanes a 1 1 fun p _ _ => fn.apply (s.chip.cluster x.cl).tableVer.toNat f p)) :=
      fun fn hexec => ran_chip (fun ch => ch.sfuOp fn c.toNat w.toNat f a) hl hexec (Chip.sfuOp_eq fn hi hlegal)
    exact ⟨hfn .rcp rfl, hfn .sqrt rfl, hfn .rsqrt rfl, hfn .exp2 rfl, hfn .log2 rfl, hfn .sinpi rfl, hfn .cospi rfl,
      hfn .tanh rfl, hfn .erf rfl⟩

/-- Settles O23: both complete, with the values that the catalogue gives. -/
theorem scalarAndControl : Obligations.scalar_and_control := by
  unfold Obligations.scalar_and_control
  intro s c w op a x hl hlegal
  refine ⟨fun hi => ?_, fun hi => ?_⟩
  · have hexec : exec (.saluOp c w op a) s = execSaluOp c w op a s := rfl
    exact ⟨_, _, ran_chip _ hl (hexec.trans (by rw [execSaluOp])) (issue_ok hi hlegal rfl)⟩
  · have hexec : exec (.ctrlBranch c w op a) s = execCtrlBranch c w op a s := rfl
    exact ⟨_, _, ran_chip _ hl (hexec.trans (by rw [execCtrlBranch])) (issue_ok hi hlegal rfl)⟩

end Sys2Proof.Machine

/-! ## Memory, crema, synchronisation and tensor instructions of a wave (R132 to R135, R149 to R168, R192 to R195) -/

namespace Sys2Proof.Machine

/-! ### Loads, stores and atomics -/

section
variable {s : State} {c : BitVec 7} {w : BitVec 6} {size atop : BitVec 3} {a : Args} {x : WCtx} {n : Nat}

theorem ran_ld {r : List (Nat × Nat)} (hl : Live s) (hn : sizeBytes size.toNat = some n)
    (hi : Issues s.chip c.toNat w.toNat Cls.mem (some (memOp 0 size 0)) a x)
    (hlegal : memLegal 0 size 0 a x.wg.vregs = true) (hr : s.chip.laneReads x a n x.wv.lanes = .ok r) :
    Ran (.ld c w size 0 a) s (s.chip.executed s.chip x a (x.wv.writeLanes (Operand.of a.dst) (wordsOf n) r)) := by
  have hexec : exec (.ld c w size 0 a) s = execLd c w size 0 a s := rfl
  refine ran_chip _ hl (hexec.trans (by rw [execLd])) ?_
  refine issue_ok hi hlegal ?_
  dsimp only
  rw [hn, Option.getD_some, hr]

theorem ran_st {c1 : Chip} (hl : Live s) (hn : sizeBytes size.toNat = some n)
    (hi : Issues s.chip c.toNat w.toNat Cls.mem (some (memOp 1 size 0)) a x)
    (hlegal : memLegal 1 size 0 a x.wg.vregs = true) (hgo : s.chip.releaseWaits x a = false)
    (hw : laneWrites x a n x.wv.lanes s.chip = .ok c1) :
    Ran (.st c w size 0 a) s (s.chip.executed c1 x a x.wv) := by
  have hexec : exec (.st c w size 0 a) s = execSt c w size 0 a s := rfl
  refine ran_chip _ hl (hexec.trans (by rw [execSt])) ?_
  refine issue_ok hi hlegal ?_
  rw [if_neg (by simp [hgo]), hn, Option.getD_some, hw]

theorem ran_lds {b : List Byte} (hl : Live s) (hn : sizeBytes size.toNat = some n)
    (hi : Issues s.chip c.toNat w.toNat Cls.mem (some (memOp 6 size 0)) a x)
    (hlegal : memLegal 6 size 0 a x.wg.vregs = true) (hr : s.chip.readVA x.act (laneVa x a 0) n = .ok b) :
    Ran (.lds c w size 0 a) s
      (s.chip.executed s.chip x a (x.wv.dstN (Operand.of a.dst) 0 (leNat b) (wordsOf n))) := by
  have hexec : exec (.lds c w size 0 a) s = execLds c w size 0 a s := rfl
  refine ran_chip _ hl (hexec.trans (by rw [execLds])) ?_
  refine issue_ok hi hlegal ?_
  dsimp only
  rw [hn, Option.getD_some, hr]

/-- R132: an ATOM of which every lane's work is in the partition's own memory. -/
theorem Chip.atom_done {ch c1 : Chip} {cl wn : Nat} {r : List (Nat × Nat)}
    (hi : Issues ch cl wn Cls.mem (some (memOp 2 size atop)) a x) (hn : sizeBytes size.toNat = some n)
    (hlegal : atomLegal (ch.flag Fld.DEV_CAPS0_FP64) 2 size atop a x.wg.vregs = true)
    (hask : ch.waveAsking (waveKey x.cl x.w) = false) (hgo : ch.releaseWaits x a = false)
    (hhere : ch.unanswered x a n = []) (hdo : doAtomics x a atop.toNat n x.wv.lanes ch = .ok (c1, r)) :
    ch.atom cl wn size atop a = ch.executed c1 x a (x.wv.writeLanes (Operand.of a.dst) (wordsOf n) r) := by
  unfold Chip.atom
  rw [hn, Option.getD_some, issueAs_of _ hi hlegal]
  rw [hdo]
  dsimp only
  rw [hask, hgo, hhere]
  rfl

end

/-- Settles O24: the lanes' accesses succeed, and what they read is written to their destinations. -/
theorem waveMemory : Obligations.wave_memory := by
  unfold Obligations.wave_memory
  refine ⟨fun s c w size a x n hl hn => ⟨fun r hi hlegal hr => ran_ld hl hn hi hlegal hr,
      fun c1 hi hlegal hgo hw => ran_st hl hn hi hlegal hgo hw, fun b hi hlegal hr => ran_lds hl hn hi hlegal hr⟩,
    fun s c w size atop a x n c1 r hl hi hn hlegal hask hgo hhere hdo => ?_⟩
  exact ran_chip (fun ch => ch.atom c.toNat w.toNat size atop a) hl rfl (Chip.atom_done hi hn hlegal hask hgo hhere hdo)

/-! ### Crema accesses of one lane -/

theorem Wave.writeLanes_single (w : Wave) (o : Operand) (words l v : Nat) :
    w.writeLanes o words [(l, v)] = w.dstN o l v words := rfl

theorem laneWords_single {x : WCtx} {a : Args} {n l : Nat} (hlane : x.wv.lanes = [l]) :
    laneWords x a n = distinct (bankWords (laneOff x a l) n) := by
  simp [laneWords, hlane]

section
variable {s : State} {c : BitVec 7} {w : BitVec 6} {size atop : BitVec 3} {a : Args} {ecc : CremaEcc} {x : WCtx} {n l : Nat}

theorem ran_ldc {b : List Byte} (hl : Live s) (hn : sizeBytes size.toNat = some n) (hlane : x.wv.lanes = [l])
    (hi : Issues (s.chip.cremaErrors c.toNat ecc) c.toNat w.toNat Cls.mem (some (memOp 3 size 0)) a x)
    (hlegal : memLegal 3 size 0 a x.wg.vregs = true)
    (hr : ((s.chip.cremaErrors c.toNat ecc).cluster x.cl).cremaRead x.wg.granules (laneOff x a l) n = .ok b) :
    Ran (.ldc c w size 0 ⟨a, ecc⟩) s ((s.chip.cremaErrors c.toNat ecc).executed
      ((s.chip.cremaErrors c.toNat ecc).countConflict x (distinct (bankWords (laneOff x a l) n)) false) x a
      (x.wv.dstN (Operand.of a.dst) l (leNat b) (wordsOf n))) := by
  have hexec : exec (.ldc c w size 0 ⟨a, ecc⟩) s = execLdc c w size 0 ⟨a, ecc⟩ s := rfl
  refine ran_chip _ hl (hexec.trans (by rw [execLdc])) ?_
  refine issue_ok hi hlegal ?_
  dsimp only
  rw [hn, Option.getD_some, laneWords_single hlane, hlane, List.foldl_cons, List.foldl_nil, hr]
  rfl

theorem ran_stc (hl : Live s) (hn : sizeBytes size.toNat = some n) (hlane : x.wv.lanes = [l])
    (hi : Issues s.chip c.toNat w.toNat Cls.mem (some (memOp 4 size 0)) a x)
    (hlegal : memLegal 4 size 0 a x.wg.vregs = true) (hin : laneOff x a l + n ≤ x.wg.granules.length * 4096) :
    Ran (.stc c w size 0 a) s (s.chip.executed ((s.chip.setCluster x.cl ((s.chip.cluster x.cl).cremaPut
      x.wg.granules (laneOff x a l) (leBytes n (x.wv.srcN (Operand.of a.src1) a.ext l (wordsOf n))))).countConflict x
        (distinct (bankWords (laneOff x a l) n)) true) x a x.wv) := by
  have hexec : exec (.stc c w size 0 a) s = execStc c w size 0 a s := rfl
  have hput : ∀ v, (s.chip.cluster x.cl).cremaWrite x.wg.granules (laneOff x a l) (leBytes n v) =
      .ok ((s.chip.cluster x.cl).cremaPut x.wg.granules (laneOff x a l) (leBytes n v)) := fun v =>
    if_neg (by rw [leBytes_length]; omega)
  refine ran_chip _ hl (hexec.trans (by rw [execStc])) ?_
  refine issue_ok hi hlegal ?_
  dsimp only
  rw [hn, Option.getD_some, laneWords_single hlane, hlane, List.foldl_cons, List.foldl_nil]
  dsimp only
  rw [hput]

theorem ran_atomc {b : List Byte} (hl : Live s) (hn : sizeBytes size.toNat = some n) (hlane : x.wv.lanes = [l])
    (hi : Issues (s.chip.cremaErrors c.toNat ecc) c.toNat w.toNat Cls.mem (some (memOp 5 size atop)) a x)
    (hlegal : atomLegal (s.chip.flag Fld.DEV_CAPS0_FP64) 5 size atop a x.wg.vregs = true)
    (haligned : laneOff x a l % n = 0)
    (hr : ((s.chip.cremaErrors c.toNat ecc).cluster x.cl).cremaRead x.wg.granules (laneOff x a l) n = .ok b) :
    Ran (.atomc c w size atop ⟨a, ecc⟩) s ((s.chip.cremaErrors c.toNat ecc).executed
      (((s.chip.cremaErrors c.toNat ecc).setCluster x.cl (((s.chip.cremaErrors c.toNat ecc).cluster x.cl).cremaPut
        x.wg.granules (laneOff x a l) (leBytes n (atomicVal atop.toNat n (leNat b)
          (x.wv.srcN (Operand.of a.src1) a.ext l (wordsOf n)) (x.wv.srcN (Operand.of a.src2) a.ext l (wordsOf n)))))
        ).countConflict x [laneOff x a l / 32] true) x a (x.wv.dstN (Operand.of a.dst) l (leNat b) (wordsOf n))) := by
  have hexec : exec (.atomc c w size atop ⟨a, ecc⟩) s = execAtomc c w size atop ⟨a, ecc⟩ s := rfl
  refine ran_chip _ hl (hexec.trans (by rw [execAtomc])) ?_
  refine issue_ok hi hlegal ?_
  dsimp only
  rw [hn, Option.getD_some, hlane, List.foldl_cons, List.foldl_nil]
  dsimp only
  rw [if_neg (by simp [haligned]), hr]
  rfl

end

/-! ### Fences and barriers -/

/-- R134, R360: a wave with nothing outstanding waits at no fence. -/
theorem Chip.fenceWaits_idle {c : Chip} {x : WCtx} {a : Args} (hidle : c.waveOutstanding (waveKey x.cl x.w) = false) :
    c.fenceWaits x a = false := by
  rw [Chip.fenceWaits, hidle, Bool.and_false]

theorem Chip.barrierPass_all {c : Chip} {cl id : Nat} {g : WGroup} (hg : KMap.find id (c.cluster cl).wgs = some g)
    (harrived : g.arrived ≠ []) (hall : ∀ v ∈ g.live, v ∈ g.arrived) :
    c.barrierPass cl id = { c.setCluster cl { c.cluster cl with
        wgs := KMap.set id { g with arrived := [] } (c.cluster cl).wgs } with
      waves := c.waves.map fun kw =>
        if kw.1 / 64 = cl ∧ kw.2.wg = id then (kw.1, { kw.2 with atBarrier := false }) else kw } := by
  unfold Chip.barrierPass
  dsimp only
  rw [hg]
  exact if_neg (by simpa [harrived] using hall)

/-- Settles O25: one lane's access, and a synchronisation with nothing outstanding. -/
theorem cremaAndSync : Obligations.crema_and_sync := by
  unfold Obligations.crema_and_sync
  refine ⟨fun s c w size atop a ecc x n l hl hn hlane => ⟨fun b hi hlegal hr => ran_ldc hl hn hlane hi hlegal hr,
      fun hi hlegal hin => ran_stc hl hn hlane hi hlegal hin,
      fun b hi hlegal haligned hr => ran_atomc hl hn hlane hi hlegal haligned hr⟩,
    fun s hl => ⟨?_, fun c id g hg harrived hall => ?_⟩⟩
  · intro c w a x stands hidle
    refine ⟨fun hi hlegal => ?fence, fun hi hlegal => ?barrier, fun hi hlegal => ?wait, fun hi hlegal => ?time⟩
    case fence =>
      have hexec : exec (.fence c w a) s = execFence c w a s := rfl
      refine ran_chip _ hl (hexec.trans (by rw [execFence])) (issue_ok hi hlegal ?_)
      exact if_neg (by simp [Chip.fenceWaits_idle hidle])
    case barrier =>
      have hexec : exec (.barSync c w a) s = execBarSync c w a s := rfl
      refine ran_chip _ hl (hexec.trans (by rw [execBarSync])) (issue_ok hi hlegal ?_)
      exact if_neg (by simp [Chip.fenceWaits_idle hidle])
    case wait =>
      have hexec : exec (.waitMem c w a) s = execWaitMem c w a s := rfl
      refine ran_chip _ hl (hexec.trans (by rw [execWaitMem])) (issue_ok hi hlegal ?_)
      exact if_neg (by simp [hidle])
    case time =>
      have hexec : exec (.gtcRead c w a) s = execGtcRead c w a s := rfl
      exact ran_chip _ hl (hexec.trans (by rw [execGtcRead])) (issue_ok hi hlegal rfl)
  · exact ran_chip (fun ch => ch.barrierPass c.toNat id.toNat) hl rfl (Chip.barrierPass_all hg harrived hall)

/-! ### Tensor instructions -/

section
variable {c : Chip} {cl w top n : Nat} {tile : BitVec 3} {a : Args} {x : WCtx} {legal : WCtx → Tile → Bool}
  {f : WCtx → Cluster → Nat → Tile → Except AccErr (Cluster × Wave × Nat)}

/-- R163 to R168: a legal tensor instruction on a tile of the workgroup, whose operation succeeds. -/
theorem Chip.tensorIssue_eq {k1 : Cluster} {wv : Wave} {flags : Nat}
    (hi : Issues c cl w Cls.tensor (some (tensorOp top tile 0)) a x) (htile : tileOf x.wg tile = some n)
    (hlegal : legal x ((c.cluster x.cl).tile n) = true)
    (hf : f x ((c.cluster x.cl).accept (Config.freeNat c.ctr (2 ^ 75))) n ((c.cluster x.cl).tile n) = .ok (k1, wv, flags)) :
    c.tensorIssue cl w top tile 0 a legal f = c.executed ((c.setCluster x.cl k1).setRg (Reg.CLU_TNS_STICKY + steer x.cl)
      (c.rg (Reg.CLU_TNS_STICKY + steer x.cl) ||| BitVec.ofNat 32 flags)) x a wv := by
  refine issue_ok hi ?_ ?_
  · rw [htile]
    simpa using hlegal
  · dsimp only
    rw [htile]
    dsimp only
    rw [show ((c.cluster x.cl).accept (Config.freeNat c.ctr (2 ^ 75))).tile n = (c.cluster x.cl).tile n from rfl, hf]

theorem Chip.tensorIssue_noFlags {k1 : Cluster} {wv : Wave}
    (hi : Issues c cl w Cls.tensor (some (tensorOp top tile 0)) a x) (htile : tileOf x.wg tile = some n)
    (hlegal : legal x ((c.cluster x.cl).tile n) = true)
    (hf : f x ((c.cluster x.cl).accept (Config.freeNat c.ctr (2 ^ 75))) n ((c.cluster x.cl).tile n) = .ok (k1, wv, 0)) :
    c.tensorIssue cl w top tile 0 a legal f = c.executed ((c.setCluster x.cl k1).setRg (Reg.CLU_TNS_STICKY + steer x.cl)
      (c.rg (Reg.CLU_TNS_STICKY + steer x.cl))) x a wv := by
  rw [Chip.tensorIssue_eq hi htile hlegal hf, BitVec.or_zero]

end

theorem TensorTimes.busy_usePort (u : TensorTimes) (wg first cycles : Nat) (areas : List PortArea) (write : Bool) :
    (u.usePort wg first cycles areas write).busy = u.busy := by
  unfold TensorTimes.usePort
  split <;> rfl

theorem TensorTimes.queue_usePort (u : TensorTimes) (wg first cycles : Nat) (areas : List PortArea) (write : Bool) :
    (u.usePort wg first cycles areas write).queue = u.queue := by
  unfold TensorTimes.usePort
  split <;> rfl

/-- R168: a gap is no earlier than asked for. -/
theorem le_firstGap (n : Nat) : ∀ (l : List (Nat × Nat)) (t : Nat), t ≤ firstGap n l t
  | [], t => le_refl t
  | (a, b) :: rest, t => by
    unfold firstGap
    split
    · exact le_refl t
    · exact (Nat.le_max_left t b).trans (le_firstGap n rest (max t b))

/-- R168: when an instruction of the drain path starts. -/
theorem Cluster.queueDrain_queue (k : Cluster) (n kind cycles wg : Nat) (areas : List PortArea) :
    (k.queueDrain n kind cycles wg areas).tensor.queue = k.tensor.queue ++
      [{ tile := n, kind := kind,
         start := max (max k.tensor.now ((KMap.find n k.tensor.operands).elim 0 (· + 34))) k.tensor.free,
         cycles := cycles }] := by
  unfold Cluster.queueDrain
  dsimp only
  rw [TensorTimes.queue_usePort]
  cases KMap.find n k.tensor.operands with
  | none => rw [Option.elim_none, Nat.max_zero]
  | some e => rfl

/-- R168: when an instruction takes the issue stage. -/
theorem Cluster.operate_busy (k : Cluster) (n cycles : Nat) (operands : Bool) (wg : Nat) (areas : List PortArea) :
    ∃ t, k.tensor.now ≤ t ∧ KMap.getD k.tensor.drained n 0 ≤ t ∧
      (k.operate n cycles operands wg areas).tensor.busy = putInterval (t, t + cycles) k.tensor.busy := by
  have hgap := le_firstGap cycles k.tensor.busy
    (max k.tensor.now (max (KMap.getD k.tensor.drained n 0) (KMap.getD k.tensor.operands n 0)))
  exact ⟨_, by omega, by omega, TensorTimes.busy_usePort _ _ _ _ _ _⟩

theorem Chip.drainStart_next {c : Chip} {cl : Nat} {d : DrainItem} {rest : List DrainItem}
    (hq : (c.cluster cl).tensor.queue = d :: rest) :
    c.drainStart cl = c.setCluster cl { c.cluster cl with
      tensor := { (c.cluster cl).tensor with queue := rest, running := some d } } := by
  unfold Chip.drainStart
  dsimp only
  rw [hq]

/-! ### The tensor instructions' operations -/

/-- R192: what ECC finds in the crema leaves the model's count of steps. -/
theorem Chip.ctr_cremaErrors (c : Chip) (cl : Nat) (e : CremaEcc) : (c.cremaErrors cl e).ctr = c.ctr := by
  unfold Chip.cremaErrors
  dsimp only
  split <;> split <;> rfl

section
variable {s : State} {c : BitVec 7} {w : BitVec 6} {tile : BitVec 3} {a : Args} {ecc : CremaEcc} {x : WCtx} {n : Nat}

/-- R166: the mode bit of a TZERO, and what the mode needs. -/
theorem ran_tzero {f64 : Bool} (hl : Live s) (htile : tileOf x.wg tile = some n)
    (hi : Issues s.chip c.toNat w.toNat Cls.tensor (some (tensorOp 1 tile 0)) a x)
    (hshape : tensorShape a false false false false false = true) (hmod : a.mod = if f64 then 1 else 0)
    (hfmt : f64 = true → bit (s.chip.fld Fld.DEV_CAPS1_TFMT) 11 = true) :
    Ran (.tzero c w tile 0 a) s (s.chip.executed ((s.chip.setCluster x.cl
      ((((s.chip.cluster x.cl).accept (Config.freeNat s.chip.ctr (2 ^ 75))).setTile n { f64 := f64 }).operate
        n 1 false x.wv.wg [])).setRg (Reg.CLU_TNS_STICKY + steer x.cl) (s.chip.rg (Reg.CLU_TNS_STICKY + steer x.cl)))
      x a x.wv) := by
  have hexec : exec (.tzero c w tile 0 a) s = execTzero c w tile 0 a s := rfl
  have hmode : (a.mod == 1) = f64 := by cases f64 <;> rw [hmod] <;> rfl
  refine ran_chip _ hl (hexec.trans (by rw [execTzero])) (Chip.tensorIssue_noFlags hi htile ?_ ?_)
  · cases f64 with
    | false => simp [hshape, hmod]
    | true => simp [hshape, hmod, hfmt rfl]
  · rw [hmode]

/-- R163, R168: TSTAT, with CLEAR in MOD. -/
theorem ran_tstat {clear : Bool} (hl : Live s) (htile : tileOf x.wg tile = some n)
    (hi : Issues s.chip c.toNat w.toNat Cls.tensor (some (tensorOp 5 tile 0)) a x)
    (hshape : tensorShape a false true false false false = true) (hdst : (Operand.of a.dst).regOk 0 2 = true)
    (hmod : a.mod = if clear then 1 else 0) {k : Cluster}
    (hk : (s.chip.cluster x.cl).accept (Config.freeNat s.chip.ctr (2 ^ 75)) = k) {wv : Wave}
    (hwv : x.wv.dstN (Operand.of a.dst) 0 ((k.tile n).stat + 2 ^ 32 * x.wv.tflags) 2 = wv) :
    Ran (.tstat c w tile 0 a) s (s.chip.executed ((s.chip.setCluster x.cl (k.queueDrain n 2 1 x.wv.wg [])).setRg
      (Reg.CLU_TNS_STICKY + steer x.cl) (s.chip.rg (Reg.CLU_TNS_STICKY + steer x.cl) ||| BitVec.ofNat 32 0)) x a
      (if clear then { wv with tflags := 0 } else wv)) := by
  have hexec : exec (.tstat c w tile 0 a) s = execTstat c w tile 0 a s := rfl
  have hmode : (a.mod == 1) = clear := by cases clear <;> rw [hmod] <;> rfl
  subst hk hwv
  refine ran_chip _ hl (hexec.trans (by rw [execTstat])) (Chip.tensorIssue_eq hi htile ?_ ?_)
  · cases clear <;> simp [hshape, hmod, hdst]
  · dsimp only
    rw [hmode]
    rfl

end

/-- Settles O26: each instruction is legal and its operation succeeds; the drain path and the issue stage take it. -/
theorem tensorUnit : Obligations.tensor_unit := by
  unfold Obligations.tensor_unit
  refine ⟨fun s c w tile a ecc x n hl htile => ⟨?tmma, fun hi hshape => ⟨fun hmod => ?_, fun hmod hfmt => ?_⟩, ?taccRaw⟩,
    fun s c hl => ⟨fun w tile a x n htile => ⟨?tdrain, ?tstoreRaw, fun hi hshape hdst => ⟨fun hmod => ?_, fun hmod => ?_⟩⟩,
      fun d rest hq => ?_⟩,
    fun k n kind cycles wg operands areas => ⟨k.queueDrain_queue n kind cycles wg areas,
      k.operate_busy n cycles operands wg areas⟩⟩
  case tmma =>
    intro m hi hargs na nb ncycles hA hB
    have hexec : exec (.tmma c w tile 0 ⟨a, ecc⟩) s = execTmma c w tile 0 ⟨a, ecc⟩ s := rfl
    refine ran_chip _ hl (hexec.trans (by rw [execTmma])) (Chip.tensorIssue_noFlags hi htile ?_ ?_)
    · exact Option.isSome_iff_exists.2 ⟨m, hargs⟩
    · dsimp only
      rw [show tmmaArgs s.chip x 0 (((s.chip.cremaErrors c.toNat ecc).cluster x.cl).tile n).f64 a = some m from hargs,
        Chip.ctr_cremaErrors]
      dsimp only
      rw [hA, hB]
      rfl
  · exact ran_tzero (f64 := false) hl htile hi hshape hmod Bool.noConfusion
  · exact ran_tzero (f64 := true) hl htile hi hshape hmod fun _ => hfmt
  case taccRaw =>
    intro hi hshape hmod hlong harea
    have hexec : exec (.taccRaw c w tile 0 ⟨a, ecc⟩) s = execTaccRaw c w tile 0 ⟨a, ecc⟩ s := rfl
    have hlong' : (Cluster.tile ((s.chip.cremaErrors c.toNat ecc).cluster x.cl) n).f64 = false := hlong
    refine ran_chip _ hl (hexec.trans (by rw [execTaccRaw])) (Chip.tensorIssue_noFlags hi htile ?_ ?_)
    · simp [hshape, hmod, hlong']
    · dsimp only
      rw [Chip.ctr_cremaErrors, harea]
      rfl
  case tdrain =>
    intro hi hlegal fmt mode satf dst stride haligned hin flags k1
    have hexec : exec (.tdrain c w tile 0 a) s = execTdrain c w tile 0 a s := rfl
    refine ran_chip _ hl (hexec.trans (by rw [execTdrain])) (Chip.tensorIssue_eq hi htile hlegal ?_)
    dsimp only
    rw [if_neg (not_or.2 ⟨not_not.2 haligned, not_lt.2 hin⟩)]
    rfl
  case tstoreRaw =>
    intro hi hshape hmod hlong haligned hin
    have hexec : exec (.tstoreRaw c w tile 0 a) s = execTstoreRaw c w tile 0 a s := rfl
    have hlong' : (Cluster.tile (s.chip.cluster x.cl) n).f64 = false := hlong
    refine ran_chip _ hl (hexec.trans (by rw [execTstoreRaw])) (Chip.tensorIssue_eq hi htile ?_ ?_)
    · simp [hshape, hmod, hlong']
    · dsimp only
      rw [if_neg (not_or.2 ⟨not_not.2 haligned, not_lt.2 hin⟩)]
      rfl
  · exact ran_tstat (clear := false) hl htile hi hshape hdst hmod rfl rfl
  · exact ran_tstat (clear := true) hl htile hi hshape hdst hmod rfl rfl
  · exact ran_chip (fun ch => ch.drainStart c.toNat) hl rfl (Chip.drainStart_next hq)

end Sys2Proof.Machine

/-! ## The end of a wave, time slices, and the raster pipeline (R91 to R100, R271 to R303) -/

namespace Sys2Proof.Machine

/-! ### The end of a wave -/

section
variable {c c1 : Chip} {x : WCtx} {a : Args} {wv : Wave}

theorem Chip.wave_executed : (c.executed c1 x a wv).wave (waveKey x.cl x.w) = some { wv with pc := wv.pc + argBytes a } :=
  KMap.find_set_self _ _ _

theorem argBytes_pos (a : Args) : 0 < argBytes a := by
  unfold argBytes
  split <;> omega

theorem Chip.tileRuns_signItem {q slot item : Nat} : (c1.signItem c q slot item).tileRuns = c1.tileRuns := by
  unfold Chip.signItem
  split
  · rfl
  · split <;> rfl

/-- R128: the last instruction of a DISPATCH's wave ends it. -/
theorem Chip.endAny_wave (hrun : x.g.run = none) (hfrag : KMap.find (tileKey x.cl x.wv.wg) c1.tileRuns = none) :
    (c.executed c1 x a wv).endAny x = (c.executed c1 x a wv).endWave x.cl x.w := by
  have hkept : (c.executed c1 x a wv).tileRuns = c1.tileRuns := Chip.tileRuns_signItem
  unfold Chip.endAny
  rw [hkept, hfrag, hrun]

end

theorem ran_endWave {s : State} {c : BitVec 7} {w : BitVec 6} {a : Args} {x : WCtx} (hl : Live s)
    (hi : Issues s.chip c.toNat w.toNat Cls.ctrl none a x) (hlegal : plainLegal a x.wg.vregs = true)
    (hidle : s.chip.waveOutstanding (waveKey x.cl x.w) = false)
    (hfrag : KMap.find (tileKey x.cl x.wv.wg) s.chip.tileRuns = none) (hrun : x.g.run = none) :
    Ran (.endWave c w a) s ((s.chip.executed s.chip x a x.wv).endWave x.cl x.w) := by
  have hexec : exec (.endWave c w a) s = execEndWave c w a s := rfl
  refine ran_chip _ hl (hexec.trans (by rw [execEndWave])) ?_
  rw [hi.1]
  dsimp only
  rw [if_neg (by simp [hidle]), issue_ok hi hlegal rfl, Chip.wave_executed]
  dsimp only
  rw [if_neg (Nat.ne_of_gt (Nat.lt_add_of_pos_right (argBytes_pos a)))]
  exact Chip.endAny_wave hrun hfrag

/-! ### Time slices and lateness -/

section
variable {c : Chip} {p h : Nat} {t : List Nat}

theorem Chip.sliceExpiry_early (hrun : c.runList p = h :: t)
    (hleft : KMap.getD (c.part p).sliceUsed (c.sliceKey h) 0 < c.sliceNs (c.sliceKey h)) : c.sliceExpiry p = c := by
  unfold Chip.sliceExpiry
  rw [hrun]
  exact if_pos hleft

theorem Chip.sliceExpiry_used (hrun : c.runList p = h :: t)
    (hused : c.sliceNs (c.sliceKey h) ≤ KMap.getD (c.part p).sliceUsed (c.sliceKey h) 0) :
    c.sliceExpiry p = (c.toTail h).settlePart p := by
  unfold Chip.sliceExpiry
  rw [hrun]
  exact if_neg (not_lt.2 hused)

end

/-- Settles O28: the wave ends behind its instruction; the slice's head goes to the tail; the events are posted. -/
theorem waveEndsAndScheduling : Obligations.wave_ends_and_scheduling := by
  unfold Obligations.wave_ends_and_scheduling
  refine fun s hl => ⟨fun c w a x hi hlegal hidle hfrag hrun => ran_endWave hl hi hlegal hidle hfrag hrun,
    fun p h t hrun => ⟨fun hleft => ?_, fun hused => ?_⟩, fun p n q hq => ?_, fun q => ?_⟩
  · exact ran_chip (fun c => c.sliceExpiry p.toNat) hl rfl (Chip.sliceExpiry_early hrun hleft)
  · exact ran_chip (fun c => c.sliceExpiry p.toNat) hl rfl (Chip.sliceExpiry_used hrun hused)
  · have hexec : exec (.displayLate p n) s = execDisplayLate p n s := rfl
    refine ran_chip _ hl (hexec.trans (by rw [execDisplayLate])) ?_
    rw [hq]
    rfl
  · exact ran_chip (fun c => c.postBoth (partOf q.toNat) 0x0011 q.toNat q.toNat) hl rfl rfl

/-! ### DRAW -/

section
variable {c c1 : Chip} {q slot : Nat} {e e1 : Entry} {bb pb h rb : List Byte} {x : Chain} {b : DrawBlk} {hd : Header}

/-- R271: a DRAW in its turn goes by its block and by the queue's chain. -/
theorem Chip.draw_unchained (hh : Holds c q slot Op.draw e) (hturn : c.drawTurn q slot e = true)
    (haligned : e.desc.p1.toNat % 8 = 0) (hread : c.readVA (c.actor q slot) e.desc.p1.toNat 64 = .ok bb)
    (hchain : c.chain q = none) :
    c.draw q slot = if (DrawBlk.ofBytes bb).first then c.openChain q slot e (DrawBlk.ofBytes bb)
      else c.finishMalformed q slot := by
  refine (run_ready _ hh).trans ?_
  dsimp only
  rw [if_neg (by simp [hturn]), if_neg (by omega), hread]
  dsimp only
  rw [hchain]

theorem Chip.draw_chained (hh : Holds c q slot Op.draw e) (hturn : c.drawTurn q slot e = true)
    (haligned : e.desc.p1.toNat % 8 = 0) (hread : c.readVA (c.actor q slot) e.desc.p1.toNat 64 = .ok bb)
    (hchain : c.chain q = some x) (hlater : (DrawBlk.ofBytes bb).first = false) (hrp : x.rpVa = e.desc.p3.toNat)
    (hbs : x.bsVa = e.desc.p4.toNat) (hdraws : x.draws < 65536) (hgood : x.failed = none) :
    c.draw q slot = c.chainedDraw q slot e (DrawBlk.ofBytes bb) x := by
  refine (run_ready _ hh).trans ?_
  dsimp only
  rw [if_neg (by simp [hturn]), if_neg (by omega), hread]
  dsimp only
  rw [hchain]
  dsimp only
  rw [if_neg (by simp [hlater, hrp, hbs, hdraws]), hgood]

/-- R274: the FIRST DRAW opens the chain with its render pass and starts in it. -/
theorem Chip.openChain_runs (hrp : e.desc.p3.toNat % 64 = 0) (hbs : e.desc.p4.toNat % 4096 = 0)
    (hhead : c.readVA (c.actor q slot) e.desc.p3.toNat 64 = .ok h)
    (hpass : c.readVA (c.actor q slot) e.desc.p3.toNat (passBytes h) = .ok rb) (hok : (RPass.ofBytes rb).ok = true)
    (hc1 : (c.setChain q { rpVa := e.desc.p3.toNat, bsVa := e.desc.p4.toNat, pass := RPass.ofBytes rb }).chainedDraw
      q slot e b { rpVa := e.desc.p3.toNat, bsVa := e.desc.p4.toNat, pass := RPass.ofBytes rb } = c1)
    (hruns : (c1.entry q slot).map Entry.phase = some .running) : c.openChain q slot e b = c1 := by
  unfold Chip.openChain
  dsimp only
  rw [if_neg (by omega), hhead]
  dsimp only
  rw [hpass]
  dsimp only
  rw [if_neg (by simp [hok]), hc1, hruns]

/-- R278 to R281: the block, the pipeline state and the programs pass. -/
theorem Chip.chainedDraw_starts (hb : b.ok = true) (haligned : e.desc.p0.toNat % 8 = 0)
    (hread : c.readVA (c.actor q slot) e.desc.p0.toNat 64 = .ok pb) (hpipe : (Pipe.ofBytes pb).ok x.pass = true)
    (hprograms : c.drawPrograms q slot (Pipe.ofBytes pb) x.pass b.last = .ok (c1, hd)) (he1 : c1.entry q slot = some e1) :
    c.chainedDraw q slot e b x = c1.startDraw q slot e1 hd
      { no := x.draws, last := b.last, psVa := e.desc.p0.toNat, fargs := b.fargs, vargs := b.vargs
        topology := b.topology, index := b.index, indexVa := b.indexVa, restart := b.restart
        baseVertex := b.baseVertex, count := dbits e.desc.p2 31 0, instances := dbits e.desc.p2 63 32
        pipe := Pipe.ofBytes pb, vbase := 0 } x := by
  unfold Chip.chainedDraw
  rw [if_neg (by simp [hb, haligned]), hread]
  dsimp only
  rw [if_neg (by simp [hpipe]), hprograms]
  dsimp only
  rw [he1]

/-- R286, R289: a later DRAW whose vertex records fit starts its geometry phase. -/
theorem Chip.startDraw_fits {d : DrawRun} (hlater : d.no ≠ 0)
    (hfits : x.vtxUsed + d.instances * d.count * d.recUnits ≤ 64 * x.pass.vtxKib) :
    c.startDraw q slot e hd d x =
      (((c.setChain q { x with vtxUsed := x.vtxUsed + d.instances * d.count * d.recUnits, draws := x.draws + 1 }).setEntry
        q slot { e with phase := .running }).setGrid q slot
        { draw := true, index := e.index, tag := e.desc.tag.toNat, codeVa := hd.codeVa, codeBytes := hd.codeBytes,
          entryOff := hd.entry, vregs := hd.vregs, wpw := 1, gx := 1, gy := 1, total := d.batches, seq := e.beginSeq,
          run := some { d with vbase := x.vtxUsed, vregs := hd.vregs, since := c.gtc.toNat } }) := by
  unfold Chip.startDraw
  dsimp only
  rw [if_neg hlater]
  dsimp only
  rw [if_neg (not_lt.2 hfits)]

theorem Chip.startDraw_overflows {d : DrawRun} (hlater : d.no ≠ 0)
    (hover : 64 * x.pass.vtxKib < x.vtxUsed + d.instances * d.count * d.recUnits) :
    c.startDraw q slot e hd d x = (c.finish q slot St.outputOverflow 2).failChain q St.outputOverflow d.last := by
  unfold Chip.startDraw
  dsimp only
  rw [if_neg hlater]
  dsimp only
  rw [if_pos hover]

end

/-! ### The geometry phase and tiles -/

section
variable {c c1 c2 : Chip} {q slot : Nat} {g : Grid} {d : DrawRun} {x x1 : Chain}

/-- R283: a DRAW whose next primitive may be set up goes on with what is next. -/
theorem Chip.primitiveSetup_eq (hg : c.grid q slot = some g) (hx : c.chain q = some x) (hrun : g.run = some d)
    (hready : c.setupReady q slot g d = true) (hgood : x.failed = none) (hturn : c.setupTurn q slot d = true) :
    c.primitiveSetup q slot = match d.next with
      | .done => c.endGeometry q slot g d x
      | .skip d1 => c.setGrid q slot { g with run := some d1 }
      | .prim ks d1 =>
        match c.readVtxs (c.actor q slot) d x ks with
        | .error e => if e.1.status = St.ok then c.failAt q slot FaultUnit.grinder e
            else c.binStopped q slot (.failed e)
        | .ok vs =>
          match c.setupPrim q slot d x vs with
          | .error e => c.binStopped q slot e
          | .ok (c1, x1, b) =>
            match c1.grind q slot x.bsVa x1.header with
            | .error e => c.binStopped q slot e
            | .ok c2 => (c2.setChain q x1).setGrid q slot { g with run := some { d1 with prims := d.prims + b } } := by
  unfold Chip.primitiveSetup
  rw [hg, hx]
  dsimp only
  rw [hrun]
  dsimp only
  rw [if_neg (by simp [hready, hgood, hturn])] <;> rfl

/-- R273: the geometry phase of a DRAW that is not the LAST ends with its header. -/
theorem Chip.endGeometry_middle (hlast : d.last = false) (hgrind : c.grind q slot x.bsVa x.header = .ok c2) :
    c.endGeometry q slot g d x = (c2.setChain q x).drawDone q slot g d := by
  unfold Chip.endGeometry
  rw [hlast]
  rw [if_neg Bool.false_ne_true]
  dsimp only
  rw [hgrind]
  rfl

/-- R273, R286: that of the LAST ends with every tile's end, and the tile phase begins. -/
theorem Chip.endGeometry_last (hlast : d.last = true)
    (htiles : Chip.endTiles q slot (x.heads.map Prod.fst) c x = .ok (c1, x1))
    (hgrind : c1.grind q slot x.bsVa x1.header = .ok c2) :
    c.endGeometry q slot g d x = (c2.setChain q x1).setGrid q slot
      { g with base := d.batches, next := d.batches, total := d.batches + x.pass.tiles, perCluster := [],
               cremaKib := 4 * x.pass.granules, vregs := 0, run := some { d with tiles := true } } := by
  unfold Chip.endGeometry
  rw [hlast]
  rw [if_pos rfl, htiles]
  dsimp only
  rw [hgrind]
  rfl

/-- R293: the scheduler's choice is a tile that can be placed. -/
theorem Chip.tileAssign_places {cl i : Nat} {r : Chip × Grid} (hg : c.grid q slot = some g)
    (hx : c.chainOf q slot = some x) (hrun : g.run = some d) (htiles : d.tiles = true) (hsaved : g.saved = false)
    (hchoice : (c.claimDisplay q slot).launchChoice q cl g = some i) (htile : d.batches ≤ i)
    (hplace : Chip.placeTile q slot cl x d (c.claimDisplay q slot) g i = .ok r) :
    c.tileAssign q slot cl = r.1.setGrid q slot (r.2.launched cl i) := by
  unfold Chip.tileAssign
  rw [Chip.revive_of_grid hg]
  dsimp only
  rw [hg, Option.bind_some, hrun, hx]
  dsimp only
  rw [if_pos htiles]
  exact Chip.launchItem_eq hg hsaved hchoice (decide_eq_true htile) hplace

/-- R294: a shaded tile is written out and counted. -/
theorem Chip.tileWriteOut_writes {cl id cycles : Nat} {t : TileRun} {wg : WGroup}
    (ht : KMap.find (tileKey cl id) c.tileRuns = some t) (hwg : KMap.find id (c.cluster cl).wgs = some wg)
    (hcur : t.cur = none) (hjobs : t.jobs = []) (hx : c.chainOf t.q t.slot = some x)
    (hwrite : Chip.writeSurfs (c.actor t.q t.slot) t.q (.entry t.q t.slot) (x.pass.rect t.tile) (writes x.pass t.atts) c =
      .ok c1) :
    c.tileWriteOut cl id cycles =
      ((((c1.count Fld.RAS_PIPE_TILE_CNT_COUNT (pg (partOf t.q))).setFld Fld.RAS_PIPE_TILE_MAXCYC_COUNT (pg (partOf t.q))
        (max (c1.fld Fld.RAS_PIPE_TILE_MAXCYC_COUNT (pg (partOf t.q))) cycles)).signItem c t.q t.slot wg.index).tileOut
          t.q t.slot).releaseGroup cl id wg := by
  unfold Chip.tileWriteOut
  rw [ht, hwg]
  dsimp only
  rw [if_neg (by simp [hcur, hjobs]), hx]
  dsimp only
  rw [hwrite]

end

/-- Settles O29: each phase of a DRAW and of its chain by its own lemma. -/
theorem graphics : Obligations.graphics := by
  unfold Obligations.graphics
  refine ⟨fun s q slot e bb hl hh hturn haligned hread => ⟨fun hchain hlater => ?_, ?first, ?later⟩,
    fun s hl => ⟨?setup, ?tile, ?out⟩⟩
  · refine ran_chip (fun c => c.draw q.toNat slot.toNat) hl rfl
      ((Chip.draw_unchained hh hturn haligned hread hchain).trans (if_neg ?_))
    rw [show (DrawBlk.ofBytes bb).first = false from hlater]
    exact Bool.false_ne_true
  case first =>
    intro h rb c1 hchain hfirst rp x hrp hbs hhead hpass hok hc1 hruns
    exact ran_chip (fun c => c.draw q.toNat slot.toNat) hl rfl
      ((Chip.draw_unchained hh hturn haligned hread hchain).trans ((if_pos hfirst).trans
        (Chip.openChain_runs hrp hbs hhead hpass hok hc1.symm hruns)))
  case later =>
    intro x pb c1 h e1 hchain hlater hrp hbs hdraws hnext hgood hb hp0 hpb hpipe hprograms he1 d need
    have hdraw := (Chip.draw_chained hh hturn haligned hread hchain hlater hrp hbs hdraws hgood).trans
      (Chip.chainedDraw_starts hb hp0 hpb hpipe hprograms he1)
    exact ⟨fun hfits => ran_chip (fun c => c.draw q.toNat slot.toNat) hl rfl
        (hdraw.trans (Chip.startDraw_fits hnext hfits)),
      fun hover => ran_chip (fun c => c.draw q.toNat slot.toNat) hl rfl
        (hdraw.trans (Chip.startDraw_overflows hnext hover))⟩
  case setup =>
    intro q slot g d d1 x x1 ks vs c1 c2 b hg hx hrun hready hgood hturn
    have hsetup := Chip.primitiveSetup_eq hg hx hrun hready hgood hturn
    have hran : ∀ {r}, s.chip.primitiveSetup q.toNat slot.toNat = r → Ran (.primitiveSetup q slot) s r :=
      ran_chip (fun c => c.primitiveSetup q.toNat slot.toNat) hl rfl
    refine ⟨fun hdone hlast hgrind => hran ?_, fun hdone hlast htiles hgrind => hran ?_, fun d2 hskip => hran ?_,
      fun hprim hvs hprims hgrind => hran ?_⟩
    · rw [hsetup, hdone]
      exact Chip.endGeometry_middle hlast hgrind
    · rw [hsetup, hdone]
      exact Chip.endGeometry_last hlast htiles hgrind
    · rw [hsetup, hskip]
    · rw [hsetup, hprim]
      dsimp only
      rw [hvs]
      dsimp only
      rw [hprims]
      dsimp only
      rw [hgrind]
  case tile =>
    intro q slot c g d x i r hg hx hrun htiles hsaved hchoice htile hplace
    exact ran_chip (fun ch => ch.tileAssign q.toNat slot.toNat c.toNat) hl rfl
      (Chip.tileAssign_places hg hx hrun htiles hsaved hchoice htile hplace)
  case out =>
    intro c id cycles t g x c1 ht hg hcur hjobs hx hwrite o c2
    exact ran_chip (fun ch => ch.tileWriteOut c.toNat id.toNat cycles.toNat) hl rfl
      (Chip.tileWriteOut_writes ht hg hcur hjobs hx hwrite)

end Sys2Proof.Machine

/-! ## The compression engine and collectives (R249, R328 to R342, R366 to R370, R445) -/

namespace Sys2Proof.Machine

/-! ### Jobs on a lane -/

section
variable {c c1 c2 c3 : Chip} {q slot lane blk op : Nat} {e : Entry} {b input : List Byte} {j : Job} {t : Tier}
  {src dst : List (Nat × Nat)} {h : HistRead} {bad : Bool}

theorem Chip.runJob_lane {f : Chip → Entry → Nat → Chip} (hlane : c.laneOf q slot = some lane)
    (hh : Holds c q slot op e) : c.runJob q slot op f = (f c e lane).settleLane q slot lane := by
  unfold Chip.runJob
  rw [hlane]
  exact congrArg (Chip.settleLane · q slot lane) (run_ready _ hh)

/-- R342: a job whose output is written goes on ending. -/
theorem Chip.jobBlock_ending {f : Chip → Entry → Nat → Nat → Job → Chip} {k : JobEnd} {l : List (Nat × List Byte)}
    (hlane : c.laneOf q slot = some lane) (hh : Holds c q slot op e) (hending : e.ending = some (k, l)) :
    c.jobBlock q slot op f = (Chip.endJob q slot lane k l c).settleLane q slot lane := by
  refine (Chip.runJob_lane hlane hh).trans ?_
  rw [hending]

theorem Chip.jobBlock_reads {f : Chip → Entry → Nat → Nat → Job → Chip}
    (hlane : c.laneOf q slot = some lane) (hh : Holds c q slot op e) (hending : e.ending = none)
    (hread : c.readVA (c.actor q slot) e.desc.p0.toNat 64 = .ok b) :
    c.jobBlock q slot op f = (f c e lane e.desc.p0.toNat (Job.ofBytes b)).settleLane q slot lane := by
  refine (Chip.runJob_lane hlane hh).trans ?_
  rw [hending]
  dsimp only
  rw [hread]

/-- R342: a job with no store left ends once every write is acknowledged. -/
theorem Chip.endJob_done {k : JobEnd} (hacked : c.acknowledged q slot = true) :
    Chip.endJob q slot lane k [] c = c.jobEnds q slot lane k := by
  unfold Chip.endJob
  exact if_pos hacked

/-- R342: its last store, of which the acknowledgement stands, and then its end. -/
theorem Chip.endJob_last {k : JobEnd} {x : Nat × List Byte} (hacked : c.acknowledged q slot = true)
    (hwrite : c.writeVA (c.actor q slot) q (.entry q slot) x.1 x.2 = .ok c1) (hlast : c1.acknowledged q slot = true) :
    Chip.endJob q slot lane k [x] c = c1.jobEnds q slot lane k := by
  rw [Chip.endJob, if_neg (by simp [hacked]), hwrite]
  exact Chip.endJob_done hlast

/-- R333 to R339: a COMPRESS outside context mode reads its input and writes its stream. -/
theorem Chip.compressPlain_eq (hbufs : c.jobBuffers q slot blk j true = .ok (src, dst))
    (hhist : c.jobHistory q slot e j = .ok (c1, h)) (hin : c1.readFar (c1.actor q slot) (bufPieces src) = (input, none)) :
    c.compressPlain q slot e lane blk j bad = c1.compressOut q slot lane blk j (j.stream h) input dst bad := by
  unfold Chip.compressPlain
  rw [hbufs]
  dsimp only
  rw [hhist]
  dsimp only
  rw [hin]

/-- R337 to R339: the stream as far as the buffers hold it, and then how the job ends. -/
theorem Chip.compressOut_eq {x : StreamJob} {out : List Byte} (hout : x.output input = out)
    (hput : c.putOutput q slot dst (out.take (bufTotal dst)) = (c1, none)) :
    c.compressOut q slot lane blk j x input dst bad =
      if out.length > bufTotal dst then Chip.endJob q slot lane .overflow [] c1
      else if bad then Chip.endJob q slot lane .mismatch [] c1
      else Chip.endJob q slot lane (.ok out.length) (j.finalStores blk x input out.length) c1 := by
  unfold Chip.compressOut
  rw [hout]
  dsimp only
  rw [hput]

theorem Chip.compress_plain (hlane : c.laneOf q slot = some lane) (hh : Holds c q slot Op.compress e)
    (hending : e.ending = none) (hread : c.readVA (c.actor q slot) e.desc.p0.toNat 64 = .ok b)
    (hplain : (Job.ofBytes b).ctx = false)
    (hbufs : c.jobBuffers q slot e.desc.p0.toNat (Job.ofBytes b) true = .ok (src, dst))
    (hhist : c.jobHistory q slot e (Job.ofBytes b) = .ok (c1, h))
    (hin : c1.readFar (c1.actor q slot) (bufPieces src) = (input, none)) {out : List Byte}
    (hout : ((Job.ofBytes b).stream h).output input = out)
    (hput : c1.putOutput q slot dst (out.take (bufTotal dst)) = (c2, none)) :
    c.compress q slot bad = (if out.length > bufTotal dst then Chip.endJob q slot lane .overflow [] c2
      else if bad then Chip.endJob q slot lane .mismatch [] c2
      else Chip.endJob q slot lane (.ok out.length) ((Job.ofBytes b).finalStores e.desc.p0.toNat
        ((Job.ofBytes b).stream h) input out.length) c2).settleLane q slot lane := by
  refine (Chip.jobBlock_reads hlane hh hending hread).trans ?_
  rw [if_neg (by simp [hplain]), Chip.compressPlain_eq hbufs hhist hin, Chip.compressOut_eq hout hput]

/-- R340: a DECOMPRESS outside context mode whose output fits. -/
theorem Chip.decompress_plain (hlane : c.laneOf q slot = some lane) (hh : Holds c q slot Op.decompress e)
    (hending : e.ending = none) (hread : c.readVA (c.actor q slot) e.desc.p0.toNat 64 = .ok b)
    (hplain : (Job.ofBytes b).ctx = false)
    (hbufs : c.jobBuffers q slot e.desc.p0.toNat (Job.ofBytes b) false = .ok (src, dst))
    (hin : c.readFar (c.actor q slot) (bufPieces src) = (input, none)) {d : Decoded}
    (hd : decodeFmt (Job.ofBytes b).fmt input = d)
    (hput : c.putOutput q slot dst (d.out.take (bufTotal dst)) = (c2, none)) (hfits : d.out.length ≤ bufTotal dst) :
    c.decompress q slot = (Chip.endJob q slot lane (if d.ok then .ok d.out.length else .corrupt d.out.length)
      [d.result (Job.ofBytes b) e.desc.p0.toNat d.out.length d.used] c2).settleLane q slot lane := by
  refine (Chip.jobBlock_reads hlane hh hending hread).trans ?_
  rw [if_neg (by simp [hplain])]
  unfold Chip.decompressPlain
  rw [hbufs]
  dsimp only
  rw [hin]
  dsimp only
  rw [hd, ite_self]
  dsimp only
  rw [hput]
  dsimp only
  rw [if_neg (not_lt.2 hfits)]

theorem Decoded.result_whole (d : Decoded) (j : Job) (blk used : Nat) :
    d.result j blk d.out.length used = (blk + 0x30, leBytes 8 d.out.length ++ leBytes 4 used ++
      leBytes 4 (checkVal j.fmt (checkMore j.fmt (checkInit j.fmt) d.out))) := by
  rw [Decoded.result, List.take_length, resultWords]

/-- R249, R341: a COMPRESS in context mode of a resident page. -/
theorem Chip.compress_page {page : Nat} (hlane : c.laneOf q slot = some lane) (hh : Holds c q slot Op.compress e)
    (hending : e.ending = none) (hread : c.readVA (c.actor q slot) e.desc.p0.toNat 64 = .ok b)
    (hctx : (Job.ofBytes b).ctx = true) (ht : c.tier q slot e (Job.ofBytes b) true = .ok t)
    (hpage : t.entry = .resident page) :
    c.compress q slot bad = (if (Job.ofBytes b).dst < (c.part (partOf q)).scratchBytes ∨
        (Job.ofBytes b).dst + 65280 > (c.part (partOf q)).memBytes then c.finish q slot St.contextPageFault 0
      else
        match c.readPP (partOf q) page 65536 with
        | .error err => c.failAt q slot FaultUnit.compression (err, 0)
        | .ok bs => c.tierOut q slot lane e.desc.p0.toNat (Job.ofBytes b) t page bs bad).settleLane q slot lane := by
  refine (Chip.jobBlock_reads hlane hh hending hread).trans ?_
  rw [if_pos hctx]
  unfold Chip.compressCtx
  rw [ht]
  dsimp only
  rw [hpage] <;> rfl

/-- R249: the object of a page that the verifier passes, where no reset stops it. -/
theorem Chip.tierOut_passes {page : Nat} {bs : List Byte} (hgo : c.stopBytes q (tierStream j bs) = none) :
    c.tierOut q slot lane blk j t page bs false =
      if (tierStream j bs).length ≤ 65280 then c.tierDown q slot lane blk j t page bs (tierStream j bs)
      else
        match c.putPP q j.dst ((tierStream j bs).take 65280) with
        | .error err => c.failAt q slot FaultUnit.compression (err, 0)
        | .ok c1 => Chip.endJob q slot lane (.ok 0) [] c1 := by
  unfold Chip.tierOut
  dsimp only
  rw [hgo]
  dsimp only
  simp only [Bool.not_false, true_and, Bool.false_eq_true, if_false] <;> rfl

end

/-! ### Lanes -/

section
variable {c : Chip} {p q slot : Nat} {i : Word}

/-- R92: each of `n` numbers has its turn after the last one served. -/
theorem mem_turns {n last x : Nat} (hx : x < n) : x ∈ (rangeFrom 1 n).map fun i => (last + i) % n := by
  have hlast := Nat.mod_lt last (Nat.zero_lt_of_lt hx)
  have hmem : ∀ i, 1 ≤ i → i ≤ n → (last % n + i) % n = x → x ∈ (rangeFrom 1 n).map fun i => (last + i) % n :=
    fun i hlo hhi heq => List.mem_map.2 ⟨i, List.mem_map.2 ⟨i - 1, List.mem_range.2 (by omega), Nat.sub_add_cancel hlo⟩,
      (Nat.mod_add_mod last n i).symm.trans heq⟩
  rcases Nat.lt_or_ge (last % n) x with hlt | hge
  · exact hmem (x - last % n) (by omega) (by omega)
      (by rw [Nat.add_sub_cancel' hlt.le, Nat.mod_eq_of_lt hx])
  · exact hmem (x + n - last % n) (by omega) (by omega)
      (by rw [Nat.add_sub_cancel' (by omega), Nat.add_mod_right, Nat.mod_eq_of_lt hx])

/-- In a list that holds `x`, which alone passes, the first that passes is `x`. -/
theorem find_only {f : Nat → Bool} {l : List Nat} {x : Nat} (hmem : x ∈ l) (hx : f x = true)
    (honly : ∀ y ∈ l, f y = true → y = x) : l.find? f = some x := by
  cases hfind : l.find? f with
  | none => exact absurd hx (by simpa using List.find?_eq_none.1 hfind x hmem)
  | some y => rw [honly y (List.mem_of_find?_eq_some hfind) (List.find?_some hfind)]

/-- R328: all lanes are free and in service, and one job of the device waits. -/
theorem Chip.laneStart_one (hlanes : c.lanes = []) (hout : c.fld Fld.CDE_LANE_STATUS_OUT = 0) (hp : p < 16)
    (hjobs : c.waitingJobs p = [(q, slot, i)]) (hothers : ∀ o < 16, o ≠ p → c.waitingJobs o = []) :
    c.laneStart = Chip.setBit
      { c with lanes := [(0, q * 64 + slot)], lanePart := p, laneQueue := KMap.set p (q % 64) c.laneQueue }
      Fld.CDE_LANE_STATUS_BUSY 0 0 := by
  have hfree : ((List.range 4).find? fun i => (KMap.find i c.lanes).isNone && !bit (c.fld Fld.CDE_LANE_STATUS_OUT) i) =
      some 0 := by
    rw [hlanes, hout]
    rfl
  have hpart : ((rangeFrom 1 16).map fun i => (c.lanePart + i) % 16).find? (fun p => !(c.waitingJobs p).isEmpty) =
      some p := by
    refine find_only (mem_turns hp) (by rw [hjobs]; rfl) fun y hy hbusy => ?_
    obtain ⟨k, -, rfl⟩ := List.mem_map.1 hy
    by_contra hne
    rw [hothers _ (Nat.mod_lt _ (by decide)) hne] at hbusy
    exact absurd hbusy (by decide)
  have hqueue : nextQueue (KMap.getD c.laneQueue p 63) [(q, slot, i)] = some (q % 64) := by
    refine find_only (mem_turns (Nat.mod_lt _ (by decide))) (by simp [indexOf]) fun y _ hy => ?_
    exact (by simpa [indexOf] using hy : q % 64 = y).symm
  have hfirst : firstJob ([(q, slot, i)].filter fun j => indexOf j.1 == q % 64) = some (q, slot, i) := by
    simp [indexOf, firstJob]
  unfold Chip.laneStart
  dsimp only
  rw [hfree, hpart]
  dsimp only
  rw [hjobs, hqueue]
  dsimp only
  rw [hfirst, hlanes]
  rfl

end

/-- Settles O30: a job's stages in order, and the lanes. -/
theorem compression : Obligations.compression := by
  unfold Obligations.compression
  refine ⟨fun s q slot e lane b src dst h input c1 c2 hl hlane hh hending => ?plain,
    fun s q slot e lane hl hlane => ⟨fun k l m hending => ⟨fun hh => ?_, fun hh => ?_⟩, fun b hending => ?block⟩,
    fun s hl => ⟨fun p q slot i hlanes hout hp _ hjobs hothers _ => ?_, fun lane hlane => ?_⟩⟩
  case plain =>
    intro blk hread j x out hplain hbufs hhist hin hput
    have hcompress : ∀ m, s.chip.compress q.toNat slot.toNat m = _ := fun m =>
      Chip.compress_plain (bad := m) hlane hh hending hread hplain hbufs hhist hin rfl hput
    have hran : ∀ {m r}, s.chip.compress q.toNat slot.toNat m = r → Ran (.compress q slot m) s r := fun {m} =>
      ran_chip (fun c => c.compress q.toNat slot.toNat m) hl rfl
    refine ⟨fun hfits => hran ?_, fun hacked => ⟨fun c3 hfits hlast hwrite hdone => hran ?_, fun hfits => hran ?_,
      fun m hover => hran ?_⟩⟩
    · rw [hcompress, if_neg (not_lt.2 hfits)]
      rfl
    · have hstores : j.finalStores blk x input out.length = [resultWords blk out.length input.length
          (checkVal j.fmt (checkMore j.fmt h.check input))] := if_pos hlast
      rw [hcompress, if_neg (not_lt.2 hfits), if_neg Bool.false_ne_true]
      refine congrArg (Chip.settleLane · q.toNat slot.toNat lane) ?_
      exact (congrArg (Chip.endJob q.toNat slot.toNat lane (.ok out.length) · c2) hstores).trans
        (Chip.endJob_last hacked hwrite hdone)
    · rw [hcompress, if_neg (not_lt.2 hfits), if_pos rfl, Chip.endJob_done hacked]
      rfl
    · rw [hcompress, if_pos hover, Chip.endJob_done hacked]
      rfl
  · exact ran_chip (fun c => c.compress q.toNat slot.toNat m) hl rfl (Chip.jobBlock_ending hlane hh hending)
  · exact ran_chip (fun c => c.decompress q.toNat slot.toNat) hl rfl (Chip.jobBlock_ending hlane hh hending)
  case block =>
    intro blk j hread
    refine ⟨fun src dst input c2 c3 hh hplain hbufs hin => ?_,
      fun t page m hh hctx ht hpage => ⟨fun hout => ?_, fun bs hlo hhi hbs => ?_⟩⟩
    · intro d n hput hfits hacked hwrite hdone
      have hdecompress := Chip.decompress_plain hlane hh hending hread hplain hbufs hin rfl hput hfits
      have hend : ∀ k, Chip.endJob q.toNat slot.toNat lane k [d.result j blk n d.used] c2 =
          c3.jobEnds q.toNat slot.toNat lane k := fun k => by
        rw [d.result_whole]
        exact Chip.endJob_last hacked hwrite hdone
      have hran : ∀ {r}, s.chip.decompress q.toNat slot.toNat = r → Ran (.decompress q slot) s r :=
        ran_chip (fun c => c.decompress q.toNat slot.toNat) hl rfl
      refine ⟨fun hok => hran ?_, fun hbad => hran ?_⟩
      · rw [hdecompress, hend, if_pos hok]
        rfl
      · rw [hdecompress, hend, show d.ok = false from hbad]
        rfl
    · refine ran_chip (fun c => c.compress q.toNat slot.toNat m) hl rfl
        ((Chip.compress_page hlane hh hending hread hctx ht hpage).trans ?_)
      rw [if_pos hout]
    · intro out hgo
      refine ran_chip (fun c => c.compress q.toNat slot.toNat false) hl rfl
        ((Chip.compress_page hlane hh hending hread hctx ht hpage).trans ?_)
      rw [if_neg (not_or.2 ⟨not_lt.2 hlo, not_lt.2 hhi⟩), hbs]
      dsimp only
      rw [Chip.tierOut_passes hgo] <;> rfl
  · exact ran_chip Chip.laneStart hl rfl (Chip.laneStart_one hlanes hout hp hjobs hothers)
  · have hexec : exec (.compressionLaneReturn lane) s = execCompressionLaneReturn lane s := rfl
    refine ran_chip _ hl (hexec.trans (by rw [execCompressionLaneReturn])) ?_
    exact if_pos hlane

/-! ### Collectives -/

/-- A collective of queue 65 that waits for rank 0's elements, and one of queue 66 with both digests. -/
def waitingColl : Coll :=
  { q := 65, slot := 0, op := 0, exact := false, dtype := 0, redop := 0, outFmt := 0, rmode := 0, satf := false,
    nrank := 2, myRank := 1, root := 0, ranks := [(0, 0), (0, 1)], src := 0, dst := 0, count := 1, group := 5,
    seq := 6, timeout := 1, began := 0, digest := 9, digests := [(1, 9)] }

def agreedColl : Coll := { waitingColl with q := 66, group := 7, digests := [(0, 9), (1, 9)] }

/-- Rank 0's digest, for the first of them. -/
def digestMsg : CollMsg := { part := 1, srcDev := 0, srcPart := 0, group := 5, seq := 6, body := .digest 9 }

/-- After reset, with these two collectives, and the message held. -/
def twoColls : State :=
  { State.reset with chip := { State.reset.chip with colls := [waitingColl, agreedColl], collHeld := [digestMsg] } }

theorem live_twoColls : Live twoColls := by
  unfold Live
  decide +kernel

/-- The message is for the first collective; delivered, both have exchanged their inputs, and not the first alone. -/
theorem collMessage_twoColls : twoColls.chip.collFor digestMsg = some waitingColl ∧
    (waitingColl.ranksWith fun _ r => r == (0, 0)) = [0] ∧
    (twoColls.chip.deliverHeld.settleColls).colls ≠ (Chip.settleColl
      (Chip.setColl { twoColls.chip with collHeld := [] } (waitingColl.take 0 digestMsg.body)) 65 0).colls := by
  decide +kernel

/-- What a command leaves has one list of collectives. -/
theorem Ran.colls_eq {i : Instr} {s : State} {c d : Chip} (hc : Ran i s c) (hd : Ran i s d) : c.colls = d.colls := by
  have htick : c.tick = d.tick := by
    have h := (hc : exec i s = _).symm.trans hd
    simp only [Host.Outcome.next.injEq, State.mk.injEq] at h
    simpa using h
  exact (congrArg Chip.colls htick :)

/-- Refutes O31: after the held message is delivered every running collective goes on where it can (R367), so one of
another queue whose digests have all agreed sends its inputs; the second clause has the message's collective go on
alone. -/
theorem not_collectives : ¬ Obligations.collectives := by
  intro h
  obtain ⟨-, hheld, -⟩ := h twoColls live_twoColls
  obtain ⟨hfor, hrank, hdiffer⟩ := collMessage_twoColls
  have hran : Ran (.collMessage none) twoColls twoColls.chip.deliverHeld.settleColls :=
    onChip_live live_twoColls fun c => c.deliverHeld.settleColls
  exact hdiffer (hran.colls_eq (hheld digestMsg waitingColl 0 rfl hfor hrank))

end Sys2Proof.Machine

/-! ## The display (R307 to R327) -/

namespace Sys2Proof.Machine

/-! ### Flips -/

section
variable {c : Chip} {q slot : Nat} {e : Entry} {prot : Bool} {h b : List Byte} {m : KMap Layer}

/-- The layers that a flip block holds (R314). -/
def flipLayers (b : List Byte) : List (Nat × Layer) :=
  (layerNums (bits (fieldLE b 0 4) 15 8)).zipIdx.map fun x => (x.1, Layer.ofBytes ((b.drop (64 + 64 * x.2)).take 64))

/-- A flip whose block is read goes on to its checks. -/
theorem Chip.flip_reads {op : Nat} (hh : Holds c q slot op e)
    (hhead : c.readVA (c.actor q slot) e.desc.p0.toNat 64 = .ok h)
    (hblock : c.readVA (c.actor q slot) e.desc.p0.toNat
      (64 + 64 * (layerNums (bits (fieldLE h 0 4) 15 8)).length) = .ok b) :
    c.flip q slot op prot = c.commitFlip q slot e prot b := by
  refine (run_ready _ hh).trans ?_
  dsimp only
  rw [hhead]
  dsimp only
  rw [hblock]

/-- R315: the pipe, the mask and the owner that a flip must meet. -/
def Chip.maskRejected (c : Chip) (q : Nat) (prot : Bool) (b : List Byte) : Bool :=
  let mask := bits (fieldLE b 0 4) 15 8
  if prot then mask != 0x80
  else mask == 0 || bit mask 7 || c.fld Fld.LCE_PIPE_CTL_OWNER (pipeOff (bits (fieldLE b 0 4) 0 0)) != partOf q

theorem Chip.maskRejected_prot (hmask : bits (fieldLE b 0 4) 15 8 = 0x80) : c.maskRejected q true b = false := by
  simp [Chip.maskRejected, hmask]

theorem Chip.maskRejected_display (hmask : bits (fieldLE b 0 4) 15 8 ≠ 0) (hseven : bit (bits (fieldLE b 0 4) 15 8) 7 = false)
    (howner : c.fld Fld.LCE_PIPE_CTL_OWNER (pipeOff (bits (fieldLE b 0 4) 0 0)) = partOf q) :
    c.maskRejected q false b = false := by
  simp [Chip.maskRejected, hmask, hseven, howner]

/-- R315: a flip that passes every check joins the flips committed to its pipe. -/
theorem Chip.commitFlip_ok (hhead : flipHeadOk b prot e.desc.p0.toNat = true)
    (hform : ((flipLayers b).all fun l => l.2.formOk) = true) (hon : c.pipeOn (bits (fieldLE b 0 4) 0 0) = true)
    (hmask : c.maskRejected q prot b = false)
    (hfits : ((flipLayers b).all fun l => l.2.fits l.1 (c.fld Fld.LCE_H_HACTIVE (pipeOff (bits (fieldLE b 0 4) 0 0)))
      (c.fld Fld.LCE_V_VACTIVE (pipeOff (bits (fieldLE b 0 4) 0 0)))) = true)
    (hpages : c.translateLayers (c.actor q slot) (c.part (partOf q)).scratchBytes (flipLayers b) = .ok m)
    (hrate : c.rateOk (bits (fieldLE b 0 4) 0 0) m = true) :
    c.commitFlip q slot e prot b =
      (c.setPipe (bits (fieldLE b 0 4) 0 0) { c.pipe (bits (fieldLE b 0 4) 0 0) with
        committed := (c.pipe (bits (fieldLE b 0 4) 0 0)).committed ++
          [{ q := q, slot := slot, asid := c.asidOf q, prot := prot, layers := m, relVa := fieldLE b 8 8
             relVal := fieldLE b 0x10 8, crcEn := bit (fieldLE b 0 4) 16, expect := fieldLE b 0x18 4
             fallback := fieldLE b 0x1C 4 }] }).setEntry q slot { e with phase := .running } := by
  unfold Chip.commitFlip
  refine (if_neg (by rw [hhead]; exact fun hno => by simp [flipLayers] at hform hno; grind)).trans ?_
  refine (if_neg (by simp [hon])).trans ?_
  refine (if_neg (ne_true_of_eq_false hmask)).trans ?_
  refine (if_neg (by simpa [flipLayers] using hfits)).trans ?_
  rw [flipLayers] at hpages
  rw [hpages]
  exact if_neg (by simp [hrate])

end

/-! ### Latches and releases -/

section
variable {c : Chip} {n frame : Nat} {f : Flip}

theorem Chip.releaseFlip_none (hva : f.relVa = 0) : c.releaseFlip f = some c := if_pos hva

/-- R316, R317: a flip with no release fence that is never shown completes alone. -/
theorem Chip.supersede_eq (hva : f.relVa = 0) : c.supersede n f = c.finish f.q f.slot St.ok 0xFFFFFFFF := by
  unfold Chip.supersede
  dsimp only
  rw [Chip.releaseFlip_none hva]
  rfl

theorem Flip.replaced_nil (h : f.layers ≠ []) : f.replaced [] = false := by
  obtain ⟨l, hl⟩ := List.exists_mem_of_ne_nil _ h
  exact Bool.eq_false_iff.mpr fun hall => by simpa using List.all_eq_true.mp hall l hl

/-- A latch's only flip takes its layers and completes. -/
theorem Chip.latchFlips_one (h : f.layers ≠ []) :
    Chip.latchFlips n frame [f] c = (c.setPipe n ((c.pipe n).take f)).finish f.q f.slot St.ok frame :=
  if_neg (ne_true_of_eq_false (Flip.replaced_nil h))

/-- R316, R323: the end of a latch, behind its flips. -/
def Chip.latched (c : Chip) (n frame : Nat) : Chip :=
  let c1 := c.setPipe n (c.pipe n).retire
  ((c1.setFld Fld.LCE_FRAME_COUNT (pipeOff n) frame).setFld Fld.LCE_PCRC_STATUS_CHECKING (pipeOff n)
    (b2n (c1.pipe n).checking)).sourceSignal (1 + n) 0

/-- R316, R318: a latch where no layer is turned off: the stale flips are superseded, and the others latched. -/
theorem Chip.vblank_eq (hon : c.pipeOn n = true) (howner : (c.pipe n).ownerOff = false)
    (hprot : (c.pipe n).protOff = false) (hframe : (c.fld Fld.LCE_FRAME_COUNT (pipeOff n) + 1) % 2 ^ 32 = frame) :
    c.vblank n = (Chip.latchFlips n frame ((c.pipe n).committed.filter fun f => !f.stale)
      (((c.pipe n).committed.filter Flip.stale).foldl (fun c f => c.supersede n f)
        (c.setPipe n { c.pipe n with committed := [], bg := c.fld Fld.LCE_BG_BG (pipeOff n), line := 0, crc := 0 }))).latched
          n frame := by
  unfold Chip.vblank
  refine (if_neg (by simp [hon])).trans ?_
  dsimp only
  rw [hframe, if_neg (ne_true_of_eq_false hprot), if_neg (ne_true_of_eq_false howner)]
  generalize c.pipe n = d at howner hprot
  simp only [howner, hprot]
  rfl

/-- R317: the oldest flip's release, which stays to be made where it cannot be made yet. -/
theorem Chip.releaseOldest_eq {fs : List Flip} (h : (c.pipe n).toRelease = f :: fs) :
    c.releaseOldest n = ((c.setPipe n { c.pipe n with toRelease := fs }).releaseFlip f).getD c := by
  unfold Chip.releaseOldest
  dsimp only
  rw [h]

end

/-! ### Scan-out and the controls of a pipe -/

section
variable {c : Chip} {n : Nat}

/-- R312 to R321: a line on which nothing is late, of a pipe without a protected layer, is sent. -/
theorem Chip.scanout_sends {f : Failed} {ws : List Nat} (hon : c.pipeOn n = true)
    (hline : (c.pipe n).line < c.fld Fld.LCE_V_VACTIVE (pipeOff n)) (hseven : KMap.find 7 (c.pipe n).layers = none)
    (hcompose : c.composeLine n (c.pipe n) [] (c.pipe n).line
      (List.range (c.fld Fld.LCE_H_HACTIVE (pipeOff n))) [] = (f, ws))
    (hlost : ∀ i < 7, i ∉ f) (hsends : c.fld Fld.LCE_PIPE_STATUS_STATE (pipeOff n) = 2) :
    c.scanout n [] = (c.setPipe n { c.pipe n with line := (c.pipe n).line + 1 }).emit
      (.video n (c.pipe n).line ws) := by
  have hnone : (List.range 7).filter (fun i => f.contains i) = [] :=
    List.filter_eq_nil_iff.mpr fun i hi => by simpa using hlost i (List.mem_range.mp hi)
  unfold Chip.scanout
  refine (if_neg (by simp [hon, hline])).trans ?_
  dsimp only
  rw [hcompose]
  dsimp only
  rw [hnone, if_pos hsends]
  simp only [List.isEmpty_nil, if_true, List.foldl_nil, Chip.crcLine, hseven]

theorem Chip.pipeLocked_off (h : c.flag Fld.LCE_PIPE_CTL_ENABLE (pipeOff n) = false) : c.pipeLocked n = c :=
  if_neg (ne_true_of_eq_false h)

theorem Chip.pipeLocked_on (h : c.flag Fld.LCE_PIPE_CTL_ENABLE (pipeOff n) = true) :
    c.pipeLocked n = c.regError (Reg.LCE_PIPE_CTL + pipeOff n) := if_pos h

/-- R318: ENABLE is taken with values that the pipe allows, and starts training. -/
theorem Chip.pipeEnable_on (hoff : c.flag Fld.LCE_PIPE_CTL_ENABLE (pipeOff n) = false) (hok : c.timingOk n = true)
    (hphy : c.mgt.dispPhy = true) :
    c.pipeEnable n true = (c.setFld Fld.LCE_PIPE_CTL_ENABLE (pipeOff n) 1).trainDisplay n := by
  simp [Chip.pipeEnable, hoff, hok, hphy]

theorem Chip.pipeEnable_refused (hoff : c.flag Fld.LCE_PIPE_CTL_ENABLE (pipeOff n) = false)
    (hbad : c.timingOk n = false) : c.pipeEnable n true = c.regError (Reg.LCE_PIPE_CTL + pipeOff n) := by
  simp [Chip.pipeEnable, hoff, hbad]

/-- R318: a running pipe with no flip committed is turned off. -/
theorem Chip.pipeEnable_off (hon : c.flag Fld.LCE_PIPE_CTL_ENABLE (pipeOff n) = true)
    (hnone : (c.pipe n).committed = []) :
    c.pipeEnable n false = ((c.setFld Fld.LCE_PIPE_CTL_ENABLE (pipeOff n) 0).setFld Fld.LCE_PIPE_STATUS_STATE
      (pipeOff n) 0).setPipe n { c.pipe n with committed := [], line := 0, trainWait := false } := by
  simp [Chip.pipeEnable, hon, hnone]

theorem Chip.pipe_regError (c : Chip) (a n : Nat) : (c.regError a).pipe n = c.pipe n := rfl

theorem Chip.pipe_pipeLocked (c : Chip) (n : Nat) : (c.pipeLocked n).pipe n = c.pipe n := by
  unfold Chip.pipeLocked
  split
  · rfl
  · rfl

end

/-- A logged access changes ENABLE of no pipe. -/
theorem Chip.enable_regError (c : Chip) (a : Nat) (n : BitVec 1) :
    (c.regError a).flag Fld.LCE_PIPE_CTL_ENABLE (pipeOff n.toNat) = c.flag Fld.LCE_PIPE_CTL_ENABLE (pipeOff n.toNat) := by
  have haway : ∀ n : BitVec 1, Fld.LCE_PIPE_CTL_ENABLE.base + pipeOff n.toNat ≠ Fld.RAS_REGERR_CNT_COUNT.base + 0 ∧
      Fld.LCE_PIPE_CTL_ENABLE.base + pipeOff n.toNat ≠ Reg.RAS_REGERR_ADDR := by decide
  exact congrArg (· != 0) (c.fld_regError_ne _ _ a (haway n).1 (haway n).2)

/-! ### The clauses of O32 -/

section
variable {s : State} (hl : Live s)
include hl

theorem ran_flip {q : BitVec 10} {slot : BitVec 6} {prot : Bool} {c1 : Chip}
    (hd : s.chip.flip q.toNat slot.toNat (if prot then Op.protectedFlip else Op.displayFlip) prot = c1) :
    Ran (if prot then .protectedFlip q slot else .displayFlip q slot) s c1 := by
  cases prot with
  | false => exact ran_chip (fun c => c.flip q.toNat slot.toNat Op.displayFlip false) hl rfl hd
  | true => exact ran_chip (fun c => c.flip q.toNat slot.toNat Op.protectedFlip true) hl rfl hd

/-- R316: the latch of a pipe's only flip. -/
theorem ran_vblank_one {n : BitVec 1} {f : Flip} (hon : s.chip.pipeOn n.toNat = true)
    (hcommitted : (s.chip.pipe n.toNat).committed = [f]) (hlayers : f.layers ≠ [])
    (howner : (s.chip.pipe n.toNat).ownerOff = false) (hprot : (s.chip.pipe n.toNat).protOff = false) :
    let frame := (s.chip.fld Fld.LCE_FRAME_COUNT (pipeOff n.toNat) + 1) % 2 ^ 32
    let c1 := s.chip.setPipe n.toNat { s.chip.pipe n.toNat with
      committed := [], bg := s.chip.fld Fld.LCE_BG_BG (pipeOff n.toNat), line := 0, crc := 0 }
    (f.stale = false → Ran (.vblankLatch n) s
      (((c1.setPipe n.toNat ((c1.pipe n.toNat).take f)).finish f.q f.slot St.ok frame).latched n.toNat frame)) ∧
    (f.stale = true → f.relVa = 0 →
      Ran (.vblankLatch n) s ((c1.finish f.q f.slot St.ok 0xFFFFFFFF).latched n.toNat frame)) := by
  intro frame c1
  have hvblank := Chip.vblank_eq hon howner hprot (rfl : _ = frame)
  rw [hcommitted] at hvblank
  refine ⟨fun hstale => ran_chip (fun c => c.vblank n.toNat) hl rfl (hvblank.trans ?_),
    fun hstale hva => ran_chip (fun c => c.vblank n.toNat) hl rfl (hvblank.trans ?_)⟩
  · rw [List.filter_cons_of_pos (by simp [hstale]), List.filter_cons_of_neg (by simp [hstale])]
    exact congrArg (Chip.latched · n.toNat frame) (Chip.latchFlips_one hlayers)
  · rw [List.filter_cons_of_neg (by simp [hstale]), List.filter_cons_of_pos (by simp [hstale])]
    exact congrArg (Chip.latched · n.toNat frame) (Chip.supersede_eq hva)

/-- R317: the release of the oldest flip that no frame shows. -/
theorem ran_flipRelease {n : BitVec 1} {f : Flip} {fs : List Flip} (h : (s.chip.pipe n.toNat).toRelease = f :: fs) :
    let c := s.chip.setPipe n.toNat { s.chip.pipe n.toNat with toRelease := fs }
    (∀ c1, c.releaseFlip f = some c1 → Ran (.flipRelease n) s c1) ∧
    (c.releaseFlip f = none → Ran (.flipRelease n) s s.chip) := by
  intro c
  have hrelease : s.chip.releaseOldest n.toNat = (c.releaseFlip f).getD s.chip := Chip.releaseOldest_eq h
  exact ⟨fun c1 h1 => ran_chip (fun c => c.releaseOldest n.toNat) hl rfl (hrelease.trans (by rw [h1]; rfl)),
    fun h1 => ran_chip (fun c => c.releaseOldest n.toNat) hl rfl (hrelease.trans (by rw [h1]; rfl))⟩

theorem ran_displayHotplug_off {n : BitVec 1} (hexists : s.chip.pipeExists n.toNat = true)
    (hoff : s.chip.pipeOn n.toNat = false) (hpd : Bool) :
    Ran (.displayHotplug n hpd) s (s.chip.setFld Fld.LCE_PIPE_STATUS_HPD (pipeOff n.toNat) (b2n hpd)) := by
  have hexec : exec (.displayHotplug n hpd) s = execDisplayHotplug n hpd s := rfl
  refine ran_chip _ hl (hexec.trans (by rw [execDisplayHotplug])) ?_
  exact (if_neg (by simp [hexists])).trans (if_pos (by simp [hoff]))

theorem ran_displayLinkTrained {n : BitVec 1} {lanes rate : BitVec 3}
    (hstate : s.chip.fld Fld.LCE_PIPE_STATUS_STATE (pipeOff n.toNat) = 1) (hfirmware : s.chip.firmwareRuns = true) :
    (s.chip.linkMode n.toNat = some (lanes.toNat, rate.toNat) →
      Ran (.displayLinkTrained n lanes rate) s (s.chip.linkSends n.toNat (lanes.toNat, rate.toNat))) ∧
    (s.chip.linkMode n.toNat ≠ some (lanes.toNat, rate.toNat) → Ran (.displayLinkTrained n lanes rate) s s.chip) :=
  ⟨fun hmode => ran_chip (fun c => c.linkTrained n.toNat (lanes.toNat, rate.toNat)) hl rfl
      (if_pos ⟨hmode, hstate, hfirmware⟩),
    fun hmode => ran_chip (fun c => c.linkTrained n.toNat (lanes.toNat, rate.toNat)) hl rfl
      (if_neg fun h => hmode h.1)⟩

end

section
variable {s : State} {n : BitVec 1} (hup : HostUp s) (hexists : s.chip.pipeExists n.toNat = true)
include hup hexists

theorem ran_pipeEnableWrite {on : Bool} {c1 : Chip}
    (hd : (s.chip.pipeLocked n.toNat).pipeEnable n.toNat on = c1) : Ran (.pipeEnableWrite n on) s c1 :=
  ran_host (fun c => if c.pipeExists n.toNat then (c.pipeLocked n.toNat).pipeEnable n.toNat on else c) hup rfl
    ((if_pos hexists).trans hd)

/-- R318: a pipe with ENABLE 0 takes ENABLE, or logs a write whose values it does not allow. -/
theorem ran_pipeEnableWrite_on (hoff : s.chip.flag Fld.LCE_PIPE_CTL_ENABLE (pipeOff n.toNat) = false) :
    (s.chip.timingOk n.toNat = true → s.chip.mgt.dispPhy = true → Ran (.pipeEnableWrite n true) s
      ((s.chip.setFld Fld.LCE_PIPE_CTL_ENABLE (pipeOff n.toNat) 1).trainDisplay n.toNat)) ∧
    (s.chip.timingOk n.toNat = false →
      Ran (.pipeEnableWrite n true) s (s.chip.regError (Reg.LCE_PIPE_CTL + pipeOff n.toNat))) := by
  refine ⟨fun hok hphy => ran_pipeEnableWrite hup hexists ?_, fun hbad => ran_pipeEnableWrite hup hexists ?_⟩
  · rw [Chip.pipeLocked_off hoff, Chip.pipeEnable_on hoff hok hphy]
  · rw [Chip.pipeLocked_off hoff, Chip.pipeEnable_refused hoff hbad]

/-- R318, R11: a running pipe's ENABLE is cleared, and the write is logged for the fields that it locks. -/
theorem ran_pipeEnableWrite_off (hon : s.chip.flag Fld.LCE_PIPE_CTL_ENABLE (pipeOff n.toNat) = true)
    (hnone : (s.chip.pipe n.toNat).committed = []) :
    Ran (.pipeEnableWrite n false) s
      ((((s.chip.regError (Reg.LCE_PIPE_CTL + pipeOff n.toNat)).setFld Fld.LCE_PIPE_CTL_ENABLE (pipeOff n.toNat) 0).setFld
        Fld.LCE_PIPE_STATUS_STATE (pipeOff n.toNat) 0).setPipe n.toNat
        { s.chip.pipe n.toNat with committed := [], line := 0, trainWait := false }) := by
  refine ran_pipeEnableWrite hup hexists ?_
  rw [Chip.pipeLocked_on hon, Chip.pipeEnable_off ((s.chip.enable_regError _ n).trans hon) hnone, Chip.pipe_regError]

/-- R318, R11: OWNER is written, and logged while the pipe runs. -/
theorem ran_pipeOwnerWrite (p : BitVec 4) :
    Ran (.pipeOwnerWrite n p) s ((s.chip.pipeLocked n.toNat).pipeOwner n.toNat p.toNat) :=
  ran_host (fun c => if c.pipeExists n.toNat then (c.pipeLocked n.toNat).pipeOwner n.toNat p.toNat else c) hup rfl
    (if_pos hexists)

end

/-- Settles O32: a flip that passes its checks is committed, a vertical blank latches the pipe's only flip, a line is
composed and sent, and the writes and pins of a pipe have their effect or are logged. -/
theorem display : Obligations.display := by
  unfold Obligations.display
  refine ⟨fun s hl => ⟨?_, ?_, ?_⟩, fun s n => ?_⟩
  · intro q slot e prot h b m hh va k mask ls hhead hblock hok hform hon hprot hdisp hfits hpages hrate
    refine ran_flip hl ((Chip.flip_reads hh hhead hblock).trans
      (Chip.commitFlip_ok hok hform hon ?_ hfits hpages hrate))
    cases prot with
    | false =>
      obtain ⟨hmask, hseven, howner⟩ := hdisp rfl
      exact Chip.maskRejected_display hmask hseven howner
    | true => exact Chip.maskRejected_prot (hprot rfl)
  · intro n f hon d o frame hcommitted hlayers howner hprotOff c1 latched
    exact ran_vblank_one hl hon hcommitted hlayers howner hprotOff
  · intro n f fs h
    exact ran_flipRelease hl h
  · intro o d
    refine ⟨fun f ws hl hon hline hseven hcompose hlost hsends => ?_, fun hup hexists => ⟨?_, ?_, ?_, ?_⟩, ?_, ?_⟩
    · exact ran_chip (fun c => c.scanout n.toNat []) hl rfl
        (Chip.scanout_sends hon hline hseven hcompose hlost hsends)
    · exact fun hoff => (ran_pipeEnableWrite_on hup hexists hoff).1
    · exact fun hoff => (ran_pipeEnableWrite_on hup hexists hoff).2
    · exact fun hon hnone => ran_pipeEnableWrite_off hup hexists hon hnone
    · intro p c
      have hwrite := ran_pipeOwnerWrite hup hexists p
      rw [Chip.pipeOwner, Chip.pipe_pipeLocked] at hwrite
      exact hwrite
    · exact fun hl hexists hoff hpd => ran_displayHotplug_off hl hexists hoff hpd
    · exact fun lanes rate hl hstate hfirmware => ran_displayLinkTrained hl hstate hfirmware

end Sys2Proof.Machine

/-! ## The shared cache and the stacks' upkeep (R197 to R224) -/

namespace Sys2Proof.Machine

/-! ### The home of a line (R198) -/

/-- A set, exclusive-or'ed with its tag, gives the low bits of the line. -/
theorem homeSet_xor_homeTag (l : Nat) : (homeSet l ^^^ homeTag l) % 2048 = l % 2048 := by
  refine Nat.eq_of_testBit_eq fun i => ?_
  simp only [homeSet, homeTag, Nat.testBit_xor, show (2048 : Nat) = 2 ^ 11 from rfl, Nat.testBit_mod_two_pow]
  by_cases hi : i < 11
  · simp [hi]
  · simp [hi]

theorem lineOf_homeSet_homeTag (l : Nat) : lineOf (homeSet l) (homeTag l) = l := by
  rw [lineOf, homeSet_xor_homeTag, homeTag, Nat.shiftRight_eq_div_pow]
  omega

/-- Settles O35: the set and the tag by their definitions, and the line from both. -/
theorem homeOfLine : Obligations.home_of_line := by
  unfold Obligations.home_of_line
  exact fun l => ⟨rfl, Nat.mod_lt _ (by decide), (Nat.and_two_pow_sub_one_eq_mod (l ^^^ (l >>> 11)) 11).symm, rfl,
    lineOf_homeSet_homeTag l⟩

/-! ### Slices: requests, fills and grants -/

section
variable {c : Chip} {i l : Nat} {q : LineReq}

@[simp] theorem Chip.slice_setSlice_self (c : Chip) (i : Nat) (x : Slice) : (c.setSlice i x).slice i = x := by
  simp [Chip.slice, Chip.setSlice]

theorem Chip.slice_setSlice_ne (c : Chip) {i j : Nat} (h : j ≠ i) (x : Slice) :
    (c.setSlice i x).slice j = c.slice j := by
  simp [Chip.slice, Chip.setSlice, KMap.getD_set_ne h]

/-- An access of an elastic partition reaches the slice of its line. -/
theorem Chip.cacheRequest_elastic {src : CacheSource} {k : CReq} {p a mt l : Nat}
    (hacc : c.accessOf src = some (p, a, mt)) (hmt : mt ≠ 3) (hdet : (c.part p).det = false)
    (hloc : (c.part p).loc a = some l) (hdead : c.deadLoc (c.part p) l = false) :
    c.cacheRequest src k .none = c.lineRequest (l / 128) { mt := mt, kind := k } := by
  unfold Chip.cacheRequest
  rw [hacc]
  dsimp only
  rw [hloc]
  dsimp only
  rw [if_neg (ne_true_of_eq_false hdead), if_neg (ne_true_of_eq_false hdet), if_neg hmt]
  rfl

theorem Chip.lineRequest_served (hwait : ((c.slice (homeSlice l)).queue.any fun r => r.line == l) = false) :
    c.lineRequest l q = c.serveLine (homeSlice l) l q !(c.slice (homeSlice l)).registerWanted :=
  if_neg (ne_true_of_eq_false hwait)

theorem Chip.serveLine_hit {w : Nat} {free : Bool} (h : (c.slice i).lookup l = some w) :
    c.serveLine i l q free = (c.setSlice i ((c.slice i).use l w q)).count Fld.SC_HIT_CNT_COUNT (steer i) := by
  unfold Chip.serveLine
  dsimp only
  rw [h]

theorem Chip.serveLine_miss {free : Bool} (h : (c.slice i).lookup l = none)
    (hv : ((c.slice i).victim.find? fun v => v.line == l) = none) :
    c.serveLine i l q free = c.missRequest i l q free := by
  unfold Chip.serveLine
  dsimp only
  rw [h]
  dsimp only
  rw [hv]

/-- R203: a fetching miss takes a free register. -/
theorem Chip.missRequest_takes {r : Nat} (hnone : (c.slice i).fetching l = none) (hq : q.fetches = true)
    (hfree : (c.slice i).freeMiss = some r) :
    c.missRequest i l q true = (c.setSlice i { c.slice i with
      miss := KMap.set r { line := l, primary := q, secondary := [] } (c.slice i).miss }).count
        Fld.SC_MISS_CNT_COUNT (steer i) := by
  unfold Chip.missRequest
  dsimp only
  rw [hnone]
  dsimp only
  rw [if_pos hq, if_pos rfl, hfree]

/-- R203: a miss behind one of its line joins it, while the register has room. -/
theorem Chip.missRequest_merges {free : Bool} {r : Nat} {m : MissReg} (hfetch : (c.slice i).fetching l = some (r, m))
    (hroom : m.secondary.length < 16) :
    c.missRequest i l q free = (c.setSlice i { c.slice i with
      miss := KMap.set r { m with secondary := m.secondary ++ [q] } (c.slice i).miss }).count
        Fld.SC_MERGE_CNT_COUNT (steer i) := by
  unfold Chip.missRequest
  dsimp only
  rw [hfetch]
  dsimp only
  rw [Chip.mergeMiss, if_neg (Nat.not_le.mpr hroom)]
  rfl

@[simp] theorem Slice.queue_place (x : Slice) (cached : List Nat) (l : Nat) (dirty : Bool) :
    (x.place cached l dirty).queue = x.queue := by
  unfold Slice.place
  dsimp only
  split
  · rfl
  · rfl

theorem Chip.memoryRead_clean
    (h : bit (c.fld Fld.CTX_STK_STATUS_DEGRADED (steer (stackOf l))) (l * 128 / (3 * gib) % 16) = false) :
    c.memoryRead l .none = c := by
  unfold Chip.memoryRead
  dsimp only
  rw [h]
  rfl

/-- R203: a slice whose miss register `r` is free again. -/
def Slice.freed (x : Slice) (r : Nat) : Slice := { x with miss := KMap.erase r x.miss }

/-- R203: a fill for which nothing else waits places its line and frees its register. -/
theorem Chip.missFill_places {r : Nat} {m : MissReg} (hm : KMap.find r (c.slice i).miss = some m)
    (hkeep : m.discard = false) (hsecond : m.secondary = []) (hmt : m.primary.mt = 0)
    (hmiss : (c.slice i).lookup m.line = none) (hqueue : (c.slice i).queue = []) :
    c.missFill i r =
      ((c.setSlice i ((c.slice i).freed r)).setSlice i (((c.slice i).freed r).place c.cachedWays m.line
        m.primary.writes)).setSlice i (((c.slice i).freed r).place c.cachedWays m.line m.primary.writes) := by
  have hfill : (c.setSlice i ((c.slice i).freed r)).fillRequest i m.line m.primary =
      (c.setSlice i ((c.slice i).freed r)).setSlice i (((c.slice i).freed r).place c.cachedWays m.line
        m.primary.writes) := by
    unfold Chip.fillRequest
    rw [Chip.slice_setSlice_self]
    dsimp only
    rw [show ((c.slice i).freed r).lookup m.line = none from hmiss]
    exact if_pos hmt
  have hplaced : { ((c.slice i).freed r).place c.cachedWays m.line m.primary.writes with queue := [] } =
      ((c.slice i).freed r).place c.cachedWays m.line m.primary.writes := by
    rw [← hqueue, ← show ((c.slice i).freed r).queue = (c.slice i).queue from rfl,
      ← Slice.queue_place _ c.cachedWays m.line m.primary.writes]
  unfold Chip.missFill
  dsimp only
  rw [hm]
  dsimp only
  rw [if_neg (ne_true_of_eq_false hkeep), hsecond]
  simp only [Slice.freed, hqueue] at hfill hplaced ⊢
  simp only [List.filter_nil, List.foldl_cons, List.foldl_nil, hfill, Chip.slice_setSlice_self, hplaced]

/-- R204: the first request that waits takes a register that is free, and later ones to its line merge into it. -/
theorem Chip.missGrant_first {r : WaitReq} {rest : List WaitReq} {k n : Nat} (hqueue : (c.slice i).queue = r :: rest)
    (hfetch : (c.slice i).fetching r.line = none) (hfree : (c.slice i).freeMiss = some k) :
    c.missGrant i n = (Chip.mergeWaiters i r.line rest
      ((c.setSlice i { c.slice i with queue := rest }).serveLine i r.line r.req true) []).count
        Fld.SC_MRFULL_CNT_COUNT (steer i) n := by
  have hfirst : ((r :: rest).findIdx? fun r => ((c.slice i).fetching r.line).isNone) = some 0 := by
    simp [List.findIdx?_cons, hfetch]
  unfold Chip.missGrant
  dsimp only
  rw [hqueue, hfirst]
  dsimp only [List.getElem?_cons_zero, List.eraseIdx_cons_zero]
  rw [hfree]
  exact if_neg (by simp)

end

/-! ### Ways -/

section
variable {c : Chip} {w : Nat}

@[simp] theorem Chip.way_setWay_self (c : Chip) (w : Nat) (m : WayMode) : (c.setWay w m).way w = m := by
  simp [Chip.way, Chip.setWay]

theorem Chip.way_setWay_ne (c : Chip) {w v : Nat} (h : v ≠ w) (m : WayMode) : (c.setWay w m).way v = c.way v := by
  simp [Chip.way, Chip.setWay, KMap.getD_put_ne h]

/-- A chip with other registers, slices or scratch has the ways of the first. -/
theorem Chip.way_congr {c1 : Chip} (h : c1.ways = c.ways) (w : Nat) : c1.way w = c.way w := by
  rw [Chip.way, Chip.way, h]

theorem Chip.waysBusy_congr {c1 : Chip} (h : c1.ways = c.ways) : c1.waysBusy = c.waysBusy := by
  simp only [Chip.waysBusy, Chip.way_congr h]

theorem Chip.way_fresh (h : c.ways = []) (w : Nat) : c.way w = .cached := by
  simp [Chip.way, h, KMap.getD]

theorem Chip.cachedWays_fresh (h : c.ways = []) : c.cachedWays = List.range 16 :=
  List.filter_eq_self.mpr fun w _ => by simp [Chip.way_fresh h]

/-- The low 16 bits of a word say which of its first 16 bits are set. -/
theorem wbit_of_low {v : Word} {k w : Nat} (hv : v.toNat % 2 ^ 16 = k) (hw : w < 16) : wbit v w = k.testBit w := by
  rw [← hv, Nat.testBit_mod_two_pow, decide_eq_true hw, Bool.true_and]
  exact BitVec.testBit_toNat v

/-- The ways that a write of SC_WAYOFF turns off, where every way is cached. -/
theorem Chip.waysDown_fresh {v : Word} {k : Nat} (h : c.ways = []) (hv : v.toNat % 2 ^ 16 = k) :
    ((List.range 16).filter fun w => (if (c.way w).code == 1 then wbit (c.rg Reg.SC_WAYOFF) w else wbit v w) &&
      c.way w == .cached) = (List.range 16).filter k.testBit :=
  List.filter_congr fun w hw => by
    simp [Chip.way_fresh h, WayMode.code, wbit_of_low hv (List.mem_range.mp hw)]

theorem Chip.waysUp_fresh {f : Nat → Bool} (h : c.ways = []) :
    ((List.range 16).filter fun w => f w && c.way w == .off) = [] :=
  List.filter_eq_nil_iff.mpr fun w _ => by simp [Chip.way_fresh h]

/-- R209: a write of SC_WAYOFF while a way is changing is logged. -/
theorem Chip.wayOff_busy {v : Word} (h : c.flag Fld.SC_STATUS_BUSY = true) : c.wayOff v = c.regError Reg.SC_WAYOFF :=
  if_pos (Or.inl h)

/-- R206: one that would leave fewer than 2 cached ways is logged. -/
theorem Chip.wayOff_last {v : Word} (h : c.ways = []) (hv : v.toNat % 2 ^ 16 = 2 ^ 15 - 1) :
    c.wayOff v = c.regError Reg.SC_WAYOFF := by
  refine if_pos (Or.inr ?_)
  rw [Chip.waysDown_fresh h hv, Chip.cachedWays_fresh h]
  decide

/-- R209: one that turns way 15 off, of 16 cached ones, makes it change. -/
theorem Chip.wayOff_fifteen {v : Word} (h : c.ways = []) (hidle : c.flag Fld.SC_STATUS_BUSY = false)
    (hv : v.toNat % 2 ^ 16 = 2 ^ 15) :
    ∃ x : Word, c.wayOff v = (((c.cleanWay 15).setWay 15 .toOff).setRg Reg.SC_WAYOFF x).showWays := by
  unfold Chip.wayOff
  dsimp only
  rw [Chip.waysDown_fresh h hv, Chip.waysUp_fresh h, Chip.cachedWays_fresh h, hidle, if_neg (by decide)]
  exact ⟨_, rfl⟩

/-- SC_STATUS.BUSY shows that a way is changing. -/
theorem Chip.busy_showWays (h : c.waysBusy = true) : c.showWays.fld Fld.SC_STATUS_BUSY = 1 := by
  unfold Chip.showWays
  dsimp only
  rw [Chip.fld_setRg_ne _ _ _ (by decide), Chip.fld_setRg_ne _ _ _ (by decide), Chip.fld,
    show Fld.SC_STATUS_BUSY.base + 0 = Reg.SC_STATUS from rfl, Chip.rg_setRg_self, h]
  simp [wbits, bits, b2n, Fld.SC_STATUS_BUSY]

/-- R209: the mode that a changing way reaches. -/
def WayMode.settled : WayMode → WayMode
  | .toOff => .off
  | .toCached => .cached
  | .toScratch p => .scratch p
  | m => m

theorem WayMode.settled_settled (m : WayMode) : m.settled.settled = m.settled := by cases m <;> rfl

theorem WayMode.code_settled (m : WayMode) : m.settled.code ≠ 3 := by cases m <;> simp [settled, code]

/-- R209: one way reaches its mode. -/
def Chip.settleWay (c : Chip) (w : Nat) : Chip :=
  match c.way w with
  | .toOff => c.setWay w .off
  | .toCached => c.setWay w .cached
  | .toScratch p => (c.zeroWay w).setWay w (.scratch p)
  | _ => c

theorem Chip.waysSettle_eq (c : Chip) : c.waysSettle = ((List.range 16).foldl Chip.settleWay c).showWays := rfl

theorem Chip.way_settleWay (c : Chip) (w v : Nat) :
    (c.settleWay w).way v = if v = w then (c.way w).settled else c.way v := by
  unfold Chip.settleWay
  by_cases hv : v = w
  · subst hv
    rw [if_pos rfl]
    split <;> simp_all [WayMode.settled]
  · rw [if_neg hv]
    split
    · exact Chip.way_setWay_ne c hv _
    · exact Chip.way_setWay_ne c hv _
    · exact Chip.way_setWay_ne _ hv _
    · rfl

theorem Chip.mem_settleWay (c : Chip) (w : Nat) : (c.settleWay w).mem = c.mem := by
  unfold Chip.settleWay
  split <;> rfl

theorem Chip.way_settleWays {v : Nat} : ∀ (l : List Nat) (c : Chip),
    (l.foldl Chip.settleWay c).way v = if v ∈ l then (c.way v).settled else c.way v
  | [], c => by simp
  | w :: l, c => by
    rw [List.foldl_cons, Chip.way_settleWays l, Chip.way_settleWay]
    by_cases hv : v = w
    · subst hv
      simp [WayMode.settled_settled]
    · simp [hv]

/-- What shows the ways sets four registers. -/
theorem Chip.showWays_eq (c : Chip) : ∃ v1 v2 v3 v4 : Word, c.showWays =
    (((c.setRg Reg.SC_WAYMODE v1).setRg Reg.SC_STATUS v2).setRg Reg.SC_SCROWN_LO v3).setRg Reg.SC_SCROWN_HI v4 :=
  ⟨_, _, _, _, rfl⟩

@[simp] theorem Chip.mem_showWays (c : Chip) : c.showWays.mem = c.mem := by
  obtain ⟨v1, v2, v3, v4, h⟩ := c.showWays_eq
  simp [h]

@[simp] theorem Chip.scratch_showWays (c : Chip) : c.showWays.scratch = c.scratch := by
  obtain ⟨v1, v2, v3, v4, h⟩ := c.showWays_eq
  simp [h]

@[simp] theorem Chip.ways_showWays (c : Chip) : c.showWays.ways = c.ways := by
  obtain ⟨v1, v2, v3, v4, h⟩ := c.showWays_eq
  simp [h]

@[simp] theorem Chip.way_showWays (c : Chip) (w : Nat) : c.showWays.way w = c.way w :=
  Chip.way_congr c.ways_showWays w

@[simp] theorem Chip.way_setRg (c : Chip) (a : Nat) (v : Word) (w : Nat) : (c.setRg a v).way w = c.way w :=
  Chip.way_congr (by simp) w


/-- R209: once the changes are made no way is changing, and a way that was turned off is off. -/
theorem Chip.waysSettle_settled (c : Chip) :
    c.waysSettle.waysBusy = false ∧ c.waysSettle.mem = c.mem ∧
      ∀ w, w < 16 → c.way w = .toOff → c.waysSettle.way w = .off := by
  rw [Chip.waysSettle_eq]
  have hway : ∀ w, w < 16 → ((List.range 16).foldl Chip.settleWay c).showWays.way w = (c.way w).settled := fun w hw =>
    (Chip.way_showWays _ w).trans ((Chip.way_settleWays (List.range 16) c).trans (if_pos (List.mem_range.mpr hw)))
  refine ⟨?_, ?_, fun w hw hoff => ?_⟩
  · refine List.any_eq_false.mpr fun w hw => ?_
    rw [hway w (List.mem_range.mp hw)]
    simp [WayMode.code_settled]
  · rw [Chip.mem_showWays]
    exact foldl_keeps (P := fun d : Chip => d.mem = c.mem) (fun d w hd => (d.mem_settleWay w).trans hd) _ c rfl
  · rw [hway w hw, hoff]
    rfl

end

/-! ### Refresh windows and scrubs -/

section
variable {c : Chip} {k g p : Nat}

/-- R221: an extra window of a carve-out's group is counted and runs. -/
def Chip.extraWindow (c : Chip) (k g : Nat) : Chip :=
  { c.count Fld.CTX_RFM_EXTRA_COUNT (steer k) with
    windows := KMap.set (k * 16 + g) (c.gtc.toNat + 256) c.liveWindows }

theorem Chip.rfmExtra_none (h : c.carveOwner (k * 16 + g) = some p) : c.rfmExtra k g [] = c.extraWindow k g := by
  unfold Chip.rfmExtra
  dsimp only
  rw [h]
  rfl

/-- R221: it perturbs the owner's descriptor of which it delays an access. -/
theorem Chip.rfmExtra_one {q slot : Nat} (h : c.carveOwner (k * 16 + g) = some p) (hp : partOf q = p)
    (he : (c.entry q slot).isSome = true) :
    c.rfmExtra k g [(q, slot)] =
      (c.extraWindow k g).perturbOnly p 4 fun o j => o == q && j == slot := by
  have hmine : ([(q, slot)].filter fun d => partOf d.1 == p && (c.entry d.1 d.2).isSome) = [(q, slot)] :=
    List.filter_cons_of_pos (by simp [hp, he])
  have hhit : (fun o j => [(q, slot)].contains (o, j)) = fun o j => o == q && j == slot := by
    funext o j
    simp
    rfl
  unfold Chip.rfmExtra
  dsimp only
  rw [h]
  dsimp only
  rw [hmine, hhit]
  rfl

theorem Chip.scrub_free {line found : Nat} (h : c.carveOwner (line * 128 / (3 * gib)) = none) :
    c.scrub line found = c.lineFound line found := by
  unfold Chip.scrub
  dsimp only
  rw [h]
  rfl

/-- R224: a carve-out's line is not scrubbed outside the windows. -/
theorem Chip.scrub_shut {line found : Nat} (h : c.carveOwner (line * 128 / (3 * gib)) = some p)
    (hw : KMap.find (line * 128 / (3 * gib)) c.liveWindows = none) : c.scrub line found = c := by
  unfold Chip.scrub
  dsimp only
  rw [h, hw]
  rfl

end

/-! ### The clauses of O36 -/

section
variable {s : State} (hl : Live s)
include hl

theorem ran_cacheRequest {src : CacheSource} {kind : BitVec 2} {p a mt l : Nat} {c1 : Chip}
    (hacc : s.chip.accessOf src = some (p, a, mt)) (hmt : mt ≠ 3) (hdet : (s.chip.part p).det = false)
    (hloc : (s.chip.part p).loc a = some l) (hdead : s.chip.deadLoc (s.chip.part p) l = false)
    (hwait : ((s.chip.slice (homeSlice (l / 128))).queue.any fun r => r.line == l / 128) = false)
    (hd : s.chip.serveLine (homeSlice (l / 128)) (l / 128) { mt := mt, kind := CReq.of kind }
      (!(s.chip.slice (homeSlice (l / 128))).registerWanted) = c1) :
    Ran (.cacheRequest src kind .none) s c1 :=
  ran_chip (fun c => c.cacheRequest src (CReq.of kind) .none) hl rfl
    ((Chip.cacheRequest_elastic hacc hmt hdet hloc hdead).trans ((Chip.lineRequest_served hwait).trans hd))

theorem ran_missFill {i : BitVec 5} {r : BitVec 8} {m : MissReg}
    (hm : KMap.find r.toNat (s.chip.slice i.toNat).miss = some m) (hkeep : m.discard = false)
    (hsecond : m.secondary = []) (hmt : m.primary.mt = 0) (hmiss : (s.chip.slice i.toNat).lookup m.line = none)
    (hqueue : (s.chip.slice i.toNat).queue = [])
    (hwhole : bit (s.chip.fld Fld.CTX_STK_STATUS_DEGRADED (steer (stackOf m.line))) (m.line * 128 / (3 * gib) % 16) =
      false) :
    ∃ c, Ran (.missFill i ⟨r, .none⟩) s c ∧ c.mem = s.chip.mem ∧
      c.slice i.toNat = ({ s.chip.slice i.toNat with miss := KMap.erase r.toNat (s.chip.slice i.toNat).miss } : Slice).place
        s.chip.cachedWays m.line m.primary.writes ∧
      ∀ j, j ≠ i.toNat → c.slice j = s.chip.slice j := by
  have hexec : exec (.missFill i ⟨r, .none⟩) s = execMissFill i ⟨r, .none⟩ s := rfl
  have hfill : Ran (.missFill i ⟨r, .none⟩) s (s.chip.missFill i.toNat r.toNat) := by
    refine ran_chip _ hl (hexec.trans (by rw [execMissFill])) ?_
    dsimp only
    rw [hm]
    dsimp only
    rw [Chip.memoryRead_clean hwhole]
  rw [Chip.missFill_places hm hkeep hsecond hmt hmiss hqueue] at hfill
  refine ⟨_, hfill, rfl, Chip.slice_setSlice_self _ _ _, fun j hj => ?_⟩
  rw [Chip.slice_setSlice_ne _ hj, Chip.slice_setSlice_ne _ hj, Chip.slice_setSlice_ne _ hj]

end

/-- R209: way 15 is turned off, of 16 cached ones. -/
theorem ran_scWayoffWrite_fifteen {s : State} {v : Word} (hup : HostUp s)
    (hidle : s.chip.flag Fld.SC_STATUS_BUSY = false) (hways : s.chip.ways = []) (hv : v.toNat % 2 ^ 16 = 2 ^ 15) :
    ∃ c, Ran (.scWayoffWrite v) s c ∧ c.way 15 = .toOff ∧ (∀ w, w ≠ 15 → c.way w = .cached) ∧
      c.fld Fld.SC_STATUS_BUSY = 1 ∧ c.mem = s.chip.mem ∧ c.scratch = s.chip.scratch := by
  obtain ⟨x, hx⟩ := Chip.wayOff_fifteen hways hidle hv
  have hfifteen : (((s.chip.cleanWay 15).setWay 15 .toOff).setRg Reg.SC_WAYOFF x).way 15 = .toOff := by simp
  have hbusy : (((s.chip.cleanWay 15).setWay 15 .toOff).setRg Reg.SC_WAYOFF x).waysBusy = true :=
    List.any_eq_true.mpr ⟨15, by decide, by rw [hfifteen]; rfl⟩
  refine ⟨_, ran_host (fun c => c.wayOff v) hup rfl hx, ?_, fun w hw => ?_, Chip.busy_showWays hbusy, ?_, ?_⟩
  · rw [Chip.way_showWays, hfifteen]
  · rw [Chip.way_showWays, Chip.way_setRg, Chip.way_setWay_ne _ hw]
    exact Chip.way_fresh (c := s.chip.cleanWay 15) hways w
  · rw [Chip.mem_showWays, Chip.setRg_mem]
    rfl
  · rw [Chip.scratch_showWays, Chip.setRg_scratch]
    rfl

/-- Settles O36: requests, fills and grants of a slice, the changes of ways, and the windows and scrubs of the stacks. -/
theorem memorySystem : Obligations.memory_system := by
  unfold Obligations.memory_system
  refine ⟨fun s src kind p a mt l hl hacc hmt hdet hloc hdead => ?_, fun s i hl => ⟨?_, ?_⟩,
    fun s v => ⟨?_, ?_, ?_, ?_⟩, fun s hl => ⟨?_, ?_⟩⟩
  · refine ⟨fun w hwait hhit => ran_cacheRequest hl hacc hmt hdet hloc hdead hwait (Chip.serveLine_hit hhit),
      fun hqueue hmiss hvictim => ⟨fun r hfetch hfree => ?_, fun r m hfetch hroom => ?_⟩⟩
    · refine ran_cacheRequest hl hacc hmt hdet hloc hdead (by rw [hqueue]; rfl)
        ((Chip.serveLine_miss hmiss hvictim).trans ?_)
      rw [show (s.chip.slice (homeSlice (l / 128))).registerWanted = false by rw [Slice.registerWanted, hqueue]; rfl]
      exact Chip.missRequest_takes (q := { mt := mt, kind := .read }) hfetch rfl hfree
    · exact ran_cacheRequest hl hacc hmt hdet hloc hdead (by rw [hqueue]; rfl)
        ((Chip.serveLine_miss hmiss hvictim).trans (Chip.missRequest_merges hfetch hroom))
  · exact fun r m hm hkeep hsecond hmt hmiss hqueue hwhole => ran_missFill hl hm hkeep hsecond hmt hmiss hqueue hwhole
  · exact fun n r rest k hqueue hfetch hfree =>
      ran_chip (fun c => c.missGrant i.toNat n.toNat) hl rfl (Chip.missGrant_first hqueue hfetch hfree)
  · exact fun hup hbusy => ran_host (fun c => c.wayOff v) hup rfl (Chip.wayOff_busy hbusy)
  · exact fun hup hidle hways hv => ran_scWayoffWrite_fifteen hup hidle hways hv
  · exact fun hup _ hways hv => ran_host (fun c => c.wayOff v) hup rfl (Chip.wayOff_last hways hv)
  · exact fun hl => ⟨_, ran_chip Chip.waysSettle hl rfl rfl, s.chip.waysSettle_settled⟩
  · intro k g p howner
    refine ⟨fun hstart => ran_chip (fun c => c.refresh k.toNat g.toNat) hl rfl (if_pos ⟨by rw [howner]; rfl, hstart⟩), ?_⟩
    intro c
    refine ⟨ran_chip (fun c => c.rfmExtra k.toNat g.toNat []) hl rfl (Chip.rfmExtra_none howner),
      fun q slot hp he => ?_⟩
    exact ran_chip (fun c => c.rfmExtra k.toNat g.toNat [(q.toNat, slot.toNat)]) hl rfl (Chip.rfmExtra_one howner hp he)
  · intro line g
    refine ⟨fun hfree => ⟨?_, ?_, ?_⟩, fun p found howner hshut => ?_⟩
    · exact ran_chip (fun c => c.scrub line.toNat 0) hl rfl (Chip.scrub_free hfree)
    · exact ran_chip (fun c => c.scrub line.toNat 1) hl rfl (Chip.scrub_free hfree)
    · exact ran_chip (fun c => c.scrub line.toNat 2) hl rfl (Chip.scrub_free hfree)
    · exact ran_chip (fun c => c.scrub line.toNat found.toNat) hl rfl (Chip.scrub_shut howner hshut)

end Sys2Proof.Machine

/-! ## Global time and role swaps (R371, R372, R383 to R403) -/

namespace Sys2Proof.Machine

/-! ### The counter and its layer -/

section
variable {c : Chip}

/-- R389: with no queue, a step of the counter is all that changes. -/
theorem Chip.stepCounter_idle {t : Dword} (h : c.queues = []) : c.stepCounter t = { c with gtc := t } := by
  unfold Chip.stepCounter
  dsimp only
  rw [h]
  rfl

theorem Chip.gtcLocked_off (h : ∀ n, n < 8 → c.fld Fld.AXL_PORT_CTL_MODE (n * 0x40) = 0) : c.gtcLocked = c := by
  refine if_neg (ne_true_of_eq_false (List.any_eq_false.mpr fun n hn => ?_))
  simp [h n (List.mem_range.mp hn)]

theorem Chip.gtcLocked_on {n : Nat} (hn : n < 8) (h : c.fld Fld.AXL_PORT_CTL_MODE (n * 0x40) ≠ 0) :
    c.gtcLocked = c.regError Reg.GTC_CTL :=
  if_pos (List.any_eq_true.mpr ⟨n, List.mem_range.mpr hn, by simpa using h⟩)

theorem Chip.timeState_regError (c : Chip) (a : Nat) : (c.regError a).timeState = c.timeState :=
  c.fld_regError_ne _ _ a (by decide) (by decide)

/-- A device whose only source is the one that it has just heard sees no other master (R388). -/
theorem Chip.timeClashes_single {c0 : Chip} {port : Nat} {t : TimeIn} (h : c.timeIn = [(port, t)]) :
    c0.timeClashes c port = [] := by
  have hfrom : ∀ x ∈ c.timeSources, x = (port, t) := fun x hx => by
    rw [Chip.timeSources, h] at hx
    simpa using (List.mem_filter.mp hx).1
  unfold Chip.timeClashes
  cases hs : c.sourceSerial with
  | none => rfl
  | some serial =>
    obtain ⟨x, hx, hserial⟩ := Option.map_eq_some_iff.mp hs
    obtain rfl := hfrom x (List.mem_of_find?_eq_some hx)
    obtain rfl : t.serial = serial := hserial
    dsimp only
    split
    · rfl
    · refine List.map_eq_nil_iff.mpr (List.filter_eq_nil_iff.mpr fun y hy => ?_)
      simp [hfrom y hy]

/-- R388: a port that is UP and hears of less than 63 hops is the only candidate. -/
theorem Chip.timeSources_single {port : Nat} {t : TimeIn} (h : c.timeIn = [(port, t)]) (hup : c.portUp port = true)
    (hhops : t.hops < 63) : c.timeSources = [(port, t)] := by
  rw [Chip.timeSources, h]
  exact List.filter_cons_of_pos (by simp [hup, hhops])

/-- What a TIME flit says of its sender (R386, R388). -/
def timeInOf (f : TimeFlit) : TimeIn :=
  { tx := f.tx, rx := f.arrival, hops := f.hops.toNat, masterDev := f.masterDev.toNat, serial := f.masterSerial }

/-- R387: the first TIME flit of an UNLOCKED device steps its counter and takes it to ACQUIRING. -/
theorem Chip.timeReceive_first {own : Dword} {port : Nat} {f : TimeFlit} (hup : c.portUp port = true)
    (hin : c.timeIn = []) (hunlocked : c.timeState = TimeState.unlocked) (hhops : f.hops.toNat < 63) :
    Chip.timeReceive own c port f = Chip.setTimeState
      { (({ c with timeIn := [(port, timeInOf f)] } : Chip).setFld Fld.GTC_CTL_SRC_PORT 0 port).stepCounter
          (BitVec.ofNat 64 (wrapN 64 (f.count.toNat + delayOf f / 256))) with lockRun := 0 }
      TimeState.acquiring f.hops.toNat := by
  have hset : ({ c with timeIn := KMap.set port (timeInOf f) c.timeIn } : Chip) = { c with timeIn := [(port, timeInOf f)] } := by
    rw [hin]
    rfl
  unfold Chip.timeReceive
  refine (if_neg (by simp [hup])).trans ?_
  dsimp only
  rw [if_neg (by rw [hunlocked]; decide), ← timeInOf, hset, Chip.timeClashes_single rfl, List.foldl_nil,
    Chip.timeSources_single (c := { c with timeIn := [(port, timeInOf f)] }) rfl hup hhops]
  exact (if_pos rfl).trans (if_pos hunlocked)

end

/-! ### The clauses of O37 -/

section
variable {s : State}

/-- R389, R403: RESYNC of a follower, which a port that is on logs. -/
theorem ran_resync (hup : HostUp s) (h : s.chip.timeState ≠ TimeState.master) :
    Ran .resync s ({ s.chip.gtcLocked with lockRun := 0 }.setTimeState TimeState.unlocked 63) := by
  have hexec : exec .resync s = execResync s := rfl
  refine ran_host _ hup (hexec.trans (by rw [execResync])) (if_neg ?_)
  unfold Chip.gtcLocked
  split
  · rwa [Chip.timeState_regError]
  · exact h

theorem ran_gtcPpsEdge (hl : Live s) (h : s.chip.timeState ≠ TimeState.master) :
    Ran .gtcPpsEdge s
      ((s.chip.setRg64 Reg.GTC_PPS_LO Reg.GTC_PPS_HI s.chip.gtc.toNat).sourceSignal 4 0) := by
  have hexec : exec .gtcPpsEdge s = execGtcPpsEdge s := rfl
  refine ran_chip _ hl (hexec.trans (by rw [execGtcPpsEdge])) ?_
  exact if_neg fun hm => h hm.1

theorem ran_gtcCompare (hl : Live s) (differs : Bool) :
    Ran (.gtcCompare differs) s (if differs then s.chip.detParts.foldl Chip.breakSpan
      (s.chip.unitFault .timeBase 0 s.chip.detParts .replaced) else s.chip) := by
  have hexec : exec (.gtcCompare differs) s = execGtcCompare differs s := rfl
  refine ran_chip _ hl (hexec.trans (by rw [execGtcCompare])) ?_
  rfl

/-- R348, R386: a port that is UP sends its TIME flit, but none during a switch-over. -/
theorem ran_timeFlitSend {port : BitVec 3} (hl : Live s) (tx : Dword) (hup : s.chip.portUp port.toNat = true) :
    ((s.chip.lport port.toNat).switching = false → Ran (.timeFlitSend port tx) s (s.chip.sendFlit port.toNat
      { ack := (s.chip.lport port.toNat).rxNext + 4095, kind := 3 } (s.chip.timePayload s.nv.serial port.toNat tx))) ∧
    ((s.chip.lport port.toNat).switching = true → Ran (.timeFlitSend port tx) s s.chip) := by
  have hexec : exec (.timeFlitSend port tx) s = execTimeFlitSend port tx s := rfl
  refine ⟨fun h => ?_, fun h => ?_⟩
  · refine ran_chip _ hl (hexec.trans (by rw [execTimeFlitSend])) ?_
    exact if_pos (by simp [hup, h])
  · refine ran_chip _ hl (hexec.trans (by rw [execTimeFlitSend])) ?_
    exact if_neg (by simp [h])

theorem ran_timeFlitReceive {port : BitVec 3} {f : TimeFlit} {c1 : Chip} (hl : Live s)
    (hd : Chip.timeReceive s.nv.serial (s.chip.timeHeard port.toNat f) port.toNat f = c1) :
    Ran (.timeFlitReceive port f) s c1 := by
  have hexec : exec (.timeFlitReceive port f) s = execTimeFlitReceive port f s := rfl
  exact ran_chip _ hl (hexec.trans (by rw [execTimeFlitReceive])) hd

end

/-- Settles O37: the unit map, the counter's set, resync, reads and captures, and TIME flits sent and received. -/
theorem timeBase : Obligations.time_base := by
  unfold Obligations.time_base
  refine ⟨fun s => ⟨?_, ?_, ?_, ?_, ?_, ?_, ?_, ?_, ?_⟩, fun s port hl => ⟨?_, ?_, ?_⟩⟩
  · exact fun v hup hv halone => ran_host (fun c => c.mapForce v) hup rfl (if_neg (by simp [halone, hv]))
  · exact fun v hup hv => ran_host (fun c => c.mapForce v) hup rfl (if_pos (Or.inl hv))
  · exact fun v hup hm halone hq => ran_host (fun c => c.gtcSet v) hup rfl
      ((if_pos ⟨hm, halone⟩).trans (Chip.stepCounter_idle hq))
  · exact fun v hup hm => ran_host (fun c => c.gtcSet v) hup rfl (if_neg fun h => hm h.1)
  · intro hup hm
    have hran := ran_resync hup hm
    refine ⟨fun hoff => ?_, fun n hn hon => ?_⟩
    · rwa [Chip.gtcLocked_off hoff] at hran
    · rwa [Chip.gtcLocked_on hn hon] at hran
  · exact fun hup => ran_host (fun c => c.gtcRead none) hup rfl rfl
  · exact fun p hup hp => ran_host (fun c => c.gtcRead (some p.toNat)) hup rfl (if_neg (by simp [hp]))
  · exact fun hl hm => ran_gtcPpsEdge hl hm
  · exact fun hl => ⟨ran_gtcCompare hl false, ran_gtcCompare hl true⟩
  · exact fun tx hup => ran_timeFlitSend hl tx hup
  · intro f hdown
    have hheard : s.chip.timeHeard port.toNat f = s.chip := if_pos (by simp [hdown])
    exact ran_timeFlitReceive hl (by rw [hheard]; exact if_pos (by simp [hdown]))
  · intro f c0 c hup hin hunlocked hhops
    have hheard : s.chip.timeHeard port.toNat f = c := if_neg (by simp [hup])
    exact ⟨_, ran_timeFlitReceive hl (by rw [hheard]; exact Chip.timeReceive_first hup hin hunlocked hhops), rfl⟩

/-! ### Role swaps -/

section
variable {c : Chip} {w : Swap} {possible : Bool}

theorem Chip.swapGo_late (h : w.at_ < w.count + 50000) : c.swapGo w false possible = c.swapEnds w St.launchLate :=
  (if_neg Bool.false_ne_true).trans (if_pos h)

theorem Chip.swapGo_impossible (h : w.count + 50000 ≤ w.at_) : c.swapGo w false false = c.swapEnds w St.malformed :=
  (if_neg Bool.false_ne_true).trans ((if_neg (Nat.not_lt.mpr h)).trans (if_pos rfl))

/-- R371: GO in time, of roles that can be swapped, joins the requests and goes to the other end. -/
theorem Chip.swapGo_sends (h : w.count + 50000 ≤ w.at_) :
    c.swapGo w false true = ((if w.timeRole then c.setFld Fld.AXL_TSWAP_CTL_BUSY 0 1
      else c.setFld Fld.AXL_PSWAP_CTL_BUSY w.page 1).swapJoins w).swapSend w :=
  (if_neg Bool.false_ne_true).trans ((if_neg (Nat.not_lt.mpr h)).trans (if_neg (by simp)))

/-- R371: the only request, not answered in time, ends. -/
theorem Chip.swapDeadline_one (hw : c.swaps = [w]) (hown : w.own = true) (hgrant : w.granted = false)
    (hat : w.at_ ≤ c.gtc.toNat + 10000) :
    c.swapDeadline = ({ c with swaps := [] } : Chip).swapEnds w St.linkUnreachable := by
  unfold Chip.swapDeadline
  rw [hw, List.filter_cons_of_pos (by simp [hown, hgrant, hat]), List.filter_nil, List.foldl_cons, List.foldl_nil, hw,
    List.filter_cons_of_neg (by simp), List.filter_nil]

/-- R371: the only granted swap, of a lead role, takes effect once its count is reached. -/
theorem Chip.roleChange_lead (hw : c.swaps = [w]) (hgrant : w.granted = true) (hrole : w.timeRole = false)
    (hat : w.at_ ≤ c.gtc.toNat) : c.roleChange = ({ c with swaps := [] } : Chip).leadRoleChange w := by
  unfold Chip.roleChange
  rw [hw, List.filter_cons_of_pos (by simp [hgrant, hat]), List.filter_nil, List.foldl_cons, List.foldl_nil, hw,
    List.filter_cons_of_neg (by simp), List.filter_nil]
  exact if_neg (ne_true_of_eq_false hrole)

end

/-- Settles O38: GO, a request received, the deadline and the change of the lead role. -/
theorem roleSwaps : Obligations.role_swaps := by
  unfold Obligations.role_swaps
  refine fun s => ⟨?_, ?_, ?_, ?_, ?_⟩
  · intro p hup hexists at_ w hidle
    have hran : ∀ {d}, s.chip.swapGo w false (s.chip.part p.toNat).pairEn = d → Ran (.pswapGo p) s d := fun hd =>
      ran_host (fun c => c.pswapGo p.toNat) hup rfl ((if_neg (by simp [hexists])).trans (by rw [hidle]; exact hd))
    refine ⟨fun hlate => hran (Chip.swapGo_late hlate), fun htime hpair => hran ?_, fun htime hpair => hran ?_⟩
    · rw [hpair]
      exact Chip.swapGo_impossible htime
    · rw [hpair]
      exact Chip.swapGo_sends htime
  · intro hup at_ w hidle
    have hran : ∀ {d}, s.chip.swapGo w false
        (s.chip.fld Fld.AXL_TSWAP_CTL_PEER != s.chip.fld Fld.AXL_DEVICE_DEVNUM) = d → Ran .tswapGo s d := fun hd =>
      ran_host (fun c => c.tswapGo) hup rfl (by rw [Chip.tswapGo, hidle]; exact hd)
    refine ⟨fun hlate => hran (Chip.swapGo_late hlate), fun htime hpeer => hran ?_, fun htime hself => hran ?_⟩
    · rw [bne_iff_ne.mpr hpeer]
      exact Chip.swapGo_sends htime
    · rw [hself, bne_self_eq_false]
      exact Chip.swapGo_impossible htime
  · intro a hl hreq
    refine ran_chip (fun c => c.swapMessage a) hl rfl ?_
    unfold Chip.swapMessage
    dsimp only
    rw [hreq]
    rfl
  · exact fun w hl hw hown hgrant hat =>
      ran_chip (fun c => c.swapDeadline) hl rfl (Chip.swapDeadline_one hw hown hgrant hat)
  · exact fun w hl hw hgrant hrole hat =>
      ran_chip (fun c => c.roleChange) hl rfl (Chip.roleChange_lead hw hgrant hrole hat)

end Sys2Proof.Machine

/-! ## The ports of the link (R344 to R355, R473) -/

namespace Sys2Proof.Machine

/-! ### What a port's status outlives -/

/-- A posted event changes the words of its ring's tail and of its lost count alone. -/
theorem Chip.rg_postEvent (c : Chip) {p a : Nat} (code queue detail : Nat)
    (hlost : a ≠ Fld.EVRING_LOST_COUNT.base + pg p) (htail : a ≠ Fld.EVRING_TAIL_TAIL.base + pg p) :
    (c.postEvent p code queue detail).rg a = c.rg a := by
  unfold Chip.postEvent
  dsimp only
  split
  · rfl
  · split
    · exact c.rg_setFld_ne _ _ _ hlost
    · split
      · exact c.rg_setFld_ne _ _ _ hlost
      · next d hwrite =>
        obtain ⟨ls, -, -, rfl⟩ := Chip.writePP_ok hwrite
        rw [Chip.rg, Chip.raiseVector, Chip.regs_raiseMsix, ← Chip.rg, Chip.rg_setFld_ne _ _ _ _ htail, Chip.rg,
          Chip.regs_writeLocs, ← Chip.rg]

/-- An event of the link in partition 0 changes no register of a port. -/
theorem Chip.fld_postLink (c : Chip) (code queue detail : Nat) {f : Fld} {n : Nat} (hf : f.base = Reg.AXL_PORT_STATUS)
    (hn : n < 8) : (c.postLink 0 code queue detail).fld f (po n) = c.fld f (po n) := by
  have haway : ∀ n < 8, Reg.AXL_PORT_STATUS + po n ≠ Fld.EVRING_LOST_COUNT.base + pg 0 ∧
      Reg.AXL_PORT_STATUS + po n ≠ Fld.EVRING_TAIL_TAIL.base + pg 0 := by decide
  have hrg : (c.postLink 0 code queue detail).rg (Reg.AXL_PORT_STATUS + po n) = c.rg (Reg.AXL_PORT_STATUS + po n) := by
    rw [Chip.postLink, Chip.rg, Chip.raiseOwner, Chip.regs_raiseMsix, ← Chip.rg]
    exact c.rg_postEvent _ _ _ (haway n hn).1 (haway n hn).2
  rw [Chip.fld, Chip.fld, hf, hrg]

theorem Chip.portState_setPortState (c : Chip) {n st : Nat} (hn : n < 8) (hst : st < 6) :
    (c.setPortState n st).portState n = st := by
  unfold Chip.setPortState
  split
  · next h => exact h
  · rw [Chip.portState, Chip.fld_postLink _ _ _ _ rfl hn, Chip.fld_setFld_self _ _ _ _ (by decide) (by decide)]
    exact Nat.mod_eq_of_lt (Nat.lt_trans hst (by decide))

/-- A write of a port's control register leaves its status. -/
theorem Chip.status_setCtl (c : Chip) {f g : Fld} {n : Nat} (v : Nat) (hf : f.base = Reg.AXL_PORT_STATUS)
    (hg : g.base = Reg.AXL_PORT_CTL) : (c.setFld g (po n) v).fld f (po n) = c.fld f (po n) := by
  refine c.fld_setFld_ne f g _ _ v ?_
  rw [hf, hg, Reg.AXL_PORT_STATUS, Reg.AXL_PORT_CTL]
  omega

/-! ### The locked fields of AXL_PORT_CTL (R11) -/

section
variable {c : Chip} {n : Nat}

theorem Chip.portLocked_eq (h : c.hasPort n = true) :
    c.portLocked n = if c.fld Fld.AXL_PORT_CTL_MODE (po n) = 0 then c else c.regError (Reg.AXL_PORT_CTL + po n) := by
  unfold Chip.portLocked
  by_cases hm : c.fld Fld.AXL_PORT_CTL_MODE (po n) = 0
  · rw [if_neg (by simp [hm]), if_pos hm]
  · rw [if_pos ⟨h, hm⟩, if_neg hm]

/-- A write that is logged for its locked fields leaves any other reading, register or not, as it was. -/
theorem Chip.reads_portLocked {β : Type} {f : Chip → β} (h : f (c.regError (Reg.AXL_PORT_CTL + po n)) = f c) :
    f (c.portLocked n) = f c := by
  unfold Chip.portLocked
  split
  · exact h
  · rfl

theorem Chip.status_portLocked {f : Fld} (hf : f.base = Reg.AXL_PORT_STATUS) (hn : n < 8) :
    (c.portLocked n).fld f (po n) = c.fld f (po n) := by
  have haway : ∀ n < 8, Reg.AXL_PORT_STATUS + po n ≠ Fld.RAS_REGERR_CNT_COUNT.base + 0 ∧
      Reg.AXL_PORT_STATUS + po n ≠ Reg.RAS_REGERR_ADDR := by decide
  exact Chip.reads_portLocked (f := fun c => c.fld f (po n))
    (c.fld_regError_ne f _ _ (hf ▸ (haway n hn).1) (hf ▸ (haway n hn).2))

theorem Chip.hasPort_portLocked : (c.portLocked n).hasPort n = c.hasPort n :=
  Chip.reads_portLocked (f := fun c => c.hasPort n) (by
    simp only [Chip.hasPort, c.fld_regError_ne Fld.DEV_CAPS0_LINK_PORTS 0 _ (by decide) (by decide)])

theorem Chip.mgt_portLocked : (c.portLocked n).mgt = c.mgt := Chip.reads_portLocked (f := Chip.mgt) rfl

/-! ### States -/

/-- A port that is not UP just enters the state. -/
theorem Chip.leaveUp_other {st : Nat} (h : c.portUp n = false) : c.leaveUp n st = c.setPortState n st :=
  if_pos (by simp [h])

theorem Chip.portUp_setCtl {g : Fld} (v : Nat) (hg : g.base = Reg.AXL_PORT_CTL) :
    (c.setFld g (po n) v).portUp n = c.portUp n :=
  congrArg (· == 2) (c.status_setCtl (f := Fld.AXL_PORT_STATUS_STATE) v rfl hg)

theorem Chip.portUp_eq : c.portUp n = (c.portState n == PortSt.up) := rfl

/-- R346: MODE 0 turns a port OFF. -/
theorem Chip.portMode_off (hport : c.hasPort n = true) (hdown : c.portUp n = false) :
    c.portMode n 0 = (c.setFld Fld.AXL_PORT_CTL_MODE (po n) 0).setPortState n PortSt.off :=
  (if_neg (by simp [hport])).trans ((if_neg (by decide)).trans
    ((if_pos rfl).trans (Chip.leaveUp_other ((Chip.portUp_setCtl 0 rfl).trans hdown))))

/-- R346: another MODE trains a port that is OFF. -/
theorem Chip.portMode_trains {m : Nat} (hport : c.hasPort n = true) (hoff : c.portState n = PortSt.off)
    (hphy : c.mgt.axlPhy = true) (hm : m = 1 ∨ m = 2) :
    c.portMode n m = (c.setFld Fld.AXL_PORT_CTL_MODE (po n) m).setPortState n PortSt.training := by
  have hdown : c.portUp n = false := by
    rw [Chip.portUp_eq, hoff]
    rfl
  unfold Chip.portMode
  refine (if_neg (by simp [hport])).trans ((if_neg (by omega)).trans ?_)
  dsimp only
  rw [if_neg (by omega), hoff, if_neg (by decide), hphy, if_neg (by decide),
    if_neg (by simp [PortSt.off, PortSt.up, PortSt.training, PortSt.down])]
  exact Chip.leaveUp_other ((Chip.portUp_setCtl m rfl).trans hdown)

/-- R346: a port that was UP and loses its lock. -/
theorem Chip.leaveUp_down (h : c.portUp n = true) :
    c.leaveUp n PortSt.down = (((((c.perturbLink n).setPortState n PortSt.down).setLport n {}).timeSourceLost n).failRequests
      n).dropUnreachable.unitFault .port n (c.slotOwners n) .bypassed :=
  if_neg (by simp [h])

end

/-! ### Training -/

section
variable {c : Chip} {n uds : Nat} {w : PeerArgs}

theorem Chip.trained_eq (hst : c.portState n = PortSt.training) (hfirmware : c.firmwareRuns = true) :
    c.trained uds n w =
      if c.trainRefused n w then (c.introduce n).setPortState n PortSt.refused
      else if w.crypt ∧ !w.authentic then
        (((((if w.crypt then (c.introduce n).shakeHands uds n else c.introduce n).count
          Fld.SEC_LINK_AUTH_FAIL_COUNT).postEvent 0 0x0071 0 (2 ^ 8 * n)).raiseOwner 4).setPortState n PortSt.refused)
      else (if w.crypt then (c.introduce n).shakeHands uds n else c.introduce n).portGoesUp n w :=
  if_neg (by simp [hst, hfirmware])

theorem Chip.trained_refused (hst : c.portState n = PortSt.training) (hfirmware : c.firmwareRuns = true)
    (h : c.trainRefused n w = true) : c.trained uds n w = (c.introduce n).setPortState n PortSt.refused :=
  (Chip.trained_eq hst hfirmware).trans (if_pos h)

/-- R473: an end that does not prove itself is refused. -/
theorem Chip.trained_unproven (hst : c.portState n = PortSt.training) (hfirmware : c.firmwareRuns = true)
    (h : c.trainRefused n w = false) (hcrypt : w.crypt = true) (hfalse : w.authentic = false) :
    c.trained uds n w = ((((((c.introduce n).shakeHands uds n).count Fld.SEC_LINK_AUTH_FAIL_COUNT).postEvent 0 0x0071 0
      (2 ^ 8 * n)).raiseOwner 4).setPortState n PortSt.refused) := by
  rw [Chip.trained_eq hst hfirmware, if_neg (by simp [h]), if_pos (by simp [hcrypt, hfalse]), if_pos hcrypt]

theorem Chip.trained_protected (hst : c.portState n = PortSt.training) (hfirmware : c.firmwareRuns = true)
    (h : c.trainRefused n w = false) (hcrypt : w.crypt = true) (hproven : w.authentic = true) :
    c.trained uds n w = ((c.introduce n).shakeHands uds n).portGoesUp n w := by
  rw [Chip.trained_eq hst hfirmware, if_neg (by simp [h]), if_neg (by simp [hproven]), if_pos hcrypt]

theorem Chip.trained_plain (hst : c.portState n = PortSt.training) (hfirmware : c.firmwareRuns = true)
    (h : c.trainRefused n w = false) (hplain : w.crypt = false) :
    c.trained uds n w = (c.introduce n).portGoesUp n w := by
  rw [Chip.trained_eq hst hfirmware, if_neg (by simp [h]), if_neg (by simp [hplain]), if_neg (by simp [hplain])]

end

theorem ran_portTrainingDone {s : State} {port : BitVec 3} {w : PeerArgs} {c1 : Chip} (hl : Live s)
    (hd : s.chip.trained s.nv.uds port.toNat w = c1) : Ran (.portTrainingDone port w) s c1 :=
  ran_both_of (fun nv c => (nv, c.trained nv.uds port.toNat w)) hl rfl (congrArg (Prod.mk s.nv) hd)

theorem ran_portModeWrite {s : State} {port : BitVec 3} {m : BitVec 2} {c1 : Chip} (hup : HostUp s)
    (hm : m ≠ 3) (hd : (s.chip.portLocked port.toNat).portMode port.toNat m.toNat = c1) :
    Ran (.portModeWrite port m) s c1 :=
  ran_host (fun c => (if m = 3 then c else c.portLocked port.toNat).portMode port.toNat m.toNat) hup rfl
    (by rw [if_neg hm]; exact hd)

/-- R344: a write of the reserved mode is logged. -/
theorem ran_portModeWrite_reserved {s : State} {port : BitVec 3} (hup : HostUp s)
    (hport : s.chip.hasPort port.toNat = true) :
    Ran (.portModeWrite port 3) s (s.chip.regError (Reg.AXL_PORT_CTL + po port.toNat)) :=
  ran_host (fun c => (if (3 : BitVec 2) = 3 then c else c.portLocked port.toNat).portMode port.toNat 3) hup rfl
    ((if_neg (by simp [hport])).trans (if_pos rfl))

/-- R346: PORT_DOWN. -/
theorem ran_portDown {s : State} {port : BitVec 3} (hl : Live s) :
    Ran (.portDown port) s (if s.chip.portUp port.toNat then s.chip.leaveUp port.toNat PortSt.down else s.chip) := by
  have hexec : exec (.portDown port) s = execPortDown port s := rfl
  refine ran_chip _ hl (hexec.trans (by rw [execPortDown])) ?_
  rfl

/-! ### Lanes -/

section
variable {c : Chip} {n lane : Nat}

theorem Chip.laneBad_of {e : Option Word}
    (h : e = none ∨ ∃ k, e = some k ∧ c.fld Fld.AXL_PORT_CTL_SPARE_THRESH (po n) * 1024 < k.toNat) :
    c.laneBad n e = true := by
  obtain rfl | ⟨k, rfl, hk⟩ := h
  · rfl
  · exact decide_eq_true hk

theorem Chip.laneFault_first (hup : c.portUp n = true) (hlane : lane < 8)
    (hfree : c.flag Fld.AXL_PORT_STATUS_SPARE_USED (po n) = false) :
    c.laneFault n lane = (((c.spareIn n lane).count Fld.AXL_SPARE_CNT_COUNT (po n)).unitFault .lane lane
      (c.slotOwners n) .replaced).postLink 0 0x0031 0 (lane + 2 ^ 8 * n) :=
  (if_neg (by simp [hup]; omega)).trans ((if_pos (by simp [hfree])).trans (if_neg (by omega)))

theorem Chip.laneFault_other (hup : c.portUp n = true) (hlane : lane < 8)
    (hused : c.flag Fld.AXL_PORT_STATUS_SPARE_USED (po n) = true)
    (hne : c.fld Fld.AXL_PORT_STATUS_SPARED_LANE (po n) ≠ lane) : c.laneFault n lane = c.leaveUp n PortSt.failed :=
  (if_neg (by simp [hup]; omega)).trans ((if_neg (by simp [hused])).trans (if_neg hne))

/-- R349: the lane that the spare stands in for. -/
theorem Chip.laneFault_spared (hup : c.portUp n = true) (hlane : lane < 8)
    (hused : c.flag Fld.AXL_PORT_STATUS_SPARE_USED (po n) = true)
    (heq : c.fld Fld.AXL_PORT_STATUS_SPARED_LANE (po n) = lane) :
    c.laneFault n lane = if c.flag Fld.AXL_PORT_STATUS_LOANED (po n) then c.lentLaneFails n lane else c :=
  (if_neg (by simp [hup]; omega)).trans ((if_neg (by simp [hused])).trans (if_pos heq))

/-- A port of which no partition owns a slot delays no traffic. -/
theorem Chip.perturbLink_free (h : c.slotOwners n = []) : c.perturbLink n = c := by
  rw [Chip.perturbLink, h]
  rfl

theorem Chip.resend_none (h : (c.lport n).retry = []) : c.resend n = c := if_pos (by rw [h]; rfl)

@[simp] theorem Chip.lport_setLport_self (c : Chip) (n : Nat) (x : LPort) : (c.setLport n x).lport n = x := by
  simp [Chip.lport, Chip.setLport]

theorem Chip.laneLoan_busy {failed : Bool} (hport : c.hasPort n = true)
    (hused : c.flag Fld.AXL_PORT_STATUS_SPARE_USED (po n) = true) :
    c.laneLoan n true lane failed = c.regError (Reg.AXL_PORT_CTL + po n) :=
  (if_neg (by simp [hport])).trans ((if_pos rfl).trans (if_pos (Or.inl hused)))

/-- R349: a lane of a port in UP is lent where the spare is unused. -/
theorem Chip.laneLoan_lends {failed : Bool} (hport : c.hasPort n = true)
    (hfree : c.flag Fld.AXL_PORT_STATUS_SPARE_USED (po n) = false) (hlane : lane < 8) (hup : c.portUp n = true) :
    c.laneLoan n true lane failed = ((((c.setFld Fld.AXL_PORT_CTL_LOAN (po n) 1).setFld Fld.AXL_PORT_CTL_LOAN_LANE (po n)
      lane).spareIn n lane).setFld Fld.AXL_PORT_STATUS_LOANED (po n) 1) :=
  (if_neg (by simp [hport])).trans ((if_pos rfl).trans ((if_neg (by simp [hfree]; omega)).trans (if_pos hup)))

theorem Chip.laneLoan_none {failed : Bool} (hport : c.hasPort n = true)
    (hkept : c.flag Fld.AXL_PORT_STATUS_LOANED (po n) = false) :
    c.laneLoan n false lane failed = c.setFld Fld.AXL_PORT_CTL_LOAN (po n) 0 :=
  (if_neg (by simp [hport])).trans ((if_neg (by decide)).trans (if_pos (by simp [hkept])))

end

theorem ran_laneFault {s : State} {port : BitVec 3} {r : LaneReport} (hl : Live s) :
    Ran (.laneFault port r) s
      (if s.chip.laneBad port.toNat r.errors then s.chip.laneFault port.toNat r.lane.toNat else s.chip) := by
  have hexec : exec (.laneFault port r) s = execLaneFault port r s := rfl
  refine ran_chip _ hl (hexec.trans (by rw [execLaneFault])) ?_
  rfl

theorem ran_laneFault_bad {s : State} {port : BitVec 3} {r : LaneReport} {c1 : Chip} (hl : Live s)
    (hbad : s.chip.laneBad port.toNat r.errors = true) (hd : s.chip.laneFault port.toNat r.lane.toNat = c1) :
    Ran (.laneFault port r) s c1 := by
  have hran := ran_laneFault (port := port) (r := r) hl
  rwa [if_pos hbad, hd] at hran

theorem ran_laneLoan {s : State} {port : BitVec 3} {on : Bool} {lane : BitVec 4} {failed : Bool} {c1 : Chip}
    (hup : HostUp s) (hd : (s.chip.portLocked port.toNat).laneLoan port.toNat on lane.toNat failed = c1) :
    Ran (.laneLoan port on lane failed) s c1 :=
  ran_host (fun c => (c.portLocked port.toNat).laneLoan port.toNat on lane.toNat failed) hup rfl hd

/-- R348: flits resume once the switch-over is done. -/
theorem ran_laneSwitchoverDone {s : State} {port : BitVec 3} (hl : Live s) :
    ((s.chip.lport port.toNat).switching = false → Ran (.laneSwitchoverDone port) s s.chip) ∧
    ((s.chip.lport port.toNat).switching = true → (s.chip.lport port.toNat).retry = [] →
      s.chip.slotOwners port.toNat = [] → Ran (.laneSwitchoverDone port) s
        (s.chip.setLport port.toNat { s.chip.lport port.toNat with switching := false })) := by
  have hexec : exec (.laneSwitchoverDone port) s = execLaneSwitchoverDone port s := rfl
  refine ⟨fun h => ?_, fun h hretry howners => ?_⟩
  · refine ran_chip _ hl (hexec.trans (by rw [execLaneSwitchoverDone])) ?_
    exact if_pos (by simp [h])
  · refine ran_chip _ hl (hexec.trans (by rw [execLaneSwitchoverDone])) ?_
    refine (if_neg (by simp [h])).trans ?_
    rw [Chip.perturbLink_free (c := s.chip.setLport _ _) howners, Chip.resend_none (by simpa using hretry)]

/-- Settles O39: the states of a port, its training, and its lanes with their spare. -/
theorem ports : Obligations.ports := by
  unfold Obligations.ports
  refine ⟨⟨fun c n st hn hst => c.portState_setPortState hn hst, fun s port => ⟨?_, ?_, ?_⟩⟩,
    fun s port lane => ⟨?_, ?_, ?_, ?_, ?_⟩⟩
  · intro hup hport
    rw [← Chip.portLocked_eq hport]
    have hhas := Chip.hasPort_portLocked.trans hport
    refine ⟨ran_portModeWrite_reserved hup hport, fun hdown => ?_, fun m hm hoff hphy => ?_⟩
    · exact ran_portModeWrite hup (by decide) (Chip.portMode_off hhas
        ((congrArg (· == 2) (Chip.status_portLocked (f := Fld.AXL_PORT_STATUS_STATE) rfl port.isLt)).trans hdown))
    · refine ran_portModeWrite hup (by obtain rfl | rfl := hm <;> decide) (Chip.portMode_trains hhas
        ((Chip.status_portLocked (f := Fld.AXL_PORT_STATUS_STATE) rfl port.isLt).trans hoff)
        (by rw [Chip.mgt_portLocked]; exact hphy) ?_)
      exact hm.imp (congrArg BitVec.toNat) (congrArg BitVec.toNat)
  · intro w hl hst hfirmware sent
    exact ⟨fun h => ran_portTrainingDone hl (Chip.trained_refused hst hfirmware h),
      fun h hcrypt hfalse => ran_portTrainingDone hl (Chip.trained_unproven hst hfirmware h hcrypt hfalse),
      fun h hcrypt hproven => ran_portTrainingDone hl (Chip.trained_protected hst hfirmware h hcrypt hproven),
      fun h hplain => ran_portTrainingDone hl (Chip.trained_plain hst hfirmware h hplain)⟩
  · intro hl
    refine ⟨fun h => ?_, fun h => ?_, fun h => ?_, fun h => ?_, fun h => ?_⟩
    · exact ran_chip (fun c => c.portMove port.toNat PortSt.training PortSt.down) hl rfl (if_pos h)
    · exact ran_chip (fun c => c.portMove port.toNat PortSt.down PortSt.training) hl rfl (if_pos h)
    · exact ran_chip (fun c => c.portMove port.toNat PortSt.refused PortSt.training) hl rfl (if_pos h)
    · have hran := ran_portDown (port := port) hl
      rwa [if_pos h, Chip.leaveUp_down h] at hran
    · have hran := ran_portDown (port := port) hl
      rwa [if_neg (by simp [h])] at hran
  · intro hl k hk
    have hran := ran_laneFault (port := port) (r := ⟨lane, some k⟩) hl
    rwa [if_neg (by simpa [Chip.laneBad] using hk)] at hran
  · intro e hl hup hlane he
    have hbad := Chip.laneBad_of he
    refine ⟨fun hfree => ran_laneFault_bad hl hbad (Chip.laneFault_first hup hlane hfree), fun hused =>
      ⟨fun hne => ran_laneFault_bad hl hbad (Chip.laneFault_other hup hlane hused hne), fun heq =>
        ⟨fun hkept => ?_, fun hlent => ?_⟩⟩⟩
    · exact ran_laneFault_bad hl hbad ((Chip.laneFault_spared hup hlane hused heq).trans (if_neg (by simp [hkept])))
    · exact ran_laneFault_bad hl hbad ((Chip.laneFault_spared hup hlane hused heq).trans (if_pos hlent))
  · exact fun hl => (ran_laneSwitchoverDone hl).1
  · exact fun hl => (ran_laneSwitchoverDone hl).2
  · intro hup hport failed
    rw [← Chip.portLocked_eq hport]
    have hhas := Chip.hasPort_portLocked.trans hport
    have hstatus : ∀ f : Fld, f.base = Reg.AXL_PORT_STATUS →
        (s.chip.portLocked port.toNat).fld f (po port.toNat) = s.chip.fld f (po port.toNat) := fun f hf =>
      Chip.status_portLocked hf port.isLt
    refine ⟨fun hused => ran_laneLoan hup (Chip.laneLoan_busy hhas ?_), fun hfree hlane hon =>
      ran_laneLoan hup (Chip.laneLoan_lends hhas ?_ hlane ?_), fun hkept => ran_laneLoan hup (Chip.laneLoan_none hhas ?_)⟩
    · exact (congrArg (· != 0) (hstatus Fld.AXL_PORT_STATUS_SPARE_USED rfl)).trans hused
    · exact (congrArg (· != 0) (hstatus Fld.AXL_PORT_STATUS_SPARE_USED rfl)).trans hfree
    · exact (congrArg (· == 2) (hstatus Fld.AXL_PORT_STATUS_STATE rfl)).trans hon
    · exact (congrArg (· != 0) (hstatus Fld.AXL_PORT_STATUS_LOANED rfl)).trans hkept

end Sys2Proof.Machine

/-! ## Flits and remote requests (R351 to R362, R474) -/

namespace Sys2Proof.Machine

/-! ### Flits -/

section
variable {c : Chip} {n : Nat} {flit : List Byte} {lost : Bool}

/-- A flit that is lost, or whose CRC does not hold, does not open. -/
theorem Chip.openFlit_bad (h : lost = true ∨ flitParse flit = none) : c.openFlit n flit lost = .bad := by
  have hparse : (if lost then none else flitParse flit) = none := by
    obtain rfl | hnone := h
    · rfl
    · rw [hnone, ite_self]
  unfold Chip.openFlit
  rw [hparse]

theorem Chip.openFlit_plain {hn : Nat} {slots : List Nat} (hplain : c.flag Fld.AXL_PORT_CTL_CRYPT (po n) = false)
    (h : flitParse flit = some (hn, slots)) : c.openFlit n flit false = .ok (FlitHdr.ofNum hn) slots := by
  unfold Chip.openFlit
  rw [if_neg Bool.false_ne_true, h]
  exact if_neg (by simp [hplain])

theorem Chip.flitReceive_bad {ce count : Nat} (hup : c.portUp n = true) (h : c.openFlit n flit lost = .bad) :
    c.flitReceive n flit lost ce count = ((c.count Fld.AXL_FEC_CE_COUNT (po n) ce).countRx n).dropFlit n := by
  unfold Chip.flitReceive
  rw [if_neg (by simp [hup]), h]

/-- R352: what a flit that opens does, by its kind and its sequence number. -/
def Chip.takeFlit (c : Chip) (n : Nat) (h : FlitHdr) (slots : List Nat) (count : Nat) : Chip :=
  if h.kind = 1 then c.setLport n ((c.lport n).heard h)
  else if h.kind ≠ 0 then c
  else if h.seq = (c.lport n).rxNext then c.normalFlit n h slots count
  else if ((c.lport n).rxNext + 4096 - h.seq) % 4096 ≤ 2048 then c.count Fld.AXL_CRC_ERR_COUNT (po n)
  else c.dropFlit n

theorem Chip.flitReceive_opened {ce count : Nat} {h : FlitHdr} {slots : List Nat} (hup : c.portUp n = true)
    (hopen : c.openFlit n flit lost = .ok h slots) :
    c.flitReceive n flit lost ce count =
      ((c.count Fld.AXL_FEC_CE_COUNT (po n) ce).countRx n).takeFlit n h slots count := by
  unfold Chip.flitReceive
  rw [if_neg (by simp [hup]), hopen]
  rfl

variable {h : FlitHdr} {slots : List Nat} {count : Nat}

theorem Chip.takeFlit_idle (hkind : h.kind = 1) : c.takeFlit n h slots count = c.setLport n ((c.lport n).heard h) :=
  if_pos hkind

/-- R352: a NORMAL flit, by its sequence number. -/
theorem Chip.takeFlit_normal (hkind : h.kind = 0) : c.takeFlit n h slots count =
    if h.seq = (c.lport n).rxNext then c.normalFlit n h slots count
    else if ((c.lport n).rxNext + 4096 - h.seq) % 4096 ≤ 2048 then c.count Fld.AXL_CRC_ERR_COUNT (po n)
    else c.dropFlit n :=
  (if_neg (by omega)).trans (if_neg (by omega))

/-- R352: what is not acknowledged is resent, where nothing has been resent ten times and no partition owns a slot. -/
theorem Chip.resend_again (hretry : (c.lport n).retry ≠ []) (hfew : ∀ f ∈ (c.lport n).retry, f.resends < 10)
    (howners : c.slotOwners n = []) :
    c.resend n = (c.setLport n { c.lport n with
      again := (c.lport n).retry.map fun f => f.hdr.seq }).count Fld.AXL_RETRY_CNT_COUNT (po n) := by
  have hfresh : ((c.lport n).retry.any fun f => decide (f.resends ≥ 10)) = false :=
    List.any_eq_false.mpr fun f hf => by simpa using hfew f hf
  unfold Chip.resend
  dsimp only
  rw [if_neg (by simpa using hretry), if_neg (by simp [hfresh])]
  refine Chip.perturbLink_free ?_
  have hsame : ∀ (x : LPort), ((c.setLport n x).count Fld.AXL_RETRY_CNT_COUNT (po n)).slotOwners n = c.slotOwners n :=
    fun _ => rfl
  exact (hsame _).trans howners

theorem Chip.flitTime_idle (hswitch : (c.lport n).switching = true) : c.flitTime n = c := if_pos (Or.inr hswitch)

variable (hup : c.portUp n = true)
include hup

/-- R352: a RETRY that is owed goes first. -/
theorem Chip.flitTime_owed (hswitch : (c.lport n).switching = false) (howe : (c.lport n).oweRetry = true) :
    c.flitTime n = (c.setLport n { c.lport n with oweRetry := false }).sendFlit n
      { ack := (c.lport n).rxNext + 4095, kind := 2 } [] :=
  (if_neg (by simp [hup, hswitch])).trans (if_pos howe)

theorem Chip.flitTime_new (hswitch : (c.lport n).switching = false) (howe : (c.lport n).oweRetry = false)
    (hagain : (c.lport n).again = []) (hroom : (c.lport n).retry.length < 1024) : c.flitTime n = c.newFlit n := by
  unfold Chip.flitTime
  dsimp only
  rw [if_neg (by simp [hup, hswitch]), if_neg (by simp [howe]), hagain]
  exact if_neg (Nat.not_le.mpr hroom)

end

/-! ### Remote requests -/

section
variable {c c1 : Chip} {n : Nat} {m : Msg} {r : Req}

theorem Chip.released_other (h : m.vc ≠ Vc.det) : c.released n m = true := by
  simp [Chip.released, h]

/-- R359: the oldest request received is served, and answered on its port. -/
theorem Chip.inboundRequest_serves (htake : c.takeMsg n Vc.req (fun m => decide (m.op ≤ 3)) = some (m, c1))
    (hvc : m.vc = Vc.req) : c.inboundRequest n false =
      (c1.serve m).1.sendMsg n ((c1.serve m).1.responseMsg m (c1.serve m).2.1 (c1.serve m).2.2) := by
  unfold Chip.inboundRequest
  rw [if_neg Bool.false_ne_true, htake]
  exact if_neg (by simp [Chip.released_other (show m.vc ≠ Vc.det by rw [hvc]; decide)])

theorem Chip.inboundRequest_none (htake : c.takeMsg n Vc.req (fun m => decide (m.op ≤ 3)) = none) :
    c.inboundRequest n false = c := by
  unfold Chip.inboundRequest
  rw [if_neg Bool.false_ne_true, htake]

/-- R358: whether a request waits for a response from a port. -/
def Req.awaits (n : Nat) (m : Msg) (r : Req) : Bool := !r.host && r.tag == m.tag && r.port == n && r.dev == m.srcDev

/-- R358: the bytes of data that a request's response carries. -/
def ReqKind.answerSize : ReqKind → Nat
  | .read _ => 128
  | .write _ => 0
  | .atomic _ k _ _ => k

/-- R358, R362: a response completes the request that waits for it; one that none waits for is dropped. -/
theorem Chip.remoteResponse_eq (htake : c.takeMsg n Vc.rsp (fun m => decide (8 ≤ m.op)) = some (m, c1))
    (hvc : m.vc = Vc.rsp) : c.remoteResponse n false =
      ((c1.reqs.find? (Req.awaits n m)).elim c1 fun r =>
        c1.respond r (BitVec.ofNat 16 m.status) ((slotBytes m.data).take r.kind.answerSize)) := by
  unfold Chip.remoteResponse
  rw [if_neg Bool.false_ne_true, htake]
  refine (if_neg (by simp [Chip.released_other (show m.vc ≠ Vc.det by rw [hvc]; decide)])).trans ?_
  change (match c1.reqs.find? (Req.awaits n m) with
    | none => c1
    | some r => c1.respond r (BitVec.ofNat 16 m.status) ((slotBytes m.data).take r.kind.answerSize)) = _
  cases c1.reqs.find? (Req.awaits n m) with
  | none => rfl
  | some r => rfl

theorem Chip.ownResponse_answers {st : Half} {bs : List Byte}
    (hfind : c.pump.reqs.find? (fun r => r.answer.isSome) = some r) (hanswer : r.answer = some (st, bs)) :
    c.ownResponse = c.pump.respond r st bs := by
  unfold Chip.ownResponse
  dsimp only
  rw [hfind]
  dsimp only
  rw [hanswer]

end

/-! ### The clauses of O40 -/

section
variable {s : State} (hl : Live s)
include hl

theorem ran_retryFlitReceive {port : BitVec 3} {flit : List Byte} {lost : Bool} {c1 : Chip}
    (hup : s.chip.portUp port.toNat = true)
    (hd : (match s.chip.openFlit port.toNat flit lost with
      | .bad => (s.chip.countRx port.toNat).dropFlit port.toNat
      | .tagFail => (s.chip.countRx port.toNat).tagFailed port.toNat
      | .ok h _ => if h.kind = 2 then ((s.chip.countRx port.toNat).setLport port.toNat
        (((s.chip.countRx port.toNat).lport port.toNat).heard h)).resend port.toNat
        else s.chip.countRx port.toNat) = c1) : Ran (.retryFlitReceive port flit lost) s c1 := by
  have hexec : exec (.retryFlitReceive port flit lost) s = execRetryFlitReceive port flit lost s := rfl
  refine ran_chip _ hl (hexec.trans (by rw [execRetryFlitReceive])) ?_
  exact (if_neg (by simp [hup])).trans hd

/-- A flit that does not open is dropped and counted. -/
theorem ran_flit_bad {port : BitVec 3} {flit : List Byte} {lost : Bool} (ce : Half) (count : Dword)
    (hup : s.chip.portUp port.toNat = true) (h : lost = true ∨ flitParse flit = none) :
    Ran (.flitReceive port flit lost ce count) s
      (((s.chip.count Fld.AXL_FEC_CE_COUNT (po port.toNat) ce.toNat).countRx port.toNat).dropFlit port.toNat) ∧
    Ran (.retryFlitReceive port flit lost) s ((s.chip.countRx port.toNat).dropFlit port.toNat) := by
  have hbad := Chip.openFlit_bad (c := s.chip) (n := port.toNat) h
  exact ⟨ran_chip (fun c => c.flitReceive port.toNat flit lost ce.toNat count.toNat) hl rfl
    (Chip.flitReceive_bad hup hbad), ran_retryFlitReceive hl hup (by rw [hbad])⟩

theorem ran_flitReceive {port : BitVec 3} {flit : List Byte} {ce : Half} {count : Dword} {hn : Nat}
    {slots : List Nat} {c1 : Chip} (hup : s.chip.portUp port.toNat = true)
    (hplain : s.chip.flag Fld.AXL_PORT_CTL_CRYPT (po port.toNat) = false) (hparse : flitParse flit = some (hn, slots))
    (hd : ((s.chip.count Fld.AXL_FEC_CE_COUNT (po port.toNat) ce.toNat).countRx port.toNat).takeFlit port.toNat
      (FlitHdr.ofNum hn) slots count.toNat = c1) : Ran (.flitReceive port flit false ce count) s c1 :=
  ran_chip (fun c => c.flitReceive port.toNat flit false ce.toNat count.toNat) hl rfl
    ((Chip.flitReceive_opened hup (Chip.openFlit_plain hplain hparse)).trans hd)

theorem ran_retryTimeout {port : BitVec 3} {c1 : Chip} (hup : s.chip.portUp port.toNat = true)
    (hd : s.chip.resend port.toNat = c1) : Ran (.retryTimeout port) s c1 := by
  have hexec : exec (.retryTimeout port) s = execRetryTimeout port s := rfl
  refine ran_chip _ hl (hexec.trans (by rw [execRetryTimeout])) ?_
  exact (if_pos hup).trans hd

/-- REMOTE_RESPONSE of a port, and of the device itself. -/
theorem ran_remoteResponse {port : Option (BitVec 3)} {det : Bool} {c1 : Chip}
    (hd : (port.elim s.chip.ownResponse fun n => s.chip.remoteResponse n.toNat det) = c1) :
    Ran (.remoteResponse port det) s c1 := by
  have hexec : exec (.remoteResponse port det) s = execRemoteResponse port det s := rfl
  refine ran_chip _ hl (hexec.trans (by rw [execRemoteResponse])) ?_
  cases port with
  | none => exact hd
  | some n => exact hd

end

/-- Settles O40: flits received, resent and sent, and remote requests served, answered and completed. -/
theorem linkTraffic : Obligations.link_traffic := by
  unfold Obligations.link_traffic
  refine ⟨fun s port flit ce count hl hup hplain => ?_, fun s port hl => ⟨?_, ?_, ?_, ?_⟩⟩
  · intro n c1 x
    refine ⟨fun lost h => ran_flit_bad hl ce count hup h, ?_, ?_, ?_, ?_, ?_, ?_⟩
    · intro hn slots hparse h
      have hran : ∀ {c2}, c1.takeFlit n h slots count.toNat = c2 → Ran (.flitReceive port flit false ce count) s c2 :=
        fun hd => ran_flitReceive hl hup hplain hparse hd
      refine ⟨fun hkind => hran (Chip.takeFlit_idle hkind), fun hkind hseq => hran ?_, fun hkind hseq hold => hran ?_,
        fun hkind hseq hfar => hran ?_, fun hkind => ran_retryFlitReceive hl hup ?_⟩
      · exact (Chip.takeFlit_normal hkind).trans (if_pos hseq)
      · exact (Chip.takeFlit_normal hkind).trans ((if_neg hseq).trans (if_pos hold))
      · exact (Chip.takeFlit_normal hkind).trans ((if_neg hseq).trans (if_neg (Nat.not_le.mpr hfar)))
      · rw [Chip.openFlit_plain hplain hparse]
        exact if_pos hkind
    · exact fun h => ran_retryTimeout hl hup (Chip.resend_none h)
    · exact fun h hfew howners => ran_retryTimeout hl hup (Chip.resend_again h hfew howners)
    · exact fun h => ran_chip (fun c => c.flitTime port.toNat) hl rfl (Chip.flitTime_idle h)
    · exact fun h howe => ran_chip (fun c => c.flitTime port.toNat) hl rfl (Chip.flitTime_owed hup h howe)
    · exact fun h howe hagain hroom =>
        ran_chip (fun c => c.flitTime port.toNat) hl rfl (Chip.flitTime_new hup h howe hagain hroom)
  · exact fun m c1 htake hvc =>
      ran_chip (fun c => c.inboundRequest port.toNat false) hl rfl (Chip.inboundRequest_serves htake hvc)
  · exact fun htake => ran_chip (fun c => c.inboundRequest port.toNat false) hl rfl (Chip.inboundRequest_none htake)
  · intro m c1 htake hvc f
    have hresponse := Chip.remoteResponse_eq htake hvc
    refine ⟨fun hnone => ran_remoteResponse hl (hresponse.trans ?_), fun r k hfind hkind =>
      ran_remoteResponse hl (hresponse.trans ?_), fun r bs hfind hkind => ran_remoteResponse hl (hresponse.trans ?_)⟩
    · rw [show c1.reqs.find? (Req.awaits port.toNat m) = none from hnone]
      rfl
    · rw [show c1.reqs.find? (Req.awaits port.toNat m) = some r from hfind, Option.elim_some, hkind]
      rfl
    · rw [show c1.reqs.find? (Req.awaits port.toNat m) = some r from hfind, Option.elim_some, hkind]
      rfl
  · exact fun r st bs det hfind hanswer =>
      ran_remoteResponse (port := none) hl (Chip.ownResponse_answers hfind hanswer)

end Sys2Proof.Machine

/-! ## The host interface (R87, R502 to R511) -/

namespace Sys2Proof.Machine

/-! ### The BAR4 window (R508) -/

section
variable {c : Chip} {o : Bar4Op}

/-- The size of an access. -/
def Bar4Op.size (o : Bar4Op) : Nat := match o.write with | some bs => bs.length | none => o.n

theorem Chip.bar4Access_early (hen : c.fnEnabled o.fn = true) (hoff : o.off < 2 ^ c.bar4Log o.fn)
    (hboot : c.booted = false) (hread : o.write = none) :
    c.bar4Access o = c.emit (.hostData (List.replicate o.n 0)) := by
  refine (if_neg (by simp [hen, hoff])).trans ((if_pos (by simp [hboot])).trans (if_pos ?_))
  rw [hread]
  rfl

theorem Chip.bar4Access_served (hen : c.fnEnabled o.fn = true) (hoff : o.off < 2 ^ c.bar4Log o.fn)
    (hboot : c.booted = true) (hawake : c.fld Fld.PWR_DEVSTATE_STATE = 0) : c.bar4Access o = c.bar4Serve o :=
  (if_neg (by simp [hen, hoff])).trans ((if_neg (by simp [hboot])).trans (if_pos hawake))

theorem Chip.bar4Serve_eq (c : Chip) (o : Bar4Op) :
    c.bar4Serve o = match (c.part o.fn).locs (c.bar4Base o.fn + o.off) o.size with
      | none => c.bar4Refused o
      | some ls =>
        if (c.part o.fn).state ≠ .ready then c.bar4Refused o
        else
          match o.write with
          | some bs => c.bar4Write o.fn (c.bar4Base o.fn + o.off) bs ls
          | none => c.bar4Read o.fn (c.bar4Base o.fn + o.off) o.size ls := rfl

theorem Chip.bar4Serve_outside (h : (c.part o.fn).locs (c.bar4Base o.fn + o.off) o.size = none) :
    c.bar4Serve o = c.bar4Refused o := by
  rw [Chip.bar4Serve_eq, h]

theorem Chip.bar4Serve_unready (h : (c.part o.fn).state ≠ .ready) : c.bar4Serve o = c.bar4Refused o := by
  rw [Chip.bar4Serve_eq]
  split
  · rfl
  · exact if_pos h

theorem Chip.bar4Serve_inside {ls : List Nat} (h : (c.part o.fn).locs (c.bar4Base o.fn + o.off) o.size = some ls)
    (hready : (c.part o.fn).state = .ready) :
    c.bar4Serve o = match o.write with
      | some bs => c.bar4Write o.fn (c.bar4Base o.fn + o.off) bs ls
      | none => c.bar4Read o.fn (c.bar4Base o.fn + o.off) o.size ls := by
  rw [Chip.bar4Serve_eq, h]
  exact if_neg (by simp [hready])

theorem Chip.bar4Refused_read (h : o.write = none) :
    c.bar4Refused o = (c.count Fld.PCI_BAR4_ERR_COUNT (steer o.fn)).emit (.hostData (List.replicate o.n 0xFF)) :=
  if_pos (by rw [h]; rfl)

theorem Chip.bar4Refused_write {bs : List Byte} (h : o.write = some bs) :
    c.bar4Refused o = c.count Fld.PCI_BAR4_ERR_COUNT (steer o.fn) := if_neg (by rw [h]; exact Bool.false_ne_true)

/-- With no mailbox operation no stack retrains. -/
theorem Chip.stackRetrains_idle (h : c.mgt.op = none) (ls : List Nat) : ls.any c.stackRetrains = false :=
  List.any_eq_false.mpr fun l _ => by simp [Chip.stackRetrains, h]

theorem Chip.bar4Read_ok {p a n : Nat} {ls : List Nat} {b : List Byte} (hidle : c.mgt.op = none)
    (h : c.readPP p a n = .ok b) : c.bar4Read p a n ls = c.emit (.hostData b) := by
  rw [Chip.bar4Read, if_neg (by simp [Chip.stackRetrains_idle hidle]), h]

theorem Chip.bar4Write_ok {p a : Nat} {ls : List Nat} {b : List Byte} {c1 : Chip} (hidle : c.mgt.op = none)
    (h : c.writePP p a b = .ok c1) : c.bar4Write p a b ls = c1 := by
  rw [Chip.bar4Write, if_neg (by simp [Chip.stackRetrains_idle hidle]), h]

end

/-! ### Completions and invalidations (R509) -/

section
variable {c : Chip} {tag : Nat} {r : Req} {bs : List Byte}
  (hfind : (c.reqs.find? fun x => x.sent && x.host && x.tag == tag) = some r)
include hfind

/-- A completion that is not successful answers its request. -/
theorem Chip.hostCompletion_fails {outcome : Nat} (h : outcome ≠ 0) :
    c.hostCompletion tag outcome bs = c.respond r (hostStatus outcome) bs := by
  unfold Chip.hostCompletion
  rw [hfind]
  exact (if_neg (by simp [Req.fits, h])).trans (if_neg fun hgo => h hgo.2)

theorem Chip.hostCompletion_read {n : Nat} (hkind : r.kind = .read n) (hasks : r.asks = false) (hlen : bs.length = n) :
    c.hostCompletion tag 0 bs = c.respond r St.ok bs := by
  unfold Chip.hostCompletion
  rw [hfind]
  exact (if_neg (by simp [Req.fits, hasks, hkind, hlen])).trans (if_neg (by simp [hasks]))

/-- The answer to a translation request sends the read at the translated address. -/
theorem Chip.hostCompletion_granted {n : Nat} (hkind : r.kind = .read n) (hasks : r.asks = true) (hlen : bs.length = 8) :
    c.hostCompletion tag 0 bs = c.granted r (leNat bs / 4096) := by
  unfold Chip.hostCompletion
  rw [hfind]
  refine (if_neg (by simp [Req.fits, hasks, hlen])).trans ((if_pos ⟨hasks, rfl⟩).trans ?_)
  rw [hkind, grantedPage, List.take_of_length_le (by omega)]

end

/-- What a request that uses a translation of a range of pages satisfies. -/
def Req.uses (fn lo n : Nat) (r : Req) : Bool :=
  r.sent && r.host && r.part == fn && r.xlat.isSome && inPages lo n (r.addr / 4096)

theorem Chip.atsInvalidate_eq {c : Chip} {fn tag lo n : Nat} (hen : c.fnEnabled fn = true) :
    c.atsInvalidate fn tag lo n =
      if ((c.reqs.filter (Req.uses fn lo n)).map Req.tag).isEmpty then
        (({ c with pcie := c.pcie.forget fn (inPages lo n) } : Chip).emit (.atsDone tag)).count Fld.PCI_ATS_INV_CNT_COUNT
      else { c with pcie := { c.pcie.forget fn (inPages lo n) with
        invals := c.pcie.invals ++ [(tag, (c.reqs.filter (Req.uses fn lo n)).map Req.tag)] } } :=
  if_neg (by simp [hen])

/-! ### The clauses of O42 -/

section
variable {s : State} (hl : Live s)
include hl

theorem ran_bar4Access {fn : BitVec 4} {off : Dword} {w : Option (List Byte)} {n : Half} {c1 : Chip}
    (hd : s.chip.bar4Access { fn := fn.toNat, off := off.toNat, write := w, n := n.toNat } = c1) :
    Ran (.bar4Access fn off w n) s c1 :=
  ran_chip (fun c => c.bar4Access { fn := fn.toNat, off := off.toNat, write := w, n := n.toNat }) hl rfl hd

theorem ran_hostCompletion {tag : Half} {outcome : BitVec 2} {k : Nat} {b : List Byte} {c1 : Chip}
    (hk : outcome.toNat = k) (hd : s.chip.hostCompletion tag.toNat k b = c1) :
    Ran (.hostCompletion tag outcome b) s c1 :=
  ran_chip (fun c => c.hostCompletion tag.toNat outcome.toNat b) hl rfl (by rw [hk, hd])

theorem ran_msixUnmask {fn : BitVec 4} {v : BitVec 11} (hen : s.chip.fnEnabled fn.toNat = true)
    (hv : v.toNat < vectors fn.toNat) : Ran (.msixUnmask fn v) s (s.chip.maskVector fn.toNat v.toNat false) := by
  have hexec : exec (.msixUnmask fn v) s = execMsixUnmask fn v s := rfl
  refine ran_chip _ hl (hexec.trans (by rw [execMsixUnmask])) ?_
  exact if_neg (by simp [hen, hv])

/-- R510: VF Enable where no virtual function was enabled. -/
theorem ran_vfEnableChange {n : BitVec 4} (hen : s.chip.fnEnabled 0 = true) (hoff : s.chip.pcie.vfEnable = false) :
    Ran (.vfEnableChange true n) s
      { s.chip with pcie := { s.chip.pcie with vfEnable := true, numVfs := n.toNat } } := by
  refine ran_chip (fun c => c.vfChange true n.toNat) hl rfl ((if_neg (by simp [hen])).trans ?_)
  dsimp only
  rw [List.filter_eq_nil_iff.mpr]
  · rfl
  · intro p hp
    have hne : p ≠ 0 := by
      rintro rfl
      revert hp
      decide
    simp [Chip.fnEnabled, hoff, hne]

end

/-- Settles O42: BAR4 accesses, host completions, ATS invalidations, MSI-X, configuration writes and resets. -/
theorem hostInterface : Obligations.host_interface := by
  unfold Obligations.host_interface
  refine ⟨fun s fn off hl hen hoff => ?_, fun s hl => ⟨?_, ?_⟩, fun s hl => ⟨?_, ?_, ?_, ?_, ?_⟩⟩
  · intro a
    have hserved : s.chip.booted = true → s.chip.fld Fld.PWR_DEVSTATE_STATE = 0 → ∀ {w n c1},
        s.chip.bar4Serve { fn := fn.toNat, off := off.toNat, write := w, n := n.toNat } = c1 →
        Ran (.bar4Access fn off w n) s c1 := fun hboot hawake _ _ _ hd =>
      ran_bar4Access hl ((Chip.bar4Access_served hen hoff hboot hawake).trans hd)
    refine ⟨fun hboot n => ran_bar4Access hl (Chip.bar4Access_early hen hoff hboot rfl),
      fun hboot hawake hready hidle => ⟨fun n b h => ?_, fun n b c h => ?_⟩,
      fun hboot hawake hready n => hserved hboot hawake ((Chip.bar4Serve_unready hready).trans (Chip.bar4Refused_read rfl)),
      fun hboot hawake => ⟨fun n h => ?_, fun b n h => ?_⟩⟩
    · obtain ⟨ls, hls, -⟩ := Chip.readPP_ok h
      exact hserved hboot hawake ((Chip.bar4Serve_inside
        (o := { fn := fn.toNat, off := off.toNat, write := none, n := n.toNat }) hls hready).trans (Chip.bar4Read_ok hidle h))
    · obtain ⟨ls, hls, -⟩ := Chip.writePP_ok h
      exact hserved hboot hawake ((Chip.bar4Serve_inside
        (o := { fn := fn.toNat, off := off.toNat, write := some b, n := n.toNat }) hls hready).trans (Chip.bar4Write_ok hidle h))
    · exact hserved hboot hawake ((Chip.bar4Serve_outside
        (o := { fn := fn.toNat, off := off.toNat, write := none, n := n.toNat }) h).trans (Chip.bar4Refused_read rfl))
    · exact hserved hboot hawake ((Chip.bar4Serve_outside
        (o := { fn := fn.toNat, off := off.toNat, write := some b, n := n.toNat }) h).trans (Chip.bar4Refused_write rfl))
  · intro tag r hfind
    refine ⟨fun b n hkind => ⟨fun hasks hlen => ?_, fun hasks hlen => ?_⟩, fun b => ?_, fun b => ?_, ?_⟩
    · exact ran_hostCompletion hl rfl (Chip.hostCompletion_read hfind hkind hasks hlen)
    · exact ran_hostCompletion hl rfl (Chip.hostCompletion_granted hfind hkind hasks hlen)
    · exact ran_hostCompletion hl rfl (Chip.hostCompletion_fails hfind (by decide))
    · exact ran_hostCompletion hl rfl (Chip.hostCompletion_fails hfind (by decide))
    · exact ran_chip (fun c => c.hostCompletion tag.toNat 1 []) hl rfl (Chip.hostCompletion_fails hfind (by decide))
  · intro fn tag page pages hen out c using_
    have hran : ∀ {c1}, s.chip.atsInvalidate fn.toNat tag.toNat page.toNat pages.toNat = c1 →
        Ran (.atsInvalidate fn ⟨tag, page, pages⟩) s c1 := fun hd =>
      ran_chip (fun c => c.atsInvalidate fn.toNat tag.toNat page.toNat pages.toNat) hl rfl hd
    refine ⟨fun hnone => hran ((Chip.atsInvalidate_eq hen).trans (if_pos ?_)),
      fun hsome => hran ((Chip.atsInvalidate_eq hen).trans (if_neg ?_))⟩
    · rw [show s.chip.reqs.filter (Req.uses fn.toNat page.toNat pages.toNat) = [] from hnone]
      rfl
    · rw [List.isEmpty_iff, List.map_eq_nil_iff]
      exact hsome
  · exact fun fn v hen hv => ran_msixUnmask hl hen hv
  · intro fn i v hen hvalid hphysical
    refine ran_chip (fun c => c.configWrite fn.toNat i v.toNat) hl rfl (if_neg ?_)
    rintro (h | h | ⟨h, hfn⟩)
    · simp [hen] at h
    · simp [hvalid] at h
    · exact hfn (by rw [hphysical h]; rfl)
  · exact fun n hen hoff => ran_vfEnableChange hl hen hoff
  · exact fun hperst => ran_chip (fun c => c.hotReset false none) hl rfl (if_neg (by simp [hperst]))
  · intro p hp hen
    refine ran_chip (fun c => c.flr p.toNat) hl rfl (if_neg ?_)
    rintro (h | h)
    · exact hp (BitVec.eq_of_toNat_eq h)
    · simp [hen] at h

end Sys2Proof.Machine

/-! ## PARTITION_CTL (R30 to R34, R53, R532) -/

namespace Sys2Proof.Machine

section
variable {c c1 : Chip} {slot op : Nat} {e : Entry} {b : List Byte}

/-- R30, R209: a PARTITION_CTL of the operation reads its block once no way is changing. -/
theorem Chip.partCtl_reads {f : Chip → Entry → PConf → Chip} (hh : Holds c 0 slot Op.partitionCtl e)
    (hop : e.desc.p0.toNat = op) (hidle : c.flag Fld.SC_STATUS_BUSY = false)
    (hread : c.readVA (c.actor 0 slot) e.desc.p1.toNat 64 = .ok b) : c.partCtl slot op f = f c e (PConf.ofBytes b) := by
  refine (run_ready _ hh).trans ((if_neg (by simp [hop, hidle])).trans ?_)
  rw [hread]

/-- R364: the chip after the link partners are asked, where nothing here stands against the CREATE. -/
def Chip.asked (c : Chip) (f : PConf) : Chip :=
  if f.det ∧ c.createReason f 0 = Reason.ok then c.askSlots f else c

variable (hh : Holds c 0 slot Op.partitionCtl e) (hidle : c.flag Fld.SC_STATUS_BUSY = false)
  (hread : c.readVA (c.actor 0 slot) e.desc.p1.toNat 64 = .ok b)
include hh hidle hread

theorem Chip.partitionCreate_stops {refused : Byte} (hop : e.desc.p0.toNat = 0)
    (hr : c.createReason (PConf.ofBytes b) refused ≠ Reason.ok) :
    c.partitionCreate slot refused = (c.asked (PConf.ofBytes b)).endCtl slot e (PConf.ofBytes b).part
      (c.createReason (PConf.ofBytes b) refused) :=
  (Chip.partCtl_reads hh hop hidle hread).trans (if_neg hr)

theorem Chip.partitionCreate_creates {refused : Byte} (hop : e.desc.p0.toNat = 0)
    (hr : c.createReason (PConf.ofBytes b) refused = Reason.ok)
    (hput : (c.asked (PConf.ofBytes b)).putReason slot e
      (leBytes 4 (2 ^ 16 * (if (PConf.ofBytes b).det then (PConf.ofBytes b).pcgs else 0))) = .ok c1) :
    c.partitionCreate slot refused = (c1.create (PConf.ofBytes b)).finishOk 0 slot := by
  refine (Chip.partCtl_reads hh hop hidle hread).trans ((if_pos hr).trans ?_)
  rw [Chip.asked] at hput
  rw [hput]

theorem Chip.partitionSeal_stops (hop : e.desc.p0.toNat = 1)
    (hr : c.plainReason (PConf.ofBytes b) [.opened] true ≠ Reason.ok) :
    c.partitionSeal slot = c.endCtl slot e (PConf.ofBytes b).part (c.plainReason (PConf.ofBytes b) [.opened] true) :=
  (Chip.partCtl_reads hh hop hidle hread).trans (if_pos hr)

/-- R53: an entry or a table that cannot be used ends the SEAL. -/
theorem Chip.partitionSeal_invalid {err : AccErr} {asid va : Nat} (hop : e.desc.p0.toNat = 1)
    (hr : c.plainReason (PConf.ofBytes b) [.opened] true = Reason.ok)
    (hwalk : c.sealWalk (PConf.ofBytes b).part = .error (.invalid err asid va)) :
    c.partitionSeal slot = (c.capture (PConf.ofBytes b).part err FaultUnit.sealWalk asid va e.desc.tag.toNat).endCtl slot e
      (PConf.ofBytes b).part Reason.tableInvalid := by
  refine (Chip.partCtl_reads hh hop hidle hread).trans ((if_neg (not_not.2 hr)).trans ?_)
  rw [hwalk]

theorem Chip.partitionSeal_seals {a : Sealed} (hop : e.desc.p0.toNat = 1)
    (hr : c.plainReason (PConf.ofBytes b) [.opened] true = Reason.ok)
    (hwalk : c.sealWalk (PConf.ofBytes b).part = .ok a)
    (hput : c.putReason slot e (c.resultWord (PConf.ofBytes b).part Reason.ok) = .ok c1) :
    c.partitionSeal slot = (c1.sealPart (PConf.ofBytes b).part a).finishOk 0 slot := by
  refine (Chip.partCtl_reads hh hop hidle hread).trans ((if_neg (not_not.2 hr)).trans ?_)
  rw [hwalk]
  dsimp only
  rw [hput]

theorem Chip.partitionResize_stops (hop : e.desc.p0.toNat = 2) (hr : c.resizeReason (PConf.ofBytes b) ≠ Reason.ok) :
    c.partitionResize slot = c.endCtl slot e (PConf.ofBytes b).part (c.resizeReason (PConf.ofBytes b)) :=
  (Chip.partCtl_reads hh hop hidle hread).trans (if_pos hr)

theorem Chip.partitionResize_resizes (hop : e.desc.p0.toNat = 2) (hr : c.resizeReason (PConf.ofBytes b) = Reason.ok)
    (hput : c.putReason slot e (c.resultWord (PConf.ofBytes b).part Reason.ok) = .ok c1) :
    c.partitionResize slot = (c1.resize (PConf.ofBytes b)).finishOk 0 slot := by
  refine (Chip.partCtl_reads hh hop hidle hread).trans ((if_neg (not_not.2 hr)).trans ?_)
  rw [hput]

theorem Chip.partitionCtlReset_eq (hop : e.desc.p0.toNat = 3) :
    c.partitionCtlReset slot = if c.plainReason (PConf.ofBytes b) [.opened, .ready, .resetting] false ≠ Reason.ok
      then c.endCtl slot e (PConf.ofBytes b).part (c.plainReason (PConf.ofBytes b) [.opened, .ready, .resetting] false)
      else (c.startReset (PConf.ofBytes b).part false).awaitReset slot e (PConf.ofBytes b).part :=
  Chip.partCtl_reads hh hop hidle hread

theorem Chip.partitionDestroy_eq (hop : e.desc.p0.toNat = 4) :
    c.partitionDestroy slot = if c.plainReason (PConf.ofBytes b) [.opened, .ready, .resetting] false ≠ Reason.ok
      then c.endCtl slot e (PConf.ofBytes b).part (c.plainReason (PConf.ofBytes b) [.opened, .ready, .resetting] false)
      else if (c.part (PConf.ofBytes b).part).state = .resetting then c
      else (c.startReset (PConf.ofBytes b).part true).awaitReset slot e (PConf.ofBytes b).part :=
  Chip.partCtl_reads hh hop hidle hread

end

/-- Settles O43: each operation of PARTITION_CTL takes effect, or ends with its reason. -/
theorem partitionControl : Obligations.partition_control := by
  unfold Obligations.partition_control
  intro s slot e b hl hh hidle hread f c stops
  have hp0 : ∀ {k : Dword} {n : Nat}, k.toNat = n → e.desc.p0 = k → e.desc.p0.toNat = n := fun hk he => by rw [he, hk]
  refine ⟨fun he refused => ?_, fun he => ⟨fun hr => ?_, fun err asid va hr hwalk => ?_, fun a c1 hr hwalk hput => ?_⟩,
    fun he => ⟨fun hr => ?_, fun c1 hr hput => ?_⟩, fun he => ⟨fun hr => ?_, fun hr => ?_⟩,
    fun he => ⟨fun hr => ?_, fun hr hstate => ?_⟩⟩
  · have hran : ∀ {d}, s.chip.partitionCreate slot.toNat refused = d → Ran (.partitionCreate slot refused) s d :=
      fun hd => ran_chip (fun c => c.partitionCreate slot.toNat refused) hl rfl hd
    exact ⟨fun hr => hran (Chip.partitionCreate_stops hh hidle hread (hp0 rfl he) hr),
      fun c1 hr hput => hran (Chip.partitionCreate_creates hh hidle hread (hp0 rfl he) hr hput)⟩
  · exact ran_chip (fun c => c.partitionSeal slot.toNat) hl rfl
      (Chip.partitionSeal_stops hh hidle hread (hp0 rfl he) hr)
  · exact ran_chip (fun c => c.partitionSeal slot.toNat) hl rfl
      (Chip.partitionSeal_invalid hh hidle hread (hp0 rfl he) hr hwalk)
  · exact ran_chip (fun c => c.partitionSeal slot.toNat) hl rfl
      (Chip.partitionSeal_seals hh hidle hread (hp0 rfl he) hr hwalk hput)
  · exact ran_chip (fun c => c.partitionResize slot.toNat) hl rfl
      (Chip.partitionResize_stops hh hidle hread (hp0 rfl he) hr)
  · exact ran_chip (fun c => c.partitionResize slot.toNat) hl rfl
      (Chip.partitionResize_resizes hh hidle hread (hp0 rfl he) hr hput)
  · exact ran_chip (fun c => c.partitionCtlReset slot.toNat) hl rfl
      ((Chip.partitionCtlReset_eq hh hidle hread (hp0 rfl he)).trans (if_pos hr))
  · exact ran_chip (fun c => c.partitionCtlReset slot.toNat) hl rfl
      ((Chip.partitionCtlReset_eq hh hidle hread (hp0 rfl he)).trans (if_neg (not_not.2 hr)))
  · exact ran_chip (fun c => c.partitionDestroy slot.toNat) hl rfl
      ((Chip.partitionDestroy_eq hh hidle hread (hp0 rfl he)).trans (if_pos hr))
  · exact ran_chip (fun c => c.partitionDestroy slot.toNat) hl rfl
      ((Chip.partitionDestroy_eq hh hidle hread (hp0 rfl he)).trans ((if_neg (not_not.2 hr)).trans (if_neg hstate)))

end Sys2Proof.Machine

/-! ## Unit faults and the safety sequencer (R431 to R455) -/

namespace Sys2Proof.Machine

theorem apart_ways : Chip.Apart Chip.ways :=
  ⟨fun _ _ => rfl, fun _ _ => rfl, fun _ _ _ => rfl, fun _ _ _ _ _ _ _ => rfl⟩

theorem apart_ras : Chip.Apart Chip.ras :=
  ⟨fun _ _ => rfl, fun _ _ => rfl, fun _ _ _ => rfl, fun _ _ _ _ _ _ _ => rfl⟩

theorem apart_faultN : Chip.Apart Chip.faultN :=
  ⟨fun _ _ => rfl, fun _ _ => rfl, fun _ _ _ => rfl, fun _ _ _ _ _ _ _ => rfl⟩

theorem apart_smbAlertN : Chip.Apart Chip.smbAlertN :=
  ⟨fun _ _ => rfl, fun _ _ => rfl, fun _ _ _ => rfl, fun _ _ _ _ _ _ _ => rfl⟩

/-! ### Other single faults (R437) -/

section
variable {c : Chip} {w : Nat}

theorem Chip.wayFault_failed (h : c.way w = .failed) : c.wayFault w = c := by
  unfold Chip.wayFault
  rw [h]

theorem Chip.wayFault_cached (h : c.way w = .cached) :
    c.wayFault w = (((c.cleanWay w).setWay w .failed).showWays).unitFault .way w [] .bypassed := by
  unfold Chip.wayFault
  rw [h]

theorem Chip.wayFault_scratch {p : Nat} (h : c.way w = .scratch p) :
    c.wayFault w = (((c.replaceWay p w).unitFault .way w [p] .partitionReset).breakSpan p).startReset p false := by
  unfold Chip.wayFault
  rw [h]

/-- R437: a cached way that fails is never used again, and the others keep their modes. -/
theorem Chip.way_wayFault_cached (h : c.way w = .cached) :
    (c.wayFault w).way w = .failed ∧ ∀ o, o ≠ w → (c.wayFault w).way o = c.way o := by
  have hway : ∀ o, (c.wayFault w).way o = ((c.cleanWay w).setWay w .failed).way o := fun o => by
    rw [Chip.wayFault_cached h, Chip.way_congr (apart_ways.unitFault ..), Chip.way_showWays]
  refine ⟨(hway w).trans (Chip.way_setWay_self _ w _), fun o ho => (hway o).trans ?_⟩
  exact (Chip.way_setWay_ne (c.cleanWay w) ho _).trans (Chip.way_congr (c := c) rfl o)

theorem Chip.sharedFault_dead {u : SharedUnit} {index : Nat} (h : c.ras.dead.contains (u, index) = true) :
    c.sharedFault u index = c := if_pos h

/-- R432: a shared unit that fails is dead from then on. -/
theorem Chip.dead_sharedFault {u : SharedUnit} {index : Nat} (h : c.ras.dead.contains (u, index) = false) :
    (c.sharedFault u index).ras.dead = (u, index) :: c.ras.dead := by
  unfold Chip.sharedFault
  rw [if_neg (by rw [h]; exact Bool.false_ne_true), foldl_reads (f := Chip.ras) (fun d p => apart_ras.breakSpan d p),
    apart_ras.unitFault]
  split
  · rfl
  · rfl

end

theorem ran_sharedUnitFault {s : State} {kind : BitVec 4} {index : BitVec 5} {r : Option SharedUnit} (hl : Live s)
    (hr : sharedUnits[kind.toNat]? = r) :
    Ran (.sharedUnitFault kind index) s (r.elim
      (if kind.toNat = sharedUnits.length then s.chip.count Fld.RAS_CE_CNT_COUNT else s.chip)
      fun u => s.chip.sharedFault u index.toNat) := by
  have hexec : exec (.sharedUnitFault kind index) s = execSharedUnitFault kind index s := rfl
  refine ran_chip _ hl (hexec.trans (by rw [execSharedUnitFault])) ?_
  rw [hr]
  cases r with
  | none => rfl
  | some u => rfl

/-- Settles O49: a die, a module, a way, a crossing and a shared unit that fail. -/
theorem unitFaults : Obligations.unit_faults := by
  unfold Obligations.unit_faults
  refine fun s hl => ⟨?_, ?_, fun w => ⟨?_, ?_, ?_⟩, ?_, fun kind index u hu => ?_, ?_⟩
  · intro stack g hfirmware hstack hwhole ps
    refine ran_chip (fun c => c.dieFailed stack.toNat g.toNat) hl rfl (if_neg ?_)
    rintro (h | h | h)
    · simp [hfirmware] at h
    · exact absurd hstack (Nat.not_lt.mpr h)
    · simp [hwhole] at h
  · exact fun m => ran_chip (fun c => c.ucieFault m.toNat) hl rfl rfl
  · exact fun h => ran_chip (fun c => c.wayFault w.toNat) hl rfl (Chip.wayFault_failed h)
  · exact fun h => ⟨_, ran_chip (fun c => c.wayFault w.toNat) hl rfl rfl, Chip.way_wayFault_cached h⟩
  · exact fun p h => ran_chip (fun c => c.wayFault w.toNat) hl rfl (Chip.wayFault_scratch h)
  · exact fun index p => ran_chip
      (fun c => (c.unitFault .crossing index.toNat [p.toNat] .replaced).breakSpan p.toNat) hl rfl rfl
  · refine ⟨fun hdead => ?_, fun hlive => ⟨_, ran_sharedUnitFault hl hu, Chip.dead_sharedFault hlive⟩⟩
    have hran := ran_sharedUnitFault (index := index) hl hu
    rwa [Option.elim_some, Chip.sharedFault_dead hdead] at hran
  · rintro kind index rfl
    exact ran_sharedUnitFault (r := none) hl rfl

/-! ### The sequencer's word -/

section
variable {c : Chip} {a : Nat}

/-- An event that is signalled changes its own configuration word, and descriptors. -/
theorem Chip.rg_signalEvent {n : Nat} (h : a ≠ Fld.EVT_CFG_STATE.base + 4 * n) : (c.signalEvent n).rg a = c.rg a := by
  have hfinish : ∀ (d : Chip) (q slot : Nat), (d.finishOk q slot).rg a = d.rg a := fun d q slot => by
    rw [Chip.rg, Chip.regs_finishOk, ← Chip.rg]
  unfold Chip.signalEvent
  dsimp only
  split
  · rw [Chip.rg_setFld_ne _ _ _ _ h]
    exact foldl_reads (f := fun d : Chip => d.rg a) (fun d w => hfinish d _ _) _ c
  · split
    · exact hfinish c _ _
    · exact c.rg_setFld_ne _ _ _ h

theorem Chip.Apart.signalEvent {β : Type} {f : Chip → β} (h : Chip.Apart f) (c : Chip) (n : Nat) :
    f (c.signalEvent n) = f c := by
  unfold Chip.signalEvent
  dsimp only
  split
  · exact (h.setFld _ _ _ _).trans (foldl_reads (f := f) (fun d w => h.finish d _ _ _ _ _) _ c)
  · split
    · exact h.finish c _ _ _ _ _
    · exact h.setFld c _ _ _

/-- What no event's signal changes, no source's signal changes. -/
theorem Chip.reads_sourceSignal {β : Type} {f : Chip → β} (h : ∀ (d : Chip) (n : Nat), n < 256 → f (d.signalEvent n) = f d)
    (c : Chip) (source p : Nat) : f (c.sourceSignal source p) = f c := by
  have hfold : ∀ (l : List Nat) (d : Chip), (∀ n ∈ l, n < 256) → f (l.foldl (Chip.sourceStep source p) d) = f d := by
    intro l
    induction l with
    | nil => exact fun _ _ => rfl
    | cons n t ih =>
      intro d hl
      rw [List.foldl_cons, ih _ fun x hx => hl x (List.mem_cons_of_mem _ hx), Chip.sourceStep]
      split
      · exact h d n (hl n List.mem_cons_self)
      · rfl
  rw [Chip.sourceSignal_eq]
  exact hfold _ c fun n hn => List.mem_range.mp hn

theorem Chip.Apart.sourceSignal {β : Type} {f : Chip → β} (h : Chip.Apart f) (c : Chip) (source p : Nat) :
    f (c.sourceSignal source p) = f c :=
  Chip.reads_sourceSignal (fun d n _ => h.signalEvent d n) c source p

/-- The sequencer's word lies behind every event's. -/
theorem Chip.seq_sourceSignal (c : Chip) (source p : Nat) :
    (c.sourceSignal source p).rg Reg.RAS_SEQ_STATUS = c.rg Reg.RAS_SEQ_STATUS :=
  Chip.reads_sourceSignal (f := fun d => d.rg Reg.RAS_SEQ_STATUS) (fun d n hn => Chip.rg_signalEvent (by
    simp only [Reg.RAS_SEQ_STATUS, Fld.EVT_CFG_STATE, Reg.EVT_CFG]
    omega)) c source p

theorem Chip.rg_postRas (code queue detail : Nat) (hlost : a ≠ Fld.EVRING_LOST_COUNT.base + pg 0)
    (htail : a ≠ Fld.EVRING_TAIL_TAIL.base + pg 0) : (c.postRas 0 code queue detail).rg a = c.rg a := by
  rw [Chip.postRas, Chip.rg, Chip.raiseOwner, Chip.regs_raiseMsix, ← Chip.rg]
  exact c.rg_postEvent _ _ _ hlost htail

end

/-- A fault of no partition changes the fault log, its head, the count of faults and partition 0's ring: the sequencer's
word stays. -/
theorem Chip.seq_unitFault (c : Chip) (u : Unit8) (index : Nat) (o : FaultOutcome) :
    (c.unitFault u index [] o).rg Reg.RAS_SEQ_STATUS = c.rg Reg.RAS_SEQ_STATUS := by
  unfold Chip.unitFault
  dsimp only [List.foldl_nil]
  rw [Chip.rg_postRas _ _ _ (by decide) (by decide), Chip.count, Chip.rg_setFld_ne _ _ _ _ (by decide)]
  unfold Chip.logFault Chip.setRg64
  rw [Chip.rg_setFld_ne _ _ _ _ (by decide), Chip.rg_setRg_ne, Chip.rg_setRg_ne, Chip.rg_setRg_ne, Chip.rg_setRg_ne]
  all_goals
    rw [Reg.RAS_SEQ_STATUS, Reg.RAS_FLOG]
    omega

section
variable {c : Chip} {f : Fld}

/-- A field of the sequencer's word reads the same where the word is the same. -/
theorem Chip.fld_seq {d : Chip} (hf : f.base = Reg.RAS_SEQ_STATUS)
    (h : d.rg Reg.RAS_SEQ_STATUS = c.rg Reg.RAS_SEQ_STATUS) : d.fld f = c.fld f := by
  rw [Chip.fld, Chip.fld, hf, Nat.add_zero, h]

/-- Asserting FAULT_N sets its own bit of the word. -/
theorem Chip.fld_assertFault (hf : f.base = Reg.RAS_SEQ_STATUS) (hapart : f.hi < 8 ∨ 8 < f.lo) :
    c.assertFault.fld f = c.fld f := by
  have hset : ∀ d : Chip, (d.setFld Fld.RAS_SEQ_STATUS_FAULT 0 1).fld f = d.fld f := fun d =>
    d.fld_setFld_apart f Fld.RAS_SEQ_STATUS_FAULT 1 hf (by decide) (by decide) hapart
  unfold Chip.assertFault
  split
  · exact hset c
  · exact (Chip.fld_seq hf (Chip.seq_sourceSignal _ 3 0)).trans (hset { c with faultN := true })

theorem Chip.faultN_assertFault (c : Chip) : c.assertFault.faultN = true := by
  unfold Chip.assertFault
  split
  · next h => exact h
  · exact apart_faultN.sourceSignal _ 3 0

/-- R450: a cause that is not latched yet is latched: FAULT_N and SMB_ALERT_N. -/
theorem Chip.latchCause_new {i : Nat} (h : bit (c.fld Fld.RAS_SEQ_STATUS_CAUSE) i = false) :
    (c.latchCause i).faultN = true ∧ (c.latchCause i).smbAlertN = true ∧
    ∀ f : Fld, f.base = Reg.RAS_SEQ_STATUS → (f.hi < 8 ∨ 8 < f.lo) →
      (c.latchCause i).fld f = (c.setBit Fld.RAS_SEQ_STATUS_CAUSE 0 i).fld f := by
  rw [Chip.latchCause, if_neg (ne_true_of_eq_false h)]
  refine ⟨?_, rfl, fun f hf hapart => ?_⟩
  · exact ((apart_faultN.postEvent _ _ _ _ _).trans (apart_faultN.raiseOwner _ _)).trans (Chip.faultN_assertFault _)
  · refine Eq.trans (Chip.fld_seq hf ?_) (Chip.fld_assertFault hf hapart)
    refine (Chip.rg_postEvent _ _ _ _ (by decide) (by decide)).trans ?_
    rw [Chip.rg, Chip.raiseOwner, Chip.regs_raiseMsix, ← Chip.rg]

end

/-- R406: with the sequencer's cap in force, the effective cap is at most 250 W. -/
theorem Chip.effectiveCap_le {c : Chip} (h : c.fld Fld.RAS_SEQ_STATUS_CAP = 1) : c.effectiveCap ≤ 250 := by
  unfold Chip.effectiveCap
  dsimp only
  rw [if_pos (by rw [Chip.flag, h]; rfl)]
  exact Nat.min_le_right _ _

/-- R453, R454: what follows a failure of the barista once its cause and the cap are set. -/
def Chip.fallsBack (c : Chip) : Chip :=
  let c1 := c.refreshCap.inForce 9
  let c2 := if c1.fld Fld.MGT_STATE_MODE = 1 then c1.setFld Fld.MGT_STATE_MODE 0 3 else c1
  (c2.unitFault .barista 0 [] .bypassed).setFld Fld.PWR_DRIP_LEVEL 0 63

theorem Chip.baristaFailure_eq {c : Chip} (h : c.firmwareRuns = true) : c.baristaFailure =
    (((c.setBarista Barista.restarting).latchCause Cause.barista).setFld Fld.RAS_SEQ_STATUS_CAP 0 1).fallsBack :=
  if_neg (by simp [h])

/-- The fallback leaves what neither sees a register nor the power loop's notes. -/
theorem Chip.Apart.fallsBack {β : Type} {f : Chip → β} (h : Chip.Apart f)
    (hpwr : ∀ (d : Chip) (n : Nat), f (d.inForce n) = f d) (c : Chip) : f c.fallsBack = f c := by
  unfold Chip.fallsBack
  dsimp only
  rw [h.setFld, h.unitFault]
  split
  · exact (h.setFld _ _ _ _).trans ((hpwr _ 9).trans (h.setFld c _ _ _))
  · exact (hpwr _ 9).trans (h.setFld c _ _ _)

theorem Chip.seq_fallsBack (c : Chip) : c.fallsBack.rg Reg.RAS_SEQ_STATUS = c.rg Reg.RAS_SEQ_STATUS := by
  have hcap : (c.refreshCap.inForce 9).rg Reg.RAS_SEQ_STATUS = c.rg Reg.RAS_SEQ_STATUS :=
    c.rg_setFld_ne Fld.PWR_EFFECTIVE_EFF_CAP 0 _ (by decide)
  unfold Chip.fallsBack
  dsimp only
  rw [Chip.rg_setFld_ne _ _ _ _ (by decide), Chip.seq_unitFault]
  split
  · exact (Chip.rg_setFld_ne _ _ _ _ (by decide)).trans hcap
  · exact hcap

section
variable {c : Chip}

/-- The fields of the sequencer's word after the barista's failure. -/
theorem Chip.baristaFailure_word (hfirmware : c.firmwareRuns = true) (hcause : c.fld Fld.RAS_SEQ_STATUS_CAUSE = 0) :
    c.baristaFailure.fld Fld.RAS_SEQ_STATUS_BARISTA_STATE = 1 ∧ c.baristaFailure.fld Fld.RAS_SEQ_STATUS_CAUSE = 1 ∧
    c.baristaFailure.fld Fld.RAS_SEQ_STATUS_CAP = 1 := by
  have hnone : (c.setBarista Barista.restarting).fld Fld.RAS_SEQ_STATUS_CAUSE = 0 := by
    rw [Chip.setBarista, Chip.fld_setFld_apart _ _ _ _ (by rfl) (by decide) (by decide) (by decide), hcause]
  obtain ⟨-, -, hlatch⟩ := Chip.latchCause_new (c := c.setBarista Barista.restarting) (i := Cause.barista)
    (by rw [hnone]; decide)
  rw [Chip.baristaFailure_eq hfirmware]
  refine ⟨?_, ?_, ?_⟩
  · rw [Chip.fld_seq rfl (Chip.seq_fallsBack _), Chip.fld_setFld_apart _ _ _ _ (by rfl) (by decide) (by decide) (by decide),
      hlatch _ rfl (by decide), Chip.setBit, Chip.fld_setFld_apart _ _ _ _ (by rfl) (by decide) (by decide) (by decide),
      Chip.setBarista, Chip.fld_setFld_self _ _ _ _ (by decide) (by decide)]
    rfl
  · rw [Chip.fld_seq rfl (Chip.seq_fallsBack _), Chip.fld_setFld_apart _ _ _ _ (by rfl) (by decide) (by decide) (by decide),
      hlatch _ rfl (by decide), Chip.setBit, Chip.fld_setFld_self _ _ _ _ (by decide) (by decide), hnone]
    rfl
  · rw [Chip.fld_seq rfl (Chip.seq_fallsBack _), Chip.fld_setFld_self _ _ _ _ (by decide) (by decide)]
    rfl

theorem Chip.baristaFailure_pins (hfirmware : c.firmwareRuns = true) (hcause : c.fld Fld.RAS_SEQ_STATUS_CAUSE = 0) :
    c.baristaFailure.faultN = true ∧ c.baristaFailure.smbAlertN = true := by
  have hnone : (c.setBarista Barista.restarting).fld Fld.RAS_SEQ_STATUS_CAUSE = 0 := by
    rw [Chip.setBarista, Chip.fld_setFld_apart _ _ _ _ (by rfl) (by decide) (by decide) (by decide), hcause]
  obtain ⟨hfault, halert, -⟩ := Chip.latchCause_new (c := c.setBarista Barista.restarting) (i := Cause.barista)
    (by rw [hnone]; decide)
  rw [Chip.baristaFailure_eq hfirmware, apart_faultN.fallsBack fun _ _ => rfl, apart_smbAlertN.fallsBack fun _ _ => rfl]
  exact ⟨hfault, halert⟩

theorem Chip.baristaFailure_drip (hfirmware : c.firmwareRuns = true) :
    c.baristaFailure.fld Fld.PWR_DRIP_LEVEL = 63 := by
  rw [Chip.baristaFailure_eq hfirmware, Chip.fallsBack, Chip.fld_setFld_self _ _ _ _ (by decide) (by decide)]
  rfl

/-- R455: an attempt that is not the third. -/
theorem Chip.baristaAttempt_early {beats : Bool} (hstate : c.fld Fld.RAS_SEQ_STATUS_BARISTA_STATE = 1)
    (hn : c.fld Fld.RAS_SEQ_STATUS_ATTEMPTS < 2) : c.baristaAttempt beats =
      c.setFld Fld.RAS_SEQ_STATUS_ATTEMPTS 0 (c.fld Fld.RAS_SEQ_STATUS_ATTEMPTS + 1) := by
  refine (if_neg (not_not.2 hstate)).trans ?_
  dsimp only
  rw [Nat.min_eq_right (by omega)]
  exact if_neg fun h => by omega

/-- R455: the third failed attempt holds the barista. -/
theorem Chip.baristaAttempt_third (hstate : c.fld Fld.RAS_SEQ_STATUS_BARISTA_STATE = 1)
    (hn : c.fld Fld.RAS_SEQ_STATUS_ATTEMPTS = 2) : c.baristaAttempt false =
      (c.setFld Fld.RAS_SEQ_STATUS_ATTEMPTS 0 3).setFld Fld.RAS_SEQ_STATUS_BARISTA_STATE 0 2 := by
  refine (if_neg (not_not.2 hstate)).trans ?_
  rw [hn]
  exact if_pos ⟨rfl, rfl⟩

/-- R450: what stands against clearing no cause that is latched. -/
theorem Chip.keptCauses_none (hfirmware : c.firmwareRuns = true)
    (hthermal : bit (c.fld Fld.RAS_SEQ_STATUS_CAUSE) Cause.thermal = false) (hlim : c.fld Fld.LCE_PCRC_LIMIT_LIMIT = 0) :
    c.keptCauses = 0 := by
  simp [Chip.keptCauses, hfirmware, hthermal, hlim]

/-- R450, R455: RELEASE where nothing is kept. -/
theorem Chip.releaseCauses_eq (hkept : c.keptCauses = 0) (hfirmware : c.firmwareRuns = true) (hrun : c.stopped = false) :
    c.releaseCauses = { (((((c.setFld Fld.RAS_SEQ_STATUS_CAUSE 0 0).setFld Fld.RAS_SEQ_STATUS_ATTEMPTS 0 0).setFld
      Fld.RAS_SEQ_STATUS_CAP 0 0).refreshCap).setFld Fld.RAS_SEQ_STATUS_FAULT 0 0) with
        faultN := false, smbAlertN := false } := by
  unfold Chip.releaseCauses
  dsimp only
  rw [hkept, if_pos hfirmware]
  exact if_pos ⟨rfl, by rw [hrun]; rfl⟩

/-- The fields of the sequencer's word after such a RELEASE. -/
theorem Chip.releaseCauses_word (hkept : c.keptCauses = 0) (hfirmware : c.firmwareRuns = true) (hrun : c.stopped = false) :
    c.releaseCauses.fld Fld.RAS_SEQ_STATUS_CAUSE = 0 ∧ c.releaseCauses.fld Fld.RAS_SEQ_STATUS_CAP = 0 ∧
    c.releaseCauses.fld Fld.RAS_SEQ_STATUS_ATTEMPTS = 0 := by
  have hword : ∀ f : Fld, f.base = Reg.RAS_SEQ_STATUS → (f.hi < 8 ∨ 8 < f.lo) → c.releaseCauses.fld f =
      (((c.setFld Fld.RAS_SEQ_STATUS_CAUSE 0 0).setFld Fld.RAS_SEQ_STATUS_ATTEMPTS 0 0).setFld
        Fld.RAS_SEQ_STATUS_CAP 0 0).fld f := fun f hf hapart => by
    have hregs : c.releaseCauses.regs = (((((c.setFld Fld.RAS_SEQ_STATUS_CAUSE 0 0).setFld
        Fld.RAS_SEQ_STATUS_ATTEMPTS 0 0).setFld Fld.RAS_SEQ_STATUS_CAP 0 0).refreshCap).setFld
        Fld.RAS_SEQ_STATUS_FAULT 0 0).regs := by rw [Chip.releaseCauses_eq hkept hfirmware hrun]
    rw [Chip.fld_congr hregs, Chip.fld_setFld_apart _ f Fld.RAS_SEQ_STATUS_FAULT 0 (by exact hf) (by decide) (by decide) hapart]
    exact Chip.fld_seq hf (Chip.rg_setFld_ne _ _ _ _ (by decide))
  refine ⟨?_, ?_, ?_⟩
  · rw [hword _ rfl (by decide), Chip.fld_setFld_apart _ _ _ _ (by rfl) (by decide) (by decide) (by decide),
      Chip.fld_setFld_apart _ _ _ _ (by rfl) (by decide) (by decide) (by decide),
      Chip.fld_setFld_self _ _ _ _ (by decide) (by decide)]
    rfl
  · rw [hword _ rfl (by decide), Chip.fld_setFld_self _ _ _ _ (by decide) (by decide)]
    rfl
  · rw [hword _ rfl (by decide), Chip.fld_setFld_apart _ _ _ _ (by rfl) (by decide) (by decide) (by decide),
      Chip.fld_setFld_self _ _ _ _ (by decide) (by decide)]
    rfl

end

/-- A command of the always-on domain from the host leaves what its function says, where the host is up. -/
theorem ran_hostAlways {i : Instr} {s : State} (f : Chip → Chip) {d : Chip} (hup : HostUp s)
    (hi : exec i s = onHostAlways f s) (hd : f s.chip = d) : Ran i s d := hd ▸ hi.trans (onHostAlways_up hup f)

/-- Settles O50: the sequencer's failure, attempts, RETRY, FORCE, RELEASE and heartbeat. -/
theorem safetySequencer : Obligations.safety_sequencer := by
  unfold Obligations.safety_sequencer
  refine fun s => ⟨?_, ?_, ?_, ?_, ?_, ?_, ?_⟩
  · intro hfirmware hcause
    obtain ⟨hstate, hlatched, hcap⟩ := Chip.baristaFailure_word hfirmware hcause
    obtain ⟨hfault, halert⟩ := Chip.baristaFailure_pins hfirmware hcause
    exact ⟨_, ran_always Chip.baristaFailure rfl rfl, hstate, hfault, halert, by rw [hlatched]; rfl, hcap,
      Chip.effectiveCap_le hcap, Chip.baristaFailure_drip hfirmware⟩
  · exact fun beats hstate hn =>
      ran_always (fun c => c.baristaAttempt beats) rfl (Chip.baristaAttempt_early hstate hn)
  · exact fun hstate hn => ran_always (fun c => c.baristaAttempt false) rfl (Chip.baristaAttempt_third hstate hn)
  · intro hup hheld
    have hexec : exec .retry s = execRetry s := rfl
    refine ran_hostAlways _ hup (hexec.trans (by rw [execRetry])) ?_
    exact if_pos hheld
  · intro hup hcause
    obtain ⟨hfault, -, hword⟩ := Chip.latchCause_new (c := s.chip) (i := Cause.software) (by rw [hcause]; decide)
    refine ⟨_, ran_hostAlways (fun c => c.latchCause Cause.software) hup rfl rfl, hfault, ?_⟩
    rw [hword _ rfl (by decide), Chip.setBit, Chip.fld_setFld_self _ _ _ _ (by decide) (by decide), hcause]
    rfl
  · intro hup hfirmware hthermal hlim
    have hkept := Chip.keptCauses_none hfirmware hthermal hlim
    obtain ⟨hcause, hcap, hattempts⟩ := Chip.releaseCauses_word hkept hfirmware hup.1
    refine ⟨_, ran_hostAlways Chip.releaseCauses hup rfl rfl, ?_, ?_, hcause, hcap, hattempts⟩
    · rw [Chip.releaseCauses_eq hkept hfirmware hup.1]
    · rw [Chip.releaseCauses_eq hkept hfirmware hup.1]
  · exact fun v => ran_always (fun c => c.setRg Reg.RAS_HB v) rfl rfl

end Sys2Proof.Machine

/-! ## The commands of the mailbox (R477, R489 to R491) -/

namespace Sys2Proof.Machine

/-- R490: the chip that a served command is checked on: REFUSED is cleared and the device is awake. -/
def Chip.mgtReady (c : Chip) : Chip := (c.setFld Fld.MGT_STATUS_REFUSED 0 0).wakeDevice

/-- R489: the chip with the operation of a command running, its arguments latched. -/
def Chip.mgtBegins (c : Chip) (code : Nat) : Chip := c.mgtReady.beginOp { code := code, args := c.mgtReady.mgtArgs }

/-- Waking the device changes the word of the device's power state alone. -/
theorem Chip.fld_mgtReady (c : Chip) {f : Fld} (hstatus : f.base ≠ Reg.MGT_STATUS) (hstate : f.base ≠ Reg.PWR_DEVSTATE) :
    c.mgtReady.fld f = c.fld f := by
  have hcleared : (c.setFld Fld.MGT_STATUS_REFUSED 0 0).fld f = c.fld f :=
    c.fld_setFld_ne f Fld.MGT_STATUS_REFUSED 0 0 0 hstatus
  unfold Chip.mgtReady
  generalize c.setFld Fld.MGT_STATUS_REFUSED 0 0 = d at hcleared
  refine Eq.trans ?_ hcleared
  unfold Chip.wakeDevice
  split
  · rfl
  · exact d.fld_setFld_ne f Fld.PWR_DEVSTATE_STATE 0 0 3 hstate
  · rfl

section
variable {c : Chip} {code : Nat} {normal rescue : Bool} {check : Chip → Option Nat} {start : Chip → Chip}

/-- R490: a command that comes while an operation runs, or with the barista down, is refused. -/
theorem Chip.mgtStart_refused (hen : c.fnEnabled 0 = true)
    (h : c.mgtServed = false ∨ c.flag Fld.MGT_STATUS_BUSY = true) :
    Chip.mgtStart code normal rescue check start c = c.refuseMgt :=
  (if_neg (by simp [hen])).trans (if_pos (h.imp_left fun h => by simp [h]))

variable (hen : c.fnEnabled 0 = true) (hserved : c.mgtServed = true) (hidle : c.flag Fld.MGT_STATUS_BUSY = false)
include hen hserved hidle

theorem Chip.mgtStart_served : Chip.mgtStart code normal rescue check start c =
    if !(if c.mgtReady.inRescue then rescue else normal) then c.mgtReady.finishOp Res.badCommand []
    else match check c.mgtReady with
      | some r => c.mgtReady.finishOp r []
      | none => start (c.mgtBegins code) :=
  (if_neg (by simp [hen])).trans (if_neg (by simp [hserved, hidle]))

/-- R491: a command that the mode does not allow ends at once. -/
theorem Chip.mgtStart_mode (h : (if c.mgtReady.inRescue then rescue else normal) = false) :
    Chip.mgtStart code normal rescue check start c = c.mgtReady.finishOp Res.badCommand [] :=
  (Chip.mgtStart_served hen hserved hidle).trans (if_pos (by rw [h]; rfl))

/-- R491: a command whose conditions fail ends at once. -/
theorem Chip.mgtStart_fails {r : Nat} (h : (if c.mgtReady.inRescue then rescue else normal) = true)
    (hcheck : check c.mgtReady = some r) :
    Chip.mgtStart code normal rescue check start c = c.mgtReady.finishOp r [] := by
  rw [Chip.mgtStart_served hen hserved hidle, if_neg (by simp [h]), hcheck]

/-- R489: any other latches its arguments and is the operation that runs. -/
theorem Chip.mgtStart_begins (h : (if c.mgtReady.inRescue then rescue else normal) = true)
    (hcheck : check c.mgtReady = none) :
    Chip.mgtStart code normal rescue check start c = start (c.mgtBegins code) := by
  rw [Chip.mgtStart_served hen hserved hidle, if_neg (by simp [h]), hcheck]

end

theorem orElse_ok {ok : Bool} (h : ok = true) (r : Nat) : orElse ok r = none := by
  rw [h]
  rfl

theorem orElse_fails {ok : Bool} (h : ok = false) (r : Nat) : orElse ok r = some r := by
  rw [h]
  rfl

/-! ### PROVISION -/

section
variable {nv : NonVol} {c : Chip}

theorem mgtProvision_unlocked (h : c.provisionLocked = false) : mgtProvision nv c =
    Chip.mgtStart 0x60 false true
      (fun c => orElse (!c.flag Fld.SEC_LOCK_LOCK && nv.keeps (nv.revokedWith c)) Res.notAllowed) id c :=
  if_neg (ne_true_of_eq_false h)

theorem mgtProvision_locked (h : c.provisionLocked = true) : mgtProvision nv c =
    (Chip.mgtStart 0x60 false true
      (fun c => orElse (!c.flag Fld.SEC_LOCK_LOCK && nv.keeps (nv.revokedWith c)) Res.notAllowed) id c).regError Reg.MGT_CMD :=
  if_pos h

theorem Chip.inRescue_mgtReady (c : Chip) : c.mgtReady.inRescue = c.inRescue :=
  congrArg (· == 2) (c.fld_mgtReady (f := Fld.MGT_STATE_MODE) (by decide) (by decide))

theorem Chip.lock_mgtReady (c : Chip) : c.mgtReady.flag Fld.SEC_LOCK_LOCK = c.flag Fld.SEC_LOCK_LOCK :=
  congrArg (· != 0) (c.fld_mgtReady (f := Fld.SEC_LOCK_LOCK) (by decide) (by decide))

end

theorem ran_provision {s : State} {c1 : Chip} (hl : Live s) (hd : mgtProvision s.nv s.chip = c1) : Ran .provision s c1 :=
  ran_both_of (fun nv c => (nv, mgtProvision nv c)) hl rfl (congrArg (Prod.mk s.nv) hd)

/-! ### What each command is -/

/-- R491: the commands that are the mailbox's in the general form. -/
def mgtCommands : List Instr :=
  [.info, .ledgerRead, .ledgerReset, .rescue, .fwBegin, .fwData, .fwEnd, .fwActivate, .fwCancel,
    .calWrite, .calExport, .calImport, .memRetrain, .testFull, .ageMeasure, .ageReplan]

/-- R491: those of them that rescue mode does not allow. -/
def normalCommands : List Instr :=
  [.rescue, .calWrite, .calExport, .calImport, .memRetrain, .testFull, .ageMeasure, .ageReplan]

theorem mgtCommands_start : ∀ i ∈ mgtCommands, ∃ code normal rescue check start, ∀ s,
    exec i s = onChip (Chip.mgtStart code normal rescue check start) s := by
  simp only [mgtCommands, List.forall_mem_cons]
  exact ⟨⟨_, _, _, _, _, fun _ => rfl⟩, ⟨_, _, _, _, _, fun _ => rfl⟩, ⟨_, _, _, _, _, fun _ => rfl⟩,
    ⟨_, _, _, _, _, fun _ => rfl⟩, ⟨_, _, _, _, _, fun _ => rfl⟩, ⟨_, _, _, _, _, fun _ => rfl⟩,
    ⟨_, _, _, _, _, fun _ => rfl⟩, ⟨_, _, _, _, _, fun _ => rfl⟩, ⟨_, _, _, _, _, fun _ => rfl⟩,
    ⟨_, _, _, _, _, fun _ => rfl⟩, ⟨_, _, _, _, _, fun _ => rfl⟩, ⟨_, _, _, _, _, fun _ => rfl⟩,
    ⟨_, _, _, _, _, fun _ => rfl⟩, ⟨_, _, _, _, _, fun _ => rfl⟩, ⟨_, _, _, _, _, fun _ => rfl⟩,
    ⟨_, _, _, _, _, fun _ => rfl⟩, List.forall_mem_nil _⟩

theorem normalCommands_start : ∀ i ∈ normalCommands, ∃ code normal check start, ∀ s,
    exec i s = onChip (Chip.mgtStart code normal false check start) s := by
  simp only [normalCommands, List.forall_mem_cons]
  exact ⟨⟨_, _, _, _, fun _ => rfl⟩, ⟨_, _, _, _, fun _ => rfl⟩, ⟨_, _, _, _, fun _ => rfl⟩, ⟨_, _, _, _, fun _ => rfl⟩,
    ⟨_, _, _, _, fun _ => rfl⟩, ⟨_, _, _, _, fun _ => rfl⟩, ⟨_, _, _, _, fun _ => rfl⟩, ⟨_, _, _, _, fun _ => rfl⟩,
    List.forall_mem_nil _⟩

/-! ### The clauses of O54 -/

section
variable {s : State} (hl : Live s) (hen : s.chip.fnEnabled 0 = true)
include hl hen

theorem ran_mgt_refused (h : s.chip.mgtServed = false ∨ s.chip.flag Fld.MGT_STATUS_BUSY = true) :
    (∀ i ∈ mgtCommands, Ran i s s.chip.refuseMgt) ∧ Ran .provision s s.chip.refuseMgt := by
  refine ⟨fun i hi => ?_, ran_provision hl ((mgtProvision_unlocked ?_).trans (Chip.mgtStart_refused hen h))⟩
  · obtain ⟨code, normal, rescue, check, start, hexec⟩ := mgtCommands_start i hi
    exact ran_chip _ hl (hexec s) (Chip.mgtStart_refused hen h)
  · obtain h | h := h
    · simp [Chip.provisionLocked, h]
    · simp [Chip.provisionLocked, h]

variable (hserved : s.chip.mgtServed = true) (hidle : s.chip.flag Fld.MGT_STATUS_BUSY = false)
include hserved hidle

/-- A command that either mode allows. -/
theorem ran_mgt_both {i : Instr} {code : Nat} {check : Chip → Option Nat} {start : Chip → Chip}
    (hexec : exec i s = onChip (Chip.mgtStart code true true check start) s) :
    (check s.chip.mgtReady = none → Ran i s (start (s.chip.mgtBegins code))) ∧
    (∀ r, check s.chip.mgtReady = some r → Ran i s (s.chip.mgtReady.finishOp r [])) :=
  ⟨fun h => ran_chip _ hl hexec (Chip.mgtStart_begins hen hserved hidle (ite_self true) h),
    fun _ h => ran_chip _ hl hexec (Chip.mgtStart_fails hen hserved hidle (ite_self true) h)⟩

/-- A command of the normal mode. -/
theorem ran_mgt_normal {i : Instr} {code : Nat} {rescue : Bool} {check : Chip → Option Nat} {start : Chip → Chip}
    (hexec : exec i s = onChip (Chip.mgtStart code true rescue check start) s) (hmode : s.chip.mgtReady.inRescue = false)
    (hcheck : check s.chip.mgtReady = none) : Ran i s (start (s.chip.mgtBegins code)) :=
  ran_chip _ hl hexec (Chip.mgtStart_begins hen hserved hidle (by rw [hmode]; rfl) hcheck)

/-- R491: in rescue mode the commands of the normal mode end with BAD_COMMAND. -/
theorem ran_mgt_rescue (hmode : s.chip.mgtReady.inRescue = true) :
    ∀ i ∈ normalCommands, Ran i s (s.chip.mgtReady.finishOp Res.badCommand []) := fun i hi => by
  obtain ⟨code, normal, check, start, hexec⟩ := normalCommands_start i hi
  exact ran_chip _ hl (hexec s) (Chip.mgtStart_mode hen hserved hidle (by rw [hmode]; rfl))

theorem ran_provision_normal (hmode : s.chip.mgtReady.inRescue = false) (hlock : s.chip.flag Fld.SEC_LOCK_LOCK = false) :
    Ran .provision s (s.chip.mgtReady.finishOp Res.badCommand []) :=
  ran_provision hl ((mgtProvision_unlocked (by simp [Chip.provisionLocked, hlock])).trans
    (Chip.mgtStart_mode hen hserved hidle (by rw [hmode]; rfl)))

/-- R477, R491: PROVISION in rescue mode, by SEC_LOCK. -/
theorem ran_provision_rescue (hmode : s.chip.mgtReady.inRescue = true) :
    (s.chip.flag Fld.SEC_LOCK_LOCK = false → s.nv.keeps (s.nv.revokedWith s.chip.mgtReady) = true →
      Ran .provision s (s.chip.mgtBegins 0x60)) ∧
    (s.chip.flag Fld.SEC_LOCK_LOCK = true →
      Ran .provision s ((s.chip.mgtReady.finishOp Res.notAllowed []).regError Reg.MGT_CMD)) := by
  have hrescue : s.chip.inRescue = true := s.chip.inRescue_mgtReady.symm.trans hmode
  refine ⟨fun hlock hkeeps => ran_provision hl ?_, fun hlock => ran_provision hl ?_⟩
  · refine (mgtProvision_unlocked (by simp [Chip.provisionLocked, hlock])).trans
      (Chip.mgtStart_begins hen hserved hidle (by rw [hmode]; rfl) (orElse_ok ?_ _))
    rw [Chip.lock_mgtReady, hlock, hkeeps]
    rfl
  · refine (mgtProvision_locked (by simp [Chip.provisionLocked, hlock, hen, hserved, hidle, hrescue])).trans ?_
    refine congrArg (Chip.regError · Reg.MGT_CMD) (Chip.mgtStart_fails hen hserved hidle (by rw [hmode]; rfl)
      (orElse_fails ?_ _))
    rw [Chip.lock_mgtReady, hlock]
    rfl

end

/-- Settles O54: a command of the mailbox begins, is refused, or ends at once. -/
theorem mailboxCommands : Obligations.mailbox_commands := by
  unfold Obligations.mailbox_commands
  intro s hl hen all c1 begins arg
  refine ⟨fun h => ran_mgt_refused hl hen h, fun hserved hidle => ?_⟩
  have hboth {i : Instr} {code : Nat} {check : Chip → Option Nat} {start : Chip → Chip}
      (hexec : exec i s = onChip (Chip.mgtStart code true true check start) s) :=
    ran_mgt_both hl hen hserved hidle hexec
  refine ⟨(hboth (i := .info) rfl).1 rfl, fun h => (hboth (i := .ledgerRead) rfl).1 (orElse_ok (decide_eq_true h) _),
    fun h => (hboth (i := .ledgerRead) rfl).2 _ (orElse_fails (decide_eq_false (Nat.not_le.mpr h)) _),
    (hboth (i := .ledgerReset) rfl).1 rfl, fun h => (hboth (i := .fwBegin) rfl).1 (orElse_ok h _),
    fun h => (hboth (i := .fwBegin) rfl).2 _ (orElse_fails h _),
    fun hopen hok => (hboth (i := .fwData) rfl).1 ((if_neg ?_).trans (orElse_ok hok _)),
    fun hopen => (hboth (i := .fwEnd) rfl).1 (orElse_ok (Option.isSome_iff_ne_none.mpr hopen) _),
    fun hnone => ⟨(hboth (i := .fwData) rfl).2 _ (if_pos (Option.isNone_iff_eq_none.mpr hnone)),
      (hboth (i := .fwEnd) rfl).2 _ (orElse_fails ?_ _)⟩,
    fun h => (hboth (i := .fwActivate) rfl).1 (orElse_ok h _), (hboth (i := .fwCancel) rfl).1 rfl,
    fun hmode => ?_, fun hmode => ⟨ran_mgt_rescue hl hen hserved hidle hmode, ran_provision_rescue hl hen hserved hidle hmode⟩⟩
  · rw [Option.isNone_iff_eq_none]
    exact hopen
  · rw [show s.chip.mgtReady.mgtSession = none from hnone]
    rfl
  · have hnormal {i : Instr} {code : Nat} {rescue : Bool} {check : Chip → Option Nat} {start : Chip → Chip}
        (hexec : exec i s = onChip (Chip.mgtStart code true rescue check start) s)
        (hcheck : check s.chip.mgtReady = none) : Ran i s (start (s.chip.mgtBegins code)) :=
      ran_mgt_normal hl hen hserved hidle hexec hmode hcheck
    refine ⟨hnormal (i := .rescue) rfl rfl, fun h => hnormal (i := .calWrite) rfl (orElse_ok h _),
      hnormal (i := .calExport) rfl rfl, fun h96 h => hnormal (i := .calImport) rfl (orElse_ok ?_ _),
      fun hmask halone hzero => hnormal (i := .memRetrain) rfl ((if_neg ?_).trans (orElse_ok ?_ _)),
      hnormal (i := .testFull) rfl rfl, hnormal (i := .ageMeasure) rfl rfl, hnormal (i := .ageReplan) rfl rfl,
      ran_provision_normal hl hen hserved hidle hmode⟩
    · exact Bool.and_eq_true_iff.mpr ⟨decide_eq_true h96, h⟩
    · rw [show s.chip.mgtReady.maskOk = true from hmask]
      decide
    · exact Bool.and_eq_true_iff.mpr ⟨halone, hzero⟩

end Sys2Proof.Machine

/-! ## The endpoint on the SMBus -/

namespace Sys2Proof.Machine

/-! ### What an answered request leaves -/

theorem smbusAnswer_down (f : NonVol → Chip → NonVol × Chip × List Nat) (nv : NonVol) {c : Chip} (h : c.smbusUp = false) :
    smbusAnswer f nv c = (nv, c) := if_pos (by simp [h])

theorem smbusAnswer_up (f : NonVol → Chip → NonVol × Chip × List Nat) (nv : NonVol) {c : Chip} (h : c.smbusUp = true) :
    smbusAnswer f nv c = ((f nv c).1, (f nv c).2.1.emit (.response (f nv c).2.2)) := if_neg (by simp [h])

section
variable {i : Instr} {s : State} (hl : Live s)
include hl

theorem ran_smbus_down (f : NonVol → Chip → NonVol × Chip × List Nat) (h : s.chip.smbusUp = false)
    (hi : exec i s = onBoth (smbusAnswer f) s) : Ran i s s.chip := ran_both_of _ hl hi (smbusAnswer_down f _ h)

theorem ranNv_smbus (f : NonVol → Chip → NonVol × Chip × List Nat) {nv : NonVol} {c : Chip} {r : List Nat}
    (h : s.chip.smbusUp = true) (hi : exec i s = onBoth (smbusAnswer f) s) (hf : f s.nv s.chip = (nv, c, r)) :
    RanNv i s nv (c.emit (.response r)) :=
  ranNv_both_of _ hl hi ((smbusAnswer_up f _ h).trans (by rw [hf]))

theorem ran_smbus (f : NonVol → Chip → NonVol × Chip × List Nat) {c : Chip} {r : List Nat} (h : s.chip.smbusUp = true)
    (hi : exec i s = onBoth (smbusAnswer f) s) (hf : f s.nv s.chip = (s.nv, c, r)) : Ran i s (c.emit (.response r)) :=
  ranNv_smbus hl f h hi hf

theorem ran_smbusRead (f : NonVol → Chip → List Nat) {r : List Nat} (h : s.chip.smbusUp = true)
    (hi : exec i s = smbusRead f s) (hf : f s.nv s.chip = r) : Ran i s (s.chip.emit (.response r)) :=
  ran_smbus hl (fun nv c => (nv, c, f nv c)) h hi (by rw [hf])

theorem ranNv_smbusEngine (f : NonVol → Chip → NonVol × Chip × List Nat) {nv : NonVol} {c : Chip} {r : List Nat}
    (h : s.chip.smbusUp = true) (hbusy : s.chip.flag Fld.MGT_STATUS_BUSY = false) (hi : exec i s = smbusEngine f s)
    (hf : f s.nv s.chip = (nv, c, r)) : RanNv i s nv (c.emit (.response r)) :=
  ranNv_smbus hl _ h hi ((if_neg (by simp [hbusy])).trans hf)

theorem ran_smbusEngine (f : NonVol → Chip → NonVol × Chip × List Nat) {c : Chip} {r : List Nat} (h : s.chip.smbusUp = true)
    (hbusy : s.chip.flag Fld.MGT_STATUS_BUSY = false) (hi : exec i s = smbusEngine f s)
    (hf : f s.nv s.chip = (s.nv, c, r)) : Ran i s (c.emit (.response r)) := ranNv_smbusEngine hl f h hbusy hi hf

end

/-! ### Sensors -/

theorem Chip.numericSensor_temperature (c : Chip) {i : Nat} (h : i < 19) :
    c.numericSensor i = some (c.fld Fld.PWR_THERM_TEMP (steer i)) := if_pos h

section
variable {s : State} (hl : Live s) (hup : s.chip.smbusUp = true)
include hl hup

theorem ran_getsensorreading {id : Half} {v : Nat} (h : s.chip.numericSensor id.toNat = some v) :
    Ran (.getsensorreading id) s (s.chip.emit (.response [0, v])) :=
  ran_smbusRead hl (fun _ c => match c.numericSensor id.toNat with
    | some v => [Cc.success, v]
    | none => [Cc.invalidSensor]) hup rfl (by simp only [h, Cc.success])

/-- The record of a handle names the next one: its successor, or 0 behind the last. -/
theorem ran_getpdr {h : Word} (hpos : 0 < h.toNat) (hle : h.toNat ≤ 29) :
    Ran (.getpdr h) s (s.chip.emit (.response
      [0, if h.toNat = 29 then 0 else h.toNat + 1, h.toNat - 1, b2n (s.chip.numericSensor (h.toNat - 1)).isSome])) := by
  have hne : h ≠ 0 := by rintro rfl; exact absurd hpos (by decide)
  refine ran_smbusRead hl (fun _ c =>
    let h := if h = 0 then 1 else h.toNat
    if h > sensorCount then [Cc.invalidData]
    else [Cc.success, if h = sensorCount then 0 else h + 1, h - 1, b2n (c.numericSensor (h - 1)).isSome]) hup rfl ?_
  dsimp only
  rw [if_neg hne]
  exact if_neg (Nat.not_lt.2 hle)

theorem ran_getpdr_beyond {h : Word} (hgt : 29 < h.toNat) :
    Ran (.getpdr h) s (s.chip.emit (.response [Cc.invalidData])) := by
  have hne : h ≠ 0 := by rintro rfl; exact absurd hgt (by decide)
  refine ran_smbusRead hl (fun _ c =>
    let h := if h = 0 then 1 else h.toNat
    if h > sensorCount then [Cc.invalidData]
    else [Cc.success, if h = sensorCount then 0 else h + 1, h - 1, b2n (c.numericSensor (h - 1)).isSome]) hup rfl ?_
  dsimp only
  rw [if_neg hne]
  exact if_pos hgt

end

/-! ### The firmware update -/

theorem FdState.ne_of_eq_of_ne {a b c : FdState} (h : a = b) (hne : b ≠ c) : a ≠ c := h ▸ hne

section
variable {nv : NonVol} {c : Chip}

theorem Chip.inFd_idle {st : FdState} (f : Chip → Chip × List Nat) (h : c.mgt.fd = .idle) :
    c.inFd st f = (c, [Cc.notInUpdateMode]) := if_pos h

theorem Chip.inFd_of {st : FdState} (f : Chip → Chip × List Nat) (hne : st ≠ .idle) (h : c.mgt.fd = st) :
    c.inFd st f = f c := by
  unfold Chip.inFd
  rw [if_neg (h ▸ hne), if_neg (not_not.2 h)]

theorem NonVol.flashByte_eraseSet_ne (nv : NonVol) {set a : Nat} (h : a / 0x1800000 ≠ set) :
    (nv.eraseSet set).flashByte a = nv.flashByte a := by
  have hkept : KMap.find a (nv.eraseSet set).flash = KMap.find a nv.flash :=
    KMap.find_drop_of_not (f := fun a => a / 0x1800000 == set) (by simpa using h) nv.flash
  simp only [NonVol.flashByte, KMap.getD, hkept]

theorem requestUpdate_open (hs : c.mgtSession ≠ none) : requestUpdate nv c = (nv, c, [Cc.alreadyInUpdateMode]) :=
  if_pos (.inl (Option.isSome_iff_ne_none.2 hs))

theorem requestUpdate_begins (hs : c.mgtSession = none) (hfd : c.mgt.fd = .idle) :
    requestUpdate nv c = (nv.eraseSet (1 - c.fld Fld.MGT_STATE_RUN_SET),
      { c with mgt := { c.mgt with
          fd := .learn, staging := some { set := 1 - c.fld Fld.MGT_STATE_RUN_SET, pldm := true } } }, [0]) :=
  if_neg (by simp [hs, hfd])

theorem Chip.runSet_ne_other (c : Chip) : c.fld Fld.MGT_STATE_RUN_SET ≠ 1 - c.fld Fld.MGT_STATE_RUN_SET := by
  have hbit : c.fld Fld.MGT_STATE_RUN_SET < 2 := wbits_lt _ 7 7
  omega

theorem Chip.mayBeginFw_of_update (h : c.mgt.fd ≠ .idle) : c.mayBeginFw = false := by
  have : (c.mgt.fd == FdState.idle) = false := by simpa using h
  simp [Chip.mayBeginFw, this]

theorem reportStep_eq {a b : FdState} {good : NonVol → Chip → Bool} {g : Bool} (hup : c.smbusUp = true) (hfd : c.mgt.fd = a)
    (hbusy : c.flag Fld.MGT_STATUS_BUSY = false) (hgood : good nv c = g) : reportStep a b good nv c =
      (nv, (c.setFd (if g then b else .ready)).emit (.response [a.code, b2n g])) :=
  hgood ▸ if_neg (by simp [hup, hfd, hbusy])

theorem Chip.takePiece_good {typ off : Nat} {piece : List Byte} (hup : c.smbusUp = true)
    (hbusy : c.flag Fld.MGT_STATUS_BUSY = false) (hfd : c.mgt.fd = .download) (htyp : c.mgt.fdTyp = typ)
    (hok : pieceOk typ off piece.length = true) : c.takePiece typ off piece =
      c.beginOp { code := 0xF2, args := ((imageAt 0 typ).1 + off) :: piece.map BitVec.toNat } :=
  if_neg (by simp [hup, hfd, hbusy, htyp, hok])

theorem activateFirmware_selfContained {st : Staging} (hst : c.mgt.staging = some st) (hfd : c.mgt.fd = .ready) :
    activateFirmware true nv c = (nv, c, [Cc.selfContained]) := by
  unfold activateFirmware
  rw [hst, hfd]
  rfl

theorem Chip.mgt_showLedger (c : Chip) (nv : NonVol) : (c.showLedger nv).mgt = c.mgt := rfl

theorem ledger_activateSet (nv : NonVol) (c : Chip) (set : Nat) : (activateSet true set nv c).1.ledger =
    { nv.ledger with
      seq := nv.ledger.seq + 1, prefSet := set
      decision := nv.ledger.decision &&& (0xFFFFFFFF ^^^ (2 ^ 5 + 2 ^ 8 + 2 ^ 14)) } := NonVol.ledger_modLedger nv _

theorem activateFirmware_good {st : Staging} (hst : c.mgt.staging = some st) (hfd : c.mgt.fd = .ready)
    (hbad : nv.badImage st.set = none) (hsame : nv.sameFwId st.set = true) :
    ∃ nv' d, activateFirmware false nv c = (nv', d, [0]) ∧ nv'.ledger.prefSet = st.set ∧
      nv'.ledger.runSet = nv.ledger.runSet ∧ d.mgt.fd = .idle ∧ d.mgt.staging = none := by
  have hrun : activateFirmware false nv c = ((activateSet true st.set nv (c.setFd .idle)).1,
      (activateSet true st.set nv (c.setFd .idle)).2.1, [0]) := by
    unfold activateFirmware
    rw [hst, hfd]
    exact (if_neg FdState.noConfusion).trans ((if_neg (not_not.2 rfl)).trans
      ((if_neg Bool.false_ne_true).trans (if_neg (by simp [hbad, hsame]))))
  have hledger := ledger_activateSet nv (c.setFd .idle) st.set
  exact ⟨_, _, hrun, by rw [hledger], by rw [hledger], rfl, rfl⟩

theorem cancelUpdate_open {st : Staging} (hst : c.mgt.staging = some st) (hfd : c.mgt.fd ≠ .idle) :
    cancelUpdate nv c = (nv.eraseSet st.set, { c with mgt := { c.mgt with fd := .idle, staging := none } }, [0]) := by
  unfold cancelUpdate
  rw [hst]
  exact if_neg hfd

end

section
variable {s : State} (hl : Live s) (hup : s.chip.smbusUp = true)
include hl hup

theorem ran_setEndpointId (eid : Byte) (h0 : eid ≠ 0) (h1 : eid ≠ 0xFF) : Ran (.setEndpointId eid) s
    (({ s.chip with mgt := { s.chip.mgt with eid := eid.toNat } } : Chip).emit (.response [0, 0, eid.toNat])) := by
  refine ran_smbus hl (fun nv c => if eid = 0 ∨ eid = 0xFF then (nv, c, [Cc.invalidData])
    else (nv, { c with mgt := { c.mgt with eid := eid.toNat } }, [Cc.success, 0, eid.toNat])) hup rfl ?_
  exact if_neg (not_or.2 ⟨h0, h1⟩)

theorem ran_setEndpointId_refused (eid : Byte) (h : eid = 0 ∨ eid = 0xFF) : Ran (.setEndpointId eid) s
    (s.chip.emit (.response [Cc.invalidData])) := by
  refine ran_smbus hl (fun nv c => if eid = 0 ∨ eid = 0xFF then (nv, c, [Cc.invalidData])
    else (nv, { c with mgt := { c.mgt with eid := eid.toNat } }, [Cc.success, 0, eid.toNat])) hup rfl ?_
  exact if_pos h

theorem ran_passcomponenttable_idle (last : Bool) (h : s.chip.mgt.fd = .idle) :
    Ran (.passcomponenttable last) s (s.chip.emit (.response [Cc.notInUpdateMode])) :=
  ran_smbus hl (fun nv c => (nv, c.inFd .learn fun c => (if last then c.setFd .ready else c, [Cc.success]))) hup rfl
    (congrArg (Prod.mk s.nv) (Chip.inFd_idle _ h))

theorem ran_passcomponenttable (last : Bool) (h : s.chip.mgt.fd = .learn) :
    Ran (.passcomponenttable last) s ((if last then s.chip.setFd .ready else s.chip).emit (.response [0])) :=
  ran_smbus hl (fun nv c => (nv, c.inFd .learn fun c => (if last then c.setFd .ready else c, [Cc.success]))) hup rfl
    (congrArg (Prod.mk s.nv) (Chip.inFd_of _ (by decide) h))

theorem ran_updatecomponent {typ : BitVec 2} (htyp : typ ≠ 3) (h : s.chip.mgt.fd = .ready) : Ran (.updatecomponent typ) s
    (({ s.chip with mgt := { s.chip.mgt with fd := .download, fdTyp := typ.toNat } } : Chip).emit (.response [0])) :=
  ran_smbus hl (fun nv c => (nv, c.inFd .ready fun c => if typ = 3 then (c, [Cc.invalidData])
      else ({ c with mgt := { c.mgt with fd := .download, fdTyp := typ.toNat } }, [Cc.success]))) hup rfl
    (congrArg (Prod.mk s.nv) ((Chip.inFd_of _ (by decide) h).trans (if_neg htyp)))

theorem ran_requestfirmwaredata {typ : BitVec 2} {off : Word} {piece : List Byte}
    (hbusy : s.chip.flag Fld.MGT_STATUS_BUSY = false) (hfd : s.chip.mgt.fd = .download)
    (htyp : s.chip.mgt.fdTyp = typ.toNat) (hok : pieceOk typ.toNat off.toNat piece.length = true) :
    Ran (.requestfirmwaredata typ off piece) s
      (s.chip.beginOp { code := 0xF2, args := ((imageAt 0 typ.toNat).1 + off.toNat) :: piece.map BitVec.toNat }) :=
  ran_chip (fun c => c.takePiece typ.toNat off.toNat piece) hl rfl (Chip.takePiece_good hup hbusy hfd htyp hok)

theorem ran_verifycomplete {st : Staging} {good : Bool} (hbusy : s.chip.flag Fld.MGT_STATUS_BUSY = false)
    (hfd : s.chip.mgt.fd = .verify) (hst : s.chip.mgt.staging = some st)
    (hgood : (s.nv.verify st.set s.chip.mgt.fdTyp == 0) = good) : Ran .verifycomplete s
      ((s.chip.setFd (if good then .apply else .ready)).emit (.response [4, b2n good])) := by
  refine ran_both_of (reportStep .verify .apply fun nv c => match c.mgt.staging with
    | some st => nv.verify st.set c.mgt.fdTyp == 0
    | none => false) hl rfl (reportStep_eq hup hfd hbusy ?_)
  rw [hst]
  exact hgood

theorem ran_cancelupdatecomponent (hbusy : s.chip.flag Fld.MGT_STATUS_BUSY = false) (h : s.chip.mgt.fd = .download) :
    Ran .cancelupdatecomponent s ((s.chip.setFd .ready).emit (.response [0])) :=
  ran_smbusEngine hl (fun nv c => match c.mgt.fd with
    | .idle => (nv, c, [Cc.notInUpdateMode])
    | .download | .verify | .apply => (nv, c.setFd .ready, [Cc.success])
    | _ => (nv, c, [Cc.invalidState])) hup hbusy rfl (by simp only [h, Cc.success])

end

/-- Settles O56: each request is `smbusAnswer` of its own function, which is evaluated under the clause's premises; a
request for an update erases the set that does not run, the other one for RUN_SET is one bit. -/
theorem endpoint : Obligations.endpoint := by
  constructor
  · intro s hl c reply
    refine ⟨fun hdown => ?_, fun hup => ⟨fun eid => ran_setEndpointId hl hup eid, fun eid => ran_setEndpointId_refused hl hup eid,
      ran_smbusRead hl _ hup rfl rfl, ran_smbusRead hl _ hup rfl rfl, ran_smbusRead hl _ hup rfl rfl,
      ran_smbusRead hl _ hup rfl rfl, ran_smbusRead hl _ hup rfl rfl, ran_smbusRead hl _ hup rfl rfl,
      ran_smbusRead hl _ hup rfl rfl, fun h hpos hle => ⟨_, _, ran_getpdr hl hup hpos hle, fun hlt => if_neg hlt.ne,
        fun heq => if_pos heq⟩, fun h hgt => ran_getpdr_beyond hl hup hgt,
      fun id hid => ran_getsensorreading hl hup (Chip.numericSensor_temperature _ hid),
      ran_getsensorreading hl hup rfl, ran_smbusRead hl _ hup rfl rfl, ran_smbusRead hl _ hup rfl rfl,
      ran_smbusRead hl _ hup rfl rfl, ran_smbusRead hl _ hup rfl rfl, ran_smbusRead hl _ hup rfl rfl⟩⟩
    simp only [List.forall_mem_cons]
    exact ⟨ran_smbus_down hl _ hdown rfl, ran_smbus_down hl _ hdown rfl, ran_smbus_down hl _ hdown rfl,
      ran_smbus_down hl _ hdown rfl, ran_smbus_down hl _ hdown rfl, fun i hi => nomatch hi⟩
  · intro s hl hup hbusy c ok
    refine ⟨fun hs hfd => ?_, fun hs => ran_smbusEngine hl _ hup hbusy rfl (requestUpdate_open hs),
      ran_passcomponenttable_idle hl hup true,
      fun hfd => ⟨ran_passcomponenttable hl hup true hfd, ran_passcomponenttable hl hup false hfd⟩,
      fun hfd typ htyp => ran_updatecomponent hl hup htyp hfd,
      fun typ off piece hfd htyp hok => ran_requestfirmwaredata hl hup hbusy hfd htyp hok,
      fun hfd good => ran_both_of _ hl rfl (reportStep_eq (good := fun _ _ => good) hup hfd hbusy rfl),
      fun st hfd hst hok => ran_verifycomplete hl hup hbusy hfd hst (beq_iff_eq.2 hok),
      fun st hfd hst hbad => ran_verifycomplete hl hup hbusy hfd hst (beq_eq_false_iff_ne.2 hbad),
      fun hfd good => (?applied : Ran _ s _), fun st hst hfd hbad hsame => ?_,
      fun st hst hfd => ran_smbusEngine hl _ hup hbusy rfl (activateFirmware_selfContained hst hfd),
      ran_cancelupdatecomponent hl hup hbusy,
      fun st hst hfd => ranNv_smbusEngine hl _ hup hbusy rfl (cancelUpdate_open hst hfd)⟩
    case applied =>
      have hran := ran_both_of _ hl (rfl : exec (.applycomplete good) s = _)
        (reportStep_eq (b := .ready) (good := fun _ _ => good) hup hfd hbusy rfl)
      rwa [ite_self] at hran
    · exact ⟨_, _, ranNv_smbusEngine hl _ hup hbusy rfl (requestUpdate_begins hs hfd), rfl,
        Chip.mayBeginFw_of_update (by exact FdState.noConfusion), rfl, fun a ha => NonVol.flashByte_eraseSet _ ha,
        fun a ha => NonVol.flashByte_eraseSet_ne _ (ha ▸ Chip.runSet_ne_other _)⟩
    · obtain ⟨nv, d, hrun, hpref, hset, hidle, hnone⟩ := activateFirmware_good (nv := s.nv) hst hfd hbad hsame
      exact ⟨nv, d, ranNv_smbusEngine hl _ hup hbusy rfl hrun, hpref, hset, hidle, hnone⟩

end Sys2Proof.Machine

/-! ## Registers with rows of their own, and the plain store of every other register -/

namespace Sys2Proof.Machine

/-! ### A register without a rule of its own -/

section
variable {c : Chip} {nv : NonVol} {a i : Nat} {d : RegDesc} {v : Word}

theorem Chip.wakeFor_offDie (c : Chip) (h : onDie a = false) : c.wakeFor a = c := if_neg (by simp [h])

theorem Chip.wakeSteered_none (c : Chip) (k : Nat) (h : d.steer = .none) : c.wakeSteered d k = c :=
  if_neg fun hc => Steer.noConfusion (h.symm.trans hc.1)

theorem regStore_plain (hb : c.booted = true) (hmsix : inMsix a = false) (hpba : inPba a = false)
    (hdata : inMgtData a = false) (hreg : findReg a = some (d, 0, i)) (hpaged : d.paged = false) (hdie : onDie a = false)
    (habsent : c.regAbsent d i = false) (hsteer : d.steer = .none) (hown : c.ownWrite nv d 0 i 0 a v = none) :
    regStore 0 a v nv c = (nv, c.storeReg d 0 i 0 a v) := by
  have hsteered : c.steered d.steer 0 0 = some 0 := by simp only [hsteer, Chip.steered]
  unfold regStore
  rw [hmsix, hpba, hdata, hreg]
  simp only [hb, Chip.wakeFor_offDie c hdie, hpaged, habsent, hsteered, Chip.wakeSteered_none c 0 hsteer, hown]
  rfl

theorem ran_registerWrite_plain {s : State} {off : BitVec 26} {x : Nat} (hl : Live s) (hen : s.chip.fnEnabled 0 = true)
    (halign : off.toNat % 4 = 0) {c : Chip} (h : regStore 0 off.toNat (BitVec.ofNat 32 x) s.nv s.chip = (s.nv, c))
    (hx : x < 2 ^ 32) : Ran (.registerWrite 0 ⟨false, off⟩ 4 (BitVec.ofNat 64 x)) s c := by
  have hval : (BitVec.ofNat 64 x).toNat = x := by
    rw [BitVec.toNat_ofNat]
    exact Nat.mod_eq_of_lt (hx.trans (by decide))
  refine ran_registerWrite_bar0 hl ((regWrite_words _ s.nv hen (accessWords_four halign)).trans ?_)
  rw [List.foldl_cons, List.foldl_nil, ← h]
  change regStore 0 off.toNat (BitVec.ofNat 32 ((BitVec.ofNat 64 x).toNat / 2 ^ (8 * (off.toNat - off.toNat)))) _ _ = _
  rw [hval, Nat.sub_self, Nat.mul_zero, pow_zero, Nat.div_one]

end

/-! ### The rings -/

theorem Chip.exists?_of_absent {c : Chip} {p : Nat} (h : (c.part p).state = .absent) : c.exists? p = false := by
  rw [Chip.exists?, h]
  rfl

theorem Chip.exists?_of_ne_absent {c : Chip} {p : Nat} (h : (c.part p).state ≠ .absent) : c.exists? p = true := by
  simpa [Chip.exists?] using h

section
variable {i : Instr} {s : State} {p a : Nat} (f : Chip → Chip) (hup : HostUp s)
  (hi : exec i s = onHost (fun c => c.pageWrite p a f) s)
include hup hi

theorem ran_pageWrite_absent (h : (s.chip.part p).state = .absent) : Ran i s (s.chip.regError a) := by
  refine ran_host _ hup hi ?_
  exact if_neg (by simp [Chip.exists?_of_absent h])

theorem ran_pageWrite {d : Chip} (h : (s.chip.part p).state ≠ .absent) (hf : f s.chip = d) : Ran i s d := by
  refine ran_host _ hup hi ?_
  exact (if_pos (Chip.exists?_of_ne_absent h)).trans hf

end

section
variable {c : Chip} {p : Nat} {v : Word}

/-- A store in another register of the same page. -/
theorem Chip.fld_setFld_page (c : Chip) (f g : Fld) (o v : Nat) (h : f.base ≠ g.base) :
    (c.setFld g o v).fld f o = c.fld f o :=
  Chip.fld_setFld_ne c f g o o v fun heq => h (Nat.add_right_cancel heq)

theorem Chip.evBase_setFld (c : Chip) (g : Fld) (p v : Nat) (hlo : Reg.EVRING_BASE_LO ≠ g.base)
    (hhi : Reg.EVRING_BASE_HI ≠ g.base) : (c.setFld g (pg p) v).evBase p = c.evBase p := by
  rw [Chip.evBase, Chip.fld_setFld_page c Fld.EVRING_BASE_LO_BASE_LO g _ v hlo,
    Chip.fld_setFld_page c Fld.EVRING_BASE_HI_BASE_HI g _ v hhi]
  rfl

theorem Chip.ringBase_kring (c : Chip) {p : Nat} : c.ringBase (p * 64) =
    4096 * c.fld Fld.KRING_BASE_LO_BASE_LO (pg p) + 2 ^ 32 * c.fld Fld.KRING_BASE_HI_BASE_HI (pg p) := by
  have hindex : indexOf (p * 64) = 0 := Nat.mul_mod_left p 64
  have hpart : partOf (p * 64) = p := Nat.mul_div_cancel p (by decide)
  rw [Chip.ringBase, if_pos hindex, hpart]

theorem Chip.ringBase_setFld (c : Chip) (g : Fld) (p v : Nat) (hlo : Reg.KRING_BASE_LO ≠ g.base)
    (hhi : Reg.KRING_BASE_HI ≠ g.base) : (c.setFld g (pg p) v).ringBase (p * 64) = c.ringBase (p * 64) := by
  rw [Chip.ringBase_kring, Chip.ringBase_kring, Chip.fld_setFld_page c Fld.KRING_BASE_LO_BASE_LO g _ v hlo,
    Chip.fld_setFld_page c Fld.KRING_BASE_HI_BASE_HI g _ v hhi]

/-! EVRING_CTL -/

/-- EVRING_CTL with its VECTOR and its LOG2 taken. -/
def Chip.evringSized (c : Chip) (p : Nat) (v : Word) : Chip :=
  (c.setFld Fld.EVRING_CTL_VECTOR (pg p) (wbits v 21 16)).setFld Fld.EVRING_CTL_LOG2 (pg p) (wbits v 12 8)

theorem Chip.evBase_evringSized : (c.evringSized p v).evBase p = c.evBase p :=
  (Chip.evBase_setFld _ _ p _ (by decide) (by decide)).trans (Chip.evBase_setFld _ _ p _ (by decide) (by decide))

theorem Chip.evringCtl_enable (hoff : c.flag Fld.EVRING_CTL_EV_ENABLE (pg p) = false) (hon : wbit v 0 = true) :
    c.evringCtl p v = if !c.ringOk p (c.evBase p) (wbits v 12 8) 16 then (c.evringSized p v).regError (Reg.EVRING_CTL + pg p)
      else (((c.evringSized p v).setFld Fld.EVRING_CTL_EV_ENABLE (pg p) 1).setRg (Reg.EVRING_HEAD + pg p) 0).setRg
        (Reg.EVRING_TAIL + pg p) 0 := by
  have hbase := c.evBase_evringSized (p := p) (v := v)
  unfold Chip.evringCtl
  rw [hoff, hon, ← hbase]
  rfl

theorem Chip.evringCtl_disable (hwas : c.flag Fld.EVRING_CTL_EV_ENABLE (pg p) = true) (hoff : wbit v 0 = false) :
    c.evringCtl p v = ((c.setFld Fld.EVRING_CTL_VECTOR (pg p) (wbits v 21 16)).regError (Reg.EVRING_CTL + pg p)).setFld
      Fld.EVRING_CTL_EV_ENABLE (pg p) 0 := by
  unfold Chip.evringCtl
  rw [hwas, hoff]
  rfl

theorem Chip.evringCtl_enabled (hoff : c.flag Fld.EVRING_CTL_EV_ENABLE (pg p) = false) (hon : wbit v 0 = true)
    (hfits : c.ringOk p (c.evBase p) (wbits v 12 8) 16 = true) :
    (c.evringCtl p v).flag Fld.EVRING_CTL_EV_ENABLE (pg p) = true ∧
      (c.evringCtl p v).fld Fld.EVRING_CTL_LOG2 (pg p) = wbits v 12 8 ∧
      (c.evringCtl p v).rg (Reg.EVRING_HEAD + pg p) = 0 ∧ (c.evringCtl p v).rg (Reg.EVRING_TAIL + pg p) = 0 := by
  rw [Chip.evringCtl_enable hoff hon, if_neg (by simp [hfits])]
  have hctl : ∀ r, Reg.EVRING_CTL ≠ r → Reg.EVRING_CTL + pg p ≠ r + pg p := fun r h heq => h (Nat.add_right_cancel heq)
  refine ⟨?_, ?_, ?_, Chip.rg_setRg_self _ _ _⟩
  · unfold Chip.flag
    rw [Chip.fld_setRg_ne _ _ _ (hctl _ (by decide)), Chip.fld_setRg_ne _ _ _ (hctl _ (by decide)),
      Chip.fld_setFld_self _ _ _ _ (by decide) (by decide)]
    rfl
  · rw [Chip.fld_setRg_ne _ _ _ (hctl _ (by decide)), Chip.fld_setRg_ne _ _ _ (hctl _ (by decide)),
      Chip.fld_setFld_apart _ _ _ _ (by rfl) (by decide) (by decide) (by decide), Chip.evringSized,
      Chip.fld_setFld_self _ _ _ _ (by decide) (by decide)]
    exact Nat.mod_eq_of_lt (wbits_lt v 12 8)
  · rw [Chip.rg_setRg_ne _ (fun h : Reg.EVRING_HEAD + pg p = Reg.EVRING_TAIL + pg p => absurd (Nat.add_right_cancel h) (by decide)), Chip.rg_setRg_self]

/-! KRING_CTL -/

/-- KRING_CTL with its VECTOR, its IRQ_EN and its LOG2 taken. -/
def Chip.kringSized (c : Chip) (p : Nat) (v : Word) : Chip :=
  ((c.setFld Fld.KRING_CTL_VECTOR (pg p) (wbits v 21 16)).setFld Fld.KRING_CTL_IRQ_EN (pg p) (wbits v 24 24)).setFld
    Fld.KRING_CTL_LOG2 (pg p) (wbits v 12 8)

theorem Chip.ringBase_kringSized : (c.kringSized p v).ringBase (p * 64) = c.ringBase (p * 64) :=
  (Chip.ringBase_setFld _ _ p _ (by decide) (by decide)).trans
    ((Chip.ringBase_setFld _ _ p _ (by decide) (by decide)).trans (Chip.ringBase_setFld _ _ p _ (by decide) (by decide)))

theorem Chip.kringCtl_stays (hwas : c.flag Fld.KRING_CTL_ENABLE (pg p) = false) (hoff : wbit v 0 = false) :
    c.kringCtl p v = c.kringSized p v := by
  unfold Chip.kringCtl
  rw [hwas, hoff]
  rfl

theorem Chip.kringCtl_enable (hwas : c.flag Fld.KRING_CTL_ENABLE (pg p) = false) (hon : wbit v 0 = true)
    (hfits : c.ringOk p (c.ringBase (p * 64)) (wbits v 12 8) 96 = true) (hstop : (c.queue (p * 64)).stopping = false) :
    c.kringCtl p v = ((c.kringSized p v).setFld Fld.KRING_CTL_ENABLE (pg p) 1).startKring p := by
  have hbase := c.ringBase_kringSized (p := p) (v := v)
  have hfits' : (c.kringSized p v).ringOk p ((c.kringSized p v).ringBase (p * 64)) (wbits v 12 8) 96 = true := by
    rw [hbase]
    exact hfits
  unfold Chip.kringCtl
  rw [hwas, hon]
  exact (if_neg Bool.false_ne_true).trans ((if_neg (by simp)).trans ((if_neg (fun h => Bool.false_ne_true
    ((congrArg not hfits').symm.trans h))).trans (if_neg (ne_true_of_eq_false hstop))))

/-! EVRING_HEAD -/

theorem Chip.evringHead_moves (hon : c.flag Fld.EVRING_CTL_EV_ENABLE (pg p) = true)
    (hle : (v - c.rg (Reg.EVRING_HEAD + pg p)).toNat
      ≤ (c.rg (Reg.EVRING_TAIL + pg p) - c.rg (Reg.EVRING_HEAD + pg p)).toNat) :
    c.evringHead p v = c.setRg (Reg.EVRING_HEAD + pg p) v :=
  if_neg (not_or.2 ⟨by simp [hon], Nat.not_lt.2 hle⟩)

theorem Chip.evringHead_refused (hgt : (c.rg (Reg.EVRING_TAIL + pg p) - c.rg (Reg.EVRING_HEAD + pg p)).toNat
      < (v - c.rg (Reg.EVRING_HEAD + pg p)).toNat) :
    c.evringHead p v = c.regError (Reg.EVRING_HEAD + pg p) := if_pos (.inr hgt)

/-! EVT_CFG -/

theorem Chip.evtCfg_takes {n : Nat} (h : c.eventAwaited n = false) :
    c.evtCfg n v = c.setRg (Reg.EVT_CFG + 4 * n) (evtWord (c.rg (Reg.EVT_CFG + 4 * n)) v) := if_neg (by simp [h])

theorem Chip.evtCfg_awaited {n : Nat} (h : c.eventAwaited n = true)
    (hne : evtWord (c.rg (Reg.EVT_CFG + 4 * n)) v ≠ c.rg (Reg.EVT_CFG + 4 * n)) :
    c.evtCfg n v = c.regError (Reg.EVT_CFG + 4 * n) := if_pos ⟨h, hne⟩

theorem wbits_evtWord_low (old v : Word) : wbits (evtWord old v) 4 0 = wbits v 4 0 := by
  rw [evtWord, wbits_wset_apart _ _ (by decide) (by decide) (by decide), wbits_wset _ _ _ _ (by decide) (by decide)]
  exact Nat.mod_eq_of_lt (wbits_lt v 4 0)

theorem wbits_evtWord_source (old v : Word) :
    wbits (evtWord old v) 10 8 = if 6 ≤ wbits v 10 8 then 0 else wbits v 10 8 := by
  rw [evtWord, wbits_wset _ _ _ _ (by decide) (by decide)]
  have hlt : wbits v 10 8 < 8 := wbits_lt v 10 8
  refine Nat.mod_eq_of_lt (?_ : _ < 8)
  split <;> omega

theorem wbits_evtWord_state (old v : Word) : wbits (evtWord old v) 5 5 = wbits old 5 5 := by
  rw [evtWord, wbits_wset_apart _ _ (by decide) (by decide) (by decide),
    wbits_wset_apart _ _ (by decide) (by decide) (by decide)]

end

/-- Settles O59: the plain store through `regStore`, the rings by whether they are enabled and fit, EVT_CFG by the two
fields that its word takes. -/
theorem registers : Obligations.registers := by
  refine ⟨fun s off hl hen => ?_, fun s p v hup => ⟨fun habsent => ?_, fun hex => ?_, fun n => ?_⟩⟩
  · intro a d i v hb halign hmsix hpba hdata hreg hpaged hdie habsent hsteer hown hv
    exact ran_registerWrite_plain hl hen halign
      (regStore_plain hb hmsix hpba hdata hreg hpaged hdie habsent hsteer hown) hv
  · exact ⟨ran_pageWrite_absent _ hup rfl habsent, ran_pageWrite_absent _ hup rfl habsent,
      ran_pageWrite_absent _ hup rfl habsent⟩
  · intro e k
    refine ⟨fun hwas hon => ⟨fun hfits => ⟨_, ran_pageWrite (fun c => c.evringCtl p.toNat v) hup rfl hex rfl,
        Chip.evringCtl_enabled hwas hon hfits⟩, fun hno => ran_pageWrite _ hup rfl hex
          ((Chip.evringCtl_enable hwas hon).trans (if_pos (by simp [hno])))⟩,
      fun hwas hoff => ran_pageWrite _ hup rfl hex (Chip.evringCtl_disable hwas hoff),
      fun hwas hoff => ran_pageWrite _ hup rfl hex (Chip.kringCtl_stays hwas hoff),
      fun hwas hon hfits hstop => ran_pageWrite _ hup rfl hex (Chip.kringCtl_enable hwas hon hfits hstop),
      fun hon => ⟨fun hle => ran_pageWrite _ hup rfl hex (Chip.evringHead_moves hon hle),
        fun hgt => ran_pageWrite _ hup rfl hex (Chip.evringHead_refused hgt)⟩⟩
  · refine ⟨fun hfree => ⟨_, ran_host (fun c => c.evtCfg n.toNat v) hup rfl (Chip.evtCfg_takes hfree), ?_⟩,
      fun hwait hne => ran_host (fun c => c.evtCfg n.toNat v) hup rfl (Chip.evtCfg_awaited hwait hne)⟩
    have hstate : ∀ w : Word, ((s.chip.setRg (Reg.EVT_CFG + 4 * n.toNat) w).fld Fld.EVT_CFG_STATE (4 * n.toNat)) = wbits w 5 5 := fun w => by
      rw [Chip.fld]
      exact congrArg (wbits · 5 5) (Chip.rg_setRg_self _ _ _)
    rw [Chip.rg_setRg_self, hstate]
    exact ⟨wbits_evtWord_low _ _, fun hlt => (wbits_evtWord_source _ _).trans (if_neg (Nat.not_le.2 hlt)),
      fun hge => (wbits_evtWord_source _ _).trans (if_pos hge), wbits_evtWord_state _ _⟩

end Sys2Proof.Machine

/-! ## What a read answers -/

namespace Sys2Proof.Machine

/-! ### What a read leaves of memory and of the queues -/

/-- The bytes of memory and the queues are those of the first chip. -/
def Chip.SameStore (c d : Chip) : Prop := d.mem = c.mem ∧ d.queues = c.queues

namespace Chip.SameStore

theorem refl (c : Chip) : c.SameStore c := ⟨rfl, rfl⟩

theorem trans {c d e : Chip} (h : c.SameStore d) (h' : d.SameStore e) : c.SameStore e :=
  ⟨h'.1.trans h.1, h'.2.trans h.2⟩

theorem setRg (c : Chip) (a : Nat) (v : Word) : c.SameStore (c.setRg a v) := ⟨rfl, rfl⟩

theorem regError (c : Chip) (a : Nat) : c.SameStore (c.regError a) := ⟨rfl, rfl⟩

theorem latchFor (c : Chip) (base p : Nat) : c.SameStore (c.latchFor base p) := by
  unfold Chip.latchFor
  dsimp only
  split
  · exact ⟨rfl, rfl⟩
  · split <;> exact ⟨rfl, rfl⟩

theorem wakeDevice (c : Chip) : c.SameStore c.wakeDevice := by
  unfold Chip.wakeDevice
  split <;> exact ⟨rfl, rfl⟩

theorem wakeFor (c : Chip) (a : Nat) : c.SameStore (c.wakeFor a) := by
  unfold Chip.wakeFor
  split
  · exact wakeDevice c
  · exact refl c

theorem groupWake (c : Chip) (g : Nat) : c.SameStore (c.groupWake g) := by
  unfold Chip.groupWake
  split
  · exact ⟨rfl, rfl⟩
  · split <;> exact ⟨rfl, rfl⟩

theorem wakeSteered (c : Chip) (d : RegDesc) (k : Nat) : c.SameStore (c.wakeSteered d k) := by
  unfold Chip.wakeSteered Chip.wakeCluster
  split
  · split
    · exact groupWake c _
    · exact refl c
  · exact refl c

end Chip.SameStore

/-! ### One word of BAR0 -/

section
variable {c : Chip} {fn a : Nat}

theorem Chip.regLoad_early (hb : c.booted = false) (hearly : earlyWindow a = false) : c.regLoad fn a = (c, 0) :=
  if_pos (by simp [hb, hearly])

theorem Chip.regLoad_open (h : c.booted = true ∨ earlyWindow a = true) : c.regLoad fn a =
    if inMsix a then (c, c.msixRead fn (a % 0x80000))
    else if inPba a then (c, c.pbaRead fn (a % 0x80000))
    else if inMgtData a then (c, c.rg a)
    else match findReg a with
      | none => (c, 0)
      | some (d, p, i) =>
        if (d.paged ∧ !(c.wakeFor a).exists? p) ∨ (c.wakeFor a).regAbsent d i then (c.wakeFor a, 0)
        else match (c.wakeFor a).steered d.steer fn p with
          | none => (c.wakeFor a, 0)
          | some k => (((((c.wakeFor a).wakeSteered d k).setRg (a + steer k)
              (clearRc d.fields (((c.wakeFor a).wakeSteered d k).rg (a + steer k)))).latchFor d.base p,
            readWord d.fields (match ((c.wakeFor a).wakeSteered d k).derived d.base p i k with
              | some n => BitVec.ofNat 32 n
              | none => ((c.wakeFor a).wakeSteered d k).rg (a + steer k)))) :=
  if_neg (by rcases h with h | h <;> simp [h])

theorem Chip.regLoad_register (hb : c.booted = true) (hmsix : inMsix a = false) (hpba : inPba a = false)
    (hdata : inMgtData a = false) {d : RegDesc} {p i : Nat} (hreg : findReg a = some (d, p, i)) : c.regLoad fn a =
      if (d.paged ∧ !(c.wakeFor a).exists? p) ∨ (c.wakeFor a).regAbsent d i then (c.wakeFor a, 0)
      else match (c.wakeFor a).steered d.steer fn p with
        | none => (c.wakeFor a, 0)
        | some k => (((((c.wakeFor a).wakeSteered d k).setRg (a + steer k)
            (clearRc d.fields (((c.wakeFor a).wakeSteered d k).rg (a + steer k)))).latchFor d.base p,
          readWord d.fields (match ((c.wakeFor a).wakeSteered d k).derived d.base p i k with
            | some n => BitVec.ofNat 32 n
            | none => ((c.wakeFor a).wakeSteered d k).rg (a + steer k)))) := by
  rw [Chip.regLoad_open (.inl hb), hmsix, hpba, hdata, hreg]
  rfl

theorem Chip.sameStore_regLoad (c : Chip) (fn a : Nat) : c.SameStore (c.regLoad fn a).1 := by
  by_cases hopen : c.booted = true ∨ earlyWindow a = true
  · rw [Chip.regLoad_open hopen]
    split; · exact .refl c
    split; · exact .refl c
    split; · exact .refl c
    split
    · exact .refl c
    · split
      · exact .wakeFor c a
      · split
        · exact .wakeFor c a
        · exact (Chip.SameStore.wakeFor c a).trans ((Chip.SameStore.wakeSteered _ _ _).trans
            ((Chip.SameStore.setRg _ _ _).trans (.latchFor _ _ _)))
  · simp only [not_or, Bool.not_eq_true] at hopen
    rw [Chip.regLoad_early hopen.1 hopen.2]
    exact .refl c

end

section
variable {c : Chip} {fn a p i : Nat} {d : RegDesc} (hb : c.booted = true) (hmsix : inMsix a = false)
  (hpba : inPba a = false) (hdata : inMgtData a = false) (hreg : findReg a = some (d, p, i))
include hb hmsix hpba hdata hreg

theorem Chip.regLoad_lacking (h : (d.paged = true ∧ (c.wakeFor a).exists? p = false) ∨ (c.wakeFor a).regAbsent d i = true ∨
    (c.wakeFor a).steered d.steer fn p = none) : c.regLoad fn a = (c.wakeFor a, 0) := by
  rw [Chip.regLoad_register hb hmsix hpba hdata hreg]
  split
  · rfl
  · rename_i hhas
    rcases h with h | h | h
    · exact absurd (.inl (by simpa using h)) hhas
    · exact absurd (.inr h) hhas
    · rw [h]

/-- A register that the part has, at its copy `k`: the value derived from other state, or else the stored word. -/
theorem Chip.regLoad_present {k : Nat} {w : Word} (hex : d.paged = true → (c.wakeFor a).exists? p = true)
    (habsent : (c.wakeFor a).regAbsent d i = false) (hk : (c.wakeFor a).steered d.steer fn p = some k)
    (hw : (match ((c.wakeFor a).wakeSteered d k).derived d.base p i k with
      | some n => BitVec.ofNat 32 n
      | none => ((c.wakeFor a).wakeSteered d k).rg (a + steer k)) = w) :
    c.regLoad fn a = ((((c.wakeFor a).wakeSteered d k).setRg (a + steer k)
      (clearRc d.fields (((c.wakeFor a).wakeSteered d k).rg (a + steer k)))).latchFor d.base p, readWord d.fields w) := by
  have hhas : ¬ ((d.paged = true ∧ (!(c.wakeFor a).exists? p) = true) ∨ (c.wakeFor a).regAbsent d i = true) := by
    rintro (⟨hpaged, hnot⟩ | h)
    · simp [hex hpaged] at hnot
    · exact absurd h (by simp [habsent])
  rw [Chip.regLoad_register hb hmsix hpba hdata hreg, if_neg hhas, hk, ← hw]

end

/-! ### The words of an access -/

section
variable {fn : Nat}

theorem readWordAt_some {o a : Nat} (x : Chip × List Byte) (h : physOffset fn o = some a) :
    readWordAt fn x o = ((x.1.regLoad fn a).1, x.2 ++ leBytes 4 (x.1.regLoad fn a).2.toNat) := by
  simp only [readWordAt, h]

theorem sameStore_readWordAt (x : Chip × List Byte) (o : Nat) : x.1.SameStore (readWordAt fn x o).1 := by
  unfold readWordAt
  split
  · exact Chip.sameStore_regLoad _ _ _
  · exact .refl _

theorem length_readWordAt (x : Chip × List Byte) (o : Nat) : (readWordAt fn x o).2.length = x.2.length + 4 := by
  unfold readWordAt
  split <;> simp only [List.length_append, leBytes_length]

theorem sameStore_foldl_readWordAt (ws : List Nat) (x : Chip × List Byte) :
    x.1.SameStore (ws.foldl (readWordAt fn) x).1 :=
  foldl_keeps (P := fun y => x.1.SameStore y.1) (fun y o h => h.trans (sameStore_readWordAt y o)) ws x (.refl _)

theorem length_foldl_readWordAt : ∀ (ws : List Nat) (x : Chip × List Byte),
    (ws.foldl (readWordAt fn) x).2.length = x.2.length + 4 * ws.length
  | [], _ => rfl
  | o :: ws, x => by
    rw [List.foldl_cons, length_foldl_readWordAt ws, length_readWordAt, List.length_cons]
    omega

theorem length_accessWords {off size : Nat} {ws : List Nat} (h : accessWords off size = some ws) :
    4 * ws.length = size := by
  unfold accessWords at h
  split at h
  case isTrue h4 => obtain rfl := Option.some.inj h; exact h4.1.symm
  case isFalse =>
    split at h
    case isTrue h8 => obtain rfl := Option.some.inj h; exact h8.1.symm
    case isFalse => exact nomatch h

/-- A read through BAR0 of a function that the host can reach answers as many bytes as it asks for. -/
theorem Chip.regRead_answers {c : Chip} (off size : Nat) (hen : c.fnEnabled fn = true) :
    ∃ d bs, c.regRead fn off size = d.emit (.hostData bs) ∧ bs.length = size ∧ c.SameStore d := by
  cases hw : accessWords off size with
  | none => exact ⟨_, _, Chip.regRead_noWords hen hw, List.length_replicate, .regError c _⟩
  | some ws =>
    refine ⟨_, _, Chip.regRead_words hen hw, ?_, sameStore_foldl_readWordAt ws (c, [])⟩
    rw [length_foldl_readWordAt ws (c, []), length_accessWords hw]
    exact Nat.zero_add size

end

/-! ### Doorbell pages -/

section
variable {c : Chip} {fn off : Nat}

theorem Chip.bar2Read_eq (size : Nat) (hen : c.fnEnabled fn = true) : c.bar2Read fn off size =
    c.emit (.hostData (leBytes size (if c.booted && size == 4 && decide (off < 2 ^ 18) then c.bar2Word fn off else 0))) :=
  if_neg (by simp [hen])

theorem Chip.bar2Word_state (h : off % 4096 = 8) : c.bar2Word fn off =
    (c.queue (fn * 64 + off / 4096)).state.code + 2 ^ 16 * (c.queue (fn * 64 + off / 4096)).haltStatus.toNat := by
  simp only [Chip.bar2Word, h]

theorem Chip.bar2Word_head (h : off % 4096 = 12) :
    c.bar2Word fn off = (c.queue (fn * 64 + off / 4096)).head.toNat := by
  simp only [Chip.bar2Word, h]

theorem Chip.bar2Word_other (h8 : off % 4096 ≠ 8) (h12 : off % 4096 ≠ 12) : c.bar2Word fn off = 0 := by
  unfold Chip.bar2Word
  dsimp only
  split
  · exact absurd ‹_› h8
  · exact absurd ‹_› h12
  · rfl

theorem Chip.bar2Write_discarded {size : Nat} (v : Word) (h : c.booted = false ∨ size ≠ 4) :
    c.bar2Write fn off size v = c :=
  if_pos (by rcases h with h | h <;> simp [h])

theorem Chip.bar2Write_other (size : Nat) (v : Word) (h0 : off % 4096 ≠ 0) (h4 : off % 4096 ≠ 4) :
    c.bar2Write fn off size v = c := by
  unfold Chip.bar2Write
  split
  · rfl
  · split
    · exact absurd ‹_› h0
    · exact absurd ‹_› h4
    · rfl

end

/-! ### The commands -/

section
variable {s : State} {fn : BitVec 4} {off : BitVec 26} (hl : Live s)
include hl

theorem ran_registerWrite_bar2 {size : BitVec 4} {v : Dword}
    (h : s.chip.bar2Write fn.toNat off.toNat size.toNat (v.truncate 32) = s.chip) :
    Ran (.registerWrite fn ⟨true, off⟩ size v) s s.chip := by
  refine ran_both_of (fun nv c => (nv, c.bar2Write fn.toNat off.toNat size.toNat (v.truncate 32))) hl rfl ?_
  rw [h]

theorem ran_counterReadClear_bar2 {size : BitVec 4} (hen : s.chip.fnEnabled fn.toNat = true) {n : Nat}
    (h : (if s.chip.booted && size.toNat == 4 && decide (off.toNat < 2 ^ 18) then s.chip.bar2Word fn.toNat off.toNat
      else 0) = n) :
    Ran (.counterReadClear fn ⟨true, off⟩ size) s (s.chip.emit (.hostData (leBytes size.toNat n))) :=
  h ▸ ran_chip (fun c => c.bar2Read fn.toNat off.toNat size.toNat) hl rfl (Chip.bar2Read_eq _ hen)

theorem ran_counterReadClear_word (hen : s.chip.fnEnabled fn.toNat = true) (halign : off.toNat % 4 = 0) {a : Nat}
    (ha : physOffset fn.toNat off.toNat = some a) {c : Chip} {w : Word} (h : s.chip.regLoad fn.toNat a = (c, w)) :
    Ran (.counterReadClear fn ⟨false, off⟩ 4) s (c.emit (.hostData (leBytes 4 w.toNat))) := by
  refine ran_counterReadClear_bar0 hl ((Chip.regRead_words hen (accessWords_four halign)).trans ?_)
  simp only [List.foldl_cons, List.foldl_nil, readWordAt_some _ ha, h, List.nil_append]

end

section
variable {s : State} {fn : BitVec 4} {off : BitVec 26} (hl : Live s) (hen : s.chip.fnEnabled fn.toNat = true)
include hl hen

theorem counterReadClear_answers (bar2 : Bool) (size : BitVec 4) : ∃ (c : Chip) (bs : List Byte),
    Ran (.counterReadClear fn ⟨bar2, off⟩ size) s (c.emit (.hostData bs)) ∧ bs.length = size.toNat ∧
      c.mem = s.chip.mem ∧ c.queues = s.chip.queues := by
  cases bar2 with
  | true => exact ⟨_, _, ran_counterReadClear_bar2 hl hen rfl, leBytes_length _ _, rfl, rfl⟩
  | false =>
    obtain ⟨d, bs, hread, hlen, hstore⟩ := Chip.regRead_answers off.toNat size.toNat hen
    exact ⟨d, bs, ran_counterReadClear_bar0 hl hread, hlen, hstore⟩

theorem ran_counterReadClear_pair {a b : Nat} (halign : off.toNat % 8 = 0) (ha : physOffset fn.toNat off.toNat = some a)
    (hb : physOffset fn.toNat (off.toNat + 4) = some b) :
    Ran (.counterReadClear fn ⟨false, off⟩ 8) s (((s.chip.regLoad fn.toNat a).1.regLoad fn.toNat b).1.emit
      (.hostData (leBytes 4 (s.chip.regLoad fn.toNat a).2.toNat
        ++ leBytes 4 ((s.chip.regLoad fn.toNat a).1.regLoad fn.toNat b).2.toNat))) := by
  refine ran_counterReadClear_bar0 hl ((Chip.regRead_words hen (accessWords_eight halign)).trans ?_)
  simp only [List.foldl_cons, List.foldl_nil, readWordAt_some _ ha, readWordAt_some _ hb, List.nil_append]

end

/-- Settles O60: a read of BAR0 by the words it takes and what stands at each, a read of a doorbell page by its offset. -/
theorem registerReads : Obligations.register_reads := by
  refine ⟨fun s fn bar2 off size hl hen => counterReadClear_answers hl hen bar2 size,
    fun s fn off a b hl hen halign ha hb => ran_counterReadClear_pair hl hen halign ha hb,
    fun s fn off a hl hen halign ha => ?word, fun s fn page off hl hen hpage => ?doorbell⟩
  case word =>
    intro c reads
    have load {d : Chip} {w : Word} (h : s.chip.regLoad fn.toNat a = (d, w)) : reads d w :=
      ran_counterReadClear_word hl hen halign ha h
    refine ⟨fun hb hearly => load (Chip.regLoad_early hb hearly), fun hb => ⟨fun hmsix => load ?_,
      fun hmsix hpba => load ?_, fun hmsix hpba hdata => load ?_, fun d p i hmsix hpba hdata hreg => ?_⟩⟩
    · rw [Chip.regLoad_open (.inl hb), if_pos hmsix]
    · rw [Chip.regLoad_open (.inl hb), hmsix, hpba]
      rfl
    · rw [Chip.regLoad_open (.inl hb), hmsix, hpba, hdata]
      rfl
    · refine ⟨fun hlacks => load (Chip.regLoad_lacking hb hmsix hpba hdata hreg hlacks), fun k hex habsent hk => ?_⟩
      intro x old after
      refine ⟨fun hnone => load (Chip.regLoad_present hb hmsix hpba hdata hreg hex habsent hk ?_),
        fun n hn => load (Chip.regLoad_present hb hmsix hpba hdata hreg hex habsent hk ?_)⟩
      · rw [show ((s.chip.wakeFor a).wakeSteered d k).derived d.base p i k = none from hnone]
      · rw [show ((s.chip.wakeFor a).wakeSteered d k).derived d.base p i k = some n from hn]
  case doorbell =>
    intro x reads
    have hlow : off.toNat < 2 ^ 18 := by have := page.isLt; omega
    have shows (hb : s.chip.booted = true) : reads 4 (s.chip.bar2Word fn.toNat off.toNat) :=
      ran_counterReadClear_bar2 hl hen (if_pos (by simpa [hb] using hlow))
    have zero {size : BitVec 4} (h : s.chip.booted = false ∨ size ≠ 4) : reads size 0 := by
      refine ran_counterReadClear_bar2 hl hen (if_neg ?_)
      rcases h with h | h
      · simp [h]
      · have : size.toNat ≠ 4 := fun heq => h (BitVec.eq_of_toNat_eq heq)
        simp [this]
    refine ⟨fun hb => ⟨fun h8 => ?_, fun h12 => ?_, fun h8 h12 => ⟨?_, fun h0 h4 v =>
      ran_registerWrite_bar2 hl (Chip.bar2Write_other _ _ h0 h4)⟩⟩, fun hb => ⟨zero (.inl hb), fun v =>
        ran_registerWrite_bar2 hl (Chip.bar2Write_discarded _ (.inl hb))⟩, fun size hsize => ⟨zero (.inr hsize), fun v =>
          ran_registerWrite_bar2 hl (Chip.bar2Write_discarded _ (.inr fun heq => hsize (BitVec.eq_of_toNat_eq heq)))⟩⟩
    · have h := shows hb
      rwa [Chip.bar2Word_state h8, hpage] at h
    · have h := shows hb
      rwa [Chip.bar2Word_head h12, hpage] at h
    · have h := shows hb
      rwa [Chip.bar2Word_other h8 h12] at h

end Sys2Proof.Machine
